-- ==== Sys2Proof/Word.lean ====
section
/-! DEFINITION. The word types of the model: bytes, byte strings and 64-bit register words (R5, 00_scope.md). -/

namespace Sys2Proof

/-- One byte. -/
abbrev Byte := BitVec 8

/-- A string of bytes, the first at the lowest address. -/
abbrev Bytes := List Byte

/-- One register word: every register is 64 bits wide (R5). -/
abbrev W64 := BitVec 64

/-- One word of a bead core (R122). -/
abbrev W32 := BitVec 32

end Sys2Proof
end

