-- ==== Sys2Proof/Syntax.lean ====
section
/-! DEFINITION. The commands the device takes: one constructor for each row of spec/opcode_table.json, with the
operands that the row's rule gives it.  A descriptor in flight is named by the number the device gave it at admission;
a mailbox command takes its operands from the mailbox; a bead instruction names the tile whose core executes it; an
`at_` operand is the TICK.TIME at which the occasion comes. -/

namespace Sys2Proof

/-- The kinds of host-link reset of R296. -/
inductive LinkReset where
  | hotReset | linkDown | d3Return
  deriving DecidableEq, Repr

/-- Which half of a 64-bit register an access names (R5). -/
inductive Half where
  | full | low | high
  deriving DecidableEq, Repr

/-- What the host sets in configuration space when it enumerates the device (R331, Table 10.12): the ATS, PRI and
PASID enables, the Outstanding Page Request Allocation, and the base of BAR0; and the link widths in lanes and the rates in GT/s that its
end of the link supports (R296). -/
structure HostCfg where
  ats : Bool
  pri : Bool
  pasid : Bool
  allocation : Nat
  bar0 : Nat
  widths : List Nat := []
  rates : List Nat := []
  deriving DecidableEq, Repr

/-- The range an invalidation names (R345). -/
structure InvRange where
  pasid : Nat
  whole : Bool
  va : Nat
  len : Nat
  deriving DecidableEq, Repr

/-- One ATS Translation Completion (R332 to R334): the page of `pasid` that holds `va`, of 2^`log2` bytes, lies at
`addr` with the rights given; neither right: not present. -/
structure TransCompletion where
  pasid : Nat
  va : Nat
  log2 : Nat
  addr : Nat
  read : Bool
  write : Bool
  untranslatedOnly : Bool
  deriving DecidableEq, Repr

/-- Page request group response codes (Table 10.5). -/
inductive PrgCode where
  | success | invalid | failure
  deriving DecidableEq, Repr

/-- What start-up finds at one stack (R233, R491, R492, R499): it is there and answers as Table 7.1 asks, the read and
write latencies it reports, the pseudo-channels (0 to 63) that failed training or the cell test beyond repair, the rows
(pseudo-channel, bank, row) it shows as hPPR-repaired, the entries of the repair list whose repair it reports as failed, the
banks (Mem.noSpare, within the stack) without a spare, and the rows that sPPR mended in the cell test. -/
structure StackBoot where
  ok : Bool
  readLats : List Nat
  writeLats : List Nat
  failed : List Nat
  hppr : List (Nat × Nat × Nat)
  repairFails : List Nat
  noSpare : List Nat
  mended : List (Nat × Nat × Nat)
  deriving DecidableEq, Repr

/-- What a cold restart meets (R486 to R497, R513): whether VDD_AON stayed within its limits while PWRGOOD was low;
REFCLK is there and on frequency; the watched rails are in range; the straps of the six sites; the entropy tests pass; the
flash content (none: no flash, or unreadable); the eight stacks; the resources that fail self-test (bead cores, routers,
engines, Casket slices, Tether lanes, sites); the units of the last row of Table 16.2 pass. -/
structure BootInput where
  aonKept : Bool
  refclk : Bool
  rails : Bool
  straps : List Nat
  entropy : Bool
  flash : Option Bytes
  hbm : List StackBoot
  cores : List Nat
  routers : List Nat
  engines : List Nat
  slices : List Nat
  lanes : List Nat
  sites : List Nat
  vital : Bool
  deriving DecidableEq, Repr

/-- How the flash took a staged image (R506): none, it reads back equal; some a, the step at flash address a failed. -/
structure FlashWrite where
  failAt : Option Nat
  deriving DecidableEq, Repr

/-- What a traffic generator met (R264): the beats it works before it comes to its end or to its stop, and the beats whose read came back
other than the stack holds them: (how many beats it had worked before, the 64 data and 8 metadata bytes returned). -/
structure TgResult where
  beats : Nat
  seen : List (Nat × Bytes)
  deriving DecidableEq, Repr

/-- What a writeback or a read of one setting meets (R242, R243, R247, R250): the setting as the stack has come to hold it, 16 beats of 64
data and 8 metadata bytes, or nothing where it holds what was stored; the codewords of buffered bytes that have been upset, by byte of
the line; and how many of the two copies of the line's tag and valid bits decode. -/
structure MemErrors where
  stack : List Bytes
  upsets : List (Nat × BitVec 12)
  copies : Nat
  deriving DecidableEq, Repr

/-- One hardware fault an engine meets in a piece (R40, R75): a tile fails its residue or parity check and its recomputation passes; the
recomputation fails too; a word of the engine buffer is corrected. -/
inductive SailFault where
  | recomputed | fails | corrected
  deriving DecidableEq, Repr

/-- What the Locket meets in an AES descriptor (R474, R481): nothing, a block on which its two round datapaths differ, or a key slot
whose parity fails at its use. -/
inductive AesFault where
  | none | datapath | keyParity
  deriving DecidableEq, Repr

/-- One hardware fault the routers meet in a frame (R184, R201): kind 1 to 4, the word that arrives at tile `tile` in slot `slot` on
input 1 N, 2 E, 3 S, 4 W fails its check; 5, the tile's slot-table entry is corrected; 6, it is uncorrectable; 7, its reduction
unit fails its residue or parity check. -/
structure MeshFault where
  slot : Nat
  tile : Nat
  kind : Nat
  deriving DecidableEq, Repr

/-- Which algorithms of Table 13.6 a requester offers (R433): extended asymmetric, base hash and measurement hash, DHE, AEAD,
key schedule. -/
structure SpdmOffer where
  asym : Bool
  hash : Bool
  dhe : Bool
  aead : Bool
  schedule : Bool
  deriving DecidableEq, Repr

/-- An IDE key-management message (R303, R433): 0 QUERY, 1 KEY_PROG, 2 K_SET_GO, 3 K_SET_STOP. -/
structure IdeKm where
  op : Nat
  key : Bytes
  deriving DecidableEq, Repr

/-- A die's answers in an attestation (R435): the sequence number written at 0x0D08; the algorithms are those of Table 13.6; the root
certificate, the leaf public key, the challenge transcript and its signature, the measurement record, the transcript
that signs it, and that signature. -/
structure AttestAnswer where
  seq : Nat
  algorithms : Bool
  root : Bytes
  key : Bytes
  challenge : Bytes
  challengeSig : Bytes
  record : Bytes
  measured : Bytes
  measuredSig : Bytes
  deriving DecidableEq, Repr

/-- The unit that has consumed uncorrectable data (R275, Table 8.2). -/
inductive Consumer where
  /-- Descriptor `f` read, at device memory address `addr`, data that the group's decoder reports as uncorrectable. -/
  | stack (f addr : Nat)
  /-- The host, or a remote read over Tether, read at device memory address `addr` data that the group's decoder reports as
  uncorrectable. -/
  | host (addr : Nat)
  | tether (addr : Nat)
  /-- Word `word` of the engine buffer of engine `n` is uncorrectable (R40). -/
  | engineBuffer (n word : Nat)
  /-- A word of tile `t` is uncorrectable at bead address `addr` (R156): memory 0 IMEM, 1 DMEM, 2 register file. -/
  | beadMemory (t memory addr : Nat)
  /-- The program of tile `t` took a poisoned mesh word from RX channel `chan` (R184). -/
  | meshWord (t chan : Nat)
  /-- The 12 cells of the byte at Casket address `addr` in the pending store of prefetch `f` (R229, R247). -/
  | pendingStore (f addr : Nat) (cells : BitVec 12)
  /-- A unit of partition `p` read the Casket line at `addr`, which is uncorrectable (R209); reader as in Table 6.5. -/
  | casket (p addr reader : Nat)
  deriving DecidableEq, Repr

/-- One poll of a rail over PMBus (R443): READ_VOUT in µV, READ_IOUT in mA, READ_TEMPERATURE_1 in °C. -/
structure RailReading where
  uv : Nat
  ma : Nat
  temp : Int
  deriving DecidableEq, Repr

/-- An egress gate (R472). -/
inductive Gate where
  | cxlMemRead | cxlCacheWrite | jtag
  | tether (p : Nat)
  | site (q : Nat)
  deriving DecidableEq, Repr

/-- One transfer at an egress gate (R472, R473): a read of storage slab `slab`, or a write with the partition tag `part`
and the source-kind bit; it is a completion record, event record or ring cell; its tag parity is good; and what a checker is
stuck at, if it is faulty. -/
structure Transfer where
  gate : Gate
  read : Bool
  slab : Nat
  part : Nat
  encrypted : Bool
  record : Bool
  parityOk : Bool
  stuckA : Option Bool
  stuckB : Option Bool
  deriving DecidableEq, Repr

/-- JTAG instructions (Table 13.9). -/
inductive JtagInstr where
  | idcode | bypass | sample | extest | other
  deriving DecidableEq, Repr

/-- IEEE 1687 instruments (R437, Table 13.9): temperature and voltage monitors read or written, the repair read, scan chains with
raw memory and the raw traffic generator, an instrument that would read a sealed place, a key slot, the seed or the DRBG
state, and any other. -/
inductive Instrument where
  | monitorRead | monitorWrite | repairRead | raw | secret | other
  deriving DecidableEq, Repr

/-- One access through the TAP (R437, R523). -/
inductive TapAccess where
  /-- TRST_N low, or five TCK cycles with TMS high. -/
  | reset
  | jtag (i : JtagInstr)
  | instrument (i : Instrument)
  deriving DecidableEq, Repr

/-- A codeword that has arrived on one lane of a port: the lane, and the 2,720 levels received, the first in the two lowest bits
(R352, R353). -/
structure LaneWord where
  lane : Nat
  levels : Nat
  deriving DecidableEq, Repr

/-- What the PRBS31 checker of one lane found in a loopback (R366): lock, and bit errors. -/
structure LoopResult where
  lock : Bool
  errors : Nat
  deriving DecidableEq, Repr

/-- The commands (spec/opcode_table.json). -/
inductive Instr where
  /-- `PWRGOOD_RISE` (R488). PWRGOOD rising starts a cold restart and runs the start-up steps of Table 16.1 up to the wait for release. -/
  | pwrgoodRise (b : BootInput)
  /-- `PWRGOOD_FALL` (R486). PWRGOOD falling stops every clock and output at once, and no step completes after it. -/
  | pwrgoodFall
  /-- `INTERNAL_COLD_RESTART` (R486). The device restarts itself after a life-cycle transition, a RECOVERY_COMMIT or a RECOVERY_REQUEST, holding domains off for 1 ms and then rerunning start-up from step 2. -/
  | internalColdRestart (b : BootInput)
  /-- `RELEASE` (R488). Once self-test, training and fill have ended, the device releases at a REFCLK edge: tick 0 begins, E is set and STARTUP_DONE is posted. -/
  | release (at_ : Nat)
  /-- `PERST_N_ASSERT` (R487). PERST_N low resets only the host port before release, and starts a warm reset after release. -/
  | perstNAssert
  /-- `HOST_LINK_RESET` (R296). A hot reset, a link-down event or a return from D3hot to D0 causes a warm reset. -/
  | hostLinkReset (kind : LinkReset)
  /-- `D3HOT_ENTRY` (R298). Entry to D3hot stops ring scanning and makes BAR0 reads return zero. -/
  | d3hotEntry
  /-- `TICK_BOUNDARY` (R13). At T_n the tick count advances and the Admit phase runs: ring tails are sampled, and descriptors are checked, translated and queued. -/
  | tickBoundary (edge : Nat)
  /-- `RUN_PHASE_START` (R19). At the start of the Run phase, queued descriptors whose wait clasp meets the threshold become eligible and slices start. -/
  | runPhaseStart (at_ : Nat)
  /-- `SETTLE_PHASE` (R21). At S_n the device resolves speculation, commits results, writes completion records, applies clasp signals, sends the fault batch and writes event records. -/
  | settlePhase (at_ : Nat) (parityOk : Bool)
  /-- `SLICE_END` (R27). A slice's last piece ends and the slice is classified by its end time for completion and overrun. -/
  | sliceEnd (f j at_ : Nat)
  /-- `OVERRUN_DEADLINE` (R28). A slice still running at T_{n+1} + A is stopped, its speculative effects are discarded, and it completes with status 0x05. -/
  | overrunDeadline (f at_ : Nat)
  /-- `PIECE_START` (R336). A waiting piece starts once all its pages are translated and pinned and its unit is free. -/
  | pieceStart (f j : Nat)
  /-- `SPEC_CONFIRM_TIMEOUT` (R97). A speculative ATTEND not confirmed by Settle n + 3 is discarded with status 0x0B. -/
  | specConfirmTimeout (f : Nat)
  /-- `PREFETCH_CONFIRM_TIMEOUT` (R229). A speculative prefetch not confirmed by Settle n + 3 frees its lines and completes with status 0x0B. -/
  | prefetchConfirmTimeout (f : Nat)
  /-- `SPEC_FAULT_TIMEOUT` (R344). A speculative descriptor still holding an unconfirmed fault at Settle a + 3 is discarded with status 0x0B. -/
  | specFaultTimeout (f : Nat)
  /-- `MESH_OFFER_DROP` (R199). Held out_mode 2 records with no frame to take them are dropped at T_{n+2}. -/
  | meshOfferDrop (p : Nat)
  /-- `COPY` (R221). The mover descriptor copies rows from a source to a destination. -/
  | copy (f : Nat)
  /-- `FILL` (R221). The mover descriptor writes a repeated 8 B pattern over a range. -/
  | fill (f : Nat)
  /-- `CRCGEN` (R221). The mover descriptor writes the checksums of a block range to their side tables. -/
  | crcgen (f : Nat)
  /-- `CRCVERIFY` (R221). The mover descriptor verifies a block range against its checksums and stops at the first mismatch. -/
  | crcverify (f : Nat)
  /-- `GEMM` (R65). The Sail descriptor computes a matrix product with chunked accumulation. -/
  | gemm (f : Nat) (e : List SailFault)
  /-- `ATTEND` (R102). The Sail descriptor computes decode attention over a slot's KV pages in G parts. -/
  | attend (f j : Nat) (e : List SailFault)
  /-- `SCAN` (R67). The Sail descriptor scores queries against table rows and keeps the best candidates. -/
  | scan (f : Nat) (e : List SailFault)
  /-- `REDUCE` (R71). The Sail descriptor folds 2 to 8 inputs by sum, max, min or LSE merge. -/
  | reduce (f : Nat) (e : List SailFault)
  /-- `SFU` (R73). The Sail descriptor applies a special function elementwise, with optional quantisation. -/
  | sfu (f : Nat) (e : List SailFault)
  /-- `SLOT_OPEN` (R83). The descriptor reads and checks a slot record and opens the slot with a new generation. -/
  | slotOpen (f : Nat)
  /-- `SLOT_CLOSE` (R84). The descriptor makes a slot closing, and closes it once earlier descriptors naming it complete. -/
  | slotClose (f : Nat)
  /-- `KV_WRITE` (R93). The descriptor quantises tokens privately and writes them as pencilled entries at its Settle. -/
  | kvWrite (f : Nat)
  /-- `KV_SETTLE` (R94). The descriptor accepts a pencilled positions into L and rolls back the rest. -/
  | kvSettle (f : Nat)
  /-- `LAUNCH` (R150). The descriptor stages images and starts a bead program on a set of beads. -/
  | launch (f : Nat)
  /-- `LAUNCH_START` (R150). Once staging is complete and every tile is idle, the tiles load their images and start together. -/
  | launchStart (f : Nat)
  /-- `LOAD` (R193). The Filigree descriptor stages, checks and loads a schedule image. -/
  | load (f : Nat)
  /-- `LOAD_START` (R193). After staging, once every schedule tile is idle, the tiles write their tables and IMEM. -/
  | loadStart (f : Nat)
  /-- `RUN` (R194). The Filigree descriptor runs the loaded schedule for b ticks. -/
  | run (f : Nat)
  /-- `RUN_START` (R194). Once staging is complete and every schedule tile is idle, the program tiles load and start. -/
  | runStart (f : Nat)
  /-- `FRAME_START` (R195). A schedule frame begins, and the routers apply their slot tables for S cycles. -/
  | frameStart (p : Nat) (e : List MeshFault)
  /-- `UNLOAD` (R197). The Filigree descriptor clears the partition's schedule. -/
  | unload (f : Nat)
  /-- `GCM_DECRYPT` (R427). The Locket descriptor decrypts chunks by AES-256-GCM and commits them in order after their tags verify. -/
  | gcmDecrypt (f : Nat) (e : AesFault)
  /-- `GCM_ENCRYPT` (R426). The Locket descriptor encrypts chunks by AES-256-GCM and writes ciphertext and tags. -/
  | gcmEncrypt (f : Nat) (e : AesFault)
  /-- `XTS_DECRYPT` (R426). The Locket descriptor decrypts data units by AES-256-XTS. -/
  | xtsDecrypt (f : Nat) (e : AesFault)
  /-- `XTS_ENCRYPT` (R426). The Locket descriptor encrypts data units by AES-256-XTS. -/
  | xtsEncrypt (f : Nat) (e : AesFault)
  /-- `HASH` (R426). The Locket descriptor writes a SHA3-256 or SHAKE256 digest per chunk. -/
  | hash (f : Nat)
  /-- `RELEASE_DESCRIPTOR` (R425). The Locket RELEASE descriptor copies data out of a bound sealed region to any permitted destination. -/
  | releaseDescriptor (f : Nat)
  /-- `SCATTER_ADD` (R257). The descriptor applies update records atomically to a target array in the memory-side adders. -/
  | scatterAdd (f : Nat)
  /-- `REPAIR` (R282). The maintenance descriptor repairs a stack row by sPPR or hPPR. -/
  | repair (f : Nat)
  /-- `REPAIR_DONE` (R282). The stack reports the repair result, and the granule is released unwritten. -/
  | repairDone (f : Nat) (good : Bool)
  /-- `MAP_OUT` (R288). The maintenance descriptor starts evacuation of a group to donor slabs. -/
  | mapOut (f : Nat)
  /-- `RWRITE` (R377). The remote descriptor writes a range to another device's memory in 1 KiB requests. -/
  | rwrite (f : Nat)
  /-- `RREAD` (R377). The remote descriptor reads a range of another device's memory. -/
  | rread (f : Nat)
  /-- `RADD` (R377). The remote descriptor adds elements into another device's memory. -/
  | radd (f : Nat)
  /-- `RSIGNAL` (R377). The remote descriptor signals a clasp of another device. -/
  | rsignal (f : Nat)
  /-- `NOP` (R323). The control descriptor completes with no effect. -/
  | nop (f : Nat)
  /-- `CLASP_SET` (R323). The control descriptor sets, adds to or clears the error flag of a clasp in Settle step 4. -/
  | claspSet (f : Nat)
  /-- `INVALIDATE` (R345). The control descriptor invalidates translations of its partition's PASID and waits for the drain. -/
  | invalidate (f : Nat)
  /-- `COLLECTIVE_HINT` (R461). The control descriptor declares or withdraws the remaining duration of a collective. -/
  | collectiveHint (f : Nat)
  /-- `HINT_EXPIRY` (R461). A collective hint's remaining duration reaches zero and the hint ends. -/
  | hintExpiry (p : Nat)
  /-- `LEVEL_SET` (R309). The mailbox command agrees the interface level and starts ring scanning. -/
  | levelSet
  /-- `CFG_REPORT_READ` (R309). The mailbox command returns bytes of the configuration report. -/
  | cfgReportRead
  /-- `PART_SET` (R310). The mailbox command replaces a partition's clasps, engines, tiles, limits, PASID and role. -/
  | partSet
  /-- `PART_ENABLE` (R311). The mailbox command enables or disables scanning of a partition's rings. -/
  | partEnable
  /-- `WARM_RESET` (R309). The mailbox command completes and requests a warm reset at the next tick boundary. -/
  | warmReset
  /-- `WARM_RESET_BEGIN` (R479). A warm reset stops admission, writes back buffers, zeroes its scope, reloads registers and retrains ports and sites. -/
  | warmResetBegin (at_ : Nat)
  /-- `WARM_RESET_RELEASE` (R479). After a warm reset the device is released again at a tick boundary. -/
  | warmResetRelease (at_ : Nat)
  /-- `XLAT_INVALIDATE` (R346). The mailbox command invalidates translations of any PASID. -/
  | xlatInvalidate
  /-- `PRI_RESTART` (R341). The mailbox command clears the PRI halt from the next Admit. -/
  | priRestart
  /-- `TETHER_FABRIC_SET` (R382). The mailbox command sets the own id, reference id and join enable. -/
  | tetherFabricSet
  /-- `TETHER_ROUTE_SET` (R389). The mailbox command sets route table entries, applied at the next tick boundary. -/
  | tetherRouteSet
  /-- `TETHER_PORT_DISABLE` (R389). TETHER_PORT_CTL action 0 disables a port. -/
  | tetherPortDisable
  /-- `TETHER_PORT_ENABLE` (R389). TETHER_PORT_CTL action 1 enables a port and starts bring-up. -/
  | tetherPortEnable
  /-- `TETHER_PORT_RETRAIN` (R389). TETHER_PORT_CTL action 2 retrains a port. -/
  | tetherPortRetrain
  /-- `TETHER_PORT_SET_FAR_LOOP` (R389). TETHER_PORT_CTL action 3 sets allow_far_loop. -/
  | tetherPortSetFarLoop
  /-- `TETHER_LOOPBACK` (R366). The mailbox command starts a loopback on chosen lanes of a port. -/
  | tetherLoopback
  /-- `LOOPBACK_END` (R366). The loopback duration expires and the lanes are retrained. -/
  | loopbackEnd (p : Nat) (r : List LoopResult)
  /-- `TETHER_LEAVE` (R384). The mailbox command returns every member link to state 2. -/
  | tetherLeave
  /-- `SITE_DISABLE` (R410). SITE_CTL action 0 disables a site. -/
  | siteDisable
  /-- `SITE_ENABLE` (R410). SITE_CTL action 1 enables a site and starts training. -/
  | siteEnable
  /-- `SITE_RETRAIN` (R394). SITE_CTL action 2 forces a full retrain of a linked site. -/
  | siteRetrain
  /-- `SITE_UNFENCE` (R402). SITE_CTL action 3 unfences a site and retrains it. -/
  | siteUnfence
  /-- `SITE_GRANT` (R407). The mailbox command sets a site's partition mask and sealed_ok. -/
  | siteGrant
  /-- `SITE_BEZEL_SET` (R407). The mailbox command sets one Bezel entry of a site. -/
  | siteBezelSet
  /-- `SITE_BEZEL_READ` (R410). The mailbox command returns a site's 16 Bezel entries. -/
  | siteBezelRead
  /-- `LOCKET_OWNER_LOAD` (R421). The mailbox command loads the owner key after checking its hash. -/
  | locketOwnerLoad
  /-- `LOCKET_IMPORT_NONCE` (R423). The mailbox command issues a new import nonce. -/
  | locketImportNonce
  /-- `LOCKET_KEY_IMPORT` (R423). The mailbox command checks a signed import blob and loads its key into a slot. -/
  | locketKeyImport
  /-- `LOCKET_KEY_ERASE` (R420). The mailbox command empties one key slot or all of them. -/
  | locketKeyErase
  /-- `LOCKET_KEM_PUBLIC` (R431). The mailbox command returns the ML-KEM encapsulation key. -/
  | locketKemPublic
  /-- `LOCKET_SEAL` (R417). The mailbox command binds a region to a partition and key slot. -/
  | locketSeal
  /-- `SEAL_TAKE_EFFECT` (R417). A seal takes effect at the first tick boundary at which no other partition's in-flight descriptor touches its slabs. -/
  | sealTakeEffect (r : Nat)
  /-- `LOCKET_UNSEAL` (R418). The mailbox command starts zeroing a region's slabs and then frees it. -/
  | locketUnseal
  /-- `UNSEAL_ZERO_DONE` (R418). A region's slabs have been zeroed and the region becomes free. -/
  | unsealZeroDone (r : Nat)
  /-- `LOCKET_ATTEST_SITE` (R435). The mailbox command makes the Locket attest a site's die. -/
  | locketAttestSite
  /-- `LC_FIELD` (R436). The mailbox command burns image_key_hash and moves the device from FIELD_BLANK to FIELD. -/
  | lcField
  /-- `LC_RETURN` (R438). The mailbox command verifies a return token, zeroises and zeroes memory, and burns RETURN. -/
  | lcReturn
  /-- `LC_SCRAP` (R436). The mailbox command moves the device to SCRAP. -/
  | lcScrap
  /-- `INSTRUMENT_LC_TRANSITION` (R436). An IEEE 1687 instrument moves the life cycle RAW to TEST, TEST to FIELD_BLANK, or to SCRAP. -/
  | instrumentLcTransition (goal : Nat) (token : Bytes)
  /-- `PWR_LIMIT_SET` (R466). The mailbox command sets the power limit, with clamping. -/
  | pwrLimitSet
  /-- `PWR_CAP_CLEAR` (R452). The mailbox command clears cap90 and the divergence count. -/
  | pwrCapClear
  /-- `PWR_HALF_SET` (R446). The mailbox command sets or lifts a P-state cap on one half. -/
  | pwrHalfSet
  /-- `PWR_IDLE_SET` (R464). The mailbox command selects partial idle modes, applied at the next tick boundary. -/
  | pwrIdleSet
  /-- `IDLE_WAKE` (R465). Work that needs a resting domain starts the exit of its idle mode. -/
  | idleWake (mode : Nat)
  /-- `IDLE_EXIT_DONE` (R465). An idle mode's exit ends, and the domains return with their epochs bumped. -/
  | idleExitDone (mode : Nat)
  /-- `THERM_COOLANT_SET` (R466). The mailbox command sets the coolant inlet temperature. -/
  | thermCoolantSet
  /-- `RECOVERY_BEGIN` (R505). The mailbox command starts staging a replacement image of a given length. -/
  | recoveryBegin
  /-- `RECOVERY_CHUNK` (R505). The mailbox command appends image bytes at the next offset. -/
  | recoveryChunk
  /-- `RECOVERY_COMMIT` (R506). The mailbox command checks the staged image, writes it to flash, verifies it and restarts. -/
  | recoveryCommit (flash : FlashWrite)
  /-- `RECOVERY_REQUEST` (R505). The mailbox command sets the recovery request and starts an internal cold restart. -/
  | recoveryRequest
  /-- `RECOVERY_STATUS` (R505). The mailbox command returns bytes received, length and staging state. -/
  | recoveryStatus
  /-- `MBOX_CMD_WRITE` (R306). A write to MBOX.CMD or MBOX.IN is stored, or dropped while the mailbox is busy. -/
  | mboxCmdWrite (k : Option Nat) (h : Half) (v : W64)
  /-- `RING_ENABLE` (R318). Setting a submission ring's enable starts it afresh at the next Admit. -/
  | ringEnable (r : Nat) (v : W64)
  /-- `RING_DISABLE` (R318). Clearing a submission ring's enable stops its scanning at the next Admit. -/
  | ringDisable (r : Nat)
  /-- `CRING_ENABLE` (R319). Setting a completion ring's enable starts it afresh, or returns a draining ring to running. -/
  | cringEnable (c : Nat) (v : W64)
  /-- `CRING_DISABLE` (R319). Clearing a completion ring's enable moves it to draining until no ring names it and no reservation remains. -/
  | cringDisable (c : Nat)
  /-- `CRING_DRAINED` (R319). A draining completion ring's last reservation is released and the ring reaches state 0. -/
  | cringDrained (c : Nat)
  /-- `EVT_RING_ENABLE` (R324). Setting EVT.CTL enable starts the event ring and releases queued events. -/
  | evtRingEnable (v : W64)
  /-- `EVT_RING_DISABLE` (R324). Clearing EVT.CTL enable stops event writes, and events wait in the queue. -/
  | evtRingDisable
  /-- `CASKET_OWN_WRITE` (R212). A write to CASKET.OWN requests new segment ownership, marked pending. -/
  | casketOwnWrite (sl : Nat) (h : Half) (v : W64)
  /-- `CASKET_OWN_APPLY` (R212). At a tick boundary with no old-owner descriptor touching it, a segment takes its new owner and is zeroed. -/
  | casketOwnApply (sl : Nat)
  /-- `KVR_WRITE` (R86). A write to SAIL.KVR_BASE or SAIL.KVR_LIMIT takes effect, or is dropped while the partition has an open slot. -/
  | kvrWrite (p : Nat) (limit : Bool) (h : Half) (v : W64)
  /-- `MEM_REG_WRITE` (R252). A write to MEM.REG sets a bucket's rate and depth from the next boundary. -/
  | memRegWrite (b : Nat) (h : Half) (v : W64)
  /-- `DONOR_WRITE` (R289). A write to MEMC.DONOR reserves donor slabs, dropped for donated slabs. -/
  | donorWrite (w : Nat) (h : Half) (v : W64)
  /-- `TG_START` (R263). Writing TG_CTL.start starts a traffic generator, or refuses it. -/
  | tgStart (c : Nat) (v : W64)
  /-- `TG_STOP` (R264). Writing TG_CTL.stop stops a traffic generator at the next beat. -/
  | tgStop (c : Nat)
  /-- `TG_DONE` (R264). A traffic generator finishes its passes and sets done. -/
  | tgDone (c : Nat) (r : TgResult)
  /-- `DBG_CLAIM_WRITE` (R532). A write to DBG.CLAIM claims, releases or resumes a tile for debug. -/
  | dbgClaimWrite (v : W64)
  /-- `HDM_DECODER_COMMIT` (R301). The host commits an HDM decoder, which takes effect and locks. -/
  | hdmDecoderCommit (d base size : Nat)
  /-- `REGISTER_WRITE` (R6). A write to any register without a row of its own acts per its access code. -/
  | registerWrite (off : Nat) (h : Half) (v : W64)
  /-- `BAR0_UNSUPPORTED_ACCESS` (R5). An access of unsupported size or alignment completes as an unsupported request with no effect. -/
  | bar0UnsupportedAccess (off bytes : Nat) (write : Bool)
  /-- `CXL_MEM_READ` (R303). A host CXL.mem read is checked and answered with data, zeros, all-ones or poison. -/
  | cxlMemRead (hpa : Nat) (e : MemErrors)
  /-- `CXL_MEM_WRITE` (R303). A host CXL.mem write is checked and accepted into the buffer, or dropped. -/
  | cxlMemWrite (hpa : Nat) (mask : W64) (data : Bytes)
  /-- `ATS_INVALIDATE_REQUEST` (R345). A host ATS Invalidate Request removes or dooms matching translations. -/
  | atsInvalidateRequest (itag : Nat) (r : InvRange)
  /-- `INVALIDATION_DRAINED` (R345). When no doomed entry remains and every access has been performed, the invalidation completes. -/
  | invalidationDrained (id : Nat)
  /-- `TRANSLATION_COMPLETION` (R334). An ATS Translation Completion arrives and is installed, discarded or found faulted. -/
  | translationCompletion (t : TransCompletion)
  /-- `PAGE_REQUEST_RESPONSE` (R338). A PRG response resolves its group's waiters: retranslate, fail or halt PRI. -/
  | pageRequestResponse (pasid group : Nat) (code : PrgCode)
  /-- `PAGE_REQUEST_TIMEOUT` (R339). A page request group unanswered after pri_timeout ticks ends its waiters with status 0x02, cause 3. -/
  | pageRequestTimeout (group : Nat)
  /-- `DOE_DISCOVERY` (R300). A DOE discovery request is answered. -/
  | doeDiscovery (index : Nat)
  /-- `CDAT_READ` (R300). A CDAT table access returns memory affinity entries. -/
  | cdatRead (entry : Nat)
  /-- `SPDM_GET_VERSION` (R433). The SPDM responder answers GET_VERSION. -/
  | spdmGetVersion
  /-- `SPDM_GET_CAPABILITIES` (R433). The SPDM responder answers GET_CAPABILITIES. -/
  | spdmGetCapabilities
  /-- `SPDM_NEGOTIATE_ALGORITHMS` (R433). The SPDM responder selects algorithms or returns ERROR. -/
  | spdmNegotiateAlgorithms (o : SpdmOffer)
  /-- `SPDM_GET_DIGESTS` (R433). The SPDM responder returns the certificate chain digest for slot 0. -/
  | spdmGetDigests
  /-- `SPDM_GET_CERTIFICATE` (R433). The SPDM responder returns the certificate chain for slot 0. -/
  | spdmGetCertificate (slot off len : Nat)
  /-- `SPDM_CHALLENGE` (R433). The SPDM responder signs a challenge with the device key. -/
  | spdmChallenge (slot : Nat) (nonce : Bytes)
  /-- `SPDM_GET_MEASUREMENTS` (R434). The SPDM responder returns signed measurement blocks. -/
  | spdmGetMeasurements (index : Nat) (nonce : Bytes)
  /-- `SPDM_KEY_EXCHANGE` (R433). The SPDM responder opens a session by ML-KEM exchange. -/
  | spdmKeyExchange (ek : Bytes)
  /-- `SPDM_FINISH` (R433). The SPDM responder completes session establishment. -/
  | spdmFinish (sid : Nat) (mac : Bytes)
  /-- `SPDM_END_SESSION` (R433). The SPDM responder ends a session. -/
  | spdmEndSession (sid : Nat)
  /-- `SPDM_KEY_UPDATE` (R433). The SPDM responder updates session keys. -/
  | spdmKeyUpdate (sid op : Nat)
  /-- `SPDM_HEARTBEAT` (R433). The SPDM responder answers a heartbeat. -/
  | spdmHeartbeat (sid : Nat)
  /-- `SPDM_VENDOR_DEFINED_REQUEST` (R433). The SPDM responder handles IDE key-management messages. -/
  | spdmVendorDefinedRequest (sid : Nat) (m : IdeKm)
  /-- `TETHER_FLIT` (R370). A received flit is checked, taken in sequence or nakked, and its acks and credits are applied. -/
  | tetherFlit (p : Nat) (words : List LaneWord)
  /-- `TETHER_REPLAY_TIMEOUT` (R370). The oldest unacknowledged flit goes 2 µs without ack progress and everything from it is resent. -/
  | tetherReplayTimeout (p : Nat)
  /-- `COMMA_BLOCK` (R357). A received comma core and trailer gains or keeps comma lock and deskews the lanes. -/
  | commaBlock (l ui levels : Nat)
  /-- `COMMA_LOCK_LOSS` (R357). Three intervals without a core lose comma lock and force a retrain. -/
  | commaLockLoss (l : Nat)
  /-- `TRAINING_FRAME` (R362). A training frame's control word requests tap changes, loopback or reports readiness. -/
  | trainingFrame (l levels height spacing : Nat)
  /-- `ADAPTATION_TIMEOUT` (R360). 40 ms after training began a receiver stops requesting and sets rx_ready. -/
  | adaptationTimeout (p : Nat)
  /-- `PORT_BRINGUP_TIMEOUT` (R363). An attempt not linked within 100 ms fails, and after three the port goes down. -/
  | portBringupTimeout (p : Nat)
  /-- `PORT_RETRY_TIMER` (R363). A down port makes a new bring-up attempt every 1,000 ms. -/
  | portRetryTimer (p : Nat)
  /-- `LANES_LOCKED` (R363). Comma, deskew and FEC lock on every lane in use lets the sides exchange HELLO. -/
  | lanesLocked (p : Nat)
  /-- `EQN_MEASUREMENT` (R359). Every 1 ms each lane's EQN is measured and judged for marginal or retirement. -/
  | eqnMeasurement (l height spacing : Nat)
  /-- `HELLO` (R365). A HELLO message is checked for width and level, and the port links. -/
  | hello (p : Nat)
  /-- `JOIN` (R382). A JOIN message is checked and the link becomes a member link or is refused. -/
  | join (p : Nat)
  /-- `ADOPT` (R383). An ADOPT message with a higher pair is adopted and forwarded, or refused when not quiet. -/
  | adopt (p : Nat)
  /-- `SYNC_REQ_SEND` (R386). At T_n + P/4 a member sends SYNC_REQ to its parent. -/
  | syncReqSend (phase : Nat)
  /-- `SYNC_REQ` (R386). A parent answers a received SYNC_REQ at once with SYNC_RSP. -/
  | syncReq (p t2tick t2phase turn : Nat)
  /-- `SYNC_RSP` (R386). A received SYNC_RSP gives the offset to the reference, and the trim is corrected. -/
  | syncRsp (p t4tick t4phase : Nat)
  /-- `VOTE` (R387). A received VOTE raises M_n and is forwarded, or is counted late. -/
  | vote (p : Nat)
  /-- `VOTE_DEADLINE` (R387). At T_{n+3} the agreed state for T_{n+4} is fixed, and missing votes are counted. -/
  | voteDeadline
  /-- `SLOW_NOTICE` (R388). A received SLOW_NOTICE is folded into M_m and forwarded once. -/
  | slowNotice (p : Nat)
  /-- `MESSAGE_FORWARD` (R373). A message for another device is forwarded cut-through, or dropped. -/
  | messageForward (p : Nat)
  /-- `TETHER_READ` (R381). A remote READ request is checked and answered with READ_DATA. -/
  | tetherRead (p : Nat)
  /-- `TETHER_WRITE` (R381). A remote WRITE request is checked, performed in the buffer and answered with DONE. -/
  | tetherWrite (p : Nat)
  /-- `TETHER_WRITE_PARTIAL` (R381). A remote WRITE_PARTIAL request writes masked bytes of one line. -/
  | tetherWritePartial (p : Nat)
  /-- `TETHER_ADD` (R381). A remote ADD request adds elements in the adders. -/
  | tetherAdd (p : Nat)
  /-- `TETHER_SIGNAL` (R381). A remote SIGNAL request is applied to a clasp at its Settle, and DONE follows. -/
  | tetherSignal (p : Nat)
  /-- `TETHER_READ_DATA` (R377). A READ_DATA response ends a piece of an RREAD and writes its data locally. -/
  | tetherReadData (p : Nat)
  /-- `TETHER_DONE` (R377). A DONE response ends a piece of a remote descriptor. -/
  | tetherDone (p : Nat)
  /-- `SITE_ALERT` (R393). x_ALERT_N low for 100 ns is a partial reset that forces a full retrain of the site. -/
  | siteAlert (q : Nat)
  /-- `SITE_TRAINING_ATTEMPT` (R400). A site training attempt pulses x_RST_N and exchanges discovery. -/
  | siteTrainingAttempt (q : Nat)
  /-- `ADVERT` (R398). A received ADVERT fixes level and generation, or fences the site. -/
  | advert (q : Nat) (m : Bytes)
  /-- `LANES` (R396). A received LANES message gives failing lanes, and the repair record is written. -/
  | lanes (q : Nat) (m : Bytes)
  /-- `LANE_TEST_END` (R396). The 100 µs PRBS15 lane test ends and failing lanes are counted. -/
  | laneTestEnd (q : Nat) (failing : List (List Nat))
  /-- `ECHO` (R401). A received ECHO matches the width or is a mismatch that triggers fallback. -/
  | echo (q : Nat) (m : Bytes)
  /-- `ECHO_TIMEOUT` (R401). No ECHO within 100 µs is a width mismatch. -/
  | echoTimeout (q : Nat)
  /-- `SITE_TRAINING_TIMEOUT` (R400). An attempt not linked within 10 ms fails, and three failures fence the site. -/
  | siteTrainingTimeout (q : Nat)
  /-- `SITE_FRAME` (R405). A received site frame is checked, taken in sequence or nakked. -/
  | siteFrame (q ch : Nat) (b : Bytes)
  /-- `SITE_REPLAY_TIMEOUT` (R405). 1 µs without ack progress resends unacknowledged frames from the oldest. -/
  | siteReplayTimeout (q ch : Nat)
  /-- `SITE_READ` (R408). An inbound READ from a die passes the Bezel checks and is answered. -/
  | siteRead (q ch : Nat)
  /-- `SITE_WRITE` (R408). An inbound WRITE from a die passes the Bezel checks and enters the buffer. -/
  | siteWrite (q ch : Nat)
  /-- `SITE_READ_DATA` (R409). A READ_DATA response from a die ends an outbound mover piece. -/
  | siteReadData (q ch : Nat)
  /-- `SITE_DONE` (R409). A DONE response from a die ends an outbound mover piece. -/
  | siteDone (q ch : Nat)
  /-- `SITE_ATTEST_POLL` (R435). Every 10 µs the Locket polls the die's message area during attestation. -/
  | siteAttestPoll (q : Nat) (r : Option AttestAnswer)
  /-- `SITE_ATTEST_TIMEOUT` (R435). Attestation not finished within 200 ms fails. -/
  | siteAttestTimeout (q : Nat)
  /-- `CANARY_READ` (R244). Every 10 µs the canary beat of a narrow pseudo-channel is read, and a failure marks the die failed. -/
  | canaryRead (c : Nat) (ok : Bool)
  /-- `STACK_TEMP_READ` (R259). Every 1 ms a stack's temperature is read and refresh rate and throttle judged. -/
  | stackTempRead (k temp : Nat)
  /-- `STACK_REFRESH` (R260). A per-bank refresh is issued at tREFI. -/
  | stackRefresh (c bank : Nat)
  /-- `CALIBRATION` (R254). A group's pseudo-channels are calibrated every 500 µs. -/
  | calibration (n : Nat) (pc : Option Nat)
  /-- `SCRUB_READ` (R272). The patrol scrub reads a setting or beat and writes back corrected or poison data. -/
  | scrubRead (n st : Nat) (raw : List Bytes)
  /-- `STACK_COMMAND_FAILURE` (R233). A parity error on a stack command causes a reissue, and three failures trigger a retrain hold. -/
  | stackCommandFailure (c kind : Nat)
  /-- `HOLD_BUDGET_EXPIRY` (R284). A hold not ended within 8 µs makes the group degraded and starts further attempts. -/
  | holdBudgetExpiry (n : Nat)
  /-- `RETRAIN_ATTEMPT_END` (R284). A 100 µs retrain attempt ends, and the die rejoins or, after the third, is dead. -/
  | retrainAttemptEnd (n : Nat) (ok : Bool)
  /-- `REBUILD_DONE` (R293). A rejoining die's rebuild ends and the group returns to state 0. -/
  | rebuildDone (n : Nat)
  /-- `LEAK_PERIOD` (R274). At each leak period correctable-error bucket counts leak. -/
  | leakPeriod
  /-- `STORM_WINDOW_END` (R274). A bucket's storm window closes after storm_periods leak periods. -/
  | stormWindowEnd (b : Nat)
  /-- `WCB_WRITEBACK` (R249). A write-combining buffer line is written back when full, evicted or due. -/
  | wcbWriteback (n st : Nat) (e : MemErrors)
  /-- `GRANULE_FILL_DONE` (R268). The zero writes of a first-written granule finish and waiting reads and writebacks proceed. -/
  | granuleFillDone (g : Nat)
  /-- `UNCORRECTABLE_CONSUMED` (R275). A unit consumes uncorrectable or poisoned data and the consuming partition is charged. -/
  | uncorrectableConsumed (c : Consumer)
  /-- `PARTITION_RESET` (R276). A partition reset stops, zeroes and completes all work of one partition over several steps. -/
  | partitionReset (p : Nat) (again : List Nat)
  /-- `CONTROL_PLANE_UNCORRECTABLE` (R278). An uncorrectable error in control-plane state causes an immediate warm reset. -/
  | controlPlaneUncorrectable
  /-- `EVACUATION_SLAB_DONE` (R291). The last setting of a slab is copied and the slab is remapped to its donor, or the group is mapped out. -/
  | evacuationSlabDone (n : Nat) (bad : List Nat)
  /-- `PMBUS_POLL` (R443). Every 50 µs the rails' voltage, current and temperature are read and sensors checked. -/
  | pmbusPoll (r : List RailReading)
  /-- `SETPOINT_REACHED` (R445). A rail reports its set-point reached, allowing a faster step or recovery. -/
  | setpointReached (rail : Nat)
  /-- `SETPOINT_TIMEOUT` (R443). A set-point not reached within 100 µs is a regulator fault, with P7 on both halves. -/
  | setpointTimeout (rail : Nat)
  /-- `THROTTLE_RECOVERY_STEP` (R450). Each 1 ms a recovering alert or regulator limit allows one state faster. -/
  | throttleRecoveryStep
  /-- `DROOP_TRIP` (R449). A droop detector trip stretches the half's clock within 1 ns. -/
  | droopTrip (region at_ : Nat)
  /-- `DROOP_STRETCH_END` (R449). A stretch ends after 16 cycles with no trip. -/
  | droopStretchEnd (half at_ : Nat)
  /-- `PERSISTENT_DROOP` (R449). A stretch lasting beyond 4 µs is persistent droop and slows L_n. -/
  | persistentDroop (half at_ : Nat)
  /-- `VR_ALERT` (R450). VR_ALERT_N low for 50 ns starts the alert stretch and P7 at the next boundary. -/
  | vrAlert
  /-- `VR_ALERT_RELEASE` (R450). After VR_ALERT_N has been high for 1 ms, the alert stretch ends at a tick boundary. -/
  | vrAlertRelease
  /-- `JUNCTION_SENSOR_READ` (R456). Every 10 µs the junction sensors are read, checked and compared against limits. -/
  | junctionSensorRead (t : List Int)
  /-- `HARDWIRED_TRIP` (R456). A trip sensor at 115 °C stops the arithmetic clocks and asserts FAULT_N. -/
  | hardwiredTrip
  /-- `BALLAST_WINDOW` (R457). Each 1 ms Ballast corrects its model, sets COOL_DEMAND and adjusts junction and stack limits. -/
  | ballastWindow
  /-- `STACK_DEFERRAL_END` (R462). min(D, 2 ms) after a deferral, a stack throttle is re-evaluated. -/
  | stackDeferralEnd (k : Nat)
  /-- `CATTRIP` (R462). A stack's catastrophic-temperature output high for 100 ns puts the device in the safe state. -/
  | cattrip (k : Nat)
  /-- `ENTROPY_HEALTH_FAIL` (R429). An entropy health test failure stops the DRBG. -/
  | entropyHealthFail (test : Nat)
  /-- `LOCKSTEP_MISMATCH` (R470). The Keel comparator finds the lockstep cores differ. -/
  | lockstepMismatch
  /-- `REFCLK_LOSS` (R481). REFCLK missing for 100 ns or off frequency for 10 µs is safe-state cause 2. -/
  | refclkLoss
  /-- `OSCILLATOR_CHECK` (R481). The two Keel oscillators differing by over 5% for 10 µs is safe-state cause 3. -/
  | oscillatorCheck (a b : Int)
  /-- `SUPPLY_COMPARATOR` (R481). A Keel window comparator finds a rail out of range for its stated time. -/
  | supplyComparator (rail mv us : Nat)
  /-- `EGRESS_TRANSFER` (R473). A transfer reaching an egress gate is passed or blocked by both checkers. -/
  | egressTransfer (x : Transfer)
  /-- `COPY_COMPARE` (R473). Every 1 µs the Keel compares its sealed-map copies with domain 17. -/
  | copyCompare
  /-- `LATENT_TEST` (R471). The Keel runs its periodic latent tests of supply comparators, egress checkers and trip sensors. -/
  | latentTest (test : Nat) (pass : Bool)
  /-- `WATCHDOG_EXPIRY` (R478). No tick boundary within 2 × P + 10 µs starts a warm reset. -/
  | watchdogExpiry
  /-- `FAULT_N_READBACK` (R518). A FAULT_N pad read-back that differs from the driven level is safe-state cause 16. -/
  | faultNReadback (low : Bool)
  /-- `INTEGER_OP` (R124). A bead integer register, immediate, LUI or AUIPC instruction executes in 1 cycle. -/
  | integerOp (t : Nat)
  /-- `BRANCH` (R124). A bead conditional branch executes. -/
  | branch (t : Nat)
  /-- `JUMP` (R124). A bead JAL or JALR executes in 3 cycles. -/
  | jump (t : Nat)
  /-- `BEAD_LOAD` (R127). A bead scalar load from DMEM or the Casket window executes or traps. -/
  | beadLoad (t : Nat) (upset : List (Nat × Bool))
  /-- `BEAD_STORE` (R127). A bead scalar store to DMEM or the Casket window executes or traps. -/
  | beadStore (t : Nat) (upset : List (Nat × Bool))
  /-- `MUL` (R124). A bead multiply instruction executes in 3 cycles. -/
  | mul (t : Nat)
  /-- `DIV` (R124). A bead divide or remainder instruction executes in 34 cycles. -/
  | div (t : Nat)
  /-- `CSR_ACCESS` (R126). A bead CSR instruction reads or writes a CSR, or traps. -/
  | csrAccess (t : Nat)
  /-- `FENCE` (R123). FENCE executes as a one-cycle no-op. -/
  | fence (t : Nat)
  /-- `ECALL` (R151). ECALL with a7 = 0 ends the program, otherwise it traps. -/
  | ecall (t : Nat)
  /-- `EBREAK` (R157). EBREAK halts the core for debug, or traps with cause 3. -/
  | ebreak (t : Nat)
  /-- `MRET` (R155). MRET clears trap_active and resumes at mepc. -/
  | mret (t : Nat)
  /-- `WFI` (R122). WFI stalls the core until the next tick boundary. -/
  | wfi (t : Nat)
  /-- `WFI_WAKE` (R122). A core stalled in WFI resumes at the first cycle at or after the tick boundary. -/
  | wfiWake (t : Nat)
  /-- `ILLEGAL_INSTRUCTION` (R123). FENCE.I, SRET, URET or an unlisted encoding raises an illegal-instruction trap. -/
  | illegalInstruction (t : Nat)
  /-- `VADD_B` (R130). Bytewise modular add of two vector registers. -/
  | vaddB (t : Nat)
  /-- `VSUB_B` (R130). Bytewise modular subtract. -/
  | vsubB (t : Nat)
  /-- `VADDSU_B` (R130). Bytewise unsigned saturating add. -/
  | vaddsuB (t : Nat)
  /-- `VSUBSU_B` (R130). Bytewise unsigned saturating subtract. -/
  | vsubsuB (t : Nat)
  /-- `VMINU_B` (R130). Bytewise unsigned minimum. -/
  | vminuB (t : Nat)
  /-- `VMAXU_B` (R130). Bytewise unsigned maximum. -/
  | vmaxuB (t : Nat)
  /-- `VAND` (R130). Bitwise and of two vector registers. -/
  | vand (t : Nat)
  /-- `VOR` (R130). Bitwise or of two vector registers. -/
  | vor (t : Nat)
  /-- `VXOR` (R130). Bitwise exclusive-or of two vector registers. -/
  | vxor (t : Nat)
  /-- `VANDN` (R130). Bitwise and-not of two vector registers. -/
  | vandn (t : Nat)
  /-- `VCMPEQ_B` (R130). Bytewise equality compare to a mask. -/
  | vcmpeqB (t : Nat)
  /-- `VCMPLTU_B` (R130). Bytewise unsigned less-than compare to a mask. -/
  | vcmpltuB (t : Nat)
  /-- `VSHUF_B` (R130). Byte shuffle by index vector. -/
  | vshufB (t : Nat)
  /-- `VSEL` (R130). Bitwise select under the mask held in vd. -/
  | vsel (t : Nat)
  /-- `VSHR_B` (R130). Bytewise logical shift right. -/
  | vshrB (t : Nat)
  /-- `VMSK` (R131). Collects byte sign bits of a vector into a scalar. -/
  | vmsk (t : Nat)
  /-- `VEXT_W` (R131). Extracts a vector word into a scalar register. -/
  | vextW (t : Nat)
  /-- `VSPLAT_B` (R131). Replicates a scalar byte into every byte of a vector. -/
  | vsplatB (t : Nat)
  /-- `VINS_W` (R131). Inserts a scalar into one word of a vector. -/
  | vinsW (t : Nat)
  /-- `VLD` (R132). Loads 16 bytes into a vector register. -/
  | vld (t : Nat)
  /-- `VST` (R132). Stores a vector register as 16 bytes. -/
  | vst (t : Nat)
  /-- `KROUND` (R133). Applies one Keccak-f[1600] round to the state in v0 to v12. -/
  | kround (t : Nat)
  /-- `TSTEP` (R134). Looks up one key byte in a trie node in DMEM. -/
  | tstep (t : Nat)
  /-- `TOPK` (R135). Inserts one candidate into a ranked list in DMEM. -/
  | topk (t : Nat)
  /-- `LSEC` (R136). Merges one partial-attention record into another by R108. -/
  | lsec (t : Nat)
  /-- `LSEF` (R136). Finalises a partial-attention record into output elements. -/
  | lsef (t : Nat)
  /-- `FADD32` (R139). Scalar FP32 add on integer registers. -/
  | fadd32 (t : Nat)
  /-- `FMUL32` (R139). Scalar FP32 multiply. -/
  | fmul32 (t : Nat)
  /-- `FMAX32` (R139). Scalar FP32 maximum. -/
  | fmax32 (t : Nat)
  /-- `FEXP2` (R139). Scalar FP32 base-2 exponential. -/
  | fexp2 (t : Nat)
  /-- `FRCP` (R139). Scalar FP32 reciprocal. -/
  | frcp (t : Nat)
  /-- `FKEY` (R140). Maps an FP32 value to an unsigned order key. -/
  | fkey (t : Nat)
  /-- `BEAD_CLASP_ADD` (R146). A write to bead.clasp_add queues a clasp signal, or traps. -/
  | beadClaspAdd (t : Nat)
  /-- `BEAD_CLASP_VAL_READ` (R147). A read of bead.clasp_val returns the committed clasp value in 24 cycles. -/
  | beadClaspValRead (t : Nat)
  /-- `TX_STORE` (R177). A store to TX[c] writes the staging word, and writing byte 31 commits it. -/
  | txStore (t : Nat)
  /-- `RX_LOAD` (R177). A load from RX[c] reads the head word, removing it when byte 31 is read. -/
  | rxLoad (t : Nat)
  /-- `TX_CFG_WRITE` (R179). A write to TX_CFG[c] reconfigures and empties a TX channel. -/
  | txCfgWrite (t : Nat)
  /-- `RX_CFG_WRITE` (R179). A write to RX_CFG[c] reconfigures and empties an RX channel. -/
  | rxCfgWrite (t : Nat)
  /-- `RX_AWAIT` (R176). A store to RX_AWAIT[c] stalls the core until the RX count reaches the value. -/
  | rxAwait (t : Nat)
  /-- `BARRIER_ARRIVE` (R181). A store to BARRIER[b] marks a member's arrival. -/
  | barrierArrive (t : Nat)
  /-- `BARRIER_WAIT` (R181). A load from BARRIER[b] stalls until release and returns the generation. -/
  | barrierWait (t : Nat)
  /-- `BARRIER_RELEASE` (R181). After the last arrival every waiting member is released and the generation advances. -/
  | barrierRelease (p b : Nat)
  /-- `FRAME` (R176). A load from FRAME stalls until the next frame and returns its index. -/
  | frame (t : Nat)
  /-- `CASKET_PATROL_SCRUB` (R210). A Casket slice reads a codeword in an idle port-B cycle, corrects and writes back a single-bit error, or reports an uncorrectable line, completing a pass at least every 100 ms. -/
  | casketPatrolScrub (sl off : Nat) (codeword : BitVec 12) (upset : List (Nat × BitVec 12))
  /-- `GLOBAL_OBSERVATION` (R321). The host's global observation of a device write arrives, letting the next ordered write issue and, once a Settle phase's writes are all observed, CLASP.VALUE show that phase's clasp values. -/
  | globalObservation
  /-- `CXL_CACHE_READ_DATA` (R305). The data of a RdCurr request to host memory returns for one 64 B line, to be used by a mover piece, a descriptor or ring read, or an engine operand. -/
  | cxlCacheReadData (line : Nat) (data : Bytes) (poison : Bool)
  /-- `PERST_N_DEASSERT` (R487). PERST_N rising lets the host port train its link. -/
  | perstNDeassert (h : HostCfg)
  /-- `TAP_ACCESS` (R437). A JTAG instruction or IEEE 1687 instrument access through the TAP, including TRST_N, is performed or refused according to the life-cycle state. -/
  | tapAccess (a : TapAccess)
  /-- `X_RST_N_RELEASE` (R400). After the 10 µs low pulse of a training attempt, x_RST_N is released and the sideband and ADVERT exchange begin. -/
  | xRstNRelease (q : Nat)
  /-- `ADVERT_TIMEOUT` (R400). No valid ADVERT within 1 ms of x_RST_N release fails the site training attempt. -/
  | advertTimeout (q : Nat)
  /-- `FRAME_ALIGN_TIMEOUT` (R400). A channel of the mask not frame-aligned within 1 ms of the width agreement fails the site training attempt. -/
  | frameAlignTimeout (q : Nat)
  deriving DecidableEq, Repr

end Sys2Proof
end

