-- ==== Sys2Proof/Decode.lean ====
section
/-! DEFINITION. The commands as words: no row of spec/opcode_table.json gives its command bits, so no word spells a command. -/

namespace Sys2Proof

/-- The command that a word of the opcode table spells: none, since the table gives no row bits. -/
def decodeTableWord (_nbits _w : Nat) : Option Instr := none

end Sys2Proof
end

