-- ==== Sys2Proof/Machine/Bits.lean ====
section
/-! DEFINITION. Numbers, bytes and bit fields: little-endian byte strings (R5, R315), fields of words, saturating
counts. -/

namespace Sys2Proof.Machine

/-- The number a little-endian byte string spells. -/
def leNat : Bytes → Nat
  | [] => 0
  | b :: bs => b.toNat + 256 * leNat bs

/-- The low `n` bytes of a number, little-endian. -/
def natLe : Nat → Nat → Bytes
  | 0, _ => []
  | n + 1, x => BitVec.ofNat 8 x :: natLe n (x / 256)

/-- The number a big-endian byte string spells. -/
def beNat (bs : Bytes) : Nat := leNat bs.reverse

/-- The low `n` bytes of a number, big-endian. -/
def natBe (n x : Nat) : Bytes := (natLe n x).reverse

/-- `n` bytes of `bs` from `off` on. -/
def slice (bs : Bytes) (off n : Nat) : Bytes := (bs.drop off).take n

/-- The little-endian number in `n` bytes of `bs` from `off` on. -/
def fieldLe (bs : Bytes) (off n : Nat) : Nat := leNat (slice bs off n)

/-- The byte of `bs` at `off`, as a number. -/
def byteAt (bs : Bytes) (off : Nat) : Nat := fieldLe bs off 1

/-- Bits `hi` down to `lo` of a number. -/
def bits (x hi lo : Nat) : Nat := x / 2 ^ lo % 2 ^ (hi + 1 - lo)

/-- Bit `i` of a number. -/
def bit (x i : Nat) : Bool := x / 2 ^ i % 2 == 1

/-- A flag as a number. -/
def flag (b : Bool) : Nat := if b then 1 else 0

/-- A count that saturates at `top`. -/
def satAdd (top a b : Nat) : Nat := min top (a + b)

/-- The largest 32-bit count. -/
def max32 : Nat := 0xFFFFFFFF

/-- The number whose bit i is set exactly when i is in the list. -/
def maskOf (is : List Nat) : Nat := is.foldl (fun a i => a ||| 2 ^ i) 0

/-- The indices below `n` whose bit is set. -/
def maskList (n x : Nat) : List Nat := (List.range n).filter (fun i => bit x i)

/-- Every byte of the string is zero. -/
def allZero (bs : Bytes) : Bool := bs.all (fun b => b == 0)

/-- `n` bytes of zero. -/
def zeros (n : Nat) : Bytes := List.replicate n 0

/-- Bytes at `off` replaced by `new`. -/
def splice (bs : Bytes) (off : Nat) (new : Bytes) : Bytes :=
  bs.take off ++ new ++ bs.drop (off + new.length)

/-- Exclusive-or of two byte strings. -/
def xorBytes (a b : Bytes) : Bytes := List.zipWith (fun x y => x ^^^ y) a b

/-- The number of bits a number needs. -/
def bitLen (x : Nat) : Nat := if x = 0 then 0 else Nat.log2 x + 1

/-- Two's complement of width `w` as an integer. -/
def toSigned (w x : Nat) : Int :=
  if 2 ^ (w - 1) ≤ x % 2 ^ w then (x % 2 ^ w : Int) - 2 ^ w else (x % 2 ^ w : Int)

/-- An integer as two's complement of width `w`. -/
def fromSigned (w : Nat) (i : Int) : Nat := (i % (2 ^ w : Int)).toNat

/-- An integer held within [lo, hi]. -/
def clampInt (lo hi i : Int) : Int := max lo (min hi i)

/-- A number held within [lo, hi]. -/
def clampNat (lo hi n : Nat) : Nat := max lo (min hi n)

/-- a ÷ b, rounded up. -/
def ceilDiv (a b : Nat) : Nat := (a + b - 1) / b

/-- The two ranges of bytes meet. [DESIGN CHOICE, log 45] -/
def meets (a la b lb : Nat) : Bool := decide (a < b + lb) && decide (b < a + la)

/-- The first range lies within the second. -/
def within (a la b lb : Nat) : Bool := decide (b ≤ a) && decide (a + la ≤ b + lb)

/-- A list cut into runs of `n` (the last may be shorter); `fuel` bounds the number of runs. -/
def chunks {α : Type} (n : Nat) : Nat → List α → List (List α)
  | 0, _ => []
  | fuel + 1, xs => if xs.isEmpty then [] else xs.take n :: chunks n fuel (xs.drop n)

/-- Insert in ascending order of key. -/
def insertBy {α : Type} (key : α → Nat) (x : α) : List α → List α
  | [] => [x]
  | y :: ys => if key x < key y then x :: y :: ys else y :: insertBy key x ys

/-- Stable sort in ascending order of key. -/
def sortBy {α : Type} (key : α → Nat) : List α → List α
  | [] => []
  | x :: xs => insertFront x (sortBy key xs)
where
  insertFront (x : α) : List α → List α
    | [] => [x]
    | y :: ys => if key y < key x then y :: insertFront x ys else x :: y :: ys

/-- The list without repeats, first occurrences kept. -/
def nub : List Nat → List Nat
  | [] => []
  | x :: xs => x :: (nub xs).filter (fun y => y != x)

end Sys2Proof.Machine
end

