-- ==== Sys2Proof/Machine/BeadIsa.lean ====
section
/-! DEFINITION. The bead's instructions: the standard encodings of RV32I, M, C and Zicsr that R123 names, and the Bead extension
(R128, Table 4.4).  The standard encodings are not in the specification, which names the ratified standards; they are the
standards' (PRESUMED, the assumption log). -/

namespace Sys2Proof.Machine

/-- A decoded bead instruction. Immediates are 32-bit patterns. -/
inductive BeadInstr where
  | lui (rd imm : Nat)
  | auipc (rd imm : Nat)
  | jal (rd imm : Nat)
  | jalr (rd rs1 imm : Nat)
  | branch (cond rs1 rs2 imm : Nat)
  | load (kind rd rs1 imm : Nat)
  | store (kind rs1 rs2 imm : Nat)
  /-- Register–immediate operations: funct3, and whether it is the arithmetic right shift. -/
  | opImm (f : Nat) (alt : Bool) (rd rs1 imm : Nat)
  /-- Register–register operations. -/
  | opReg (f : Nat) (alt : Bool) (rd rs1 rs2 : Nat)
  /-- MUL, MULH, MULHSU, MULHU, DIV, DIVU, REM, REMU by funct3. -/
  | mulDiv (f rd rs1 rs2 : Nat)
  | fence
  | ecall
  | ebreak
  | mret
  | wfi
  /-- A CSR instruction: funct3, rd, CSR number, and the rs1 field. -/
  | csr (f rd num rs1 : Nat)
  | vv (f vd vs1 vs2 : Nat)
  | vmsk (rd vs1 : Nat)
  | vextW (rd vs1 idx : Nat)
  | vsplatB (vd rs1 : Nat)
  | vinsW (vd rs1 idx : Nat)
  | vld (vd rs1 imm : Nat)
  | vst (vs2 rs1 imm : Nat)
  | kround (rs1 : Nat)
  | tstep (rd rs1 rs2 : Nat)
  | topk (rd rs1 rs2 : Nat)
  | lsec (rs1 rs2 : Nat)
  | lsef (rs1 rs2 : Nat)
  | fp (f rd rs1 rs2 : Nat)
  | illegal
  deriving DecidableEq, Repr

/-- The low `w` bits of `x` sign-extended to 32 bits. -/
def sext32 (w x : Nat) : Nat := fromSigned 32 (toSigned w x)

/-- I-format immediate. -/
def immI (w : Nat) : Nat := sext32 12 (bits w 31 20)
/-- S-format immediate. -/
def immS (w : Nat) : Nat := sext32 12 (bits w 31 25 * 32 + bits w 11 7)
/-- B-format immediate. -/
def immB (w : Nat) : Nat :=
  sext32 13 (bits w 31 31 * 4096 + bits w 7 7 * 2048 + bits w 30 25 * 32 + bits w 11 8 * 2)
/-- J-format immediate. -/
def immJ (w : Nat) : Nat :=
  sext32 21 (bits w 31 31 * 2 ^ 20 + bits w 19 12 * 4096 + bits w 20 20 * 2048 + bits w 30 21 * 2)

/-- The operations of the OP-IMM major opcode. -/
def decodeOpImm (w rd rs1 f3 : Nat) : BeadInstr :=
  let f7 := bits w 31 25
  if f3 = 1 then if f7 = 0 then .opImm 1 false rd rs1 (bits w 24 20) else .illegal
  else if f3 = 5 then
    if f7 = 0 then .opImm 5 false rd rs1 (bits w 24 20)
    else if f7 = 0x20 then .opImm 5 true rd rs1 (bits w 24 20) else .illegal
  else .opImm f3 false rd rs1 (immI w)

/-- The operations of the OP major opcode. -/
def decodeOp (w rd rs1 rs2 f3 : Nat) : BeadInstr :=
  let f7 := bits w 31 25
  if f7 = 0 then .opReg f3 false rd rs1 rs2
  else if f7 = 0x20 ∧ (f3 = 0 ∨ f3 = 5) then .opReg f3 true rd rs1 rs2
  else if f7 = 1 then .mulDiv f3 rd rs1 rs2
  else .illegal

/-- The SYSTEM major opcode. -/
def decodeSystem (w rd rs1 f3 : Nat) : BeadInstr :=
  if f3 = 0 then
    if w = 0x00000073 then .ecall
    else if w = 0x00100073 then .ebreak
    else if w = 0x30200073 then .mret
    else if w = 0x10500073 then .wfi
    else .illegal
  else if f3 = 4 then .illegal
  else .csr f3 rd (bits w 31 20) rs1

/-- The Bead extension in custom-0 (Table 4.4). -/
def decodeCustom0 (w rd rs1 rs2 f3 : Nat) : BeadInstr :=
  let f7 := bits w 31 25
  match f3 with
  | 0 => if f7 ≤ 0xE ∧ rd < 16 ∧ rs1 < 16 ∧ rs2 < 16 then .vv f7 rd rs1 rs2 else .illegal
  | 1 =>
    if f7 = 0 then if rs1 < 16 ∧ rs2 = 0 then .vmsk rd rs1 else .illegal
    else if f7 = 1 then if rs1 < 16 ∧ rs2 < 4 then .vextW rd rs1 rs2 else .illegal
    else .illegal
  | 2 =>
    if f7 = 0 then if rd < 16 ∧ rs2 = 0 then .vsplatB rd rs1 else .illegal
    else if f7 = 1 then if rd < 16 ∧ rs2 < 4 then .vinsW rd rs1 rs2 else .illegal
    else .illegal
  | 3 => if rd < 16 then .vld rd rs1 (immI w) else .illegal
  | 4 => if rs2 < 16 then .vst rs2 rs1 (immS w) else .illegal
  | _ => .illegal

/-- The Bead extension in custom-1. -/
def decodeCustom1 (w rd rs1 rs2 f3 : Nat) : BeadInstr :=
  if bits w 31 25 ≠ 0 then .illegal
  else match f3 with
    | 0 => if rd = 0 ∧ rs2 = 0 then .kround rs1 else .illegal
    | 1 => .tstep rd rs1 rs2
    | 2 => .topk rd rs1 rs2
    | _ => .illegal

/-- The Bead extension in custom-2. -/
def decodeCustom2 (w rd rs1 rs2 f3 : Nat) : BeadInstr :=
  let f7 := bits w 31 25
  match f3 with
  | 0 =>
    if rd ≠ 0 then .illegal
    else if f7 = 0 then .lsec rs1 rs2
    else if f7 = 1 then .lsef rs1 rs2
    else .illegal
  | 1 =>
    if f7 ≤ 2 then .fp f7 rd rs1 rs2
    else if f7 ≤ 5 ∧ rs2 = 0 then .fp f7 rd rs1 rs2
    else .illegal
  | _ => .illegal

/-- A 32-bit instruction word. [PRESUMED, log 10] -/
def decodeWord32 (w : Nat) : BeadInstr :=
  let rd := bits w 11 7
  let f3 := bits w 14 12
  let rs1 := bits w 19 15
  let rs2 := bits w 24 20
  match bits w 6 0 with
  | 0x37 => .lui rd (bits w 31 12 * 4096)
  | 0x17 => .auipc rd (bits w 31 12 * 4096)
  | 0x6F => .jal rd (immJ w)
  | 0x67 => if f3 = 0 then .jalr rd rs1 (immI w) else .illegal
  | 0x63 => if f3 = 2 ∨ f3 = 3 then .illegal else .branch f3 rs1 rs2 (immB w)
  | 0x03 => if f3 = 3 ∨ 6 ≤ f3 then .illegal else .load f3 rd rs1 (immI w)
  | 0x23 => if 3 ≤ f3 then .illegal else .store f3 rs1 rs2 (immS w)
  | 0x13 => decodeOpImm w rd rs1 f3
  | 0x33 => decodeOp w rd rs1 rs2 f3
  | 0x0F => if f3 = 0 then .fence else .illegal
  | 0x73 => decodeSystem w rd rs1 f3
  | 0x0B => decodeCustom0 w rd rs1 rs2 f3
  | 0x2B => decodeCustom1 w rd rs1 rs2 f3
  | 0x5B => decodeCustom2 w rd rs1 rs2 f3
  | _ => .illegal

/-! ### Compressed instructions (the C standard, without the floating-point ones) -/

/-- The immediate of C.J and C.JAL. -/
def immCJ (h : Nat) : Nat :=
  sext32 12 (bits h 12 12 * 2048 + bits h 8 8 * 1024 + bits h 10 9 * 256 + bits h 6 6 * 128 + bits h 7 7 * 64 +
    bits h 2 2 * 32 + bits h 11 11 * 16 + bits h 5 3 * 2)

/-- The immediate of C.BEQZ and C.BNEZ. -/
def immCB (h : Nat) : Nat :=
  sext32 9 (bits h 12 12 * 256 + bits h 6 5 * 64 + bits h 2 2 * 32 + bits h 11 10 * 8 + bits h 4 3 * 2)

/-- The signed six-bit immediate of the CI format. -/
def immCI (h : Nat) : Nat := sext32 6 (bits h 12 12 * 32 + bits h 6 2)

/-- Quadrant 0. -/
def decodeC0 (h : Nat) : BeadInstr :=
  let rd' := 8 + bits h 4 2
  let rs' := 8 + bits h 9 7
  let woff := bits h 5 5 * 64 + bits h 12 10 * 8 + bits h 6 6 * 4
  match bits h 15 13 with
  | 0 =>
    let imm := bits h 10 7 * 64 + bits h 12 11 * 16 + bits h 5 5 * 8 + bits h 6 6 * 4
    if imm = 0 then .illegal else .opImm 0 false rd' 2 imm
  | 2 => .load 2 rd' rs' woff
  | 6 => .store 2 rs' rd' woff
  | _ => .illegal

/-- The arithmetic group of quadrant 1. -/
def decodeC1Arith (h : Nat) : BeadInstr :=
  let rd' := 8 + bits h 9 7
  let rs2' := 8 + bits h 4 2
  match bits h 11 10 with
  | 0 => if bit h 12 then .illegal else .opImm 5 false rd' rd' (bits h 6 2)
  | 1 => if bit h 12 then .illegal else .opImm 5 true rd' rd' (bits h 6 2)
  | 2 => .opImm 7 false rd' rd' (immCI h)
  | _ =>
    if bit h 12 then .illegal
    else match bits h 6 5 with
      | 0 => .opReg 0 true rd' rd' rs2'
      | 1 => .opReg 4 false rd' rd' rs2'
      | 2 => .opReg 6 false rd' rd' rs2'
      | _ => .opReg 7 false rd' rd' rs2'

/-- Quadrant 1. -/
def decodeC1 (h : Nat) : BeadInstr :=
  let rd := bits h 11 7
  match bits h 15 13 with
  | 0 => .opImm 0 false rd rd (immCI h)
  | 1 => .jal 1 (immCJ h)
  | 2 => .opImm 0 false rd 0 (immCI h)
  | 3 =>
    if rd = 2 then
      let imm := sext32 10 (bits h 12 12 * 512 + bits h 4 3 * 128 + bits h 5 5 * 64 + bits h 2 2 * 32 + bits h 6 6 * 16)
      if imm = 0 then .illegal else .opImm 0 false 2 2 imm
    else
      let imm := sext32 18 (bits h 12 12 * 2 ^ 17 + bits h 6 2 * 4096)
      if imm = 0 then .illegal else .lui rd imm
  | 4 => decodeC1Arith h
  | 5 => .jal 0 (immCJ h)
  | 6 => .branch 0 (8 + bits h 9 7) 0 (immCB h)
  | _ => .branch 1 (8 + bits h 9 7) 0 (immCB h)

/-- Quadrant 2. -/
def decodeC2 (h : Nat) : BeadInstr :=
  let rd := bits h 11 7
  let rs2 := bits h 6 2
  match bits h 15 13 with
  | 0 => if bit h 12 then .illegal else .opImm 1 false rd rd rs2
  | 2 => if rd = 0 then .illegal else .load 2 rd 2 (bits h 3 2 * 64 + bits h 12 12 * 32 + bits h 6 4 * 4)
  | 4 =>
    if bit h 12 then
      if rs2 = 0 then if rd = 0 then .ebreak else .jalr 1 rd 0
      else .opReg 0 false rd rd rs2
    else
      if rs2 = 0 then if rd = 0 then .illegal else .jalr 0 rd 0
      else .opReg 0 false rd 0 rs2
  | 6 => .store 2 2 rs2 (bits h 8 7 * 64 + bits h 12 9 * 4)
  | _ => .illegal

/-- A 16-bit instruction. [PRESUMED, log 10] -/
def decodeHalf (h : Nat) : BeadInstr :=
  match bits h 1 0 with
  | 0 => decodeC0 h
  | 1 => decodeC1 h
  | _ => decodeC2 h

/-- The instruction that starts with the halfword `lo`, followed by `hi`: what it is, its bits and its length. [PRESUMED, log 10] -/
def decodeBead (lo hi : Nat) : BeadInstr × Nat × Nat :=
  if bits lo 1 0 = 3 then (decodeWord32 (lo + hi * 65536), lo + hi * 65536, 4) else (decodeHalf lo, lo, 2)

end Sys2Proof.Machine
end

