-- ==== Sys2Proof/Machine/Keccak.lean ====
section
/-! DEFINITION. Keccak-f[1600] of FIPS 202 and the functions built on it (R133, R426, R432).  FIPS 202 is named by the
specification and not printed in it; its constants are the standard's. -/

namespace Sys2Proof.Machine

/-- One 64-bit lane. -/
abbrev Lane := BitVec 64

/-- One step of the register whose bits make the round constants: x^8 + x^6 + x^5 + x^4 + 1 (FIPS 202, rc). -/
def rcShift (r : Nat) : Nat := if bit r 7 then (2 * r) ^^^ 0x171 else 2 * r

/-- The low bits of that register from `r` on, `n` of them. -/
def rcBits : Nat → Nat → List Bool
  | 0, _ => []
  | n + 1, r => bit r 0 :: rcBits n (rcShift r)

/-- A round constant: bit 2^j − 1 is the j-th of its seven register bits. -/
def rcLane (bs : List Bool) : Lane :=
  BitVec.ofNat 64 ((bs.zipIdx.map (fun e => if e.1 then 2 ^ (2 ^ e.2 - 1) else 0)).sum)

/-- The constants of the 24 rounds. -/
def keccakRC : List Lane := (List.range 24).map (fun k => rcLane (((rcBits 168 1).drop (7 * k)).take 7))

/-- Rows y = 0 to 4 of a state of 25 lanes, lane (x, y) at index x + 5y. -/
def keccakRows (a : List Lane) : List (List Lane) := (List.range 5).map (fun y => (a.drop (5 * y)).take 5)

/-- θ: each lane takes the parity of the column before its own, and that of the column after, turned by one bit. -/
def keccakTheta (rows : List (List Lane)) : List (List Lane) :=
  let parity := rows.foldl (List.zipWith (· ^^^ ·)) (List.replicate 5 0)
  let mask := List.zipWith (fun l r => l ^^^ r.rotateLeft 1) (parity.rotateLeft 4) (parity.rotateLeft 1)
  rows.map (List.zipWith (· ^^^ ·) mask)

/-- ρ and π from the t-th lane of their walk on: lane (x, y) turns by (t + 1)(t + 2) ÷ 2 bits and comes to (y, 2x + 3y), which is the
walk's next. -/
def keccakWalk (rows : List (List Lane)) : Nat → Nat → Nat → Nat → List Lane → List Lane
  | 0, _, _, _, out => out
  | n + 1, t, x, y, out =>
    let y' := (2 * x + 3 * y) % 5
    keccakWalk rows n (t + 1) y y'
      (out.set (y + 5 * y') (((rows.getD y []).getD x 0).rotateLeft ((t + 1) * (t + 2) / 2 % 64)))

/-- χ on one row. -/
def keccakChi (r : List Lane) : List Lane :=
  List.zipWith (fun l m => l ^^^ m) r (List.zipWith (fun m n => ~~~m &&& n) (r.rotateLeft 1) (r.rotateLeft 2))

/-- One round with round constant `rc`: θ, ρ, π, χ, ι. -/
def keccakRound (a : List Lane) (rc : Lane) : List Lane :=
  let rows := keccakTheta (keccakRows a)
  let moved := keccakWalk rows 24 0 1 0 (rows.flatten.take 1 ++ List.replicate 24 0)
  let out := ((keccakRows moved).map keccakChi).flatten
  out.set 0 (out.getD 0 0 ^^^ rc)

/-- Keccak-f[1600]. -/
def keccakF (a : List Lane) : List Lane := keccakRC.foldl keccakRound a

/-- The lanes of a byte string. -/
def keccakLanes (bs : Bytes) : List Lane := (List.range 25).map (fun i => BitVec.ofNat 64 (fieldLe bs (8 * i) 8))

/-- The bytes of the lanes. -/
def laneBytes (a : List Lane) : Bytes := (a.map (fun l => natLe 8 l.toNat)).flatten

/-- What follows a message of `n` bytes up to a whole number of blocks of `rate` bytes: the domain bits, zeros, and the last bit. -/
def keccakTail (rate domain n : Nat) : Bytes :=
  let left := rate - n % rate
  (List.range left).map (fun i => BitVec.ofNat 8 ((if i = 0 then domain else 0) + (if i + 1 = left then 0x80 else 0)))

/-- The state after the blocks of `rate` bytes of a padded message, `n` of them. -/
def keccakAbsorb (rate : Nat) : Nat → Bytes → List Lane → List Lane
  | 0, _, a => a
  | n + 1, p, a =>
    keccakAbsorb rate n (p.drop rate) (keccakF (List.zipWith (· ^^^ ·) a (keccakLanes (p.take rate ++ zeros (200 - rate)))))

/-- `n` blocks of output from a state. -/
def keccakOut (rate : Nat) : Nat → List Lane → Bytes
  | 0, _ => []
  | n + 1, a => (laneBytes a).take rate ++ keccakOut rate n (keccakF a)

/-- `out` bytes of the message's hash. [PRESUMED, log 74] -/
def keccakHash (rate domain : Nat) (m : Bytes) (out : Nat) : Bytes :=
  (keccakOut rate (ceilDiv out rate)
    (keccakAbsorb rate (m.length / rate + 1) (m ++ keccakTail rate domain m.length) (List.replicate 25 0))).take out

/-- SHA3-256, SHA3-384, SHA3-512 and SHAKE256. -/
def sha3_256 (m : Bytes) : Bytes := keccakHash 136 0x06 m 32
def sha3_384 (m : Bytes) : Bytes := keccakHash 104 0x06 m 48
def sha3_512 (m : Bytes) : Bytes := keccakHash 72 0x06 m 64
def shake256 (m : Bytes) (out : Nat) : Bytes := keccakHash 136 0x1F m out

end Sys2Proof.Machine
end

