-- ==== Sys2Proof/Machine/Float.lean ====
section
/-! DEFINITION. The number formats and the exact arithmetic of the Sail engines, the beads and the adders (R44 to R59,
02_sail_arithmetic.md): values are exact dyadic numbers, every sum is exact, and there is one rounding, to nearest with
ties to even (R52). -/

namespace Sys2Proof.Machine

/-- A value: NaN, an infinity, or (-1)^neg × m × 2^e exactly. -/
inductive FVal where
  | nan
  | inf (neg : Bool)
  | fin (neg : Bool) (m : Nat) (e : Int)
  deriving DecidableEq, Repr

/-- How a format's all-ones exponent is read (Table 2.3). -/
inductive TopExp where
  | ieee | nanOnly | finite
  deriving DecidableEq, Repr

/-- A binary floating format: exponent bits, mantissa bits, bias (Table 2.3). -/
structure FFmt where
  ebits : Nat
  mbits : Nat
  bias : Nat
  top : TopExp
  deriving DecidableEq, Repr

def fp32 : FFmt := ⟨8, 23, 127, .ieee⟩
def bf16 : FFmt := ⟨8, 7, 127, .ieee⟩
def fp16 : FFmt := ⟨5, 10, 15, .ieee⟩
def e4m3 : FFmt := ⟨4, 3, 7, .nanOnly⟩
def e5m2 : FFmt := ⟨5, 2, 15, .ieee⟩
def e2m1 : FFmt := ⟨2, 1, 1, .finite⟩
def e3m2 : FFmt := ⟨3, 2, 3, .finite⟩
def e2m3 : FFmt := ⟨2, 3, 1, .finite⟩

/-- The bits of a code. -/
def FFmt.width (f : FFmt) : Nat := 1 + f.ebits + f.mbits

/-- The exponent of the smallest step, that of the subnormals. -/
def FFmt.emin (f : FFmt) : Int := 1 - (f.bias : Int) - (f.mbits : Int)

/-- The largest finite magnitude: mantissa and exponent. -/
def FFmt.maxFinite (f : FFmt) : Nat × Int :=
  let topField := match f.top with
    | .ieee => 2 ^ f.ebits - 2
    | _ => 2 ^ f.ebits - 1
  let mant := match f.top with
    | .nanOnly => 2 ^ (f.mbits + 1) - 2
    | _ => 2 ^ (f.mbits + 1) - 1
  (mant, (topField : Int) - (f.bias : Int) - (f.mbits : Int))

/-- The canonical NaN (Table 2.3). -/
def FFmt.canonNaN (f : FFmt) : Nat :=
  match f.top with
  | .ieee => (2 ^ f.ebits - 1) * 2 ^ f.mbits + 2 ^ (f.mbits - 1)
  | _ => 2 ^ (f.ebits + f.mbits) - 1

/-- The value of a code. -/
def FFmt.decode (f : FFmt) (c : Nat) : FVal :=
  let neg := bit c (f.ebits + f.mbits)
  let ex := bits c (f.ebits + f.mbits - 1) f.mbits
  let man := c % 2 ^ f.mbits
  if f.top = .ieee ∧ ex = 2 ^ f.ebits - 1 then
    if man = 0 then .inf neg else .nan
  else if f.top = .nanOnly ∧ ex = 2 ^ f.ebits - 1 ∧ man = 2 ^ f.mbits - 1 then .nan
  else if ex = 0 then .fin neg man f.emin
  else .fin neg (2 ^ f.mbits + man) ((ex : Int) - (f.bias : Int) - (f.mbits : Int))

/-- A natural number shifted right by `d` places, rounded to nearest with ties to even. -/
def rneShift (m d : Nat) : Nat :=
  let q := m / 2 ^ d
  let r := m % 2 ^ d
  let half := 2 ^ d / 2
  if d = 0 then m
  else if r < half then q
  else if half < r then q + 1
  else q + q % 2

/-- A nonzero magnitude m × 2^e rounded to `p` significant bits, and not below steps of 2^emin: mantissa and exponent,
with the exponent range unbounded above. -/
def roundMag (p : Nat) (emin : Int) (m : Nat) (e : Int) : Nat × Int :=
  let ulp := max ((bitLen m : Int) + e - (p : Int)) emin
  if ulp ≤ e then (m, e) else (rneShift m (ulp - e).toNat, ulp)

/-- m × 2^e compared with n × 2^g. -/
def cmpMag (m : Nat) (e : Int) (n : Nat) (g : Int) : Ordering :=
  let lo := min e g
  compare (m * 2 ^ (e - lo).toNat) (n * 2 ^ (g - lo).toNat)

/-- The code of a finite magnitude that the format holds exactly. -/
def FFmt.codeMag (f : FFmt) (m : Nat) (e : Int) : Nat :=
  if m = 0 then 0
  else
    let lead := (bitLen m : Int) + e - 1
    if lead < 1 - (f.bias : Int) then m * 2 ^ (e - f.emin).toNat
    else
      let ex := (lead + (f.bias : Int)).toNat
      let man := if bitLen m ≤ f.mbits + 1 then m * 2 ^ (f.mbits + 1 - bitLen m)
        else m / 2 ^ (bitLen m - (f.mbits + 1))
      ex * 2 ^ f.mbits + (man - 2 ^ f.mbits)

/-- A sign bit above a magnitude code. -/
def FFmt.withSign (f : FFmt) (neg : Bool) (c : Nat) : Nat := c + flag neg * 2 ^ (f.ebits + f.mbits)

/-- The code of ± max finite. -/
def FFmt.maxCode (f : FFmt) (neg : Bool) : Nat :=
  f.withSign neg (f.codeMag f.maxFinite.1 f.maxFinite.2)

/-- The code an overflow or an infinity gives without saturation: ±Inf where the format has it, else NaN (Table 2.5). -/
def FFmt.infCode (f : FFmt) (neg : Bool) : Nat :=
  match f.top with
  | .ieee => f.withSign neg ((2 ^ f.ebits - 1) * 2 ^ f.mbits)
  | _ => f.canonNaN

/-- Conversion of an exact value to a format under R53 (Table 2.5): the code, and whether it overflowed. -/
def FFmt.convert (f : FFmt) (sat : Bool) (v : FVal) : Nat × Bool :=
  match v with
  | .nan => (f.canonNaN, false)
  | .inf neg => (if sat then f.maxCode neg else f.infCode neg, false)
  | .fin neg m e =>
    if m = 0 then (f.withSign neg 0, false)
    else
      let r := roundMag (f.mbits + 1) f.emin m e
      if cmpMag r.1 r.2 f.maxFinite.1 f.maxFinite.2 = .gt then
        (if sat then f.maxCode neg else f.infCode neg, true)
      else (f.withSign neg (f.codeMag r.1 r.2), false)

/-- Conversion of an FP32 result to an output format: FP32 itself passes unchanged (R53). -/
def convertOut (f : FFmt) (sat : Bool) (v : FVal) : Nat × Bool :=
  if f = fp32 then fp32.convert false v else f.convert sat v

/-- Rounding of an exact value to FP32, as a value again, with an overflow going to ±Inf, or to ± max finite when `sat`
(the accumulator row of Table 2.5); an infinite sum stays infinite. -/
def rneFp32 (sat : Bool) (v : FVal) : FVal × Bool :=
  match v with
  | .nan => (.nan, false)
  | .inf neg => (.inf neg, false)
  | .fin neg m e =>
    if m = 0 then (.fin neg 0 0, false)
    else
      let r := roundMag 24 fp32.emin m e
      if cmpMag r.1 r.2 fp32.maxFinite.1 fp32.maxFinite.2 = .gt then
        (if sat then .fin neg fp32.maxFinite.1 fp32.maxFinite.2 else .inf neg, true)
      else (.fin neg r.1 r.2, false)

/-- RNE_FP32 without saturation. -/
def rne32 (v : FVal) : FVal := (rneFp32 false v).1

def FVal.isNaN : FVal → Bool
  | .nan => true
  | _ => false

def FVal.isInf : FVal → Bool
  | .inf _ => true
  | _ => false

def FVal.isFin : FVal → Bool
  | .fin _ _ _ => true
  | _ => false

/-- A zero. -/
def FVal.isZero : FVal → Bool
  | .fin _ m _ => m == 0
  | _ => false

/-- The sign a value carries. -/
def FVal.neg? : FVal → Bool
  | .nan => false
  | .inf n => n
  | .fin n _ _ => n

/-- The value with the other sign. -/
def FVal.negate : FVal → FVal
  | .nan => .nan
  | .inf n => .inf (!n)
  | .fin n m e => .fin (!n) m e

/-- The exact product (R54, R55). -/
def FVal.mul : FVal → FVal → FVal
  | .nan, _ => .nan
  | _, .nan => .nan
  | .inf a, .inf b => .inf (a != b)
  | .inf a, .fin b m _ => if m = 0 then .nan else .inf (a != b)
  | .fin a m _, .inf b => if m = 0 then .nan else .inf (a != b)
  | .fin a m e, .fin b n g => .fin (a != b) (m * n) (e + g)

/-- Two to an integer power. -/
def FVal.pow2 (e : Int) : FVal := .fin false 1 e

/-- The value of an integer. -/
def FVal.ofInt (i : Int) : FVal := .fin (i < 0) i.natAbs 0

/-- The exact sum of finite values as an integer over 2^e. -/
def sumFin : List FVal → Int × Int
  | [] => (0, 0)
  | .fin neg m e :: vs =>
    let r := sumFin vs
    if m = 0 then r
    else if r.1 = 0 then ((if neg then -(m : Int) else m), e)
    else
      let lo := min e r.2
      let a : Int := (if neg then -(m : Int) else m) * 2 ^ (e - lo).toNat
      (a + r.1 * 2 ^ (r.2 - lo).toNat, lo)
  | _ :: vs => sumFin vs

/-- The exact sum of a list of values (R54, R55): NaN for a NaN addend or for infinities of both signs; an exact zero
is -0 only if every addend is -0. -/
def sumExact (vs : List FVal) : FVal :=
  if vs.any FVal.isNaN then .nan
  else
    let infs := vs.filter FVal.isInf
    if infs.any FVal.neg? && infs.any (fun v => !v.neg?) then .nan
    else match infs with
      | v :: _ => .inf v.neg?
      | [] =>
        let r := sumFin vs
        if r.1 = 0 then .fin (vs.all FVal.neg?) 0 0
        else .fin (r.1 < 0) r.1.natAbs r.2

/-- The exact sum of two values. -/
def FVal.add (a b : FVal) : FVal := sumExact [a, b]

/-- Order of two values that are not NaN, with -0 equal to +0. -/
def FVal.lt (a b : FVal) : Bool :=
  match a, b with
  | .nan, _ => false
  | _, .nan => false
  | .inf n, .inf m => n && !m
  | .inf n, .fin _ _ _ => n
  | .fin _ _ _, .inf m => !m
  | .fin _ _ _, .fin _ _ _ =>
    match sumExact [a, b.negate] with
    | .fin n k _ => n && k != 0
    | _ => false

/-- Maximum of R71: NaN for a NaN operand; max(+0, -0) = +0. -/
def FVal.max71 (a b : FVal) : FVal :=
  if a.isNaN || b.isNaN then .nan
  else if a.lt b then b
  else if b.lt a then a
  else if a.isZero && b.isZero then .fin (a.neg? && b.neg?) 0 0
  else a

/-- Minimum of R71: NaN for a NaN operand; min(+0, -0) = -0. -/
def FVal.min71 (a b : FVal) : FVal :=
  if a.isNaN || b.isNaN then .nan
  else if a.lt b then a
  else if b.lt a then b
  else if a.isZero && b.isZero then .fin (a.neg? || b.neg?) 0 0
  else a

/-! ### The special functions (R59, Table 2.6): exact results, correctly rounded -/

/-- ln 2 in units of 2^-200. -/
def ln2Fixed : Nat := 0xb17217f7d1cf79abc9e3b39803f2f6af40f343267298b62d8a

/-- The sum of y^k ÷ k! from the term given on, in units of 2^-200. -/
def expTerms (y : Nat) : Nat → Nat → Nat → Nat → Nat
  | 0, _, _, acc => acc
  | fuel + 1, k, term, acc =>
    let t := term * y / 2 ^ 200 / k
    if t = 0 then acc else expTerms y fuel (k + 1) t (acc + t)

/-- 2^f for f in units of 2^-200 below 1, in units of 2^-200. -/
def exp2Frac (f : Nat) : Nat :=
  let y := f * ln2Fixed / 2 ^ 200
  expTerms y 80 1 (2 ^ 200) (2 ^ 200)

/-- 2^t, correctly rounded to FP32 (Table 2.6). -/
def exp2 (t : FVal) : FVal :=
  match t with
  | .nan => .nan
  | .inf neg => if neg then .fin false 0 0 else .inf false
  | .fin neg m e =>
    if m = 0 then .fin false 1 0
    else if cmpMag m e 1 10 = .gt then (if neg then .fin false 0 0 else .inf false)
    else
      -- |t| in units of 2^-200, sticky below
      let fixed : Nat := if e + 200 ≥ 0 then m * 2 ^ (e + 200).toNat else m / 2 ^ (-(e + 200)).toNat
      let i : Int := if neg then -((fixed : Int)) else fixed
      let n : Int := i / (2 ^ 200 : Int)
      let f : Nat := (i % (2 ^ 200 : Int)).toNat
      if f = 0 ∧ (fixed ≠ 0) then rne32 (.fin false 1 n)
      else rne32 (.fin false (exp2Frac f * 2 + 1) (n - 201))

/-- 1 ÷ t, correctly rounded to FP32 (Table 2.6). -/
def rcp (t : FVal) : FVal :=
  match t with
  | .nan => .nan
  | .inf neg => .fin neg 0 0
  | .fin neg m e =>
    if m = 0 then .inf neg
    else
      let k := bitLen m + 40
      let q := 2 ^ k / m
      let sticky := if q * m = 2 ^ k then 0 else 1
      rne32 (.fin neg (2 * q + sticky) (-e - (k : Int) - 1))

/-- The integer square root, one binary digit at a time from 2^i down. -/
def isqrtAux (n : Nat) : Nat → Nat → Nat
  | 0, r => if (r + 1) * (r + 1) ≤ n then r + 1 else r
  | i + 1, r =>
    let r' := r + 2 ^ (i + 1)
    isqrtAux n i (if r' * r' ≤ n then r' else r)

/-- The integer square root. -/
def isqrt (n : Nat) : Nat := isqrtAux n (bitLen n / 2 + 1) 0

/-- 1 ÷ √t, correctly rounded to FP32 (Table 2.6). -/
def rsqrt (t : FVal) : FVal :=
  match t with
  | .nan => .nan
  | .inf neg => if neg then .nan else .fin false 0 0
  | .fin neg m e =>
    if m = 0 then .inf neg
    else if neg then .nan
    else
      let m' := if e % 2 = 0 then m else 2 * m
      let e' := if e % 2 = 0 then e else e - 1
      let k := bitLen m' + 40
      let q := isqrt (2 ^ (2 * k) / m')
      let sticky := if q * q * m' = 2 ^ (2 * k) then 0 else 1
      rne32 (.fin false (2 * q + sticky) (-(e' / 2) - (k : Int) - 1))

/-- The pre-step of R59: one fused multiply-add with a single rounding. -/
def fma32 (x a b : FVal) : FVal := rne32 (sumExact [x.mul a, b])

/-! ### FP32 as codes -/

/-- The value of an FP32 code. -/
def f32 (c : Nat) : FVal := fp32.decode c

/-- The FP32 code of a value that FP32 holds. -/
def code32 (v : FVal) : Nat := (fp32.convert false v).1

/-! ### MX and KVS4 (R46, R47, R50) -/

/-- ⌊log2⌋ of a nonzero magnitude. -/
def log2Floor (m : Nat) (e : Int) : Int := (bitLen m : Int) + e - 1

/-- An MX element format: a float format, or MXINT8 (Table 2.4). -/
inductive MxElem where
  | flt (f : FFmt)
  | int8
  deriving DecidableEq, Repr

/-- The bits of an element code. -/
def MxElem.width : MxElem → Nat
  | .flt f => f.width
  | .int8 => 8

/-- The element emax of Table 2.4. -/
def MxElem.emax : MxElem → Nat
  | .flt f => if f = e4m3 then 8 else if f = e5m2 then 15 else if f = e3m2 then 4 else 2
  | .int8 => 0

/-- The value of an element code. -/
def MxElem.value : MxElem → Nat → FVal
  | .flt f, c => f.decode c
  | .int8, c => let i := toSigned 8 c; .fin (i < 0) i.natAbs (-6)

/-- The code of an element rounded to nearest even and saturated (R47 steps 3 and 4). -/
def MxElem.quantise : MxElem → FVal → Nat
  | .flt f, v => (f.convert true v).1
  | .int8, v =>
    match v with
    | .fin neg m e =>
      let s := e + 6
      let k := if s ≥ 0 then m * 2 ^ s.toNat else rneShift m (-s).toNat
      let k := min k 127
      fromSigned 8 (if neg then -(k : Int) else k)
    | _ => 0

/-- The value of an element under its block scale: NaN for scale 0xFF (R46). -/
def mxValue (el : MxElem) (scale code : Nat) : FVal :=
  if scale = 0xFF then .nan else (el.value code).mul (.pow2 ((scale : Int) - 127))

/-- One block quantised under R47: its scale and its element codes. -/
def mxQuantise (el : MxElem) (ys : List FVal) : Nat × List Nat :=
  if ys.any (fun y => y.isNaN || y.isInf) then (0xFF, ys.map (fun _ => 0))
  else
    let logs := ys.filterMap (fun y => match y with
      | .fin _ m e => if m = 0 then none else some (log2Floor m e)
      | _ => none)
    let scale : Nat := match logs with
      | [] => 0
      | l :: ls => (clampInt 0 254 (ls.foldl max l - (el.emax : Int) + 127)).toNat
    let inv := FVal.pow2 (127 - (scale : Int))
    (scale, ys.map (fun y => el.quantise (y.mul inv)))

/-- Codes of width `w` packed from the least significant bit upward (R45). -/
def packCodes (w : Nat) (cs : List Nat) : Bytes :=
  let n := cs.foldr (fun c a => c % 2 ^ w + a * 2 ^ w) 0
  natLe ((cs.length * w + 7) / 8) n

/-- Code `i` of width `w` in a packed byte string (R45). -/
def codeAt (w : Nat) (bs : Bytes) (i : Nat) : Nat :=
  let lo := i * w
  fieldLe bs (lo / 8) ((lo % 8 + w + 7) / 8) / 2 ^ (lo % 8) % 2 ^ w

end Sys2Proof.Machine
end

