-- ==== Sys2Proof/Config.lean ====
section
/-! DEFINITION. What the specification leaves open: values nothing constrains (opaque constants without a body), applied to
a counter of the state or to the operands they depend on.  Each has a row in notes/assumptions. -/

namespace Sys2Proof.Config

/-- A byte whose content the specification leaves undefined: the i-th byte of the k-th free value. [DESIGN CHOICE, log 5; DESIGN CHOICE, log 79] -/
opaque freeByte : Nat → Nat → Byte

/-- A number the specification leaves undefined: the k-th free value. [DESIGN CHOICE, log 5] -/
opaque freeNat : Nat → Nat

/-- Cycles from the last arrival at a barrier to the release of the members of one half (R181): the k-th release, half 0 West
or 1 East.  The specification bounds it. [DESIGN CHOICE, log 51] -/
opaque barrierDelay (k half : Nat) : Nat

/-- ML-DSA-44 verification (FIPS 204): public key, context string, message, signature (R422, R435). [DESIGN CHOICE, log 72] -/
opaque mlDsaVerify (key ctx msg sig : Bytes) : Bool

/-- HashML-DSA-44 verification with SHA3-256 pre-hash (FIPS 204, R432). [DESIGN CHOICE, log 72] -/
opaque hashMlDsaVerify (key ctx msg sig : Bytes) : Bool

/-- An ML-DSA-44 signature (FIPS 204) of a message by the key pair that a 32 B value generates (R431, R433). [DESIGN CHOICE, log 72] -/
opaque mlDsaSign (xi msg : Bytes) : Bytes

/-- The ML-KEM-768 encapsulation key (FIPS 203) that 64 B d ‖ z generate (R431). [DESIGN CHOICE, log 72] -/
opaque kemPublic (dz : Bytes) : Bytes

/-- ML-KEM-768 decapsulation with the key that 64 B d ‖ z generate (R423). [DESIGN CHOICE, log 72] -/
opaque kemDecaps (dz ct : Bytes) : Bytes

/-- ML-KEM-768 encapsulation to a key, with the k-th randomness: shared secret and ciphertext (R433). [DESIGN CHOICE, log 72] -/
opaque kemEncaps (ek : Bytes) (k : Nat) : Bytes × Bytes

/-- A Duntur test token that lets RAW become TEST (Table 13.8). [DESIGN CHOICE, log 73] -/
opaque testTokenOk (token : Bytes) : Bool

/-- A signature of a return token by a Duntur return key whose hash is in ROM (R438). [DESIGN CHOICE, log 73] -/
opaque returnTokenOk (msg sig : Bytes) : Bool

/-- A key hash that the die's ROM lists as Duntur's (R432). [DESIGN CHOICE, log 73] -/
opaque romKeyHash (h : Bytes) : Bool

/-- Measurement 1: the boot ROM and the Keel firmware (Table 13.7). [DESIGN CHOICE, log 73] -/
opaque firmwareDigest : Bytes

/-- The fuse-map repair list, as measured (Table 13.7). [DESIGN CHOICE, log 73] -/
opaque fuseRepairs : Bytes

/-- Byte `i` of the fixed pattern of a canary beat (R244). [DESIGN CHOICE, log 105] -/
opaque canaryByte (i : Nat) : Byte

/-- What a traffic generator with this seed draws as number `i`, for the order of its beats (Table 7.17). [DESIGN CHOICE, log 57] -/
opaque tgPick (seed i : Nat) : Nat

/-- A traffic generator with this seed reads as number `p` of a mixed run (R262). [DESIGN CHOICE, log 57] -/
opaque tgRead (seed p : Nat) : Bool

/-- The MAC an SPDM requester must send in FINISH for a session's secret (SPDM key schedule, R433). [DESIGN CHOICE, log 75] -/
opaque finishMac (secret : Bytes) : Bytes

/-- Duntur's manufacturer identity, bits 11:1 of the IDCODE (R523). [DESIGN CHOICE, log 73] -/
opaque manufacturerId : Nat

/-- The ROM value of S_d of domain d in mW (Table 16.8). [DESIGN CHOICE, log 80] -/
opaque romStatic (d : Nat) : Nat

/-- The ROM value of c_{d,e} in fJ (Table 16.8). [DESIGN CHOICE, log 80] -/
opaque romEvent (d e : Nat) : Nat

/-- k_{d,e}: events of kind e in domain d in tick n that work of partition p caused, 16 standing for none (R451, R455).  The
specification counts physical events that the model does not time. [DESIGN CHOICE, log 80] -/
opaque eventCount (n d e p : Nat) : Nat

/-- The full-rate power of the units of a heavy-phase descriptor in µW (R451, R453). [DESIGN CHOICE, log 80] -/
opaque heavyPower (desc : Bytes) : Nat

/-- Beats of stack k in a Ballast window (R457). [DESIGN CHOICE, log 80] -/
opaque stackBeats (window k : Nat) : Nat

end Sys2Proof.Config
end

