-- ==== Sys2Proof/Machine/Codes.lean ====
section
/-! DEFINITION. The memory codes (R208, R240 to R245): GF(2^8), the wide RS(18,16) code of a setting's byte columns, the
narrow RS(72,64) code of a beat, poison, and the (12,8) Hamming code of a Casket byte. -/

namespace Sys2Proof.Machine

/-! ### GF(2^8) with x^8 + x^4 + x^3 + x^2 + 1 (R240) -/

/-- Multiplication by α = 0x02. -/
def gfDouble (a : Nat) : Nat := if 128 ≤ a then (2 * a) % 256 ^^^ 0x1D else 2 * a

/-- Product, over the bits of `b` from bit 0 up. -/
def gfMulAux : Nat → Nat → Nat → Nat → Nat
  | 0, _, _, acc => acc
  | n + 1, a, b, acc => gfMulAux n (gfDouble a) (b / 2) (if b % 2 = 1 then acc ^^^ a else acc)

/-- Product in GF(2^8). -/
def gfMul (a b : Nat) : Nat := gfMulAux 8 a b 0

/-- α^i. -/
def gfAlpha : Nat → Nat
  | 0 => 1
  | i + 1 => gfDouble (gfAlpha i)

/-- a^n. -/
def gfPow (a : Nat) : Nat → Nat
  | 0 => 1
  | n + 1 => gfMul a (gfPow a n)

/-- The inverse of a nonzero element: a^254. -/
def gfInv (a : Nat) : Nat := gfPow a 254

/-- Σ x_j × α^(i × j). -/
def syndrome (i : Nat) (xs : List Nat) : Nat :=
  (xs.foldl (fun (a : Nat × Nat) x => (a.1 ^^^ gfMul x a.2, gfMul a.2 (gfAlpha i))) (0, 1)).1

/-! ### The wide code (R241, R242, R245) -/

/-- What a decoder makes of what the stack returned. -/
inductive Decoded where
  /-- No error. -/
  | clean (data : Bytes)
  /-- Corrected, with the number of corrections that R273 charges and the dies whose symbols were corrected. -/
  | corrected (data : Bytes) (count : Nat) (dies : List Nat)
  /-- Solved by erasure of die `die`; `found`: the decoder located the die itself (MEM_DIE_LOCATED). -/
  | erased (data : Bytes) (die : Nat) (found : Bool)
  /-- Stored poison. -/
  | poison
  | uncorrectable
  deriving DecidableEq, Repr

/-- Die of the first and of the second check of column c (R241). -/
def check0Die (c : Nat) : Nat := c / 4
def check1Die (c : Nat) : Nat := (c / 4 + 8) % 16

/-- The 18 symbols of column c of a raw setting: 16 beats of 64 data and 8 metadata bytes (R241). -/
def wideColumn (raw : List Bytes) (c : Nat) : List Nat :=
  byteAt (raw.getD (c / 4) []) (64 + c % 4) :: byteAt (raw.getD (check1Die c) []) (68 + c % 4) ::
    (List.range 16).map (fun b => byteAt (raw.getD b []) c)

/-- The two checks of a column of 16 data symbols, x_2 to x_17: those that make S0 and S1 zero (R241). -/
def columnChecks (ds : List Nat) : Nat × Nat :=
  let a := syndrome 0 ds
  let b := gfMul (gfAlpha 2) (syndrome 1 ds)
  let p1 := gfMul (a ^^^ b) (gfInv 3)
  (a ^^^ p1, p1)

/-- The 8 metadata bytes of beat `b` of a wide setting, as one number: p0 of columns 4b to 4b + 3, then p1 of the columns whose second
check lies there (R241). -/
def wideChecks (data : Bytes) (b : Nat) : Nat :=
  let col (c : Nat) : List Nat := (List.range 16).map (fun i => byteAt data (64 * i + c))
  leNat (((List.range 4).map (fun j => BitVec.ofNat 8 (columnChecks (col (4 * b + j))).1)) ++
    (List.range 4).map (fun j => BitVec.ofNat 8 (columnChecks (col (4 * ((b + 8) % 16) + j))).2))

/-- (S0, S1) of a column. -/
def wideSyndromes (x : List Nat) : Nat × Nat := (syndrome 0 x, syndrome 1 x)

/-- Symbol positions of die a in column c (R242). -/
def diePositions (a c : Nat) : List Nat :=
  (a + 2) :: (if a = check0Die c then [0] else if a = check1Die c then [1] else [])

/-- A column with the symbols at one or two positions solved as erasures. -/
def solveErasures (x : List Nat) (ps : List Nat) : List Nat :=
  let s := wideSyndromes x
  match ps with
  | [i] => x.set i (x.getD i 0 ^^^ s.1)
  | [i, j] =>
    let ai := gfAlpha i
    let aj := gfAlpha j
    let ej := gfMul (s.2 ^^^ gfMul ai s.1) (gfInv (ai ^^^ aj))
    (x.set j (x.getD j 0 ^^^ ej)).set i (x.getD i 0 ^^^ s.1 ^^^ ej)
  | _ => x

/-- The setting's 1,024 data bytes from its 64 columns. -/
def wideData (cols : List (List Nat)) : Bytes :=
  ((List.range 16).map (fun b => cols.map (fun x => BitVec.ofNat 8 (x.getD (b + 2) 0)))).flatten

/-- The position i below 18 with S1 = α^i × S0, if any. -/
def singleAt (s : Nat × Nat) : Option Nat :=
  if s.1 = 0 ∨ s.2 = 0 then none else (List.range 18).find? (fun i => gfMul (gfAlpha i) s.1 == s.2)

/-- The die of symbol position i in column c (R241). -/
def symbolDie (c i : Nat) : Nat := if i = 0 then check0Die c else if i = 1 then check1Die c else i - 2

/-- The dies on which single symbols are corrected, from the columns' syndromes. -/
def correctedDies (syn : List (Nat × Nat)) : List Nat :=
  ((syn.mapIdx (fun c s => (singleAt s).map (symbolDie c))).filterMap id).eraseDups

/-- The decoder of R242, with the dead die of a group in permanent erasure mode or the erased die of a degraded one.  A column whose
checks both lie on other dies has one unknown and two syndromes: where they disagree a further error is there, and the setting does
not decode (R242's residual, R287, Example 8.1). [DEDUCED, log 62] -/
def decodeWide (dead : Option Nat) (raw : List Bytes) : Decoded :=
  let cols := (List.range 64).map (wideColumn raw)
  let syn := cols.map wideSyndromes
  let solve (a : Nat) := wideData (cols.mapIdx (fun c x => solveErasures x (diePositions a c)))
  let badCols := syn.filter (fun s => s != (0, 0))
  if badCols.isEmpty then .clean (wideData cols)
  else match dead with
    | some a =>
      let zeroed := cols.mapIdx (fun c x => (diePositions a c).foldl (fun y i => y.set i 0) x)
      let poisonAll := (List.range 64).all (fun c =>
        check0Die c == a || check1Die c == a ||
          (let s := wideSyndromes (zeroed.getD c []); s.2 ^^^ gfMul (gfAlpha (a + 2)) s.1 == 0xFF))
      let agree := (List.range 64).all (fun c =>
        check0Die c == a || check1Die c == a ||
          (let s := syn.getD c (0, 0); s.2 ^^^ gfMul (gfAlpha (a + 2)) s.1 == 0))
      if poisonAll then .poison else if agree then .erased (solve a) a false else .uncorrectable
    | none =>
      if syn.all (fun s => s == (0, 0xFF)) then .poison
      else if badCols.length ≤ 8 && badCols.all (fun s => (singleAt s).isSome) then
        .corrected (wideData ((cols.zip syn).map (fun cs =>
          match singleAt cs.2 with
          | some i => if cs.2 = (0, 0) then cs.1 else cs.1.set i (cs.1.getD i 0 ^^^ cs.2.1)
          | none => cs.1))) badCols.length (correctedDies syn)
      else
        let cand := (List.range 16).filter (fun a => (List.range 64).all (fun c =>
          check0Die c == a || check1Die c == a ||
            (let s := syn.getD c (0, 0); s.2 ^^^ gfMul (gfAlpha (a + 2)) s.1 == 0)))
        match cand with
        | [a] => .erased (solve a) a true
        | _ => .uncorrectable

/-! ### The narrow code (R243, R245) -/

/-- The symbols of a raw beat of 72 bytes: its 8 metadata bytes, then its 64 data bytes (R243). -/
def narrowSymbols (raw : Bytes) : List Nat :=
  ((raw.drop 64).map BitVec.toNat) ++ ((raw.take 64).map BitVec.toNat)

/-- The generator polynomial of the narrow code without its leading 1, lowest coefficient first: the product of (x + α^i), i from 0 to
7. -/
def narrowGenerator : List Nat :=
  ((List.range 8).foldl (fun (g : List Nat) i =>
    let c := gfAlpha i
    (List.range (g.length + 1)).map (fun j => (if j = 0 then 0 else g.getD (j - 1) 0) ^^^ gfMul c (g.getD j 0))) [1]).take 8

/-- One data symbol, from x_71 down to x_8, enters the division by the generator. -/
def narrowShift (r : List Nat) (x : Nat) : List Nat :=
  let f := x ^^^ r.getD 7 0
  (List.range 8).map (fun j => (if j = 0 then 0 else r.getD (j - 1) 0) ^^^ gfMul f (narrowGenerator.getD j 0))

/-- The 8 metadata bytes of a narrow beat of 64 data bytes, as one number: the checks x_0 to x_7 that make S_0 to S_7 zero (R243). -/
def narrowChecks (data : Bytes) : Nat :=
  leNat (((data.map BitVec.toNat).reverse.foldl narrowShift (List.replicate 8 0)).map (fun x => BitVec.ofNat 8 x))

/-- What R245 exclusive-ors into the 8 check bytes of a beat to store poison. -/
def poisonMask : Nat := 0x5555555555555555

/-- The 8 syndromes. -/
def narrowSyndromes (xs : List Nat) : List Nat := (List.range 8).map (fun i => syndrome i xs)

/-! ### Bounded-distance decoding (R243, R355) -/

/-- The field of a Reed-Solomon code: product, inverse, the powers of α, and the order of α. -/
structure CodeField where
  mul : Nat → Nat → Nat
  inv : Nat → Nat
  alpha : Nat → Nat
  order : Nat

/-- Value of a polynomial (lowest coefficient first) at a point. -/
def CodeField.eval (F : CodeField) (p : List Nat) (x : Nat) : Nat := p.foldr (fun c a => c ^^^ F.mul x a) 0

/-- Sum of two polynomials. -/
def polyAdd : List Nat → List Nat → List Nat
  | [], q => q
  | p, [] => p
  | a :: p, b :: q => (a ^^^ b) :: polyAdd p q

/-- Polynomial times a constant times x^k. -/
def CodeField.scale (F : CodeField) (c k : Nat) (p : List Nat) : List Nat := List.replicate k 0 ++ p.map (F.mul c)

/-- Product of two polynomials, to degree below `n`. -/
def CodeField.polyMul (F : CodeField) (n : Nat) (p q : List Nat) : List Nat :=
  ((p.mapIdx (fun i c => F.scale c i q)).foldl polyAdd []).take n

/-- The running state of Berlekamp and Massey's algorithm. -/
structure BmState where
  c : List Nat
  b : List Nat
  l : Nat
  m : Nat
  bb : Nat

/-- One step of the algorithm at syndrome n. -/
def CodeField.bmStep (F : CodeField) (syn : List Nat) (st : BmState) (n : Nat) : BmState :=
  let d := ((List.range (st.l + 1)).map (fun i => F.mul (st.c.getD i 0) (syn.getD (n - i) 0))).foldl (fun a x => a ^^^ x) 0
  if d = 0 then { st with m := st.m + 1 }
  else
    let c' := polyAdd st.c (F.scale (F.mul d (F.inv st.bb)) st.m st.b)
    if 2 * st.l ≤ n then ⟨c', st.c, n + 1 - st.l, 1, d⟩ else { st with c := c', m := st.m + 1 }

/-- The error locator of a list of syndromes, and its length. -/
def CodeField.locator (F : CodeField) (syn : List Nat) : List Nat × Nat :=
  let st := (List.range syn.length).foldl (F.bmStep syn) ⟨[1], [1], 0, 1, 1⟩
  (st.c, st.l)

/-- The errors, as positions below `n` and values, that explain the syndromes with at most `t` of them. -/
def CodeField.errors (F : CodeField) (t n : Nat) (syn : List Nat) : Option (List (Nat × Nat)) :=
  let loc := F.locator syn
  let at_ (i : Nat) : Nat := F.alpha (F.order - i)
  let pos := (List.range n).filter (fun i => F.eval loc.1 (at_ i) == 0)
  if loc.2 = 0 ∨ t < loc.2 ∨ pos.length ≠ loc.2 then none
  else
    let omega := F.polyMul syn.length syn loc.1
    let deriv := loc.1.mapIdx (fun i c => if i % 2 = 1 then c else 0) |>.drop 1
    some (pos.map (fun i => (i, F.mul (F.alpha i) (F.mul (F.eval omega (at_ i)) (F.inv (F.eval deriv (at_ i)))))))

/-- The symbols with the errors taken out. -/
def takeErrors (xs : List Nat) (es : List (Nat × Nat)) : List Nat := es.foldl (fun y e => y.set e.1 (y.getD e.1 0 ^^^ e.2)) xs

/-- GF(2^8) (R240). -/
def gf8 : CodeField := ⟨gfMul, gfInv, gfAlpha, 255⟩

/-- Bounded-distance decoding of a beat (R243): up to 4 symbol errors corrected, any other pattern uncorrectable; the poison
mask is recognised first (R245). -/
def decodeNarrow (raw : Bytes) : Decoded :=
  let xs := narrowSymbols raw
  let syn := narrowSyndromes xs
  let mask := narrowSyndromes (List.replicate 8 0x55 ++ List.replicate 64 0)
  if syn.all (fun x => x == 0) then .clean (raw.take 64)
  else if syn = mask then .poison
  else match gf8.errors 4 72 syn with
    | none => .uncorrectable
    | some es =>
      let ys := takeErrors xs es
      if (narrowSyndromes ys).all (fun x => x == 0) then
        .corrected ((ys.drop 8).map (fun x => BitVec.ofNat 8 x)) es.length []
      else .uncorrectable

/-! ### The byte code (R208) -/

/-- The (12,8) codeword of a byte: its bits at positions 3, 5, 6, 7, 9, 10, 11 and 12, and check bits at 1, 2, 4 and 8 (R208). -/
def hammingEncode (b : Nat) : Nat :=
  let d := ([2, 4, 5, 6, 8, 9, 10, 11].mapIdx (fun j i => flag (bit b j) * 2 ^ i)).sum
  let x := (List.range 12).foldl (fun a i => if bit d i then a ^^^ (i + 1) else a) 0
  d + flag (bit x 0) + flag (bit x 1) * 2 + flag (bit x 2) * 8 + flag (bit x 3) * 128

/-- A (12,8) Hamming codeword's syndrome: the exclusive-or of the positions, 1 to 12, of its set bits. -/
def hammingSyndrome (w : Nat) : Nat :=
  (List.range 12).foldl (fun a i => if bit w i then a ^^^ (i + 1) else a) 0

/-- Data bits of a codeword: positions 3, 5, 6, 7, 9, 10, 11 and 12. -/
def hammingData (w : Nat) : Nat :=
  ([2, 4, 5, 6, 8, 9, 10, 11].foldl (fun (a : Nat × Nat) i => (a.1 + flag (bit w i) * a.2, 2 * a.2)) (0, 1)).1

/-- Decoding of a stored byte: none when the syndrome names no single bit; else the byte and whether a bit was corrected. [DEDUCED, log 47] -/
def hammingDecode (w : Nat) : Option (Nat × Bool) :=
  let s := hammingSyndrome w
  if s = 0 then some (hammingData w, false)
  else if s ≤ 12 then some (hammingData (w ^^^ 2 ^ (s - 1)), true)
  else none

end Sys2Proof.Machine
end

