-- ==== Sys2Proof/Machine/SMap.lean ====
section
/-! DEFINITION. Families of like things, indexed by a number: kept as a list of (index, value) pairs in one
canonical form, indices strictly rising and no entry equal to the family's default value, so that equal families are
equal lists.  Memory is the same list over bytes (`Host.Cell`). -/

namespace Sys2Proof.Machine

/-- A sparse family of values. -/
abbrev SMap (α : Type) := List (Nat × α)

/-- The member at index `n`; an unlisted member has the default value `d`. [DEDUCED, log 7] -/
def SMap.get {α : Type} (d : α) : SMap α → Nat → α
  | [], _ => d
  | (k, v) :: m, n => if n = k then v else SMap.get d m n

/-- Put the member at `n`, keeping the indices rising. -/
def SMap.put {α : Type} : SMap α → Nat → α → SMap α
  | [], n, x => [(n, x)]
  | (k, v) :: m, n, x =>
    if n < k then (n, x) :: (k, v) :: m
    else if n = k then (n, x) :: m
    else (k, v) :: SMap.put m n x

/-- Remove the member at `n`, which then has the default value. -/
def SMap.del {α : Type} (m : SMap α) (n : Nat) : SMap α :=
  m.filter (fun e => e.1 != n)

/-- Write the member at `n`, keeping the canonical form. -/
def SMap.set {α : Type} [DecidableEq α] (d : α) (m : SMap α) (n : Nat) (x : α) : SMap α :=
  if x = d then SMap.del m n else SMap.put m n x

/-- Change the member at `n`. -/
def SMap.upd {α : Type} [DecidableEq α] (d : α) (m : SMap α) (n : Nat) (f : α → α) : SMap α :=
  SMap.set d m n (f (SMap.get d m n))

/-- Write the members from `n` on, one after another. -/
def SMap.setList {α : Type} [DecidableEq α] (d : α) (m : SMap α) (n : Nat) : List α → SMap α
  | [] => m
  | x :: xs => SMap.setList d (SMap.set d m n x) (n + 1) xs

/-- The members from `n` on, `len` of them. -/
def SMap.getList {α : Type} (d : α) (m : SMap α) (n : Nat) : Nat → List α
  | 0 => []
  | len + 1 => SMap.get d m n :: SMap.getList d m (n + 1) len

/-- Keep only the members whose index satisfies `p`. -/
def SMap.keep {α : Type} (p : Nat → Bool) (m : SMap α) : SMap α :=
  m.filter (fun e => p e.1)

/-- Members with an index in [lo, hi) take the default value. -/
def SMap.clear {α : Type} (m : SMap α) (lo hi : Nat) : SMap α :=
  SMap.keep (fun i => decide (i < lo) || decide (hi ≤ i)) m

/-- The indices rise strictly, from above the bound. -/
def SMap.rising {α : Type} : Option Nat → SMap α → Bool
  | _, [] => true
  | none, (k, _) :: m => SMap.rising (some k) m
  | some b, (k, _) :: m => decide (b < k) && SMap.rising (some k) m

/-- The canonical form. -/
def SMap.wf {α : Type} [DecidableEq α] (d : α) (m : SMap α) : Bool :=
  SMap.rising none m && m.all (fun e => decide (e.2 ≠ d))

end Sys2Proof.Machine
end

