-- ==== Sys2Proof/Machine/State.lean ====
section
/-! DEFINITION. The state of the device (everything the spec gives it), the reasons a step can stop, and the state
after reset.  Each field's docstring names the register or the rule that gives it; INVENTORY.md lists them all.  A
field that is a family of like things is an `SMap` whose default member is the family's value at reset. -/

namespace Sys2Proof.Machine

/-! ### The tick (01_tick.md) -/

/-- The TICK block and what the tick keeps behind it (R11 to R37). [DESIGN CHOICE, log 6] -/
structure Tick where
  /-- TICK.CFG.period_us (R11, Table 1.5). -/
  periodUs : Nat := 20
  /-- TICK.CFG.overrun_pct (R27, Table 1.5). -/
  overrunPct : Nat := 10
  /-- TICK.COUNT (R12). -/
  count : Nat := 0
  /-- TICK.TIME in whole nanoseconds (R12). -/
  time : Nat := 0
  /-- The fraction of TICK.TIME, in 2^-32 ns, kept inside the device (R12). -/
  frac : Nat := 0
  /-- The tick epoch E (R13). -/
  epoch : Nat := 0
  /-- TICK.PHASE.phase: 0 Admit, 1 Run, 2 Settle (Table 1.6). -/
  phase : Nat := 0
  /-- TICK.TRIM, signed (Table 1.7). -/
  trim : Int := 0
  /-- TICK.ALIGN.offset_ns, signed (Table 1.8). -/
  offsetNs : Int := 0
  /-- TICK.ALIGN.reference (Table 1.8). -/
  reference : Bool := false
  /-- TICK.ALIGN.aligned (Table 1.8). -/
  aligned : Bool := false
  /-- TICK.ALIGN.member (Table 1.8). -/
  member : Bool := false
  /-- Consecutive ticks whose measured offset lay outside ±25 ns (R33). -/
  outside : Nat := 0
  /-- Consecutive ticks whose measured offset lay within ±25 ns (R33). -/
  inside : Nat := 0
  /-- Alignment is lost: TICK_ALIGN_LOST has been posted and not yet TICK_ALIGN_REGAINED (R33). -/
  lost : Bool := false
  /-- TICK.FREQ.local (Table 1.9). -/
  localP : Nat := 7
  /-- TICK.FREQ.agreed (Table 1.9). -/
  agreedP : Nat := 7
  /-- TICK.FREQ.current (Table 1.9). -/
  currentP : Nat := 7
  /-- TICK.FREQ.deferred (Table 1.9). -/
  deferred : Bool := false
  /-- TICK.FREQ_AT (R37). -/
  freqAt : Nat := 0
  /-- TICK.OVR[p].overruns (Table 1.10). -/
  overruns : SMap Nat := []
  /-- TICK.OVR[p].aborts (Table 1.10). -/
  aborts : SMap Nat := []
  /-- TICK.SLIP[p].slips (Table 1.11). -/
  slips : SMap Nat := []
  /-- TICK.TIME of the last droop event, for the look-back of R30. -/
  lastDroop : Option Nat := none
  deriving DecidableEq, Repr

/-! ### Sail engines and attention (02_sail_arithmetic.md, 03_attention_service.md) -/

/-- One sequence slot: SAIL.SLOT_STATE, SAIL.SLOT_LEN, and the control plane's copy of its record (R80 to R84).
`state`: 0 closed, 1 open, 2 closing. -/
structure Slot where
  state : Nat := 0
  generation : Nat := 0
  partition : Nat := 0
  len : Nat := 0
  pencil : Nat := 0
  record : Bytes := []
  /-- List positions of its groups that have been mapped out since it opened (R102). -/
  moved : List Nat := []
  /-- The state and the pencil depth that SAIL.SLOT_STATE and SAIL.SLOT_LEN show: as the last Settle phase left them (R115). -/
  shownState : Nat := 0
  shownPencil : Nat := 0
  deriving DecidableEq, Repr

/-- SAIL.ERR[n], SAIL.BUSY[n] and SAIL.MACS[n] of one engine (Tables 2.19 to 2.21). -/
structure Engine where
  residue : Nat := 0
  corrected : Nat := 0
  busy : Nat := 0
  macs : Nat := 0
  deriving DecidableEq, Repr

/-- The SAIL block and the slots (R38 to R115). [DESIGN CHOICE, log 6; DESIGN CHOICE, log 49] -/
structure Sail where
  /-- The configured set of engines (R500). -/
  configured : Nat := 0xFFFFFFFF
  /-- SAIL.ENABLED.mask as it reads in this tick (Table 2.17). -/
  enabled : Nat := 0xFFFFFFFF
  /-- SAIL.FENCED.mask (Table 2.18). -/
  fenced : Nat := 0
  /-- SAIL.ERR[n], SAIL.BUSY[n] and SAIL.MACS[n] of each engine (Tables 2.19 to 2.21). -/
  engines : SMap Engine := []
  /-- SAIL.KVR_BASE[p] and SAIL.KVR_LIMIT[p] (Table 3.12). -/
  kvrBase : SMap Nat := []
  kvrLimit : SMap Nat := []
  /-- The 1,024 sequence slots (R80). -/
  slots : SMap Slot := []
  /-- The device generation counter (R83). -/
  generation : Nat := 0
  deriving DecidableEq, Repr

/-! ### Bead tiles (04_bead_cores.md) -/

/-- What stalls a core (R120, R122, R176, R177, R181): nothing, WFI in a tick, a full TX channel, an empty RX channel, an RX
count, a barrier, or the next frame. -/
inductive Stall where
  | none
  | wfi (tick : Nat)
  | tx (c : Nat)
  | rx (c : Nat)
  | await (c n : Nat)
  | barrier (b : Nat)
  | frame
  deriving DecidableEq, Repr

/-- One 32 B mesh word, with its flow id and its poison (R172, R184). -/
structure MeshWord where
  data : Bytes
  flow : Nat
  poison : Bool
  deriving DecidableEq, Repr

/-- One router-port channel (R177 to R179).  `fifo` holds, with each word, the core cycle from which it can be taken. -/
structure Channel where
  dmemMode : Bool := false
  length : Nat := 0
  base : Nat := 0
  count : Nat := 0
  fifo : List (Nat × MeshWord) := []
  /-- The staging bytes of a TX channel, by offset. -/
  staging : SMap Byte := []
  /-- Words delivered to an RX channel in DMEM mode, each with the core cycle from which it is there (R164, R178). -/
  landing : List (Nat × MeshWord) := []
  deriving DecidableEq, Repr

/-- How a bead's program ended (R151): by ECALL with its exit value, or trapped, with the cause, mepc, mtval and whether the
access was in the Casket window. -/
inductive BeadEnd where
  | exit (a0 : Nat)
  | trap (cause epc tval : Nat) (window : Bool)
  deriving DecidableEq, Repr

/-- One tile: its core, its memories, its router ports and its router (R116 to R204). -/
structure Tile where
  /-- IMEM and DMEM by offset (R116). -/
  imem : List Host.Cell := []
  dmem : List Host.Cell := []
  /-- Words of DMEM (by word index) that are uncorrectable (R118, R224). -/
  dmemBad : SMap Bool := []
  /-- Words of IMEM (by word index) that are uncorrectable, and words with one upset bit: IMEM word w at w, DMEM word w at 4096 + w
  (R118). -/
  imemBad : SMap Bool := []
  weak : SMap Bool := []
  /-- What the partition reset that follows has to rewrite (R156): memory 0 IMEM, 1 DMEM, 2 register file, and its address. -/
  failing : List (Nat × Nat) := []
  /-- The count of its half's clock at which its program starts, or its table and IMEM are written (R150, R193, R194). -/
  origin : Nat := 0
  /-- It writes its slot table and IMEM for a LOAD (R193). -/
  loads : Bool := false
  /-- MESH.TILE[t].partition: the partition the tile is assigned to (R119). -/
  partition : Option Nat := none
  /-- MESH.BEAD_STATE[t].state: 0 idle, 1 loading, 2 running, 3 halted (Table 4.16; a fenced core reads 4). -/
  state : Nat := 0
  /-- MESH.TILE[t].core_fenced and router_fenced (R156, R201). -/
  coreFenced : Bool := false
  routerFenced : Bool := false
  /-- The flight of the LAUNCH or RUN whose program runs here, and whether that is a RUN (R182). -/
  prog : Option Nat := none
  inRun : Bool := false
  /-- MESH.BEAD_STATE[t].launch_tick and partition (Table 4.16). -/
  launchTick : Nat := 0
  progPart : Nat := 0
  /-- The integer registers, x1 to x31, and the vector registers (R129). -/
  regs : SMap W32 := []
  vregs : SMap (BitVec 128) := []
  /-- The program counter (R119, R150). -/
  pc : W32 := 0
  /-- The CSRs a program can write (Table 4.2). -/
  mtvec : W32 := 0
  mscratch : W32 := 0
  mepc : W32 := 0
  mcause : W32 := 0
  mtval : W32 := 0
  lseCfg : W32 := 0
  lseSmooth : W32 := 0
  claspId : W32 := 0
  /-- mcycle: the cycle, counted from the start of the program, at which the next instruction starts (R120). -/
  cycle : Nat := 0
  /-- minstret. -/
  instret : Nat := 0
  /-- bead.status.trap_active (R155). -/
  trapActive : Bool := false
  /-- Clasp signals queued, and the tick in which (R146). -/
  signals : Nat := 0
  signalTick : Nat := 0
  /-- What stalls the core (R120, R122). -/
  stall : Stall := .none
  /-- How the last program ended. -/
  ended : Option BeadEnd := none
  /-- Uncorrectable errors since the last cold restart (R156). -/
  memErrors : Nat := 0
  /-- MESH.BEAD_ERR[t] (Table 4.17). -/
  corrected : Nat := 0
  uncorrectable : Nat := 0
  traps : Nat := 0
  /-- The channels of the router-port region (Table 5.7). -/
  tx : SMap Channel := []
  rx : SMap Channel := []
  /-- The router's slot table (R169). -/
  table : List Nat := []
  /-- MESH.ROUTER_ERR[t]: word-check failures by input (0 N, 1 E, 2 S, 3 W), and corrected slot-table errors. -/
  checkFails : SMap Nat := []
  tableCorrected : Nat := 0
  /-- Word-check failures by input since the last cold restart (R184), and the cause of a router fault that has been detected and
  not yet acted on (R201): 0 none. -/
  checkSeen : SMap Nat := []
  routerFault : Nat := 0
  deriving DecidableEq, Repr

/-! ### The mesh (05_mesh_filigree.md) -/

/-- A reduction declaration (Table 5.11). -/
structure Reduction where
  id : Nat
  inputs : Nat
  headDim : Nat
  records : Nat
  destTile : Nat
  destChan : Nat
  frame : Nat
  inputTiles : List Nat
  deriving DecidableEq, Repr

/-- A barrier of a run (R181): its members, who has arrived in the current generation and when, the generation, and who has
arrived in the generation released last and not yet waited. -/
structure Barrier where
  index : Nat
  members : List Nat
  arrived : List (Nat × Nat) := []
  generation : Nat := 0
  passed : List Nat := []
  /-- The cycles at which the members of the West and of the East half were released last. -/
  releaseWest : Nat := 0
  releaseEast : Nat := 0
  deriving DecidableEq, Repr

/-- What a router's reduction unit holds of the two records it merges (R175): the words issued so far, the two factors, and
the two operands' second halves of word 0 are gone into the result's word 0. -/
structure LseHold where
  issued : Nat
  total : Nat
  factorA : Nat
  factorB : Nat
  /-- Word 0 of an operand was poisoned (R184). -/
  poison : Bool
  deriving DecidableEq, Repr

/-- The frames of a run (R195, R196).  Cycles are counted from the start of the programs; slots from the first frame of the
tick. -/
structure RunState where
  flight : Nat
  /-- The tick in which it started, and its tick count b. -/
  startTick : Nat
  ticks : Nat
  /-- The tick whose frames are being run, and how many of them have ended. -/
  frameTick : Nat
  /-- The half whose clock counts its cycles, and U_m of each of its ticks, as counts of that clock (R194, R195). -/
  half : Nat := 0
  phases : List (Nat × Nat) := []
  /-- Frames of that tick that have ended (R195). -/
  framesDone : Nat := 0
  /-- A frame is running; its first cycle; the slots of it that have been applied. -/
  inFrame : Bool := false
  frameStart : Nat := 0
  slot : Nat := 0
  /-- The cycle after the last frame. -/
  lastEnd : Nat := 0
  /-- Words on links: (arrival slot, tile, input 1 N to 4 W, word). -/
  transit : List (Nat × Nat × Nat × MeshWord) := []
  /-- Reduction results: (slot, tile, word). -/
  results : List (Nat × Nat × MeshWord) := []
  /-- What the reduction unit of a tile holds (R175). -/
  holds : SMap (Option LseHold) := []
  /-- Words taken from the X input of a Sail port tile in this frame. -/
  taken : SMap Nat := []
  /-- The barriers of the run (R181). -/
  barriers : List Barrier := []
  /-- The first schedule fault: tile, kind. -/
  fault : Option (Nat × Nat) := none
  /-- Hardware faults the routers meet in the running frame (R184, R201). -/
  hard : List MeshFault := []
  deriving DecidableEq, Repr

/-- The schedule of one partition: MESH.SCHED[p], MESH.SCHED_FAULT[p], and the tables behind them (R185 to R197). -/
structure Sched where
  /-- 0 none; 2 loaded; 3 running (Table 5.20); a LOAD in flight makes 0 read as 1. -/
  state : Nat := 0
  /-- MESH.SCHED[p].frames, frame_len and seam, and the frame offset of its header (Table 5.20, R185). -/
  frames : Nat := 0
  frameLen : Nat := 0
  offset : Nat := 0
  seam : Bool := false
  /-- TILES: tile and program index, 0xFFFF for a router-only tile. -/
  tiles : List (Nat × Nat) := []
  /-- PROGRAMS: index and entry address. -/
  programs : List (Nat × Nat) := []
  /-- The reduction declarations (Table 5.11). -/
  reductions : List Reduction := []
  /-- The barrier declarations: index and members (R190). -/
  barriers : List (Nat × List Nat) := []
  /-- The run in progress (R195). -/
  run : Option RunState := none
  /-- MESH.SCHED_FAULT[p]: misses, drops, overflows, other (Table 5.21). -/
  misses : Nat := 0
  drops : Nat := 0
  overflows : Nat := 0
  other : Nat := 0
  /-- The tick of the last MESH_SCHED_FAULT. -/
  faultTick : Option Nat := none
  deriving DecidableEq, Repr

/-- The records an out_mode 2 ATTEND offers (R199): one list of records per part; `discarded` parts supply empties with the
discarded flag. -/
structure Offer where
  part : Nat
  tag : Nat
  engine : Nat
  reduction : Nat
  /-- The tick in which the ATTEND completed. -/
  tick : Nat
  /-- The records offered, the parts that are discarded, and whether a frame has taken them (R199). -/
  records : List Bytes
  discarded : List Nat
  taken : Bool
  deriving DecidableEq, Repr

/-- The mesh (R161 to R204). -/
structure Mesh where
  /-- Bead numbers assigned at start-up (R4): none before it. -/
  beads : Nat := 0
  /-- Tiles without a bead number because they failed self-test, in ascending order (R4). -/
  skipped : List Nat := []
  /-- The schedules, by partition (R185). -/
  scheds : SMap Sched := []
  /-- The offers of ATTENDs (R199). -/
  offers : List Offer := []
  /-- MESH.SEAM: refusals, last_reason, the halves' P-states (Table 5.19). -/
  seamRefusals : Nat := 0
  seamReason : Nat := 0
  westP : Nat := 7
  eastP : Nat := 7
  /-- What the arithmetic clocks of the halves have counted up to TICK.TIME `clockAt` (R117, Table 14.2). -/
  clockAt : Nat := 0
  clockWest : Nat := 0
  clockEast : Nat := 0
  /-- What they had counted when the running tick's Run phase began: U_n (R194). -/
  runWest : Nat := 0
  runEast : Nat := 0
  deriving DecidableEq, Repr

/-! ### The Casket and movers (06_casket.md) -/

/-- CASKET.OWN[s]: the requested and the current value of its owner, owned and stage fields (R212, Table 6.8), each
held as the register's bits 47:0. -/
structure CasketOwn where
  requested : Nat := 0
  current : Nat := 0
  deriving DecidableEq, Repr

/-- CASKET.ERR[s] (Table 6.9). -/
structure CasketErr where
  corrected : Nat := 0
  uncorrectable : Nat := 0
  crcMismatch : Nat := 0
  deriving DecidableEq, Repr

/-- One checked window (Tables 6.10, 6.11). -/
structure ChkWindow where
  base : Nat := 0
  limit : Nat := 0
  table : Nat := 0
  deriving DecidableEq, Repr

/-- One 64 B line of a pending store (R229): the Casket address it is for, the prefetch that holds it, its bytes with
their poison. -/
structure PendingLine where
  flight : Nat
  addr : Nat
  data : List (Byte × Bool)
  /-- A byte of it has become uncorrectable in the store (R247). -/
  upset : Bool := false
  deriving DecidableEq, Repr

/-- A store through a Casket window that another bead of the same launch need not see yet (R144): the tile and the flight of the
store, its address, the bytes before and after it, and the core cycle from which it is visible. -/
structure LateStore where
  tile : Nat
  flight : Nat
  addr : Nat
  old : List (Byte × Bool)
  new : List (Byte × Bool)
  until_ : Nat
  deriving DecidableEq, Repr

/-- The Casket (R205 to R231). -/
structure Casket where
  /-- The bytes, by Casket address (R206). -/
  bytes : List Host.Cell := []
  /-- Bytes whose codeword is uncorrectable (R209, R224). -/
  bad : SMap Bool := []
  /-- Upset bits of a byte's codeword, by Casket address: what its 12 cells hold exclusive-or the codeword of the byte (R208). -/
  errs : SMap Nat := []
  /-- The latest window stores, oldest first (R144). -/
  late : List LateStore := []
  /-- The epochs of the slices (R292). -/
  epochs : SMap Nat := []
  /-- The side table: the checksum of each block with a valid entry, by block number (R215). -/
  side : SMap (Option Nat) := []
  /-- CASKET.OWN[s] (Table 6.8). -/
  own : SMap CasketOwn := []
  /-- CASKET.ERR[s] (Table 6.9). -/
  err : SMap CasketErr := []
  /-- Checked window w of partition p at index 4p + w. -/
  chk : SMap ChkWindow := []
  /-- CASKET.MOVED[p]: bytes moved (Table 6.12). -/
  moved : SMap Nat := []
  /-- The pending store (R229). -/
  pending : List PendingLine := []
  /-- Fenced slices (R279). -/
  fenced : SMap Bool := []
  /-- Codewords the patrol scrub has visited in its running pass, per slice (R210). -/
  scrubbed : SMap Nat := []
  deriving DecidableEq, Repr

/-! ### Memory stacks (07_memory.md) -/

/-- MEM.GROUP[n] and what a hold keeps behind it (Table 7.11, R283 to R286, R292). -/
structure Group where
  wide : Bool := true
  state : Nat := 0
  deadDie : Option Nat := none
  epoch : Nat := 0
  /-- TICK.TIME of the first held cycle (R283). -/
  holdStart : Nat := 0
  /-- Retrain attempts failed (R284). -/
  attempts : Nat := 0
  /-- Pseudo-channel (0 to 15 of the group) whose retrain or repair holds the group. -/
  heldPc : Nat := 0
  /-- The state a hold that ends in time returns to (R283). -/
  formerState : Nat := 0
  /-- Granules marked in the rebuild map (R284). -/
  rebuild : List Nat := []
  /-- The die is treated as an erasure in state 2 (R284). -/
  erased : Option Nat := none
  /-- MEM_DIE_LOCATED has been posted for the group (R242). -/
  located : Bool := false
  /-- The group has left self refresh and is not yet recalibrated: no access goes to it (R293). -/
  recal : Bool := false
  /-- The die has rejoined and its rebuild runs (R293). -/
  rejoining : Bool := false
  /-- MEM.GROUP[n].state as it reads: the state at the last tick boundary (R285). -/
  shown : Nat := 0
  deriving DecidableEq, Repr

/-- MEM.STACK[k] (Table 7.12). -/
structure Stack where
  tempC : Nat := 0
  duty : Nat := 16
  cattrip : Bool := false
  refresh2x : Bool := false
  present : Bool := false
  deriving DecidableEq, Repr

/-- MEM.REG[b] with the values in force, and MEM.REG_STAT[b] (R252, Tables 7.13, 7.14). -/
structure Bucket where
  rate : Nat := 0xFFFFFFFF
  depth : Nat := 0xFFFFFFFF
  rateNow : Nat := 0xFFFFFFFF
  count : Int := 0
  shownCount : Int := 0
  waitTicks : Nat := 0
  /-- An access has waited in this tick (R253). -/
  waited : Bool := false
  deriving DecidableEq, Repr

/-- One line of a write-combining buffer (R246): the setting (as 25,165,824 × group + local setting), its valid bytes
with their poison, the bucket of its last writer, and the tick of its first write. [DESIGN CHOICE, log 59] -/
structure WcbLine where
  setting : Nat
  bytes : SMap (Option (Byte × Bool))
  writer : Nat
  tick : Nat
  /-- Upset bits of the line's byte codewords (R247), by byte: what the 12 cells hold exclusive-or the codeword of the byte. -/
  errs : SMap Nat := []
  deriving DecidableEq, Repr

/-- A stack's mode-register functions as the device programs them (Table 7.2). -/
structure ModeRegs where
  /-- Data rate in 0.1 Gb/s. -/
  rate : Nat
  /-- Read and write latencies of the configuration image. -/
  readLatency : Nat
  writeLatency : Nat
  dbi : Bool
  caParity : Bool
  dataParity : Bool
  onDieEcc : Bool
  ownRefresh : Bool
  refreshManagement : Bool
  selfRefresh : Bool
  deriving DecidableEq, Repr

/-- MEM.SLAB[i] (Table 7.16): `movedTo` is the slab index 24n' + j' that serves it. -/
structure Slab where
  hole : Bool := false
  movedTo : Option Nat := none
  deriving DecidableEq, Repr

/-- One traffic generator (Tables 7.17 to 7.21). -/
structure TrafficGen where
  passes : Nat := 0
  readPct : Nat := 0x32
  order : Nat := 0
  pattern : Nat := 0
  raw : Bool := false
  mode : Nat := 0
  first : Nat := 0
  last : Nat := 0
  seed : Nat := 0
  mismatches : Nat := 0
  corrected : Nat := 0
  uncorrectable : Nat := 0
  refused : Bool := false
  done : Bool := false
  busy : Bool := false
  /-- A write of TG_CTL.stop has been taken, and the run has not ended (R264). -/
  stopping : Bool := false
  /-- Beats the running generator has worked, over all its passes (R264). -/
  progress : Nat := 0
  /-- TG_FAIL: bit, valid, beat of the first mismatch (Table 7.21). -/
  failBit : Nat := 0
  failValid : Bool := false
  failBeat : Nat := 0
  deriving DecidableEq, Repr

/-- The memory (R232 to R266). -/
structure Mem where
  /-- What the stacks hold, decoded, by storage byte address (25,165,824 × group + local setting) × 1,024 + byte. -/
  bytes : List Host.Cell := []
  /-- The metadata of each beat, by storage byte address div 64: what is stored there exclusive-or the check symbols that R241 or R243
  give the data beside it, metadata byte j in bits 8j + 7 to 8j.  0 is a codeword; 0x55 in every byte is poison (R245). -/
  checks : SMap Nat := []
  /-- Raw beats, 64 data and 8 metadata bytes, that a traffic generator has left in the reserved areas, by 1,024 × pseudo-channel +
  beat; an unlisted one is as the device keeps it, the canary beat with its pattern (Table 7.1, R244). -/
  reserved : SMap Bytes := []
  /-- Narrow beats that were read with a correction and wait for a canary read of their pseudo-channel: false while they wait, true once
  it has returned the pattern (R244), by storage byte address div 64. -/
  corrected : SMap (Option Bool) := []
  /-- The mode registers of each pseudo-channel as programmed last (Table 7.2), none before. -/
  modes : SMap (Option ModeRegs) := []
  /-- The epochs of the pseudo-channels (R292), by 64 × stack + pseudo-channel. -/
  pcEpochs : SMap Nat := []
  /-- The start-up filled every granule (R269). -/
  filled : Bool := false
  /-- Granules whose valid bit differs from `filled` (R267). -/
  flipped : SMap Bool := []
  /-- Granules whose zero writes have not finished (R268). -/
  filling : List Nat := []
  /-- The lines of the write-combining buffers, most recently written first (R246). -/
  wcb : List WcbLine := []
  /-- MEM.GROUP[n] (Table 7.11). -/
  groups : SMap Group := []
  /-- MEM.STACK[k] (Table 7.12). -/
  hbm : SMap Stack := []
  /-- MEM.REG[b] and MEM.REG_STAT[b] (Tables 7.13, 7.14). -/
  buckets : SMap Bucket := []
  /-- MEM.WCB_STAT[n]: writebacks with and without a merge read (Table 7.15). -/
  wbPartial : SMap Nat := []
  wbFull : SMap Nat := []
  /-- MEM.SLAB[i] (Table 7.16). -/
  slabs : SMap Slab := []
  /-- The traffic generators (Tables 7.17 to 7.21). -/
  tg : SMap TrafficGen := []
  /-- Consecutive failures of one command, by pseudo-channel (R233). -/
  failures : SMap Nat := []
  /-- Core dies declared failed by a canary, by 16 × stack + die (R244). -/
  failedDies : SMap Bool := []
  /-- Banks whose stack identification reports no spare (R281), as (2 × pseudo-channel + (1 for hPPR)) × 64 + bank. -/
  noSpare : List Nat := []
  deriving DecidableEq, Repr

/-! ### Memory care (08_memory_care.md) -/

/-- One correctable-error bucket (R274, Table 8.14); `storm`: a storm window is open. -/
structure CeBucket where
  overflows : Nat := 0
  count : Nat := 0
  storm : Bool := false
  deriving DecidableEq, Repr

/-- MEMC.SCRUB_STAT[n] (Table 8.15), and the corrections per physical row (1,024 × row + bank, with the pseudo-channel)
of the running pass (R272). -/
structure Scrub where
  passes : Nat := 0
  uncorrectable : Nat := 0
  corrected : Nat := 0
  rows : SMap Nat := []
  /-- The local setting from which the running pass goes on (R271). -/
  pos : Nat := 0
  /-- The scrub period of the running pass in hours: a new one applies from the next pass (R271). -/
  hours : Nat := 0x18
  deriving DecidableEq, Repr

/-- MEMC.ROW_HOT[n] (Table 8.16). -/
structure RowHot where
  count : Nat := 0
  die : Nat := 0
  bank : Nat := 0
  row : Nat := 0
  deriving DecidableEq, Repr

/-- MEMC.EVAC[n] (Table 8.18), and the MAP_OUT descriptor that waits for the evacuation. -/
structure Evac where
  poisoned : Nat := 0
  current : Option Nat := none
  done : Nat := 0
  flight : Option Nat := none
  /-- The donor slabs assigned, for slab 0 on (R289). -/
  donors : List Nat := []
  deriving DecidableEq, Repr

/-- A partition reset in progress (Table 8.3). -/
structure PartReset where
  cause : Nat
  unit : Nat
  joined : Nat
  tick : Nat
  /-- Steps 1 to 3 of Table 8.3 have been taken. -/
  stopped : Bool
  deriving DecidableEq, Repr

/-- Memory care (R267 to R295). -/
structure Care where
  /-- MEMC.CFG (Table 8.11). -/
  stormPeriods : Nat := 0x10
  leakMs : Nat := 0x3E8
  scrubHours : Nat := 0x18
  /-- MEMC.CE_LIMIT (Table 8.12). -/
  threshold : Nat := 0x100
  leak : Nat := 0x10
  /-- MEMC.FILL.written and fast_start (Table 8.13). -/
  fastStart : Bool := false
  /-- MEMC.CE[b] (Table 8.14). -/
  ce : SMap CeBucket := []
  /-- MEMC.SCRUB_STAT[n] (Table 8.15). -/
  scrub : SMap Scrub := []
  /-- MEMC.ROW_HOT[n] (Table 8.16). -/
  rowHot : SMap RowHot := []
  /-- MEMC.DONOR[w] (Table 8.17). -/
  donor : SMap W64 := []
  /-- MEMC.EVAC[n] (Table 8.18). -/
  evac : SMap Evac := []
  /-- Granules held by a REPAIR, with its flight (R282). -/
  repairHold : List (Nat × Nat) := []
  /-- Partition resets in progress (R276, Table 8.3). -/
  resets : SMap (Option PartReset) := []
  deriving DecidableEq, Repr

/-! ### Host work (09_host_work.md) -/

/-- PART.CFG, PART.CLASPS, PART.ENGINES and PART.STAT of one partition (Table 9.10), and the enable the last Admit
phase used (R311). -/
structure Part where
  enabled : Bool := false
  maintenance : Bool := false
  maxInflight : Nat := 0x1000
  pasid : Nat := 0
  claspBase : Nat := 0
  claspCount : Nat := 0
  engines : Nat := 0
  admitted : Nat := 0
  scanned : Bool := false
  deriving DecidableEq, Repr

/-- One submission ring: RING.BASE, RING.CELL, RING.CTL, RING.STAT (Tables 9.12 to 9.14), the enable change the next
Admit takes (R318), and the tail sampled in this Admit phase (R317). [DESIGN CHOICE, log 15] -/
structure Ring where
  base : Nat := 0
  cell : Nat := 0
  enable : Bool := false
  partition : Nat := 0
  sizeLog2 : Nat := 6
  cring : Nat := 0
  head : Nat := 0
  stopCause : Nat := 0
  state : Nat := 0
  fresh : Bool := false
  tail : Option Nat := none
  /-- The descriptors at the head, as last read: attached moves and their consumer, or one descriptor (R314, R226). -/
  read : List Bytes := []
  /-- How many of them this Admit phase has counted as examined (R18). -/
  seen : Nat := 0
  /-- The head has moved in this tick: it is written in step 3 of the Settle phase (R317). -/
  headDue : Bool := false
  /-- The status that a resolved fault has given them, until a completion slot can be reserved (R338, R18): 0 none. -/
  fail : Nat := 0
  deriving DecidableEq, Repr

/-- One completion ring: RING.CBASE, RING.CCELL, RING.CCTL, RING.CSTAT (Tables 9.12 to 9.14), and the driver's head
as last sampled (R319, R536). [DESIGN CHOICE, log 14] -/
structure CRing where
  base : Nat := 0
  cell : Nat := 0
  enable : Bool := false
  partition : Nat := 0
  sizeLog2 : Nat := 6
  written : Nat := 0
  held : Nat := 0
  stopCause : Nat := 0
  state : Nat := 0
  head : Nat := 0
  /-- The driver's head has been sampled in this Admit phase. -/
  sampled : Bool := false
  deriving DecidableEq, Repr

/-- One event that has been posted (R325): the fields of its record but for the version and reserved bytes.  `detail`
is bytes 24 to 63 as one little-endian number. -/
structure Event where
  code : Nat
  severity : Nat
  part : Nat
  unit : Nat
  tick : Nat
  time : Nat
  detail : Nat
  deriving DecidableEq, Repr

/-- The event log (R324, Tables 9.12, 9.13, 9.15). [DESIGN CHOICE, log 14] -/
structure EvtLog where
  base : Nat := 0
  cell : Nat := 0
  enable : Bool := false
  pasid : Nat := 0
  sizeLog2 : Nat := 6
  written : Nat := 0
  lost : Nat := 0
  /-- The device queue of at most 1,024 records. -/
  queue : List Event := []
  /-- Events posted since the last Settle phase's step 6, in posting order. -/
  due : List Event := []
  /-- Events discarded since the last EVT_LOST. -/
  discarded : Nat := 0
  /-- The driver's head as last sampled. -/
  head : Nat := 0
  /-- The ring has been set up by the Admit phase that took its enable (R318, R324). -/
  running : Bool := false
  /-- The driver's head has been sampled in this tick, and the ring's cell and storage can be reached (R536). -/
  sampled : Bool := false
  deriving DecidableEq, Repr

/-- A mailbox command that has been accepted and is not yet done (R306). -/
structure MboxBusy where
  opcode : Nat
  seq : Nat
  payload : Bytes
  deriving DecidableEq, Repr

/-- The result of a mailbox command, waiting for its Settle phase (R306). -/
structure MboxResult where
  code : Nat
  out : Bytes
  deriving DecidableEq, Repr

/-- The mailbox (R306, Tables 9.17, 9.18). -/
structure Mbox where
  cmdSeq : Nat := 0
  cmdLength : Nat := 0
  cmdOpcode : Nat := 0
  seq : Nat := 0
  outLen : Nat := 0
  result : Nat := 0
  state : Nat := 0
  input : SMap W64 := []
  output : SMap W64 := []
  busy : Option MboxBusy := none
  ready : Option MboxResult := none
  /-- The payload of a PART_SET that has passed its checks: it takes effect in the Settle phase that commits its result (R310). -/
  partSet : Option Bytes := none
  deriving DecidableEq, Repr

/-- A CLASP_SET as step 4 of its Settle phase applies it (R323). -/
structure ClaspSet where
  clasp : Nat
  mode : Nat
  value : Nat
  deriving DecidableEq, Repr

/-- A clasp signal waiting for its Settle phase (R25): what it adds to the count, and its error flag. -/
structure Signal where
  clasp : Nat
  add : Nat
  error : Bool
  deriving DecidableEq, Repr

/-- The clasps (R322, R25). -/
structure Clasps where
  /-- The value of each clasp as committed by the last Settle phase: bits 62:0 the count, bit 63 the error flag. -/
  committed : SMap Nat := []
  /-- What CLASP.VALUE shows (R321). -/
  shown : SMap Nat := []
  /-- Signals to apply at the next Settle phase. -/
  signals : List Signal := []
  deriving DecidableEq, Repr

/-- Where a piece of memory lies once its address is translated (R330). -/
inductive Place where
  /-- Device memory at this device address (Table 7.3). -/
  | dev (a : Nat)
  /-- Host memory at this host physical address (R305). -/
  | host (a : Nat)
  /-- The Casket at this Casket address (R206). -/
  | casket (a : Nat)
  /-- DMEM of the tile with this index, at this offset. -/
  | tile (t off : Nat)
  /-- This device's own BAR0 (R330). -/
  | bar0
  /-- A site's exported window: site and address (Table 6.2). -/
  | site (q a : Nat)
  deriving DecidableEq, Repr

/-- What a write of the control plane by virtual address is for (R535, R536). -/
inductive WritePurpose where
  | completionRing (c : Nat)
  | ringHead (r : Nat)
  | eventRing
  deriving DecidableEq, Repr

/-- One entry of the ordered writes of the device (R21, R22, R305, R321, R535). [DEDUCED, log 28; DESIGN CHOICE, log 37] -/
inductive OrderedWrite where
  /-- A control-plane write by virtual address, not yet translated. -/
  | byVa (pasid va : Nat) (data : Bytes) (why : WritePurpose)
  /-- A write to device memory. -/
  | toDev (a : Nat) (data : Bytes)
  /-- A write within one 64 B line of host memory, with the poison it carries (R224); once issued it waits for its global
  observation. -/
  | toHost (part a : Nat) (data : Bytes) (poison issued : Bool)
  /-- Clasp values that CLASP.VALUE shows once every earlier write has been observed (R321). -/
  | showClasps (v : SMap Nat)
  deriving DecidableEq, Repr

/-- One line of host memory that the host has returned and nothing has used yet (R305). -/
structure HostLine where
  data : Bytes
  poison : Bool
  deriving DecidableEq, Repr

/-- The host port (R296 to R305, R331). [DESIGN CHOICE, log 8] -/
structure HostPort where
  cfg : HostCfg := ⟨false, false, false, 0, 0, [], []⟩
  /-- The device is in D3hot (R298). -/
  d3hot : Bool := false
  /-- The host port's link is up: PERST_N is high, step 3 of start-up has ended, and it has trained (R296, R487). -/
  linkUp : Bool := false
  /-- The width in lanes and the rate in GT/s that the link has trained to, as the Link Status register reports them; 0 before (R296). -/
  width : Nat := 0
  rate : Nat := 0
  /-- HDM decoders 0 and 1 as committed: base and size (R301). -/
  hdm0 : Option (Nat × Nat) := none
  hdm1 : Option (Nat × Nat) := none
  /-- Lines read with RdCurr and not yet returned. -/
  asked : List Nat := []
  /-- Lines returned and not yet used. -/
  lines : SMap (Option HostLine) := []
  /-- The same two, of the control plane's own reads of rings and cells (R535). -/
  ctlAsked : List Nat := []
  ctlLines : SMap (Option HostLine) := []
  /-- The ordered writes. -/
  writes : List OrderedWrite := []
  /-- CXL IDE and CXL.io link IDE keys are set and running (R303, R433). -/
  ide : Bool := false
  deriving DecidableEq, Repr

/-! ### Address translation (10_translation.md) -/

/-- One entry of a translation cache (R333).  `va` is the page's base. -/
structure TlbEntry where
  pasid : Nat
  va : Nat
  log2 : Nat
  addr : Nat
  read : Bool
  write : Bool
  epoch : Nat
  doomed : Bool
  /-- The running pieces that pin the entry, as (flight, strand) (R336). -/
  pins : List (Nat × Nat)
  /-- Translated ahead of need: held by its unit alone until a piece starts with it (R343). -/
  ahead : Bool := false
  deriving DecidableEq, Repr

/-- Who waits on a page (Table 10.5, R535). -/
inductive Waiter where
  /-- The descriptor at the head of submission ring r, not yet admitted. -/
  | admission (r : Nat)
  /-- The piece that flight f is to start next, on the unit with this unit id. -/
  | piece (f unit : Nat)
  /-- The unit of strand j of flight f looks ahead for its next piece (R343). -/
  | ahead (f j : Nat)
  /-- The storage or the cell of submission ring r. -/
  | ring (r : Nat)
  /-- The storage or the cell of completion ring c. -/
  | cring (c : Nat)
  /-- The storage or the cell of the event ring. -/
  | evt
  deriving DecidableEq, Repr

/-- One waiter on a page: the rights it needs, the page requests already made for it (Table 10.5), its partition, and
whether its fault is held privately because its descriptor is speculative and unconfirmed (R344). -/
structure Wait where
  who : Waiter
  read : Bool
  write : Bool
  tries : Nat
  part : Nat
  held : Bool
  deriving DecidableEq, Repr

/-- One ATS Translation Request (R332): sent, or waiting until fewer than 512 are outstanding; whether it set No Write; `discard`:
its completion is thrown away and the request issued again (R342). [DESIGN CHOICE, log 40] -/
structure XlatReq where
  pasid : Nat
  page : Nat
  discard : Bool
  epoch : Nat
  sent : Bool
  noWrite : Bool
  waits : List Wait
  /-- A re-translation after a Success: unadmitted descriptors take its outcome at the next Admit (Table 10.5, R340). -/
  hold : Bool
  deriving DecidableEq, Repr

/-- The outcome of a re-translation that an unadmitted descriptor takes at the next Admit (Table 10.5, R340). [DEDUCED, log 41] -/
structure Verdict where
  answer : TransCompletion
  noWrite : Bool
  page : Nat
  wait : Wait
  deriving DecidableEq, Repr

/-- A page that is not present or lacks a right, and who waits on it (R338, R340). -/
structure PageFault where
  pasid : Nat
  page : Nat
  waits : List Wait
  /-- The page request group it was sent in, if it has been sent, and the rights asked for. -/
  group : Option Nat
  askedRead : Bool
  askedWrite : Bool
  deriving DecidableEq, Repr

/-- One page request group outstanding (R339). -/
structure PrgGroup where
  index : Nat
  pasid : Nat
  requests : Nat
  /-- The tick in whose Settle phase it times out. -/
  dueTick : Nat
  deriving DecidableEq, Repr

/-- Where an invalidation came from (R345). -/
inductive InvSource where
  | ats (itag : Nat)
  | descriptor (f : Nat)
  | mailbox
  deriving DecidableEq, Repr

/-- One invalidation running (Table 10.6). -/
structure Invalidation where
  source : InvSource
  range : InvRange
  removed : Nat
  pieces : Nat
  /-- Pieces, as (flight, strand), that held a doomed entry when the invalidation was taken. -/
  waits : List (Nat × Nat)
  deriving DecidableEq, Repr

/-- XLAT.STAT and XLAT.LAST_FAULT of one partition (Tables 10.14, 10.15). -/
structure XlatPart where
  atomic : Bool := false
  /-- The atomic enable as of the last Admit (Table 10.13: a change applies from the next Admit). -/
  atomicNow : Bool := false
  /-- XLAT.STAT[p] (Table 10.14). -/
  faults : Nat := 0
  unresolved : Nat := 0
  /-- XLAT.LAST_FAULT[p] (Table 10.15). -/
  lastUnit : Nat := 0
  lastValid : Bool := false
  lastWrite : Bool := false
  lastRead : Bool := false
  lastPage : Nat := 0
  deriving DecidableEq, Repr

/-- Address translation (R328 to R350). [DESIGN CHOICE, log 6; DESIGN CHOICE, log 39] -/
structure Xlat where
  /-- XLAT.CFG.pri_timeout (Table 10.11). -/
  priTimeout : Nat := 0x1F4
  /-- XLAT.PRI.next_prg (Table 10.12). -/
  nextPrg : Nat := 0
  /-- XLAT.PRI.halted (Table 10.12). -/
  halted : Bool := false
  /-- A PRI_RESTART clears the halt at the next Admit (R341). -/
  restart : Bool := false
  /-- XLAT.CTL[p], XLAT.STAT[p] and XLAT.LAST_FAULT[p] (Tables 10.13 to 10.15). -/
  part : SMap XlatPart := []
  /-- The second level, most recently used first (R333). -/
  l2 : List TlbEntry := []
  /-- The first-level TLBs: holder 0 to 31 engine, 32 to 39 mover, 40 to 47 adder, 48 control; most recently used
  first (Table 10.3). -/
  l1 : List (Nat × TlbEntry) := []
  /-- Epochs of the 49 first-level TLBs and, at index 49, of the second level (R348). -/
  epochs : SMap Nat := []
  /-- The ATS Translation Requests (R332). -/
  reqs : List XlatReq := []
  /-- Outcomes of re-translations that wait for the next Admit (Table 10.5). -/
  verdicts : List Verdict := []
  /-- Pages that are missing or lack a right, with their waiters (R338, R340). -/
  faults : List PageFault := []
  /-- Page request groups outstanding (R339). -/
  groups : List PrgGroup := []
  /-- Invalidations running (R345). -/
  invs : List Invalidation := []
  deriving DecidableEq, Repr

/-! ### Sites (12_die_sites.md) -/

/-- The message that one site channel sends or takes (Table 12.7): its header unit and its data units. -/
structure SiteMsg where
  head : Bytes
  data : Bytes
  deriving DecidableEq, Repr

/-- One channel of a site link (R403 to R405).  `txSeq`: the sequence number of the next data frame; `rxSeq`: the one expected
next; `replay`: unacknowledged frames, oldest first, with their sequence numbers; `stuck`: consecutive replays without ack
progress; `nakking`: data frames are dropped until the next in sequence; `credits`: what VC 0, 1 and 2 of the far side can
take; `freed`: units freed since the last return; `partial`: units of a message not yet whole; `rx`: messages received and
not yet handled; `tx`: messages waiting for credits. -/
structure SiteChan where
  txSeq : Nat := 0
  rxSeq : Nat := 0
  replay : List (Nat × Bytes) := []
  stuck : Nat := 0
  nakking : Bool := false
  credits : List Nat := [512, 512, 256]
  freed : List Nat := [0, 0, 0]
  partialMsg : Bytes := []
  rx : List SiteMsg := []
  tx : List SiteMsg := []
  /-- 1 + the tick in which tick_mark was sent last (R403). -/
  marked : Nat := 0
  deriving DecidableEq, Repr

/-- One Bezel entry (R407). -/
structure Bezel where
  enable : Bool := false
  read : Bool := false
  write : Bool := false
  sealedBit : Bool := false
  partition : Nat := 0
  base : Nat := 0
  limit : Nat := 0
  deriving DecidableEq, Repr

/-- SITE.PEER[q], and what else discovery fixes: the running level and the running capabilities (R398, Table 12.14). -/
structure Peer where
  vendor : Nat := 0
  part : Nat := 0
  revision : Nat := 0
  windowLog2 : Nat := 0
  gen : Nat := 0
  runGen : Nat := 0
  minLevel : Nat := 0
  maxLevel : Nat := 0
  caps : Nat := 0
  deriving DecidableEq, Repr

/-- An attestation in progress (R435): when it began, its sequence number, and its mailbox command waits for nothing. -/
structure Attest where
  start : Nat
  seq : Nat
  deriving DecidableEq, Repr

/-- One word in a site's egress buffers (R168): the port tile it came from, the partition whose schedule sent it, the word. -/
structure EgressWord where
  tile : Nat
  partition : Nat
  word : MeshWord
  deriving DecidableEq, Repr

/-- A WRITE sent to a die and not yet answered by DONE (R409): its tag, the flight it is for, the message. -/
structure SiteWrite where
  tag : Nat
  flight : Nat
  msg : SiteMsg
  deriving DecidableEq, Repr

/-- One site: SITE.STATE[q], SITE.PEER[q], SITE.ERR[q] (Tables 12.13 to 12.15), its training, its link, its grant and its
Bezel entries. -/
structure Site where
  /-- 0 absent; 1 disabled; 2 training; 3 linked; 4 fenced. -/
  state : Nat := 0
  /-- SITE.STATE[q].strap (R392, Table 12.13). -/
  strap : Nat := 0
  /-- SITE.STATE[q].attested (Table 12.13). -/
  attested : Bool := false
  /-- SITE.STATE[q].sealed_ok (Table 12.13). -/
  sealedOk : Bool := false
  /-- The granted partitions. -/
  mask : Nat := 0
  /-- Channels or modules in use (SITE.STATE.mask). -/
  chanMask : Nat := 0
  /-- SITE.STATE[q].fence_cause (Table 12.13). -/
  fenceCause : Nat := 0
  /-- SITE.STATE[q].failures (R402, Table 12.13). -/
  failures : Nat := 0
  /-- SITE.PEER[q] (Table 12.14). -/
  peer : Peer := {}
  /-- SITE.ERR[q]: retrains, replays, crc_bad, bezel_refused (Table 12.15). -/
  retrains : Nat := 0
  replays : Nat := 0
  crcBad : Nat := 0
  bezelRefused : Nat := 0
  /-- Where the training attempt stands: 0 none; 1 x_RST_N low; 2 waiting for ADVERT; 4 lane test; 5 width exchange; 6 waiting for
  frame alignment (Table 12.5). -/
  step : Nat := 0
  /-- The attempt number, 1 to 3 (Table 12.4). -/
  attempt : Nat := 0
  /-- WIDTH has been sent with the fallback flag (R401). -/
  fallback : Bool := false
  /-- x_RST_N is driven low (Table 12.2). -/
  resetLow : Bool := true
  /-- The base die's lane-repair record: per channel, the failing lanes of its own receiver and of the die's; none: unusable
  (R396). -/
  mine : SMap (Option (List Nat)) := []
  theirs : SMap (Option (List Nat)) := []
  /-- Channels whose own lane test, and whose LANES message, have been taken. -/
  tested : Nat := 0
  reported : Nat := 0
  /-- Channels that are frame-aligned (Table 12.5, step 6). -/
  aligned : Nat := 0
  /-- The Bezel entries in force (R407). -/
  entries : SMap Bezel := []
  /-- Bezel entries and the grant that apply from the next tick boundary (R407). -/
  entriesDue : SMap (Option Bezel) := []
  grantDue : Option (Nat × Bool) := none
  /-- The attestation in progress (R435). -/
  attest : Option Attest := none
  /-- The measurement digest of its die, once attested (Table 13.7). -/
  digest : Bytes := []
  /-- The channels of the link (R403 to R405). -/
  chans : SMap SiteChan := []
  /-- Words in the egress buffers of its port tiles, oldest first (R168). -/
  egress : List EgressWord := []
  /-- The tag of the next outbound request. -/
  nextTag : Nat := 0
  /-- Lines of the die's window asked for and not yet returned: tag, address div 64. -/
  asked : List (Nat × Nat) := []
  /-- Lines the die has returned and no mover has used yet: status, and bytes with their poison. -/
  answers : SMap (Option (Nat × List (Byte × Bool))) := []
  /-- Lines written to the die and not yet answered by DONE (R409). -/
  writing : List SiteWrite := []
  deriving DecidableEq, Repr

/-! ### The Locket (13_locket_lifecycle.md) -/

/-- One sealed region (R413, R414): 0 free, 1 bound, 2 orphaned, 3 unsealing; the slot it names reads 0xFFFF for none. -/
structure Region where
  state : Nat := 0
  partition : Nat := 0
  keySlot : Nat := 0xFFFF
  slabs : List Nat := []
  /-- In state 3: the region was bound when its unsealing began, and its partition stays sealed until it is free (R418). -/
  wasBound : Bool := false
  deriving DecidableEq, Repr

/-- One key slot (R420): its algorithm (1 AES-256-GCM, 2 AES-256-XTS), partition, region mask, rights and key. -/
structure KeySlot where
  alg : Nat
  partition : Nat
  mask : Nat
  rights : Nat
  key : Bytes
  deriving DecidableEq, Repr

/-- A seal that has passed its checks and waits for its tick boundary (R417). -/
structure SealReq where
  region : Nat
  partition : Nat
  keySlot : Nat
  slabs : List Nat
  deriving DecidableEq, Repr

/-- One SPDM session (R433): its id, its secret, and whether FINISH has completed it; key updates taken. -/
structure Session where
  id : Nat
  secret : Bytes
  established : Bool
  updates : Nat
  deriving DecidableEq, Repr

/-- The Locket, the identity fuses and the life cycle (R413 to R441). [DESIGN CHOICE, log 6] -/
structure Locket where
  /-- LC.STATE.state: 0 RAW, 1 TEST, 2 FIELD_BLANK, 3 FIELD, 4 RETURN, 5 SCRAP (R436). -/
  lc : Nat := 0
  /-- The identity fuses (Table 13.5). -/
  lot : Nat := 0
  wafer : Nat := 0
  dieX : Nat := 0
  dieY : Nat := 0
  uid : Nat := 0
  seed : Option Bytes := none
  imageKeyHash : Bytes := []
  /-- The certificate chain in the one-time-programmable store (R431). -/
  chain : Bytes := []
  /-- The key slots (R420). -/
  keys : SMap (Option KeySlot) := []
  /-- The owner key, once loaded (R421). -/
  owner : Option Bytes := none
  /-- The import nonce last issued, while it lives (R423). -/
  nonce : Option Bytes := none
  /-- LOCKET.STAT.entropy_ok and drbg_ok (R429, Table 13.15). -/
  entropyOk : Bool := false
  drbgOk : Bool := false
  /-- Generate requests of the DRBG since it was last seeded: below 2^16 (R429). -/
  generates : Nat := 0
  /-- LOCKET.REGION[r] (R413, Table 13.16). -/
  regions : SMap Region := []
  /-- LOCKET.RELEASED[p] (Table 13.18). -/
  released : SMap Nat := []
  /-- Seals that wait for their boundary, and regions that go to state 3 at the next one (R417, R418). -/
  sealDue : List SealReq := []
  unsealDue : List Nat := []
  /-- SPDM: algorithms agreed, sessions, the number of the next session (R433). -/
  negotiated : Bool := false
  sessions : List Session := []
  nextSession : Nat := 0
  /-- LC_RETURN has been accepted: its procedure runs at the next tick boundary (Table 13.10). -/
  returning : Bool := false
  /-- The sequence number of the next request to a die's message area (R435). -/
  attestSeq : Nat := 0
  deriving DecidableEq, Repr

/-! ### Tether (11_tether.md) -/

/-- A Tether message (Table 11.7): its header slot and its data slots. -/
structure TetherMsg where
  head : Bytes
  data : Bytes
  deriving DecidableEq, Repr

/-- One Tether port: TETHER.PORT[p], TETHER.PORT_ERR[p] (Tables 11.18, 11.19), its bring-up, and its link.  `step` is the step of
Table 11.4 it stands at; `goodMine` and `goodTheirs` the two good masks; `ready` the lanes whose receivers are ready on both
sides (bit n of each byte half); `width` the width code; `replay` the unacknowledged flits with their sequence numbers,
oldest first; `stuck` consecutive replays without ack progress; `rx` the messages received and not yet handled, `tx` those
waiting for credits. -/
structure Port where
  enabled : Bool := false
  /-- 0 disabled; 1 training; 2 linked; 3 member; 4 loopback; 5 down. -/
  state : Nat := 0
  /-- TETHER.PORT[p].allow_far_loop (Table 11.18). -/
  allowFarLoop : Bool := false
  /-- Its bring-up: the step, failed attempts in a row, and the start of the attempt (R363, Table 11.4). -/
  step : Nat := 0
  failures : Nat := 0
  startTime : Nat := 0
  /-- The good masks of both sides, the lanes whose receivers are ready on both sides, the width (R360, R364). -/
  goodMine : Nat := 0
  goodTheirs : Nat := 0
  readyMine : Nat := 0
  readyTheirs : Nat := 0
  width : Option Nat := none
  /-- Every lane in use is locked; HELLO has been sent and taken (Table 11.4). -/
  locked : Bool := false
  helloSent : Bool := false
  helloTaken : Bool := false
  /-- TETHER.PORT[p]: partner_id, partner_port, delay_ns, level, lanes (Table 11.18). -/
  partnerId : Nat := 0xFFFF
  partnerPort : Nat := 0xF
  delayNs : Nat := 0
  level : Nat := 0
  lanes : Nat := 0
  /-- TETHER.PORT_ERR[p]: retrains, replays, crc_bad, uncorrectable (Table 11.19). -/
  retrains : Nat := 0
  replays : Nat := 0
  crcBad : Nat := 0
  uncorrectable : Nat := 0
  /-- The link layer: sequence numbers, the replay buffer, nak state, credits, freed slots, the message being received (R367 to R371). -/
  txSeq : Nat := 0
  rxSeq : Nat := 0
  replay : List (Nat × Bytes) := []
  stuck : Nat := 0
  nakking : Bool := false
  credits : List Nat := [2048, 2048, 64]
  freed : List Nat := [0, 0, 0]
  partialMsg : Bytes := []
  /-- Data slots the message being received still needs. -/
  wants : Nat := 0
  /-- Messages received and not yet handled, and messages waiting for credits (R370). -/
  rx : List TetherMsg := []
  tx : List TetherMsg := []
  /-- The reason of the last TETHER_JOIN_REFUSED, or 0 (R382). -/
  refusal : Nat := 0
  /-- The cause of the forced retrain that runs: 3 replay, 4 comma lock, 0 none (Table 11.13). -/
  downCause : Nat := 0
  /-- The loopback that runs: its kind, its lanes and its duration in ms (R366). -/
  loopKind : Nat := 0
  loopMask : Nat := 0
  loopMs : Nat := 0
  /-- Codewords that each of its lanes has sent since the last comma block, and comma blocks sent (R356). -/
  codewords : Nat := 0
  commas : Nat := 0
  /-- The tick from which it has been a member link (R387). -/
  memberSince : Nat := 0
  /-- The distance and the offset its partner last advertised (R385, R386). -/
  distance : Nat := 0xFF
  offset : Int := 0
  /-- t1 of the SYNC_REQ outstanding: tick and phase in 2^-8 ns (R386). -/
  t1 : Option (Nat × Nat) := none
  deriving DecidableEq, Repr

/-- One Tether lane: TETHER.LANE[l] and TETHER.LOOP[l] (Tables 11.20, 11.21), its comma lock, its training. -/
structure TetherLane where
  /-- 0 off; 1 training; 2 in use; 3 good, unused; 4 retired; 5 loopback. -/
  state : Nat := 0
  /-- TETHER.LANE[l]: eqn, eqn_min, corrected, uncorrectable (Table 11.20). -/
  eqn : Nat := 0
  eqnMin : Nat := 0xFF
  corrected : Nat := 0
  uncorrectable : Nat := 0
  /-- UI of the last good comma core, how many in a row stand one interval apart, and lock (R357). -/
  commaUi : Nat := 0
  commas : Nat := 0
  comma : Bool := false
  /-- TICK.TIME of each uncorrectable codeword of the last 1,000 ms (R361). -/
  badTimes : List Nat := []
  /-- Consecutive measurements below 64 (R361). -/
  low : Nat := 0
  /-- TETHER.LANE[l].marginal (R361, Table 11.20). -/
  marginal : Bool := false
  /-- Retired under R361, and counted as not good by the retrain that forced. -/
  retired : Bool := false
  /-- It has failed the start-up self-test (Table 16.2). -/
  bad : Bool := false
  /-- Consecutive tap requests that did not raise the EQN by 2 (R360), and the EQN before the last one. -/
  fruitless : Nat := 0
  lastEqn : Nat := 0
  /-- The lane's receiver is ready (R360). -/
  rxReady : Bool := false
  /-- Its receiver's CTLE in dB and its 24 equaliser taps, which it adapts itself (R360). -/
  ctle : Nat := 0
  ffe : List Int := List.replicate 24 0
  /-- The channel inverts the polarity, which the receiver corrects (R351). -/
  inverted : Bool := false
  /-- The last 58 scrambled bits it has sent and received, the oldest lowest (R353). -/
  txHist : Nat := 0
  rxHist : Nat := 0
  /-- Its FEC is locked: a codeword of this attempt has decoded (Table 11.4). -/
  fecLock : Bool := false
  /-- Slices received that no flit has taken yet, each with whether its codeword was good (R353, R370). -/
  slices : List (Bytes × Bool) := []
  /-- Transmit taps pre2, pre1 and post1, in 1/64 of full swing (R360). -/
  taps : List Int := [0, 0, -8]
  /-- The answer to the partner's last tap request (Table 11.3). -/
  tapResp : Nat := 0
  /-- What the loop field of the partner's last control word asked (Table 11.3). -/
  farLoop : Bool := false
  /-- TETHER.LOOP[l] (R366, Table 11.21). -/
  loopErrors : Nat := 0
  loopMs : Nat := 0
  loopLock : Bool := false
  loopDone : Bool := false
  loopBusy : Bool := false
  deriving DecidableEq, Repr

/-- One inbound window (Tables 11.22, 11.23), as written. -/
structure Window where
  base : Nat := 0
  limit : Nat := 0
  ctl : Nat := 0
  deriving DecidableEq, Repr

/-- What a member knows of one tick's frequency agreement (R387): M_n, the ports that delivered a vote, and the member links
at S_n. -/
structure Vote where
  tick : Nat
  state : Nat
  got : List Nat
  links : List Nat
  deriving DecidableEq, Repr

/-- One remote request outstanding (R377): its tag, its flight, its place among the flight's requests, the port of its first
hop, and its bytes. -/
structure RemoteReq where
  tag : Nat
  flight : Nat
  index : Nat
  port : Nat
  bytes : Nat
  /-- The tick of whose slice it is a piece (R61, R377). -/
  slice : Nat
  deriving DecidableEq, Repr

/-- The progress of one remote descriptor (R377): requests issued, and for each answered request its index, status, bytes. -/
structure Remote where
  flight : Nat
  issued : Nat
  answers : List (Nat × Nat × Nat)
  deriving DecidableEq, Repr

/-- A remote SIGNAL that has been applied to a clasp: DONE follows step 4 of its Settle phase (R381). -/
structure SignalDone where
  port : Nat
  msg : TetherMsg
  deriving DecidableEq, Repr

/-- Tether (R351 to R391). -/
structure Tether where
  ownId : Nat := 0xFFFF
  refId : Nat := 0xFFFF
  joinEnable : Bool := false
  parent : Nat := 0xF
  distance : Nat := 0xFF
  /-- TETHER.VOTE. -/
  lost : Nat := 0
  late : Nat := 0
  notices : Nat := 0
  /-- The nine ports (Tables 11.18, 11.19). -/
  ports : SMap Port := []
  /-- The 72 lanes (Tables 11.20, 11.21). -/
  lanes : SMap TetherLane := []
  /-- TETHER.WIN_BASE, WIN_LIMIT and WIN_CTL as written (Tables 11.22, 11.23). -/
  windows : SMap Window := []
  /-- The windows in force: as of the last tick boundary (R380). -/
  windowsNow : SMap Window := []
  /-- TETHER.ROUTE, the port toward each device, and the changes that apply at the next tick boundary (R389). -/
  routes : SMap Nat := []
  routesDue : SMap Nat := []
  /-- Votes of the ticks to come (R387). -/
  votes : List Vote := []
  /-- Member ports on which ADOPT is due at the next tick boundary (R383). -/
  adoptDue : List Nat := []
  /-- Slow notices seen: (origin, tick) (R388). -/
  seen : List (Nat × Nat) := []
  /-- The tag of the next remote request (R377). -/
  nextTag : Nat := 0
  /-- Remote requests outstanding (R377). -/
  requests : List RemoteReq := []
  /-- Remote descriptors in progress (R377). -/
  remotes : List Remote := []
  /-- Remote SIGNALs applied and not yet answered (R381). -/
  signals : List SignalDone := []
  deriving DecidableEq, Repr

/-! ### Power, clocks and heat (14_power_thermal.md) -/

/-- One rail: its last poll, its ratios and their run of bad samples, and its set-point (R443, R451, R454).  Rails 0 VDD_W,
1 VDD_E, 2 VDD_SOC, 3 VDD_AON. -/
structure Rail where
  uv : Nat := 0
  ma : Nat := 0
  temp : Int := 0
  /-- Estimated power of the last tick, in µW (R451). -/
  estUw : Nat := 0
  /-- Estimated power at the last sample, in µW, and consecutive samples that failed the ratio test and the stuck test (R454). -/
  estimate : Nat := 0
  badRatio : Nat := 0
  stuckRun : Nat := 0
  stuckEst : Nat := 0
  /-- Consecutive samples above the current rating while reason 6 binds (Table 15.5). -/
  above : Nat := 0
  /-- The rail's sensor is declared failed (R454). -/
  failed : Bool := false
  /-- The set-point written last, in units of 5 mV, and whether the rail has reported it reached (R443). -/
  setpoint : Nat := 110
  reached : Bool := true
  deriving DecidableEq, Repr

/-- PWR.DOMAIN[d] (Table 14.14). -/
structure Domain where
  powerMw : Nat := 0
  epoch : Nat := 0
  off : Bool := false
  deriving DecidableEq, Repr

/-- PWR.THROTTLE[c] (Table 14.15). -/
structure Throttle where
  onsets : Nat := 0
  timeUs : Nat := 0
  deriving DecidableEq, Repr

/-- A droop stretch of one half (R449): TICK.TIME of its first trip, its clock's count then and at the last trip, the first region
tripped, and whether it has been reported as persistent. -/
structure Stretch where
  since : Nat
  count : Nat
  last : Nat
  region : Nat
  persistent : Bool
  deriving DecidableEq, Repr

/-- The power control (R442 to R455, R463 to R466). -/
structure Pwr where
  limitW : Nat := 0x208
  cap90 : Bool := false
  diverge : Nat := 0
  measW : Nat := 0
  /-- The controlling power of the last tick, in µW (R451). -/
  pcUw : Nat := 0
  /-- PWR.STAT.est_w (Table 14.12). -/
  estW : Nat := 0
  /-- The binding reason of the last L_n (Table 14.12). -/
  binding : Nat := 0
  /-- PWR.STAT.fixed_freq (Table 14.12). -/
  fixedFreq : Bool := false
  /-- Idle modes in force, and those that take effect at the next tick boundary (R464). -/
  idle : Nat := 0
  idleDue : Option Nat := none
  /-- Idle modes whose exit has started (R465). -/
  waking : Nat := 0
  /-- Those whose exit PWR_IDLE_SET started (Table 14.9). -/
  leaving : Nat := 0
  /-- PWR.DROOP: events, persistent, stretched_cycles (Table 14.13). -/
  droopEvents : Nat := 0
  droopPersistent : Nat := 0
  /-- What the clocks have not counted because of droop stretches, up to MESH's `clockAt` (Table 14.13). -/
  droopUnits : Nat := 0
  /-- PWR.DOMAIN[d] (Table 14.14). -/
  domains : SMap Domain := []
  /-- PWR.THROTTLE[c] (Table 14.15). -/
  throttle : SMap Throttle := []
  /-- PWR.ENERGY[p] (R455). -/
  energy : SMap Nat := []
  /-- The remainders carried forward, in units of 10^-9 µJ (R455). -/
  energyRem : SMap Nat := []
  /-- PWR.ENERGY_BASE and its remainder (R455). -/
  energyBase : Nat := 0
  energyBaseRem : Nat := 0
  /-- The four rails (R443, R454). -/
  rails : SMap Rail := []
  /-- The state each limit allows: reason 1, 2, 3, 4, 6, 8 and 12 (Table 14.3). -/
  powerLimit : Nat := 0
  ratingLimit : Nat := 0
  junctionLimit : Nat := 0
  stackLimit : Nat := 0
  alertLimit : Nat := 0
  droopLimit : Nat := 0
  faultLimit : Nat := 0
  /-- The half caps of PWR_HALF_SET: 0xFF for none (R446). -/
  capWest : Nat := 0xFF
  capEast : Nat := 0xFF
  /-- VR_ALERT_N has been sampled low; the alert stretch holds; its end waits for the next boundary (R450). -/
  alertLow : Bool := false
  alertStretch : Bool := false
  alertEnding : Bool := false
  /-- TICK.TIME from which reasons 4 and 12 next allow one state faster (R443, R450). -/
  alertNext : Nat := 0
  faultNext : Nat := 0
  /-- A rail has reported its set-point reached after a regulator fault, and the next boundary starts the recovery. -/
  faultOver : Bool := false
  /-- Droop stretches in force, by half (R449). -/
  stretchWest : Option Stretch := none
  stretchEast : Option Stretch := none
  /-- The region of the persistent droop, the rail of the regulator fault and the rail beyond its rating that the limits come from. -/
  droopRegion : Nat := 0
  faultRail : Nat := 0
  /-- The rails whose regulator fault still holds P7: they have not reported their set-point since (R443). -/
  faultWait : List Nat := []
  ratingRail : Nat := 0
  /-- Consecutive ticks that allow P0 (R448). -/
  coolTicks : Nat := 0
  /-- P7 is due at the next boundary whatever R30 says (R450, R458, R476). -/
  forceP7 : Bool := false
  /-- P7 is due at the next boundary that R30 does not defer (R443). -/
  faultP7 : Bool := false
  /-- The state each half is due to step to, once its set-point is reached (R445). -/
  target : Option Nat := none
  deriving DecidableEq, Repr

/-- One junction sensor (Table 14.17) and its run of readings far from its group's median (R482).  `temp` is in 1/16 °C. -/
structure Sensor where
  temp : Int := 0
  failed : Bool := false
  far : Nat := 0
  deriving DecidableEq, Repr

/-- THERM.STACK[k] (Table 14.18), and the node and the deferral behind it. -/
structure ThermStack where
  node : Int := 0
  /-- Pk of the last Ballast window, in µW (R457). -/
  powerUw : Nat := 0
  /-- THERM.STACK[k]: predicted, episodes (Table 14.18). -/
  predicted : Nat := 0
  episodes : Nat := 0
  /-- 0 none; 1 deferred; 2 throttling; 3 at duty 1 under step 1. -/
  phase : Nat := 0
  deferred : Bool := false
  /-- TICK.TIME at which a deferral is re-evaluated. -/
  deferEnd : Nat := 0
  /-- The reason-3 limit of this stack. -/
  limit : Nat := 0
  deriving DecidableEq, Repr

/-- Heat (R456 to R462).  The nodes are kept in 2^-16 °C. -/
structure Therm where
  sensors : SMap Sensor := []
  hbm : SMap ThermStack := []
  die : Int := 0
  plate : Int := 0
  predDie : Nat := 0
  duty : Nat := 0xFF
  hottest : Nat := 0
  hotSensor : Nat := 0
  warn : Bool := false
  fault : Bool := false
  emergency : Bool := false
  /-- TICK.TIME since which COOL_DEMAND has been at full duty (R459). -/
  fullSince : Option Nat := none
  /-- The coolant inlet temperature in 1/16 °C, and the one that applies from the next window (R466). -/
  tin : Nat := 560
  tinDue : Option Nat := none
  /-- The hint of each partition: the TICK.TIME at which it reaches zero (R461). -/
  hints : SMap (Option Nat) := []
  /-- The first Ballast window after release has run (R460). -/
  started : Bool := false
  deriving DecidableEq, Repr

/-! ### Start-up and control (16_startup.md, 00_scope.md) -/

/-- The fields of the configuration image, as clamped (R498 to R502); their defaults are the ROM defaults. -/
structure ImageCfg where
  subsysVendor : Nat := 0x1F3A
  subsysId : Nat := 0x0B68
  tickPeriodUs : Nat := 20
  overrunPct : Nat := 10
  fixedFreq : Bool := false
  fastStart : Bool := false
  beadDebug : Bool := false
  beads : Nat := 4096
  engines : Nat := 0xFFFFFFFF
  tetherPorts : Nat := 0x1FF
  powerLimit : Nat := 520
  wideMask : Nat := 0xFFFFFFFF
  /-- None: the stack's lowest. -/
  readLatency : Option Nat := none
  writeLatency : Option Nat := none
  /-- (stack, pseudo-channel, bank, kind, row). -/
  repairs : List (Nat × Nat × Nat × Nat × Nat) := []
  /-- The ratings of the rails in A (Table 16.8). -/
  ratings : List Nat := [350, 350, 120, 3]
  /-- PMBus addresses of the rails, and the AVSBus selects of VDD_W and VDD_E (Table 16.8). -/
  pmbus : List Nat := [0x40, 0x41, 0x42, 0x43]
  avs : List Nat := [0, 1]
  /-- Stack energy per beat in pJ (Table 16.8). -/
  stackPj : Nat := 1800
  /-- S_d in mW and c_{d,e} in fJ (8 d + e) where the image sets them; the ROM's otherwise (Config). -/
  staticMw : SMap (Option Nat) := []
  eventFj : SMap (Option Nat) := []
  /-- The thermal group: resistances, time constants, temperatures, lead and gains (Table 16.9). -/
  rd : Nat := 40
  rp : Nat := 60
  rk : Nat := 250
  taud : Nat := 25
  taup : Nat := 4000
  tauk : Nat := 40
  tin : Nat := 560
  lead : Nat := 200
  tjt : Nat := 100
  tst : Nat := 90
  tsh : Nat := 95
  tset : Nat := 85
  gain : Nat := 16
  floor : Nat := 64
  /-- The TRUST group: the owner key's hash, the roots, the die measurements (Table 16.10). -/
  ownerKeyHash : Bytes := []
  roots : List Bytes := []
  measurements : List Bytes := []
  deriving DecidableEq, Repr

/-- One record of the configuration report (Table 16.12). -/
structure Report where
  kind : Nat
  group : Nat
  offset : Nat
  unit : Nat
  given : Nat
  applied : Nat
  deriving DecidableEq, Repr

/-- The staging of a replacement image (Table 16.13): 0 idle, 1 receiving, 2 committing. -/
structure Staging where
  state : Nat := 0
  length : Nat := 0
  bytes : Bytes := []
  deriving DecidableEq, Repr

/-- The counts that the ID block and MEM.CAP show, as of the last release or tick boundary (R7, R531): bead numbers whose core is
not fenced, engines, groups not mapped out, Tether ports, the mask of linked sites, Casket KiB, stacks. [DESIGN CHOICE, log 36] -/
structure UnitCounts where
  beads : Nat := 4096
  engines : Nat := 32
  groups : Nat := 32
  ports : Nat := 9
  sites : Nat := 0
  casketKib : Nat := 0x48000
  hbm : Nat := 8
  deriving DecidableEq, Repr

/-- The control plane as a whole (R486 to R508, R10). [DESIGN CHOICE, log 6] -/
structure Ctl where
  /-- PWRGOOD and PERST_N as sampled. -/
  pwrgood : Bool := false
  perstN : Bool := false
  /-- CTL.BOOT.step, halted, recovery, recovery_cause, fast_start, released (Table 16.16). -/
  step : Nat := 0
  halted : Bool := false
  recovery : Bool := false
  recoveryCause : Nat := 0
  fastStart : Bool := false
  released : Bool := false
  /-- CTL.IMAGE_ID and CTL.BOOT_NS. -/
  buildId : Nat := 0
  bootNs : Nat := 0
  /-- TICK.TIME at which the running start-up began. -/
  startNs : Nat := 0
  /-- The configuration in force (R498). -/
  cfg : ImageCfg := {}
  /-- The records of the configuration report: kinds 1 to 3, kind 4, kinds 5 to 7. -/
  reports : List Report := []
  overrides : List Report := []
  unitReports : List Report := []
  /-- SHA3-256 of the running image and of its key; the image's length. -/
  imageDigest : Bytes := []
  imageKeyHash : Bytes := []
  imageLen : Nat := 0
  /-- The offset of the field that made the recovery state, or 0xFFFFFFFF. -/
  failOffset : Nat := 0xFFFFFFFF
  /-- The image opens the bead debug halt in the FIELD state (Table 13.9). -/
  debugHalt : Bool := false
  /-- ID.LEVEL.agreed (Table 0.6). -/
  level : Nat := 0
  /-- The unit counts as they read (R7). -/
  units : UnitCounts := {}
  /-- An internal cold restart, and a warm reset of a cause, are due (R309, R486). -/
  restartDue : Bool := false
  warmDue : Option Nat := none
  /-- A warm reset is in progress, with its cause (R479). -/
  warm : Option Nat := none
  /-- Retained in domain 0: the recovery request, and the pending IMAGE_WRITTEN (build_id, length) (R486). -/
  recoveryRequest : Bool := false
  imageWritten : Option (Nat × Nat) := none
  /-- The staged replacement image (R505). -/
  staging : Staging := {}
  deriving DecidableEq, Repr

/-! ### Debug access (13_locket_lifecycle.md, 17_die_signals.md) -/

/-- Debug access of the bead cores (R157, R532). -/
structure Dbg where
  /-- DBG.CLAIM.tile and DBG.CLAIM.claim (Table 18.6). -/
  tile : Nat := 0
  claim : Bool := false
  deriving DecidableEq, Repr

/-! ### The Keel (15_safety.md) -/

/-- What the egress checkers go by (R472): the sealed slabs, the sealed partitions, the sites granted sealed access. -/
structure SealMap where
  slabs : List Nat := []
  parts : List Nat := []
  sites : List Nat := []
  deriving DecidableEq, Repr

/-- The Keel (R469 to R485). [DESIGN CHOICE, log 64] -/
structure Keel where
  /-- The safe state is in force. -/
  safe : Bool := false
  /-- KEEL.CAUSE and KEEL.CAUSE_AT: the first cause, the mask of causes (bit c for cause c), the unit, the time. -/
  first : Nat := 0
  mask : Nat := 0
  unit : Nat := 0
  causeAt : Nat := 0
  /-- A cause has come since the last cold restart (R477). -/
  newCause : Bool := false
  /-- KEEL.STAT.warm_resets and last_warm_cause (Table 15.9). -/
  warmResets : Nat := 0
  lastWarm : Nat := 0
  /-- TICK.TIME of the warm resets of the last 1 s, and of those among them whose cause counts toward a storm (R479). -/
  warmTimes : List Nat := []
  stormTimes : List Nat := []
  /-- KEEL.STAT.trip and lockstep_ok (Table 15.9). -/
  trip : Bool := false
  lockstepOk : Bool := true
  /-- KEEL.MON: the oscillators, gate_tests, copies_equal, supply_test_ok, gate_test_ok (Table 15.12). -/
  oscA : Int := 0
  oscB : Int := 0
  gateTests : Nat := 0
  copiesEqual : Bool := true
  supplyOk : Bool := true
  gateOk : Bool := true
  /-- The Keel's copies of the sealed-slab map, the sealed-partition mask and the site grants. -/
  copy : SealMap := {}
  deriving DecidableEq, Repr

/-! ### Descriptors in flight (R16 to R29, R314 to R320) -/

/-- Where a descriptor in flight stands. -/
inductive FState where
  /-- Queued against its wait clasp (R16). -/
  | queued
  /-- Eligible, and its slice has not started: it waits for its staging or its unit (R19, R26, R29). -/
  | eligible
  /-- A slice is running since the tick named (R20). -/
  | running (tick : Nat)
  /-- Its slice ended and it still has work: its next piece waits (R336). -/
  | parked
  /-- Its work has ended; the result waits for its Settle phase (R21). -/
  | ended
  deriving DecidableEq, Repr

/-- The series of pieces that one unit works of a descriptor (R61, R102, R223, R336): an ATTEND has one for each part, every other
descriptor of a unit one. -/
structure Strand where
  /-- The engine (class 0x2), or the mover unit that works its pieces (class 0x1, R223). -/
  unit : Nat := 0
  /-- Eligible: it has not started.  Running in a slice of the tick named.  Parked: its slice ended before its work.  Ended (R61, R336). -/
  state : FState := .eligible
  /-- Pieces that have ended: the number of the one that runs or is next. -/
  piece : Nat := 0
  /-- Its piece's pages are pinned (R336). -/
  pinned : Bool := false
  /-- Memory accesses of the running piece that have been issued (R253). -/
  issued : Nat := 0
  /-- Every piece has been worked. -/
  worked : Bool := false
  /-- The count of its half's clock up to which its busy cycles have been counted (Table 2.20). -/
  since : Nat := 0
  /-- Slices that have started, and the tick of the last of them (R61, R62). -/
  slices : Nat := 0
  slice : Nat := 0
  /-- The number of its last piece among all pieces dealt to mover units (R223). -/
  dealt : Nat := 0
  /-- What its unit's buffer carries from piece to piece (R40): the candidate lists of a SCAN, the queries and the states of an ATTEND's
  part. -/
  blob : Bytes := []
  deriving DecidableEq, Repr

/-- One descriptor in flight: the device's own copy (R314), where it came from, how far it is, and the results it
holds until they commit. [DESIGN CHOICE, log 18] -/
structure Flight where
  id : Nat
  desc : Bytes
  ring : Nat
  pos : Nat
  cring : Nat
  part : Nat
  /-- The tick of its admission. -/
  admTick : Nat
  /-- Where it stands (R16 to R29). -/
  state : FState
  /-- The units' series of pieces, once the descriptor is eligible: one for each part of an ATTEND, else one (R41, R102). -/
  strands : List Strand
  /-- The tick in which it became eligible (R26). -/
  eligTick : Nat
  /-- Its whole work has been performed. -/
  worked : Bool
  /-- Its completion status and detail (Tables 9.20, 18.8). -/
  status : Nat
  detail : Nat
  /-- The tick in whose Settle phase it completes. -/
  settleAt : Option Nat
  /-- Results held until they commit (R96, R229): places and bytes with their poison. -/
  held : List (Place × List (Byte × Bool))
  /-- A private result of its class, held until it commits: the record a SLOT_OPEN read (R80), the token data a
  KV_WRITE quantised (R92), the records an ATTEND offers to the mesh (R110). -/
  blob : Bytes
  /-- The slot's (L, P) at the snapshot of an ATTEND (R104). -/
  snapL : Nat
  snapP : Nat
  /-- Its speculation has been confirmed (R97, R229), or it never was speculative. -/
  confirmed : Bool
  /-- The tick in which its last piece ended, for the confirmation limits of R97 and R229. -/
  endTick : Nat
  /-- The consumer it stages for, if it is an attached move (R226). -/
  consumer : Option Nat
  /-- Its implicit staging is complete (R26, R150, R193, R194). -/
  staged : Bool
  /-- The bytes that a LAUNCH's or a LOAD's implicit staging needs, by slice (R228). -/
  stage : List (Nat × Nat)
  /-- The beads of a LAUNCH or RUN that has started: tile, bead number, and how its program ended (R151). -/
  beads : List (Nat × Nat × Option BeadEnd)
  /-- Casket segments (8 × slice + segment) and memory slabs its ranges touch (R212, R417). -/
  segs : List Nat
  slabs : List Nat
  /-- The checked windows of its partition as they stood in its Admit phase (R216). -/
  windows : List ChkWindow
  /-- Events of a speculative descriptor that is not confirmed (R96). -/
  events : List Event
  /-- It has failed its admission checks: it completes without running and never counts as in flight (R18). -/
  failed : Bool
  /-- A Settle phase has found its staging complete, so that its slice may start (R26, step 2). -/
  cleared : Bool
  deriving DecidableEq, Repr

/-- Partitions, rings and the descriptors in flight (R310 to R320). [DESIGN CHOICE, log 12] -/
structure Work where
  parts : SMap Part := []
  rings : SMap Ring := []
  crings : SMap CRing := []
  flights : List Flight := []
  /-- The number the next admitted descriptor gets. -/
  nextId : Nat := 0
  /-- Descriptors this Admit phase may still examine (R18). -/
  budget : Nat := 0
  /-- Pieces dealt to mover units so far (R223). -/
  deals : Nat := 0
  deriving DecidableEq, Repr

/-! ### What the device drives on its interfaces -/

/-- The protocols of the DOE mailbox (R300). -/
inductive DoeProtocol where
  | discovery | spdm | securedSpdm | cdat
  deriving DecidableEq, Repr

/-- An SPDM response (R433, R434).  A signature is over the transcript the response ends. -/
inductive SpdmRsp where
  | error
  | version (v : Nat)
  | capabilities
  | algorithms (vendor asym hash dhe : Nat)
  | digests (d : Bytes)
  | certificate (portion : Bytes) (left : Nat)
  | challengeAuth (chainDigest summary nonce sig : Bytes)
  | measurements (blocks : List (Nat × Bytes)) (nonce sig : Bytes)
  | keyExchange (sid : Nat) (ct sig : Bytes)
  | finish | endSession | keyUpdate | heartbeat
  | vendorDefined (op : Nat)
  deriving DecidableEq, Repr

/-- One thing the device has driven. [DESIGN CHOICE, log 96] -/
inductive Out where
  /-- A RdCurr request for one line of host memory (R305). -/
  | rdCurr (line : Nat)
  /-- A write to host memory: a whole line is an ItoMWr, a part of one a WOWrInv (R305). -/
  | hostWrite (addr : Nat) (data : Bytes) (poison : Bool)
  /-- An ATS Translation Request (R332). -/
  | translationRequest (pasid page : Nat) (noWrite : Bool)
  /-- One page request of a group (R339). -/
  | pageRequest (group pasid page : Nat) (read write last : Bool)
  /-- An ATS Invalidate Completion (R345). -/
  | invalidateCompletion (itag : Nat)
  /-- The data of a host CXL.mem read (R303). -/
  | memData (hpa : Nat) (data : Bytes) (poison : Bool)
  /-- The completion of a host CXL.mem write (R304). -/
  | memCompletion (hpa : Nat)
  /-- An access completed as an unsupported request (R5). -/
  | unsupportedRequest (off : Nat)
  /-- A frame on a channel of a site (R403). -/
  | siteFrame (q ch : Nat) (b : Bytes)
  /-- A discovery message on a site's sideband (R397). -/
  | siteMessage (q : Nat) (m : Bytes)
  /-- x_RST_N driven low, or released (R393). -/
  | siteReset (q : Nat) (low : Bool)
  /-- A Tether flit handed to the line coding of its port's lanes (R353, R367). -/
  | flit (p : Nat) (b : Bytes)
  /-- A codeword on a lane: its 2,720 levels, the first in the two lowest bits (R352, R353). -/
  | codeword (l : Nat) (levels : Nat)
  /-- A comma block on a lane: its 64 levels (R356). -/
  | comma (l : Nat) (levels : Nat)
  /-- A training frame on a lane: its 64 levels before the PRBS13 (R362). -/
  | trainingFrame (l : Nat) (levels : Nat)
  /-- A set-point written over AVSBus, in units of 5 mV (R443). -/
  | setpoint (rail u : Nat)
  /-- An SPDM response (R433). -/
  | spdm (r : SpdmRsp)
  /-- A DOE discovery response: the protocol at the index and the next index (R300). -/
  | doe (p : Option DoeProtocol) (next : Nat)
  /-- One CDAT memory-affinity entry: HDM range, read and write latency in ns, GB/s (R300). -/
  | cdat (range readNs writeNs gbs : Nat)
  /-- What the TAP gives: whether the access was performed, and the data of an IDCODE (R437, R523). -/
  | tap (done : Bool) (data : Nat)
  /-- An egress gate's decision (R473). -/
  | gate (passed : Bool)
  /-- A per-bank refresh of one pseudo-channel (R260). -/
  | refresh (c bank : Nat)
  /-- The regular calibration of a group, or that before its first access after self refresh (R254, R293). -/
  | calibrate (n : Nat)
  /-- The mode registers of a pseudo-channel are programmed (R233, Table 7.2). -/
  | modeRegisters (c : Nat) (m : ModeRegs)
  /-- A command of a pseudo-channel is issued once more after a parity error of kind 1 to 3 (R233). -/
  | reissue (c kind : Nat)
  deriving DecidableEq, Repr

/-! ### The whole device -/

/-- The state of the device. [DESIGN CHOICE, log 96] -/
structure State where
  tick : Tick := {}
  ctl : Ctl := {}
  host : HostPort := {}
  work : Work := {}
  clasps : Clasps := {}
  evt : EvtLog := {}
  mbox : Mbox := {}
  xlat : Xlat := {}
  sail : Sail := {}
  casket : Casket := {}
  mem : Mem := {}
  care : Care := {}
  /-- The tiles, by tile index (R3). -/
  tiles : SMap Tile := []
  /-- The mesh (R161 to R204). -/
  mesh : Mesh := {}
  locket : Locket := {}
  tether : Tether := {}
  pwr : Pwr := {}
  therm : Therm := {}
  keel : Keel := {}
  dbg : Dbg := {}
  /-- The six sites (R392). -/
  sites : SMap Site := []
  /-- What the device has driven on its interfaces, in order. -/
  out : List Out := []
  /-- The model's own: names the next free value (Config). -/
  free : Nat := 0
  /-- The model's own: the commands that wait, first in, first out. -/
  pending : List Instr := []
  deriving DecidableEq, Repr

/-- Why a step can stop with a fault.  No command of the device does: every stop the specification describes is a
state of the device (the safe state, the recovery state, a halt of start-up), so the type has the one constructor
that no meaning raises; it is neither safe nor unsafe. -/
inductive Fault where
  /-- Raised by no step. -/
  | none
  deriving DecidableEq, Repr

/-- Why a command is refused. -/
inductive Refusal where
  /-- The command has no meaning in the model yet.  Raised by no arm of the finished model; safe. -/
  | notModelled (mnemonic : String)
  /-- The command names a unit, a register or a length that the device does not have (an ill-formed term, see
  WellFormed).  Raised by every meaning whose operands index units of the device; safe, since no such command can
  reach the device. -/
  | illFormed (mnemonic : String)
  deriving DecidableEq, Repr

/-- The device with PWRGOOD low, before the first start-up: every register at its reset value. [DESIGN CHOICE, log 5; DESIGN CHOICE, log 6] -/
def State.reset : State := {}

end Sys2Proof.Machine
end

