-- ==== Sys2Proof/Machine/Ops.lean ====
section
/-! DEFINITION. The operations every family of commands shares: the tick's instants, what is driven out, events,
clasp signals, mailbox results, partitions. -/

namespace Sys2Proof.Machine

/-! ### The tick's instants (R13, R15) -/

/-- The tick period in ns. -/
def State.period (s : State) : Nat := s.tick.periodUs * 1000

/-- T_n of the running tick: TICK.BASE (R13). -/
def State.tickStart (s : State) : Nat := s.tick.epoch + s.tick.count * s.period

/-- T_(n+1) of the running tick. -/
def State.tickEnd (s : State) : Nat := s.tickStart + s.period

/-- The start of the Run phase of the running tick (Table 1.1). -/
def State.runStart (s : State) : Nat := s.tickStart + s.period / 20

/-- S_n of the running tick (Table 1.1). -/
def State.settleStart (s : State) : Nat := s.tickStart + 19 * s.period / 20

/-- The overrun allowance A in ns (R27). -/
def State.allowance (s : State) : Nat := s.tick.overrunPct * s.period / 100

/-- The end of the running phase (Table 1.1). -/
def State.phaseEnd (s : State) : Nat :=
  match s.tick.phase with
  | 0 => s.runStart
  | 1 => s.settleStart
  | _ => s.tickEnd

/-- Time moves on to the instant `t`; it never moves back (R12), and it never leaves the phase that runs (R15). [DESIGN CHOICE, log 11] -/
def State.arrive (s : State) (t : Nat) : State :=
  { s with tick := { s.tick with
      time := max s.tick.time (if s.ctl.released then min t (s.phaseEnd - 1) else t) } }

/-- What one edge of REFCLK adds to TICK.TIME, in 2^-32 ns (R12). -/
def State.edgeStep (s : State) : Nat := (10 * 2 ^ 32 + s.tick.trim : Int).toNat

/-- An edge of REFCLK with TICK.TIME `edge` is the first one at or after the instant `t` (R13), or the next one where an adoption has
moved the instant into the past (R32). [DESIGN CHOICE, log 11] -/
def State.firstEdge (s : State) (t edge : Nat) : Bool :=
  let t := max t s.tick.time
  decide (t ≤ edge) && decide (edge * 2 ^ 32 < t * 2 ^ 32 + s.edgeStep)

/-- Time becomes that of the edge at which a phase or a tick begins (R13). -/
def State.atEdge (s : State) (edge : Nat) : State :=
  { s with tick := { s.tick with time := max s.tick.time edge } }

/-- One edge of REFCLK (R12): TICK.TIME advances by 10 ns and the trim, once start-up has accepted REFCLK. [DESIGN CHOICE, log 1] -/
def State.refclk (s : State) : State :=
  if !s.ctl.pwrgood || (s.ctl.halted && s.ctl.step == 0) then s
  else
    let x := s.tick.frac + s.edgeStep
    { s with tick := { s.tick with time := s.tick.time + x / 2 ^ 32, frac := x % 2 ^ 32 } }

/-- The tick in whose Settle phase a status decided now completes: this tick strictly before S_n, the next one at or
after it (R338, R25). [DESIGN CHOICE, log 26] -/
def State.settleTick (s : State) : Nat := if s.tick.phase = 2 then s.tick.count + 1 else s.tick.count

/-! ### Clocks (Tables 14.1, 14.2) -/

/-- Frequency of a P-state in MHz. -/
def stateMhz (p : Nat) : Nat := [2800, 2500, 2250, 2000, 1750, 1500, 1000, 625].getD p 625

/-- The state of a half: 0 West, 1 East. -/
def State.halfP (s : State) (h : Nat) : Nat := if h = 0 then s.mesh.westP else s.mesh.eastP

/-- A loaded schedule declares seam crossings (R165, R166). -/
def State.crossings (s : State) : Bool := s.mesh.scheds.any (fun e => e.2.state != 0 && e.2.seam)

/-- A droop stretch acts on half `h`: its own, or the other's while a loaded schedule crosses the seam (R165, R449). -/
def State.stretched (s : State) (h : Nat) : Bool :=
  let w := s.pwr.stretchWest.isSome
  let e := s.pwr.stretchEast.isSome
  (if h = 0 then w else e) || (s.crossings && (w || e))

/-- What one cycle of an arithmetic clock counts. -/
def clockUnit : Nat := 60000

/-- What the arithmetic clock of half `h` counts in one ns: under an alert stretch one edge in k = ⌈f ÷ 625 MHz⌉ passes, and under a
droop stretch every second edge; the hardwired trip stops it (R449, R450, R456). -/
def State.clockRate (s : State) (h : Nat) : Nat :=
  let f := stateMhz (s.halfP h)
  if s.keel.trip then 0 else if s.pwr.alertStretch then 60 * f / ceilDiv f 625 else if s.stretched h then 30 * f else 60 * f

/-- The count of the clock of half `h` at TICK.TIME. [DESIGN CHOICE, log 23] -/
def State.clockNow (s : State) (h : Nat) : Nat :=
  (if h = 0 then s.mesh.clockWest else s.mesh.clockEast) + (s.tick.time - s.mesh.clockAt) * s.clockRate h

/-- What the two clocks have not counted because of droop stretches: under one, every second edge is suppressed, but an alert stretch takes
precedence (R449, R450). [DESIGN CHOICE, log 84] -/
def State.suppressed (s : State) : Nat :=
  let rate (h : Nat) : Nat := if !s.keel.trip && !s.pwr.alertStretch && s.stretched h then 30 * stateMhz (s.halfP h) else 0
  s.pwr.droopUnits + (s.tick.time - s.mesh.clockAt) * (rate 0 + rate 1)

/-- The clocks are counted up to now, before what they go by changes. -/
def State.countClocks (s : State) : State :=
  { s with
    pwr := { s.pwr with droopUnits := s.suppressed }
    mesh := { s.mesh with clockWest := s.clockNow 0, clockEast := s.clockNow 1, clockAt := s.tick.time } }

/-- The first cycle of the clock of half `h` at or after now. -/
def State.cycleNow (s : State) (h : Nat) : Nat := ceilDiv (s.clockNow h) clockUnit

/-! ### Outputs, events, free values -/

/-- Drive one thing on an interface. -/
def State.emit (s : State) (o : Out) : State := { s with out := s.out ++ [o] }

/-- Drive several things, in order. -/
def State.emitAll (s : State) (os : List Out) : State := { s with out := s.out ++ os }

/-- The state after a free value has been taken: the next one has another name. [DESIGN CHOICE, log 5] -/
def State.useFree (s : State) : State := { s with free := s.free + 1 }

/-- Bytes 24 to 63 of an event record, from (width in bytes, value) pairs in order. -/
def detail : List (Nat × Nat) → Nat
  | [] => 0
  | (w, x) :: r => x % 256 ^ w + 256 ^ w * detail r

/-- Post an event (R325): it is due in the next Settle phase's step 6, which stamps its tick. -/
def State.post (s : State) (code severity part unit dt : Nat) : State :=
  { s with evt := { s.evt with due := s.evt.due ++ [⟨code, severity, part, unit, 0, s.tick.time, dt⟩] } }

/-- Post an event unless one of the same code that `same` accepts is already due (the "at most once" rules). -/
def State.postOnce (s : State) (same : Event → Bool) (code severity part unit dt : Nat) : State :=
  if s.evt.due.any (fun e => e.code == code && same e) then s else s.post code severity part unit dt

/-! ### Partitions and clasps -/

/-- Partition `p`. -/
def State.part (s : State) (p : Nat) : Part := SMap.get {} s.work.parts p

/-- Change partition `p`. -/
def State.updPart (s : State) (p : Nat) (f : Part → Part) : State :=
  { s with work := { s.work with parts := SMap.upd {} s.work.parts p f } }

/-- The clasp lies in the range of partition `p` (R310). -/
def State.ownsClasp (s : State) (p k : Nat) : Bool :=
  decide ((s.part p).claspBase ≤ k) && decide (k < (s.part p).claspBase + (s.part p).claspCount)

/-- The engine belongs to partition `p` (R310). -/
def State.ownsEngine (s : State) (p n : Nat) : Bool := bit (s.part p).engines n

/-- The committed value of clasp `k`. -/
def State.clasp (s : State) (k : Nat) : Nat := SMap.get 0 s.clasps.committed k

/-- The count of a clasp value (R322). -/
def claspCount (v : Nat) : Nat := v % 2 ^ 63

/-- The error flag of a clasp value (R322). -/
def claspError (v : Nat) : Bool := bit v 63

/-- A clasp value from its count and error flag. -/
def claspValue (count : Nat) (error : Bool) : Nat := min count (2 ^ 63 - 1) + flag error * 2 ^ 63

/-- A signal applied to a clasp value: the count saturates, the error flag is set and stays (R322). -/
def claspSignal (v add : Nat) (error : Bool) : Nat := claspValue (claspCount v + add) (claspError v || error)

/-- A CLASP_SET applied to a clasp value (R323). -/
def claspSet (v mode value : Nat) : Nat :=
  match mode with
  | 0 => value % 2 ^ 64
  | 1 => claspValue (claspCount v + claspCount value) (claspError v || claspError value)
  | _ => claspCount v

/-- A signal issued now takes effect in the next Settle phase (R25). -/
def State.signal (s : State) (k add : Nat) (error : Bool) : State :=
  { s with clasps := { s.clasps with signals := s.clasps.signals ++ [⟨k, add, error⟩] } }

/-- The signals applied to the committed clasps, summed (R25). -/
def applySignals (m : SMap Nat) (sigs : List Signal) : SMap Nat :=
  sigs.foldl (fun m g => SMap.upd 0 m g.clasp (fun v => claspSignal v g.add g.error)) m

/-- The CLASP_SETs applied to the committed clasps, in order (R323). -/
def applySets (m : SMap Nat) (sets : List ClaspSet) : SMap Nat :=
  sets.foldl (fun m g => SMap.upd 0 m g.clasp (fun v => claspSet v g.mode g.value)) m

/-! ### The mailbox (R306, R307) -/

/-- The running mailbox command has ended with this result; it is committed in its Settle phase (R306). -/
def State.mboxEnd (s : State) (code : Nat) (out : Bytes) : State :=
  { s with mbox := { s.mbox with busy := none, ready := some ⟨code, out⟩ } }

/-- Result 0x00 with its output (Table 9.4). -/
def State.mboxOk (s : State) (out : Bytes) : State := s.mboxEnd 0 out

/-- Result 0x03 with the offset of the first failing field (Table 9.4). [DEDUCED, log 77] -/
def State.mboxRange (s : State) (off : Nat) : State := s.mboxEnd 3 (natLe 2 off)

/-- Result 0x05 with the kind and the index (Table 9.4). -/
def State.mboxConflict (s : State) (kind index : Nat) : State :=
  s.mboxEnd 5 (natLe 4 kind ++ natLe 4 index)

/-- The offset of the first byte of `bs` that is not zero among the offsets given. -/
def firstNonzero (bs : Bytes) (offs : List Nat) : Option Nat := offs.find? (fun o => byteAt bs o != 0)

/-- The first failing check of a list of (offset, passes) in ascending offset order (R307). [DESIGN CHOICE, log 31] -/
def firstFail : List (Nat × Bool) → Option Nat
  | [] => none
  | (o, ok) :: r => if ok then firstFail r else some o

/-- Reserved bytes [lo, hi) as checks. -/
def reservedChecks (bs : Bytes) (lo hi : Nat) : List (Nat × Bool) :=
  (List.range (hi - lo)).map (fun i => (lo + i, byteAt bs (lo + i) == 0))

/-- Commands that the safe state (R477) and the recovery state (R504) answer with result 0x04. -/
def State.mailboxClosed (s : State) (op : Nat) : Bool :=
  (s.keel.safe && op != 0x20) ||
  (s.ctl.recovery && !(op == 0x10 || op == 0x20 || op == 0x40 || (decide (0xB00 ≤ op) && decide (op ≤ 0xB04))))

/-- Run the accepted mailbox command if its opcode is `op` and it has not ended: the safe and the recovery state are asked
(0x04), the length (0x02), the life-cycle states that serve it (0x07), then the fields in ascending offset order (0x03);
then `k` decides (R307, R439). -/
def State.mailboxLc (s : State) (op : Nat) (lenOk : Nat → Bool) (states : List Nat) (checks : Bytes → List (Nat × Bool))
    (k : Bytes → State) : State :=
  match s.mbox.busy with
  | none => s
  | some b =>
    if b.opcode ≠ op then s
    else if s.mailboxClosed op then s.mboxEnd 4 []
    else if !lenOk b.payload.length then s.mboxEnd 2 []
    else if !states.contains s.locket.lc then s.mboxEnd 7 []
    else match firstFail (checks b.payload) with
      | some off => s.mboxRange off
      | none => k b.payload

/-- A mailbox command of a fixed length that every life-cycle state serves. [DESIGN CHOICE, log 31] -/
def State.mailbox (s : State) (op len : Nat) (checks : Bytes → List (Nat × Bool)) (k : Bytes → State) : State :=
  s.mailboxLc op (fun n => n == len) [0, 1, 2, 3, 4, 5] checks k

/-! ### BAR0 -/

/-- A write through BAR0 can take effect: the host's link is up, and the device has been released and is not in a warm reset (R487,
R479). [DEDUCED, log 33; DESIGN CHOICE, log 34] -/
def State.regOpen (s : State) : Bool :=
  s.ctl.pwrgood && s.ctl.released && s.ctl.warm.isNone && s.host.linkUp

/-- A register write: dropped while BAR0 takes none. [DESIGN CHOICE, log 34] -/
def State.regWrite (s : State) (k : State → State) : State := if s.regOpen then k s else s

/-! ### Outcomes -/

/-- The outcome of a command whose operands name units the device has (`ok`), and a refusal by name otherwise. [DESIGN CHOICE, log 4] -/
def guarded (mnemonic : String) (ok : Bool) (s' : State) : Host.Outcome State Fault Refusal :=
  if ok then .next s' else .refused (.illFormed mnemonic)

end Sys2Proof.Machine
end

