-- ==== Sys2Proof/Machine/MemOps.lean ====
section
/-! DEFINITION. The stacks as one memory (07_memory.md, 08_memory_care.md): the two address views, redirection, granules, the stored
codewords and what a read of them decodes to, holds, and the token buckets. -/

namespace Sys2Proof.Machine

/-! ### Addresses (R235 to R239) -/

/-- Local settings of a group. -/
def settingsPerGroup : Nat := 25165824

/-- The storage byte of a striped address (R236), as (25,165,824 × group + local setting) × 1,024 + byte. -/
def stripedStorage (d : Nat) : Nat :=
  let t := d / 1024
  let u := t % 2 ^ 25
  let i := u % 32
  let n := 4 * (i % 8) + i / 8
  (n * settingsPerGroup + t / 2 ^ 25 * 2 ^ 20 + u / 32) * 1024 + d % 1024

/-- The storage byte of a local address less 0x0100_0000_0000 (R237). -/
def localStorage (l : Nat) : Nat :=
  let o := l % 2 ^ 30
  (l / 2 ^ 30 % 32 * settingsPerGroup + l / 2 ^ 35 * 2 ^ 20 + o / 1024) * 1024 + o % 1024

/-- The storage byte a device memory address names, before redirection; none: unbacked (R235). -/
def storageOf (d : Nat) : Option Nat :=
  if d < 0xC000000000 then some (stripedStorage d)
  else if 0x10000000000 ≤ d ∧ d < 0x1C000000000 then some (localStorage (d - 0x10000000000))
  else none

/-- The group of a storage byte. -/
def groupOf (k : Nat) : Nat := k / 1024 / settingsPerGroup

/-- The slab 24n + j of a storage byte (R237). -/
def slabOf (k : Nat) : Nat := 24 * groupOf k + k / 1024 % settingsPerGroup / 2 ^ 20

/-- The local address of a storage byte (R237). -/
def localAddr (k : Nat) : Nat :=
  let s := k / 1024 % settingsPerGroup
  0x10000000000 + s / 2 ^ 20 * 2 ^ 35 + groupOf k * 2 ^ 30 + s % 2 ^ 20 * 1024 + k % 1024

/-- The unit id of the pseudo-channel that holds a storage byte's beat (R234). -/
def pcUnit (k : Nat) : Nat := 0x3000 + 16 * groupOf k + k % 1024 / 64

/-- The stacks' contents are in canonical form: addresses strictly rising, no entry equal to what an unlisted one reads as. -/
def Mem.wf (m : Mem) : Bool := SMap.wf 0 m.bytes && SMap.wf 0 m.checks && SMap.wf false m.flipped

/-- The state of group `n`. -/
def State.group (s : State) (n : Nat) : Group := SMap.get {} s.mem.groups n

/-- Change group `n`. -/
def State.updGroup (s : State) (n : Nat) (f : Group → Group) : State :=
  { s with mem := { s.mem with groups := SMap.upd {} s.mem.groups n f } }

/-- The slab entry `i` (Table 7.16). -/
def State.slab (s : State) (i : Nat) : Slab := SMap.get {} s.mem.slabs i

/-- The first storage byte of a slab. -/
def slabBase (i : Nat) : Nat := (i / 24 * settingsPerGroup + i % 24 * 2 ^ 20) * 1024

/-- The redirection of R239, followed while the donor's own group has been mapped out. -/
def State.redirectN (s : State) : Nat → Nat → Nat
  | 0, k => k
  | fuel + 1, k =>
    match (s.slab (slabOf k)).movedTo with
    | none => k
    | some i => s.redirectN fuel (slabBase i + k % 2 ^ 30)

/-- The storage byte that serves a storage byte, after the redirection of R239. -/
def State.redirect (s : State) (k : Nat) : Nat := s.redirectN 32 k

/-- The 1 KiB runs of a device memory range: (address, length) pairs within one setting each. -/
def settingRuns : Nat → Nat → Nat → List (Nat × Nat)
  | 0, _, _ => []
  | fuel + 1, d, n =>
    if n = 0 then []
    else
      let m := min n (1024 - d % 1024)
      (d, m) :: settingRuns fuel (d + m) (n - m)

/-- The 1 KiB runs of a device memory range. -/
def runsOf (d n : Nat) : List (Nat × Nat) := settingRuns (n / 1024 + 2) d n

/-- A device memory range lies wholly in one view (R235). -/
def backed (d n : Nat) : Bool :=
  within d n 0 0xC000000000 || within d n 0x10000000000 0xC000000000

/-- The slabs a range meets: by whole storage rows for a striped range, by 1 GiB extents for a local one. -/
def slabsOf (d n : Nat) : List Nat :=
  if n = 0 then []
  else if 0x10000000000 ≤ d then
    let a := (d - 0x10000000000) / 2 ^ 30
    let b := (d + n - 1 - 0x10000000000) / 2 ^ 30
    (List.range (b + 1 - a)).map (fun i => 24 * ((a + i) % 32) + (a + i) / 32)
  else if 32 * 1024 ≤ n then
    let a := d / 2 ^ 35
    let b := (d + n - 1) / 2 ^ 35
    ((List.range (b + 1 - a)).map (fun i => (List.range 32).map (fun g => 24 * g + (a + i)))).flatten
  else nub ((runsOf d n).map (fun r => slabOf (stripedStorage r.1)))

/-- A range meets a donated slab (R239). -/
def State.meetsHole (s : State) (d n : Nat) : Bool := (slabsOf d n).any (fun i => (s.slab i).hole)

/-! ### Granules (R267, R268) -/

/-- The granule's valid bit. -/
def State.granuleValid (s : State) (g : Nat) : Bool := s.mem.filled != SMap.get false s.mem.flipped g

/-- Set or clear the granule's valid bit. -/
def State.setGranule (s : State) (g : Nat) (v : Bool) : State :=
  { s with mem := { s.mem with flipped := SMap.set false s.mem.flipped g (v != s.mem.filled) } }

/-- MEMC.FILL.written: granules with the valid bit set (Table 8.13). -/
def State.granulesWritten (s : State) : Nat :=
  if s.mem.filled then 12582912 - s.mem.flipped.length else s.mem.flipped.length

/-! ### What the stacks hold (R241, R243, R245) -/

/-- The data of beat `k` of the stacks (storage byte address div 64), and of a whole setting. -/
def Mem.beatData (m : Mem) (k : Nat) : Bytes := SMap.getList 0 m.bytes (64 * k) 64
def Mem.settingData (m : Mem) (st : Nat) : Bytes := SMap.getList 0 m.bytes (1024 * st) 1024

/-- The check symbols that the code of its group gives the data of beat `k` (R241, R243). -/
def Mem.dataChecks (m : Mem) (wide : Bool) (k : Nat) : Nat :=
  if wide then wideChecks (m.settingData (k / 16)) (k % 16) else narrowChecks (m.beatData k)

/-- Beat `k` as the stack stores it: 64 data and 8 metadata bytes. -/
def Mem.rawBeat (m : Mem) (wide : Bool) (k : Nat) : Bytes :=
  m.beatData k ++ natLe 8 (m.dataChecks wide k ^^^ SMap.get 0 m.checks k)

/-- A setting as the stack stores it. -/
def Mem.rawSetting (m : Mem) (wide : Bool) (st : Nat) : List Bytes := (List.range 16).map (fun b => m.rawBeat wide (16 * st + b))

/-- The stack holds these 16 raw beats in a setting. -/
def Mem.holdSetting (m : Mem) (wide : Bool) (st : Nat) (raw : List Bytes) : Mem :=
  let m := { m with bytes := SMap.setList 0 m.bytes (1024 * st) ((raw.map (fun (b : Bytes) => b.take 64)).flatten) }
  { m with checks := (List.range 16).foldl (fun c b =>
      SMap.set 0 c (16 * st + b) (m.dataChecks wide (16 * st + b) ^^^ fieldLe (raw.getD b []) 64 8)) m.checks }

/-- Every beat of the setting is a codeword. -/
def Mem.sound (m : Mem) (st : Nat) : Bool := m.checks.all (fun e => e.1 / 16 != st)

/-- Store a run of stack bytes with the checks of its code, with or without poison on the beats named (R245). -/
def Mem.storeStack (m : Mem) (k : Nat) (bs : Bytes) (badBeats goodBeats : List Nat) : Mem :=
  { m with
    bytes := SMap.setList 0 m.bytes k bs
    checks := badBeats.foldl (fun p b => SMap.set 0 p b poisonMask)
      (goodBeats.foldl (fun p b => SMap.set 0 p b 0) m.checks) }

/-! ### Reads (R242 to R246, R250, R251) -/

/-- The byte of a buffer line as its cells return it: a single upset bit is corrected, and an uncorrectable byte carries poison (R247). -/
def upsetByte (b : Byte × Bool) (err : Nat) : Byte × Bool :=
  if err = 0 then b
  else match hammingDecode (hammingEncode b.1.toNat ^^^ err) with
    | some (v, _) => (BitVec.ofNat 8 v, b.2)
    | none => (b.1, true)

/-- The byte of a line, if valid. -/
def WcbLine.byte (l : WcbLine) (i : Nat) : Option (Byte × Bool) :=
  (SMap.get none l.bytes i).map (fun b => upsetByte b (SMap.get 0 l.errs i))

/-- The byte of a buffer line, if valid. -/
def State.wcbByte (s : State) (k : Nat) : Option (Byte × Bool) :=
  match s.mem.wcb.find? (fun l => l.setting == k / 1024) with
  | none => none
  | some l => l.byte (k % 1024)

/-- The beat of a storage byte lies on a die whose beats a narrow group has lost (R243, R244, R284). -/
def State.beatLost (s : State) (k : Nat) : Bool :=
  let n := groupOf k
  let die := k % 1024 / 64
  !(s.group n).wide && ((s.group n).deadDie == some die || SMap.get false s.mem.failedDies (16 * (n / 4) + die))

/-- The die that reads of a wide group decode as an erasure: the dead die of permanent erasure mode and of an evacuation from it, or the
affected die of degraded mode (R242, R284, R285). -/
def Group.erasure (g : Group) : Option Nat := if g.state = 3 ∨ g.state = 4 then g.deadDie else g.erased

/-- What a read of a whole wide setting decodes to (R242). -/
def State.readSetting (s : State) (st : Nat) : Decoded :=
  if s.mem.sound st then .clean (s.mem.settingData st)
  else decodeWide (s.group (st / settingsPerGroup)).erasure (s.mem.rawSetting true st)

/-- What a read of a narrow beat decodes to (R243). -/
def State.readBeat (s : State) (k : Nat) : Decoded :=
  if s.beatLost (64 * k) then .uncorrectable
  else if SMap.get 0 s.mem.checks k = 0 then .clean (s.mem.beatData k)
  else decodeNarrow (s.mem.rawBeat false k)

/-- The data that a decoder delivers, if it does. -/
def Decoded.data (r : Decoded) : Option Bytes :=
  match r with
  | .clean d => some d
  | .corrected d _ _ => some d
  | .erased d _ _ => some d
  | .poison => none
  | .uncorrectable => none

/-- What the stack returns for a storage byte: zero in an unwritten granule (R268), else what its setting or beat decodes to, and whether
it is poison or uncorrectable. -/
def State.stackByte (s : State) (k : Nat) : Byte × Bool :=
  let held := SMap.get 0 s.mem.bytes k
  if !s.granuleValid (k / 65536) then (0, false)
  else if (s.group (groupOf k)).wide then
    if s.mem.sound (k / 1024) then (held, false)
    else match (s.readSetting (k / 1024)).data with
      | some d => (d.getD (k % 1024) 0, false)
      | none => (held, true)
  else
    if SMap.get 0 s.mem.checks (k / 64) = 0 then (held, s.beatLost k)
    else match (s.readBeat (k / 64)).data with
      | some d => (d.getD (k % 64) 0, false)
      | none => (held, true)

/-- A read of one storage byte: the valid bytes of the buffer merged over the stack's (R246). [DEDUCED, log 7] -/
def State.readStorage (s : State) (k : Nat) : Byte × Bool :=
  match s.wcbByte k with
  | some b => b
  | none => s.stackByte k

/-- A read of one byte by device memory address. -/
def State.readDevByte (s : State) (d : Nat) : Byte × Bool :=
  match storageOf d with
  | none => (0, false)
  | some k => s.readStorage (s.redirect k)

/-- A read of device memory. -/
def State.readDev (s : State) (d n : Nat) : List (Byte × Bool) :=
  (List.range n).map (fun i => s.readDevByte (d + i))

/-- The stacks are in self refresh (Table 14.7): memory care waits for the exit (R465). [DESIGN CHOICE, log 25] -/
def State.memoryRests (s : State) : Bool := bit s.pwr.idle 2

/-- Memory is at rest: an access starts the exit, and waits for it (R465). [DESIGN CHOICE, log 25] -/
def State.wakeMemory (s : State) : State := { s with pwr := { s.pwr with waking := s.pwr.waking ||| 4 } }

/-! ### What an access waits for (R244, R268, R282 to R284) -/

/-- The narrow beat at storage byte `k` decodes with a correction, and no canary read of its pseudo-channel has released it yet (R244). -/
def State.beatWaits (s : State) (k : Nat) : Bool :=
  !(s.group (groupOf k)).wide && s.granuleValid (k / 65536) && SMap.get 0 s.mem.checks (k / 64) != 0 &&
    SMap.get none s.mem.corrected (k / 64) != some true &&
    (match s.readBeat (k / 64) with
      | .corrected _ _ _ => true
      | _ => false)

/-- The stack cannot serve storage byte `k` now: its group is held, or it is a narrow group in degraded mode and the byte lies on the
affected die; its granule's zero writes run; its beat waits for a canary read. -/
def State.stackHeld (s : State) (k : Nat) : Bool :=
  let g := s.group (groupOf k)
  g.state == 1 || g.recal || (!g.wide && g.state == 2 && g.deadDie.isNone && k % 1024 / 64 == g.heldPc) ||
    s.mem.filling.contains (k / 65536) || s.beatWaits k

/-- An access to this run must wait: the stack cannot serve a byte that the buffer does not hold, or a repair holds its granule; a read
whose bytes are all in the buffer, and every write, proceeds otherwise (R282 to R284). [DESIGN CHOICE, log 63] -/
def State.runHeld (s : State) (r : Nat × Nat) : Bool :=
  match storageOf r.1 with
  | none => false
  | some k0 =>
    let k := s.redirect k0
    (List.range r.2).any (fun i => (s.wcbByte (k + i)).isNone && s.stackHeld (k + i))
      || s.care.repairHold.any (fun h => h.1 == k / 65536)

/-- A repair holds a granule of the range (R282). -/
def State.repairHeld (s : State) (d n : Nat) : Bool :=
  !s.care.repairHold.isEmpty && (runsOf d n).any (fun r =>
    match storageOf r.1 with
    | none => false
    | some k => s.care.repairHold.any (fun h => h.1 == s.redirect k / 65536))

/-- A read of the range must wait (R244, R268, R282 to R284). [DESIGN CHOICE, log 63] -/
def State.readHeld (s : State) (d n : Nat) : Bool := (runsOf d n).any s.runHeld

/-- The narrow beats that a read of the range wants from the stack. -/
def State.wantedBeats (s : State) (d n : Nat) : List Nat :=
  nub ((runsOf d n).map (fun r =>
    match storageOf r.1 with
    | none => []
    | some k0 =>
      let k := s.redirect k0
      ((List.range r.2).filter (fun i => (s.wcbByte (k + i)).isNone && s.granuleValid (k / 65536))).map (fun i => (k + i) / 64))).flatten

/-- A read of the range has been issued and waits: its corrected beats are held for the next canary read (R244). -/
def State.holdBeats (s : State) (d n : Nat) : State :=
  if s.mem.checks.isEmpty then s
  else { s with mem := { s.mem with corrected := (s.wantedBeats d n).foldl (fun c b =>
      if s.beatWaits (64 * b) && (SMap.get none c b).isNone then SMap.set none c b (some false) else c) s.mem.corrected } }

/-! ### Buckets (R252, R253) -/

/-- Bucket `b`. -/
def State.bucket (s : State) (b : Nat) : Bucket := SMap.get {} s.mem.buckets b

/-- Change bucket `b`. -/
def State.updBucket (s : State) (b : Nat) (f : Bucket → Bucket) : State :=
  { s with mem := { s.mem with buckets := SMap.upd {} s.mem.buckets b f } }

/-- An access of bucket `b` may issue (R253). -/
def State.mayIssue (s : State) (b : Nat) : Bool :=
  (s.bucket b).rateNow == max32 || decide (1 ≤ (s.bucket b).count)

/-- Deduct a cost (R253). -/
def State.charge (s : State) (b cost : Nat) : State :=
  if cost = 0 ∨ (s.bucket b).rateNow = max32 then s
  else s.updBucket b (fun t => { t with count := t.count - cost })

/-- An access of bucket `b` waits in this tick (R253): the wait is counted once per tick. -/
def State.bucketWait (s : State) (b : Nat) : State :=
  if (s.bucket b).waited then s
  else s.updBucket b (fun t => { t with waited := true, waitTicks := satAdd max32 t.waitTicks 1 })

/-- MEM_REG_WAIT for a bucket on which an access waited in the tick that ends, with the count after that tick's last charge
(R253, Table 7.8). -/
def State.postWaits (s : State) (b : Nat) : State :=
  if (s.bucket b).waited then
    s.post 0x1014 0 (if b < 16 then b else 0xFF) 0xFFFF (detail [(1, b), (4, fromSigned 32 (s.bucket b).count)])
  else s

/-- The tokens that reading one run within a setting costs: nothing where the buffer or an unwritten granule serves it, else its beats in
a narrow group and 16 in a wide one (R251, R253). -/
def State.runCost (s : State) (r : Nat × Nat) : Nat :=
  match storageOf r.1 with
  | none => 0
  | some k0 =>
    let k := s.redirect k0
    let need := (List.range r.2).filter (fun i => (s.wcbByte (k + i)).isNone)
    if need.isEmpty || !s.granuleValid (k / 65536) then 0
    else if (s.group (groupOf k)).wide then 16
    else (nub (need.map (fun i => (k + i) / 64))).length

/-- The tokens a read costs (R253). -/
def State.readCost (s : State) (d n : Nat) : Nat := ((runsOf d n).map s.runCost).sum

/-- Bytes without poison. -/
def clean (bs : Bytes) : List (Byte × Bool) := bs.map (fun b => (b, false))

/-- The plain bytes of a read. -/
def plain (bs : List (Byte × Bool)) : Bytes := bs.map (fun b => b.1)

/-- Poison is met in a read. -/
def poisoned (bs : List (Byte × Bool)) : Bool := bs.any (fun b => b.2)

/-- The first poisoned byte's offset in a read. -/
def firstPoison (bs : List (Byte × Bool)) : Option Nat := bs.findIdx? (fun b => b.2)


end Sys2Proof.Machine
end

