-- ==== Sys2Proof/Machine/MemErr.lean ====
section
/-! DEFINITION. Errors of the memory and what follows from them at once: consumed uncorrectable data, correctable-error buckets, group
states, located and dead dies, the start of an evacuation, and what a read of the stacks or of the buffers reports (R242 to R244, R247,
R273 to R275, R285 to R292). -/

namespace Sys2Proof.Machine

/-! ### Partition resets (R275, R276) -/

/-- A site message with its poison flag set (Table 12.7: byte 6, bit 0). -/
def SiteMsg.spoil (m : SiteMsg) : SiteMsg := { m with head := m.head.set 6 (m.head.getD 6 0 ||| 1) }

/-- Flight `f` is of partition `p`. -/
def State.flightOf (s : State) (p f : Nat) : Bool := s.work.flights.any (fun x => x.id == f && x.part == p)

/-- A message for a die is a result of partition `p`: a WRITE of one of its flights (op 3, by its tag), or a STREAM word of its schedule
(op 6, by its address field) (Table 12.7, R168). -/
def State.resultOf (s : State) (p : Nat) (x : Site) (m : SiteMsg) : Bool :=
  let op := (m.head.getD 1 0).toNat
  let tag := (m.head.getD 2 0).toNat + 256 * (m.head.getD 3 0).toNat
  (op == 3 && x.writing.any (fun w => w.tag == tag && s.flightOf p w.flight)) || (op == 6 && (m.head.getD 8 0).toNat == p)

/-- Results of partition `p` already on their way to host memory or to a site are sent with poison (R275). -/
def State.spoilResults (s : State) (p : Nat) : State :=
  { s with
    host := { s.host with writes := s.host.writes.map (fun w => match w with
      | .toHost q a data poison false => .toHost q a data (poison || q == p) false
      | w => w) }
    sites := s.sites.map (fun e => (e.1, { e.2 with
      egress := e.2.egress.map (fun w => if w.partition == p then { w with word := { w.word with poison := true } } else w)
      writing := e.2.writing.map (fun w => if s.flightOf p w.flight then { w with msg := w.msg.spoil } else w)
      chans := e.2.chans.map (fun c => (c.1, { c.2 with
        tx := c.2.tx.map (fun m => if s.resultOf p e.2 m then m.spoil else m) })) })) }

/-- Partition `p` has consumed uncorrectable data (cause 1), or takes a reset for another cause: the reset starts, or it joins the one in
progress (R276, step 1). -/
def State.startReset (s : State) (p cause unit : Nat) : State :=
  if 16 ≤ p then s
  else
    let s := if cause = 1 then s.spoilResults p else s
    let r : PartReset := match SMap.get none s.care.resets p with
      | none => ⟨cause, unit, 0, s.tick.count, false⟩
      | some r => { r with joined := satAdd max32 r.joined 1 }
    { s with care := { s.care with resets := SMap.set none s.care.resets p (some r) } }

/-! ### Correctable errors (R273, R274) -/

/-- Correctable-error bucket `b`. -/
def State.ce (s : State) (b : Nat) : CeBucket := SMap.get {} s.care.ce b

/-- Change correctable-error bucket `b`. -/
def State.updCe (s : State) (b : Nat) (f : CeBucket → CeBucket) : State :=
  { s with care := { s.care with ce := SMap.upd {} s.care.ce b f } }

/-- A charge to bucket `b` from the unit named (R273, R274): at the threshold the overflow is counted, the count returns to
zero, and an event is posted unless a storm window is open. [DEDUCED, log 62] -/
def State.chargeCe (s : State) (b amount unit : Nat) : State :=
  let x := s.ce b
  let n := satAdd max32 x.count amount
  if n < s.care.threshold then s.updCe b (fun y => { y with count := n })
  else
    let count := satAdd 0xFFFF x.overflows 1
    let s := s.updCe b (fun _ => ⟨count, 0, true⟩)
    if x.storm then s
    else s.post (if b < 32 then 0x1020 else 0x2064) 1 0xFF unit (detail [(1, if b < 32 then b else b - 32), (4, count)])

/-! ### Group states (R285, R292) -/

/-- MEM_GROUP_STATE (Table 8.9): `die` is the affected die, `dead` says that the posting declares it dead. -/
def State.postGroupState (s : State) (n old new : Nat) (die : Option Nat) (dead : Bool) (lost : Nat) : State :=
  let severity := if new == 3 || new == 4 || new == 5 || dead || decide (0 < lost) then 2 else 1
  let unit := match die with
    | some a => 0x3000 + 16 * n + a
    | none => 0xFFFF
  s.post 0x1023 severity 0xFF unit
    (detail [(1, n), (1, old), (1, new), (1, if dead then die.getD 0xFF else 0xFF), (1, lost)])

/-- A group returns: its epoch and those of its 16 pseudo-channels are bumped, wrapping at 16 bits (R292). -/
def State.bumpGroup (s : State) (n : Nat) : State :=
  let s := s.updGroup n (fun g => { g with epoch := (g.epoch + 1) % 65536 })
  { s with mem := { s.mem with pcEpochs := (List.range 16).foldl (fun m c =>
      SMap.upd 0 m (16 * n + c) (fun e => (e + 1) % 65536)) s.mem.pcEpochs } }

/-- Slabs reserved in MEMC.DONOR that are eligible for a failing group, lowest index first (R289). -/
def State.eligibleDonors (s : State) (n : Nat) : List Nat :=
  (List.range 768).filter (fun i =>
    (SMap.get 0 s.care.donor (i / 64)).toNat.testBit (i % 64) && !(s.slab i).hole && i / 24 != n && (s.group (i / 24)).state == 0)

/-- Evacuation state of group `n`. -/
def State.evac (s : State) (n : Nat) : Evac := SMap.get {} s.care.evac n

/-- MEMC.EVAC[n] (Table 8.18). -/
def Evac.word (e : Evac) : Nat := e.poisoned * 2 ^ 32 + e.current.getD 0xFF * 256 + e.done

/-- The size of a slot record's group list, and the group at a place of it (Table 3.2). -/
def recG (r : Bytes) : Nat := byteAt r 3
def recGroup (r : Bytes) (j : Nat) : Nat := byteAt r (64 + j)

/-- Group `n` has been mapped out (Table 8.8, step 5): the slots that are not closed and list it note it (R102). -/
def State.mappedOut (s : State) (n : Nat) : State :=
  let s := s.updGroup n (fun g => { g with state := 5 })
  let slots := s.sail.slots.map (fun e =>
    if e.2.state == 0 then e
    else (e.1, { e.2 with moved := e.2.moved ++ ((List.range (recG e.2.record)).filter (fun j =>
      recGroup e.2.record j == n && !e.2.moved.contains j)) }))
  let s : State := { s with sail := { s.sail with slots := slots } }
  let s := s.postGroupState n 4 5 none false 0
  s.post 0x1024 1 0xFF 0xFFFF (detail [(1, n), (4, (s.evac n).poisoned)])

/-- The start of slab `j` of an evacuation (Table 8.8, step 1): the donor's granules take the valid bits of the slab's granules. -/
def State.beginSlab (s : State) (n j donor : Nat) : State :=
  (List.range 16384).foldl (fun s i =>
    let v := s.granuleValid (slabBase (24 * n + j) / 65536 + i)
    if s.granuleValid (slabBase donor / 65536 + i) == v then s else s.setGranule (slabBase donor / 65536 + i) v) s

/-- Evacuation of group `n` starts (R287 to R290): donors are assigned and become holes; slabs without a donor become
holes and are lost. -/
def State.startEvac (s : State) (n : Nat) (flight : Option Nat) : State :=
  let g := s.group n
  let donors := (s.eligibleDonors n).take 24
  let lost := (List.range 24).filter (fun j => donors.length ≤ j)
  let holes := donors ++ lost.map (fun j => 24 * n + j)
  let slabs := holes.foldl (fun m i => SMap.upd {} m i (fun x => { x with hole := true })) s.mem.slabs
  let die := if g.deadDie.isSome then g.deadDie else g.erased
  let s := { s with
    mem := { s.mem with slabs := slabs }
    care := { s.care with evac := SMap.set {} s.care.evac n ⟨0, if donors.isEmpty then none else some 0, 0, flight, donors⟩ } }
  let s := s.updGroup n (fun g => { g with
    state := 4, deadDie := if g.wide then die else g.deadDie, erased := none, attempts := 0, rebuild := [], rejoining := false })
  let s := s.postGroupState n g.state 4 die false lost.length
  match donors with
  | [] => s.mappedOut n
  | d :: _ => s.beginSlab n 0 d

/-- A second fault in a wide group in permanent erasure mode starts evacuation at once (R287). -/
def State.secondFault (s : State) (n : Nat) : State :=
  if (s.group n).wide && (s.group n).state == 3 then s.startEvac n none else s

/-- Die `a` of group `n` is dead (Table 8.6, steps 5 to 6′). -/
def State.dieDead (s : State) (n a : Nat) : State :=
  let g := s.group n
  let new := if g.wide then 3 else 2
  let s := s.updGroup n (fun g =>
    { g with
      state := new, deadDie := some a, erased := none, rebuild := if g.wide then [] else g.rebuild,
      attempts := 0, rejoining := false })
  s.postGroupState n g.state new (some a) true 0

/-- A decoder has located die `a` in setting `st` of group `n` (R242, R284, R287). [DEDUCED, log 62] -/
def State.dieLocated (s : State) (n a st : Nat) : State :=
  let s := if (s.group n).located then s
    else (s.updGroup n (fun g => { g with located := true })).post 0x1011 2 0xFF (0x3000 + 16 * n + a)
      (detail [(1, n), (1, a), (4, st)])
  if (s.group n).state = 0 then s.dieDead n a
  else if (s.group n).state = 3 ∧ (s.group n).deadDie ≠ some a then s.secondFault n
  else s

/-! ### What a read reports (R242 to R244, R247, R273) -/

/-- A whole wide setting has been read and decoded: its corrections are charged, and a die the decoder locates is acted on. -/
def State.heedSetting (s : State) (st : Nat) : State :=
  if s.mem.sound st then s
  else
    let n := st / settingsPerGroup
    match s.readSetting st with
    | .corrected _ k dies => s.chargeCe n k (0x3000 + 16 * n + dies.headD 0)
    | .erased _ a true => s.dieLocated n a (st % settingsPerGroup)
    | _ => s

/-- A narrow beat has been read and decoded: its corrections are charged, and it is held no longer (R244). -/
def State.heedBeat (s : State) (k : Nat) : State :=
  if SMap.get 0 s.mem.checks k = 0 then s
  else
    let s : State := { s with mem := { s.mem with corrected := SMap.set none s.mem.corrected k none } }
    match s.readBeat k with
    | .corrected _ c _ => s.chargeCe (groupOf (64 * k)) c (pcUnit (64 * k))
    | _ => s

/-- The buffered byte `i` of a setting has been read: a corrected upset is charged to its group and the byte rewritten (R247). -/
def State.heedBuffered (s : State) (st i : Nat) : State :=
  match s.mem.wcb.find? (fun l => l.setting == st) with
  | none => s
  | some l =>
    let e := SMap.get 0 l.errs i
    if e = 0 then s
    else match SMap.get none l.bytes i with
      | none => s
      | some b =>
        match hammingDecode (hammingEncode b.1.toNat ^^^ e) with
        | none => s
        | some (v, _) =>
          let l' := { l with
            bytes := SMap.set none l.bytes i (some (BitVec.ofNat 8 v, b.2))
            errs := SMap.set 0 l.errs i 0 }
          let s : State := { s with mem := { s.mem with wcb := s.mem.wcb.map (fun x => if x.setting == st then l' else x) } }
          s.chargeCe (st / settingsPerGroup) 1 (pcUnit (1024 * st + i))

/-- A range of device memory has been read: what the buffers and the stacks reported of it. -/
def State.heed (s : State) (d n : Nat) : State :=
  if s.mem.checks.isEmpty && s.mem.wcb.all (fun l => l.errs.isEmpty) then s
  else (runsOf d n).foldl (fun s r =>
    match storageOf r.1 with
    | none => s
    | some k0 =>
      let k := s.redirect k0
      let need := (List.range r.2).filter (fun i => (s.wcbByte (k + i)).isNone)
      let s := (List.range r.2).foldl (fun s i => s.heedBuffered (k / 1024) ((k + i) % 1024)) s
      if need.isEmpty || !s.granuleValid (k / 65536) then s
      else if (s.group (groupOf k)).wide then s.heedSetting (k / 1024)
      else (nub (need.map (fun i => (k + i) / 64))).foldl (fun s b => s.heedBeat b) s) s

/-- The setting or beat at storage byte `k` does not decode: in a wide group in permanent erasure mode a second fault (R287). -/
def State.undecodable (s : State) (k : Nat) : State :=
  let n := groupOf k
  if (s.group n).wide && (s.group n).state == 3 && s.readSetting (k / 1024) == .uncorrectable then s.secondFault n else s

/-- MEM_UNCORRECTABLE for the first poisoned byte of a device memory read (R275, Table 8.9). -/
def State.postUncorrectable (s : State) (d : Nat) (bs : List (Byte × Bool)) (part consumer tag : Nat) : State :=
  match firstPoison bs with
  | none => s
  | some i =>
    match storageOf (d + i) with
    | none => s
    | some k0 =>
      let k := s.redirect k0
      let a := if (s.group (groupOf k)).wide then k / 1024 * 1024 else k / 64 * 64
      let s := s.post 0x1021 2 part (pcUnit k) (detail [(8, localAddr a), (1, consumer), (8, tag)])
      if (s.wcbByte k).isSome then s else s.undecodable k

end Sys2Proof.Machine
end

