-- ==== Sys2Proof/Machine/MemBuf.lean ====
section
/-! DEFINITION. The write-combining buffers: writebacks, writes, first writes to granules (R246 to R250, R268, R283, R284, R291). -/

namespace Sys2Proof.Machine

/-! ### Writebacks (R249, R250) -/

/-- The tokens a write costs (R253). -/
def writeCost (n : Nat) : Nat := ceilDiv n 64

/-- Remove a line from the buffers. -/
def Mem.dropLine (m : Mem) (setting : Nat) : Mem :=
  { m with wcb := m.wcb.filter (fun l => l.setting != setting) }

/-- The bytes a writeback leaves in beat `b` of its setting: the line's valid bytes merged over the stack's. -/
def State.mergedBeat (s : State) (l : WcbLine) (b : Nat) : List (Byte × Bool) :=
  (List.range 64).map (fun i =>
    match l.byte (64 * b + i) with
    | some x => x
    | none => s.stackByte (l.setting * 1024 + 64 * b + i))

/-- Valid bytes of a line in beat `b`. -/
def WcbLine.validIn (l : WcbLine) (b : Nat) : Nat :=
  (l.bytes.filter (fun e => e.1 / 64 == b)).length

/-- Every byte of the line is valid. -/
def WcbLine.full (l : WcbLine) : Bool := l.bytes.length == 1024

/-- The beats of a line that its writeback writes: all of them in a wide group, those with a valid byte in a narrow one. -/
def State.wbBeats (s : State) (l : WcbLine) : List Nat :=
  if (s.group (l.setting / settingsPerGroup)).wide then List.range 16
  else (List.range 16).filter (fun b => l.validIn b != 0)

/-- The stack's share of a merged beat is poison or uncorrectable. [DEDUCED, log 60] -/
def State.mergeReadBad (s : State) (l : WcbLine) (b : Nat) : Bool :=
  (List.range 64).any (fun i =>
    (SMap.get none l.bytes (64 * b + i)).isNone && (s.stackByte (l.setting * 1024 + 64 * b + i)).2)

/-- An uncorrectable byte of the buffer lies in a beat of the line (R247). -/
def WcbLine.upsetIn (l : WcbLine) (b : Nat) : Bool :=
  l.errs.any (fun e => e.1 / 64 == b && (match SMap.get none l.bytes e.1 with
    | some x => (hammingDecode (hammingEncode x.1.toNat ^^^ e.2)).isNone
    | none => false))

/-- The writeback of a line reports beat `b` (R247, R250, R275): MEM_WCB_RMW_POISON, MEM_UNCORRECTABLE where a merge read failed, and
an uncorrectable data error of the partition that wrote the line last. -/
def State.reportWb (s : State) (l : WcbLine) (b : Nat) (read : Bool) : State :=
  let k := l.setting * 1024
  let part := if l.writer < 16 then l.writer else 0xFF
  let a := localAddr (if (s.group (groupOf k)).wide then k else k + 64 * b)
  let s := s.post 0x1016 2 part (pcUnit (k + 64 * b)) (detail [(8, localAddr k)])
  let s := if read then s.post 0x1021 2 part (pcUnit (k + 64 * b)) (detail [(8, a), (1, 4)]) else s
  s.startReset l.writer 1 (pcUnit (k + 64 * b))

/-- The buffer line and the counters after a writeback of its beats; a partial one charges its merge reads to the last writer's bucket
(R250, R253, Table 7.15). -/
def State.wroteBack (s : State) (l : WcbLine) (partialBeats : List Nat) : State :=
  let n := l.setting / settingsPerGroup
  let mem := s.mem.dropLine l.setting
  if partialBeats.isEmpty then { s with mem := { mem with wbFull := SMap.upd 0 mem.wbFull n (fun c => satAdd max32 c 1) } }
  else
    let s : State := { s with mem := { mem with wbPartial := SMap.upd 0 mem.wbPartial n (fun c => satAdd max32 c 1) } }
    if l.writer < 18 then s.charge l.writer (if (s.group n).wide then 16 else partialBeats.length) else s

/-- A granule written in a wide group in degraded mode is marked in the rebuild map (R284, step 2). -/
def State.markRebuild (s : State) (g : Nat) : State :=
  let n := g * 64 / settingsPerGroup
  if (s.group n).wide && (s.group n).state == 2 && !(s.group n).rebuild.contains g then
    s.updGroup n (fun x => { x with rebuild := x.rebuild ++ [g] })
  else s

/-- Write one buffer line back (R250): corrections of the line and of its merge reads are charged, the setting or the beats are stored
with their checks, and as poison where the line carries poison, an uncorrectable byte, or a merge read fails. [DEDUCED, log 60] -/
def State.writeback (s : State) (l : WcbLine) : State :=
  let n := l.setting / settingsPerGroup
  let wide := (s.group n).wide
  let k := l.setting * 1024
  let s := l.errs.foldl (fun s e => s.heedBuffered l.setting e.1) s
  let l := (s.mem.wcb.find? (fun x => x.setting == l.setting)).getD l
  let beats := s.wbBeats l
  let partialBeats := beats.filter (fun b => l.validIn b != 64)
  let s := if partialBeats.isEmpty || !s.granuleValid (k / 65536) then s
    else if wide then s.heedSetting l.setting
    else partialBeats.foldl (fun s b => s.heedBeat (k / 64 + b)) s
  let merged := beats.map (fun b => (b, s.mergedBeat l b))
  let readFailed := partialBeats.filter (fun b => s.mergeReadBad l b)
  let upset := beats.filter (fun b => l.upsetIn b)
  let badB := (merged.filter (fun m => m.2.any (fun x => x.2))).map (fun m => m.1)
  let badBeats := if wide then (if badB.isEmpty then [] else List.range 16) else badB
  let failed := beats.filter (fun b => readFailed.contains b || upset.contains b)
  let failed := if wide then failed.take 1 else failed
  let second := wide && !readFailed.isEmpty
  let s := if second then s.undecodable k else s
  let mem := merged.foldl (fun mm x => mm.storeStack (k + 64 * x.1) (x.2.map (fun y => y.1)) [] [k / 64 + x.1]) s.mem
  let mem := mem.storeStack k [] (badBeats.map (fun b => k / 64 + b)) []
  let s := (({ s with mem := mem } : State).wroteBack l partialBeats).markRebuild (l.setting / 64)
  failed.foldl (fun s b => s.reportWb l b (if wide then !readFailed.isEmpty else readFailed.contains b)) s

/-- A line whose writeback must wait: the stacks are at rest, its granule's zero writes run, a repair holds it, or its group is held or waits for the die that the
line needs (R268, R282 to R284, R465). -/
def State.lineHeld (s : State) (l : WcbLine) : Bool :=
  s.memoryRests || s.mem.filling.contains (l.setting / 64) || s.care.repairHold.any (fun h => h.1 == l.setting / 64) ||
    (let g := s.group (l.setting / settingsPerGroup)
     g.state == 1 || g.recal || (!g.wide && g.state == 2 && g.deadDie.isNone && l.validIn g.heldPc != 0))

/-- Write back every line that satisfies `p`. -/
def State.writebackAll (s : State) (p : WcbLine → Bool) : State :=
  (s.mem.wcb.filter p).foldl (fun s l => s.writeback l) s

/-- The full lines of group `n` that may go are written back, in one run (R249). -/
def State.writebackFull (s : State) (n : Nat) : State :=
  if (s.group n).wide then s.writebackAll (fun l => l.full && l.setting / settingsPerGroup == n && !s.lineHeld l) else s

/-! ### Writes (R246, R268) -/

/-- The first write to an unwritten granule sets its valid bit and starts its zero writes (R268). -/
def State.touchGranule (s : State) (g : Nat) : State :=
  if s.granuleValid g then s
  else
    let s := s.setGranule g true
    ({ s with mem := { s.mem with
        filling := s.mem.filling ++ [g]
        bytes := SMap.clear s.mem.bytes (g * 65536) (g * 65536 + 65536)
        checks := SMap.clear s.mem.checks (g * 1024) (g * 1024 + 1024) } } : State).markRebuild g

/-- The lines of the buffer set that a setting falls in (R246: 64 sets of 16 ways in each group). [DESIGN CHOICE, log 59] -/
def State.wcbSet (s : State) (setting : Nat) : List WcbLine :=
  s.mem.wcb.filter (fun l => l.setting / settingsPerGroup == setting / settingsPerGroup && l.setting % 64 == setting % 64)

/-- Make room for a new line in its set: the least recently written line that may go is written back (R249). [DESIGN CHOICE, log 59] -/
def State.makeWay (s : State) (setting : Nat) : State :=
  if s.mem.wcb.any (fun l => l.setting == setting) then s
  else
    let set := s.wcbSet setting
    if set.length < 16 then s
    else match (set.filter (fun l => !s.lineHeld l)).getLast? with
      | none => s
      | some l => s.writeback l

/-- Enter bytes of one setting into the buffer of its group (R246); a wide line that they complete is written back (R249). -/
def State.writeLine (s : State) (k : Nat) (bs : List (Byte × Bool)) (writer : Nat) : State :=
  let setting := k / 1024
  let s := (s.touchGranule (setting / 64)).makeWay setting
  let old : WcbLine := (s.mem.wcb.find? (fun l => l.setting == setting)).getD ⟨setting, [], writer, s.tick.count, []⟩
  let line := { old with
    bytes := SMap.setList none old.bytes (k % 1024) (bs.map some)
    errs := SMap.clear old.errs (k % 1024) (k % 1024 + bs.length)
    writer := writer }
  let s : State := { s with mem := { s.mem.dropLine setting with wcb := line :: (s.mem.dropLine setting).wcb } }
  if line.full then s.writebackFull (setting / settingsPerGroup) else s

/-- Where the slab of a storage byte is being moved to: the donor's byte (Table 8.8, step 3). -/
def State.movingTo (s : State) (k : Nat) : Option Nat :=
  let n := groupOf k
  let e := s.evac n
  match e.current with
  | some j => if (s.group n).state = 4 ∧ slabOf k = 24 * n + j then some (slabBase (e.donors.getD j 0) + k % 2 ^ 30) else none
  | none => none

/-- Write bytes of one setting: into its buffer, and into the donor's too while its slab is being moved (R246, R291). -/
def State.writeSetting (s : State) (k : Nat) (bs : List (Byte × Bool)) (writer : Nat) : State :=
  let s' := s.writeLine k bs writer
  match s.movingTo k with
  | some k' => s'.writeLine k' bs writer
  | none => s'

/-- A write to device memory by bucket `writer` (a partition, 16 for the host, 17 for Tether): performed when the
buffers accept it (R246). -/
def State.writeDev (s : State) (d : Nat) (bs : List (Byte × Bool)) (writer : Nat) : State :=
  ((runsOf d bs.length).foldl (fun (a : State × List (Byte × Bool)) r =>
    match storageOf r.1 with
    | none => (a.1, a.2.drop r.2)
    | some k => (a.1.writeSetting (a.1.redirect k) (a.2.take r.2) writer, a.2.drop r.2)) (s, bs)).1

end Sys2Proof.Machine
end

