-- ==== Sys2Proof/Machine/CasketOps.lean ====
section
/-! DEFINITION. The Casket and the tiles' DMEM as memories (06_casket.md, 04_bead_cores.md), the block checksum, the
ownership of segments. -/

namespace Sys2Proof.Machine

/-- Bytes of the Casket (R206). -/
def casketSize : Nat := 0x12000000

/-- Casket slice of a tile (R205). -/
def sliceOfTile (t : Nat) : Nat := 18 * (t / 72 / 2) + t % 72 / 4

/-- The half of a Casket slice: 0 West, 1 East (R205). -/
def halfOfSlice (sl : Nat) : Nat := if sl % 18 < 9 then 0 else 1

/-- Ownership of slice `sl`. -/
def State.casketOwn (s : State) (sl : Nat) : CasketOwn := SMap.get {} s.casket.own sl

/-- CASKET.OWN[s].pending (R212). -/
def CasketOwn.pending (o : CasketOwn) : Bool := o.requested != o.current

/-- Owner, and normal or stage kind, of segment `g` in an ownership word (Table 6.8): none when unowned. -/
def segOwner (w g : Nat) : Option (Nat × Bool) :=
  if bit w (32 + g) then some (bits w (4 * g + 3) (4 * g), bit w (40 + g)) else none

/-- The segment of slice `sl` is a normal segment of partition `p` (R211). -/
def State.normalSeg (s : State) (p sl g : Nat) : Bool := segOwner (s.casketOwn sl).current g == some (p, false)

/-- Every segment a Casket range meets, as 8 × slice + segment. -/
def segsOfRange (a n : Nat) : List Nat :=
  if n = 0 then [] else (List.range ((a + n - 1) / 65536 + 1 - a / 65536)).map (fun i => a / 65536 + i)

/-- The whole Casket range lies in normal segments of partition `p`. -/
def State.casketAllowed (s : State) (p a n : Nat) : Bool :=
  (segsOfRange a n).all (fun g => s.normalSeg p (g / 8) (g % 8))

/-- The byte at Casket address `a` as its codeword decodes, and whether it is uncorrectable (R208, R209). -/
def State.casketByte (s : State) (a : Nat) : Byte × Bool :=
  upsetByte (SMap.get 0 s.casket.bytes a, SMap.get false s.casket.bad a) (SMap.get 0 s.casket.errs a)

/-- The uncorrectable bytes of the 64 B line that holds Casket address `a`. -/
def State.badInLine (s : State) (a : Nat) : Nat :=
  ((List.range 64).filter (fun i => (s.casketByte (a / 64 * 64 + i)).2)).length

/-- A read of the Casket: bytes with the mark of an uncorrectable codeword; the whole 64 B line is poison when one of
its bytes is (R209). [DEDUCED, log 7] -/
def State.readCasket (s : State) (a n : Nat) : List (Byte × Bool) :=
  (List.range n).map (fun i => ((s.casketByte (a + i)).1, s.badInLine (a + i) != 0))

/-- Error counts of slice `sl`. -/
def State.casketErr (s : State) (sl : Nat) (f : CasketErr → CasketErr) : State :=
  { s with casket := { s.casket with err := SMap.upd {} s.casket.err sl f } }

/-- The codeword at Casket address `a` has been read: a single upset bit is corrected in the array, counted for the slice and charged to
its half (R208, R273). [DEDUCED, log 47] -/
def State.heedCasketByte (s : State) (a : Nat) : State :=
  match hammingDecode (hammingEncode (SMap.get 0 s.casket.bytes a).toNat ^^^ SMap.get 0 s.casket.errs a) with
  | some (v, true) =>
    let s : State := { s with casket := { s.casket with
      bytes := SMap.set 0 s.casket.bytes a (BitVec.ofNat 8 v), errs := SMap.set 0 s.casket.errs a 0 } }
    let sl := a / 0x80000
    (s.casketErr sl (fun e => { e with corrected := satAdd 0xFFFF e.corrected 1 })).chargeCe (32 + halfOfSlice sl) 1 (0x4000 + sl)
  | _ => s

/-- A Casket range has been read by any unit: its single-bit errors are corrected and counted (R208). -/
def State.heedCasket (s : State) (a n : Nat) : State :=
  (s.casket.errs.filter (fun e => decide (a ≤ e.1) && decide (e.1 < a + n))).foldl (fun s e => s.heedCasketByte e.1) s

/-- The blocks a Casket range meets. -/
def blocksOf (a n : Nat) : List Nat :=
  if n = 0 then [] else (List.range ((a + n - 1) / 4096 + 1 - a / 4096)).map (fun i => a / 4096 + i)

/-- A write to the Casket: each byte gets a valid codeword, or an uncorrectable one for a poisoned byte (R208, R224);
the side-table entries of its blocks become invalid (R215). -/
def State.writeCasket (s : State) (a : Nat) (bs : List (Byte × Bool)) : State :=
  { s with casket := { s.casket with
      bytes := SMap.setList 0 s.casket.bytes a (plain bs)
      bad := SMap.setList false s.casket.bad a (bs.map (fun b => b.2))
      errs := SMap.clear s.casket.errs a (a + bs.length)
      side := (blocksOf a bs.length).foldl (fun m b => SMap.set none m b none) s.casket.side } }

/-- Zero a Casket range with valid codewords and clear its side-table entries (R212, R213). -/
def State.zeroCasket (s : State) (a n : Nat) : State :=
  { s with casket := { s.casket with
      bytes := SMap.clear s.casket.bytes a (a + n)
      bad := SMap.clear s.casket.bad a (a + n)
      errs := SMap.clear s.casket.errs a (a + n)
      side := SMap.clear s.casket.side (a / 4096) (a / 4096 + n / 4096) } }

/-- Drop the pending-store lines that meet a Casket range. -/
def State.dropPending (s : State) (a n : Nat) : State :=
  { s with casket := { s.casket with pending := s.casket.pending.filter (fun l => !(meets l.addr 64 a n)) } }

/-- A unit has read the uncorrectable line at `a` (R209): counted and posted. [DEDUCED, log 47] -/
def State.casketBadRead (s : State) (a reader part : Nat) : State :=
  let sl := a / 0x80000
  (s.casketErr sl (fun e => { e with uncorrectable := satAdd 0xFFFF e.uncorrectable (s.badInLine a) })).post 0x2060 2 part
    (0x4000 + sl) (detail [(4, a / 64 * 64), (1, reader)])

/-! ### The block checksum (R214) -/

/-- One bit step of the reflected CRC-64 register with the ECMA-182 polynomial. -/
def crcBits : Nat → Nat → Nat
  | 0, c => c
  | n + 1, c => crcBits n (if c % 2 = 1 then (c / 2) ^^^ 0xC96C5795D7870F42 else c / 2)

/-- One byte into the CRC register. -/
def crcByte (c b : Nat) : Nat := crcBits 8 (c ^^^ b)

/-- The CRC register after the bytes. -/
def crcRun (c : Nat) (bs : Bytes) : Nat := bs.foldl (fun c b => crcByte c b.toNat) c

/-- The CRC-64 of R214. -/
def crc64 (bs : Bytes) : Nat := crcRun 0xFFFFFFFFFFFFFFFF bs ^^^ 0xFFFFFFFFFFFFFFFF

/-- Set a side-table entry of the Casket (R215). -/
def State.setSide (s : State) (block crc : Nat) : State :=
  { s with casket := { s.casket with side := SMap.set none s.casket.side block (some crc) } }

/-- Checked window w of partition p (R216). -/
def State.chkWindow (s : State) (p w : Nat) : ChkWindow := SMap.get {} s.casket.chk (4 * p + w)

/-- The checked windows of partition p (R216). -/
def State.chkWindows (s : State) (p : Nat) : List ChkWindow := (List.range 4).map (s.chkWindow p)

/-- The address of the side-table entry of the block at virtual address `v`, if one of these checked windows holds it (R216). -/
def chkEntry (ws : List ChkWindow) (v : Nat) : Option Nat :=
  (ws.find? (fun w => decide (w.base ≤ v) && decide (v < w.limit))).map (fun w => w.table + (v - w.base) / 4096 * 8)

/-! ### DMEM (R116, R118, R224) -/

/-- Tile `t`. -/
def State.tile (s : State) (t : Nat) : Tile := SMap.get {} s.tiles t

/-- Change tile `t`. -/
def State.updTile (s : State) (t : Nat) (f : Tile → Tile) : State :=
  { s with tiles := SMap.upd {} s.tiles t f }

/-- A read of a tile's DMEM; the code covers a 32-bit word. [DEDUCED, log 7] -/
def Tile.readDmem (x : Tile) (off n : Nat) : List (Byte × Bool) :=
  (List.range n).map (fun i => (SMap.get 0 x.dmem (off + i), SMap.get false x.dmemBad ((off + i) / 4)))

/-- The words a write covers whole, among those it meets. -/
def wholeWords (off n : Nat) : List Nat :=
  (List.range (n / 4 + 2)).map (fun i => off / 4 + i) |>.filter (fun w => off ≤ 4 * w && 4 * w + 4 ≤ off + n)

/-- The words of a range of a memory. -/
def wordsMet (off n : Nat) : List Nat :=
  if n = 0 then [] else (List.range ((off + n - 1) / 4 - off / 4 + 1)).map (fun i => off / 4 + i)

/-- Words of a tile's memories are read: a single-bit error is corrected, and its word rewritten (R118). -/
def Tile.heedWords (x : Tile) (ws : List Nat) : Tile :=
  let hit := ws.filter (fun w => SMap.get false x.weak w)
  { x with
    weak := hit.foldl (fun m w => SMap.set false m w false) x.weak
    corrected := satAdd 0xFFFF x.corrected hit.length }

/-- A range of DMEM is read. -/
def Tile.heedDmem (x : Tile) (off n : Nat) : Tile := x.heedWords ((wordsMet off n).map (fun w => 4096 + w))

/-- A write to a tile's DMEM: a word written whole is mended, one written in part is read first; a word that takes a poisoned byte becomes
uncorrectable (R118, R224). -/
def Tile.writeDmem (x : Tile) (off : Nat) (bs : List (Byte × Bool)) : Tile :=
  let whole := wholeWords off bs.length
  let mended := whole.foldl (fun m w => SMap.set false m w false) x.dmemBad
  let bad := (bs.mapIdx (fun i b => if b.2 then some ((off + i) / 4) else none)).filterMap id
  let x := { x with weak := whole.foldl (fun m w => SMap.set false m (4096 + w) false) x.weak }.heedDmem off bs.length
  { x with
    dmem := SMap.setList 0 x.dmem off (plain bs)
    dmemBad := bad.foldl (fun m w => SMap.set false m w true) mended }

end Sys2Proof.Machine
end

