-- ==== Sys2Proof/Machine/SiteLink.lean ====
section
/-! DEFINITION. The link layer of a site: messages, frames, credits and replay (R403 to R405), the grant of sealed access
(R407), outbound requests and streams (R409). -/

namespace Sys2Proof.Machine

/-- Site `q`. -/
def State.site (s : State) (q : Nat) : Site := SMap.get {} s.sites q

/-- Change site `q`. -/
def State.updSite (s : State) (q : Nat) (f : Site → Site) : State :=
  { s with sites := SMap.upd {} s.sites q f }

/-- The site is granted sealed access (R407). -/
def Site.grantedSealed (x : Site) : Bool := x.sealedOk && x.attested && x.strap != 3

/-- Channel `ch` of a site. -/
def Site.chan (x : Site) (ch : Nat) : SiteChan := SMap.get {} x.chans ch

/-- Change channel `ch`. -/
def Site.updChan (x : Site) (ch : Nat) (f : SiteChan → SiteChan) : Site :=
  { x with chans := SMap.upd {} x.chans ch f }

/-- The channels in use, in ascending order. -/
def Site.channels (x : Site) : List Nat := maskList 16 x.chanMask

/-- The k-th channel of the mask, modulo their number (R404). -/
def Site.pickChan (x : Site) (k : Nat) : Nat := x.channels.getD (k % max 1 x.channels.length) 0

/-! ### Messages (Table 12.7) -/

def siteReadOp : Nat := 1
def siteReadDataOp : Nat := 2
def siteWriteOp : Nat := 3
def siteDoneOp : Nat := 5
def siteStreamOp : Nat := 6

/-- The virtual channel of an op. -/
def siteVc (op : Nat) : Nat := if op = 2 ∨ op = 5 then 1 else if op = 6 then 2 else 0

/-- A message header. -/
def siteHead (op tag count status flags index addr : Nat) : Bytes :=
  natLe 1 1 ++ natLe 1 op ++ natLe 2 tag ++ natLe 1 count ++ natLe 1 status ++ natLe 1 flags ++ natLe 1 index ++ natLe 8 addr

def SiteMsg.op (m : SiteMsg) : Nat := byteAt m.head 1
def SiteMsg.tag (m : SiteMsg) : Nat := fieldLe m.head 2 2
def SiteMsg.count (m : SiteMsg) : Nat := byteAt m.head 4
def SiteMsg.status (m : SiteMsg) : Nat := byteAt m.head 5
def SiteMsg.poison (m : SiteMsg) : Bool := bit (byteAt m.head 6) 0
def SiteMsg.addr (m : SiteMsg) : Nat := fieldLe m.head 8 8

/-- Units a message occupies. -/
def SiteMsg.units (m : SiteMsg) : Nat := 1 + m.data.length / 16

/-- Data units that follow a header (R403). -/
def siteDataUnits (head : Bytes) : Nat :=
  let op := byteAt head 1
  let count := byteAt head 4
  if op = 2 ∨ op = 3 then 4 * count else if op = 6 then 2 * count else 0

/-! ### Frames (Table 12.6) -/

/-- A frame: payload padded to 256 B, then the tail. [DESIGN CHOICE, log 71] -/
def siteFrameOf (payload : Bytes) (kind : Nat) (nak mark : Bool) (seq ack : Nat) (freed : List Nat) : Bytes :=
  let body := payload ++ zeros (256 - payload.length) ++
    natLe 4 (kind * 2 ^ 30 + flag nak * 2 ^ 29 + flag mark * 2 ^ 28 + seq % 1024 * 2 ^ 10 + ack % 1024) ++
    natLe 4 (freed.getD 2 0 * 2 ^ 20 + freed.getD 1 0 * 2 ^ 10 + freed.getD 0 0)
  body ++ natLe 8 (crc64 body)

/-- The ack a channel sends: the last good frame. -/
def SiteChan.ack (c : SiteChan) : Nat := (c.rxSeq + 1023) % 1024

/-- The messages that credits and the replay limit let go now, in order, and those that wait (R404, R405). -/
def takeSendable : List SiteMsg → List Nat → List Nat → Nat → List SiteMsg × List SiteMsg × List Nat
  | [], cr, _, _ => ([], [], cr)
  | m :: ms, cr, blocked, room =>
    let vc := siteVc m.op
    if blocked.contains vc || cr.getD vc 0 < m.units || room < m.units then
      let r := takeSendable ms cr (vc :: blocked) room
      (r.1, m :: r.2.1, r.2.2)
    else
      let r := takeSendable ms (cr.set vc (cr.getD vc 0 - m.units)) blocked (room - m.units)
      (m :: r.1, r.2.1, r.2.2)

/-- Send what channel `ch` of site `q` can send: data frames of densely packed units, each kept until acknowledged. -/
def State.sitePump (s : State) (q ch : Nat) : State :=
  let x := s.site q
  let c := x.chan ch
  if x.state ≠ 3 ∨ s.keel.safe then s
  else
    let r := takeSendable c.tx c.credits [] (16 * (256 - c.replay.length))
    if r.1.isEmpty then s
    else
      let raw := (r.1.map (fun m => m.head ++ m.data)).flatten
      let runs := chunks 256 (raw.length / 256 + 1) raw
      let mark := bit x.peer.caps 0 && c.marked != s.tick.count + 1
      let frames := runs.zipIdx.map (fun e =>
        ((c.txSeq + e.2) % 1024, siteFrameOf e.1 0 false (mark && e.2 == 0) (c.txSeq + e.2) c.ack (if e.2 = 0 then c.freed else [])))
      let c' := { c with
        tx := r.2.1
        credits := r.2.2
        freed := [0, 0, 0]
        txSeq := (c.txSeq + runs.length) % 1024
        replay := c.replay ++ frames
        marked := s.tick.count + 1 }
      (s.updSite q (fun x => x.updChan ch (fun _ => c'))).emitAll (frames.map (fun f => .siteFrame q ch f.2))

/-- Put a message on channel `ch` of site `q`. -/
def State.siteSend (s : State) (q ch : Nat) (m : SiteMsg) : State :=
  (s.updSite q (fun x => x.updChan ch (fun c => { c with tx := c.tx ++ [m] }))).sitePump q ch

/-- A READ of one line of the die's window (R409); a fenced site's line ends with status 0x08 at once (R406). [DESIGN CHOICE, log 71] -/
def State.siteAsk (s : State) (q line : Nat) : State :=
  let x := s.site q
  if x.state = 4 then s.updSite q (fun x => { x with answers := SMap.set none x.answers line (some (8, [])) })
  else
    let tag := x.nextTag
    let s := s.updSite q (fun x => { x with asked := x.asked ++ [(tag, line)], nextTag := (tag + 1) % 65536 })
    s.siteSend q (x.pickChan (line % 64)) ⟨siteHead siteReadOp tag 1 0 0 0 (64 * line), []⟩

/-- A mover's piece to a site ends with a status other than 0x00 (R409). -/
def State.siteStatusFor (s : State) (f status : Nat) : State :=
  { s with work := { s.work with flights := s.work.flights.map (fun x =>
      if x.id == f && x.status == 0 then { x with status := status } else x) } }

/-- A WRITE of one line to the die's window for flight `f` (R409); to a fenced site it ends with status 0x08 at once. [DESIGN CHOICE, log 71] -/
def State.sitePut (s : State) (q f addr : Nat) (data : List (Byte × Bool)) : State :=
  let x := s.site q
  if x.state = 4 then s.siteStatusFor f 8
  else
    let tag := x.nextTag
    let m : SiteMsg := ⟨siteHead siteWriteOp tag 1 0 (flag (data.any (fun b => b.2))) 0 addr, data.map (fun b => b.1)⟩
    let s := s.updSite q (fun x => { x with writing := x.writing ++ [⟨tag, f, m⟩], nextTag := (tag + 1) % 65536 })
    s.siteSend q (x.pickChan (addr / 64 % 64)) m

/-- A channel takes a message at once: none of its class waits, credits and the replay buffer have room (R404, R405). -/
def SiteChan.takes (c : SiteChan) (m : SiteMsg) : Bool :=
  (takeSendable (c.tx ++ [m]) c.credits [] (16 * (256 - c.replay.length))).2.1.length == c.tx.length &&
    c.tx.all (fun y => siteVc y.op != siteVc m.op)

/-- A word of an egress buffer as a STREAM message of the index of its port tile (R168, R404). -/
def streamMsg (index : Nat → Nat) (w : EgressWord) : SiteMsg :=
  ⟨siteHead siteStreamOp 0 1 0 (flag w.word.poison) (index w.tile) w.partition, w.word.data⟩

/-- The egress buffers drain while the site accepts their words (R168): a word that its channel cannot take stays, and so do the later words
of its channel. -/
def State.siteDrain (s : State) (q : Nat) (index : Nat → Nat) : State :=
  if (s.site q).state ≠ 3 ∨ s.keel.safe ∨ !bit (s.site q).peer.caps 1 then s
  else
    ((s.site q).egress.foldl (fun (a : State × List Nat) w =>
      let x := a.1.site q
      let ch := x.pickChan (index w.tile)
      let m := streamMsg index w
      if a.2.contains ch then (a.1.updSite q (fun x => { x with egress := x.egress ++ [w] }), a.2)
      else if (x.chan ch).takes m then (a.1.siteSend q ch m, a.2)
      else (a.1.updSite q (fun x => { x with egress := x.egress ++ [w] }), ch :: a.2))
      (s.updSite q (fun x => { x with egress := [] }), [])).1

end Sys2Proof.Machine
end

