-- ==== Sys2Proof/Machine/HostOps.lean ====
section
/-! DEFINITION. Host memory, address translation as a look-up, places as one memory, and the ordered writes of the device
(R21, R22, R301 to R305, R321, R328 to R333, R535, R536). -/

namespace Sys2Proof.Machine

/-! ### Beads and tiles (R4) -/

/-- The tile that carries bead number `b`. -/
def State.tileOfBead (s : State) (b : Nat) : Option Nat :=
  if b < s.mesh.beads then some (s.mesh.skipped.foldl (fun t k => if k ≤ t then t + 1 else t) b) else none

/-- The bead number of tile `t`. -/
def State.beadOfTile (s : State) (t : Nat) : Option Nat :=
  let b := t - (s.mesh.skipped.filter (fun k => k < t)).length
  if s.mesh.skipped.contains t || s.mesh.beads ≤ b then none else some b

/-! ### Host physical addresses (R301, R330) -/

/-- Where a host physical address lies. -/
def State.placeOfHpa (s : State) (h : Nat) : Place :=
  let inDec (d : Option (Nat × Nat)) : Option Nat :=
    match d with
    | some (b, n) => if b ≤ h ∧ h < b + n then some (h - b) else none
    | none => none
  match inDec s.host.hdm0, inDec s.host.hdm1 with
  | some o, _ => .dev o
  | none, some o => .dev (0x10000000000 + o)
  | none, none =>
    if s.host.cfg.bar0 ≤ h ∧ h < s.host.cfg.bar0 + 0x4000000 then .bar0 else .host h

/-! ### Translation as a look-up (R333) -/

/-- The entry holds the translation of a virtual address. -/
def TlbEntry.holds (e : TlbEntry) (pasid va : Nat) : Bool :=
  e.pasid == pasid && decide (e.va ≤ va) && decide (va < e.va + 2 ^ e.log2)

/-- The second level's entry for a virtual address that new work can use (R345: a doomed entry serves only pieces that pin it). -/
def State.l2Live (s : State) (pasid va : Nat) : Option TlbEntry := s.xlat.l2.find? (fun e => e.holds pasid va && !e.doomed)

/-- The second level's entry for a virtual address, as running pieces use it: a doomed entry while a piece pins it, since no other
piece starts on its page until it is gone. [DESIGN CHOICE, log 39] -/
def State.l2Find (s : State) (pasid va : Nat) : Option TlbEntry :=
  match s.xlat.l2.find? (fun e => e.holds pasid va && e.doomed) with
  | some e => some e
  | none => s.l2Live pasid va

/-- Where an entry puts a virtual address, if it has the rights needed. -/
def State.placeBy (s : State) (e : Option TlbEntry) (va : Nat) (read write : Bool) : Option Place :=
  match e with
  | none => none
  | some e =>
    if (read && !e.read) || (write && !e.write) then none
    else some (s.placeOfHpa (e.addr + (va - e.va)))

/-- Where a virtual address lies for a running piece, if its page is in the second level with the rights needed. -/
def State.placeOfVa (s : State) (pasid va : Nat) (read write : Bool) : Option Place :=
  s.placeBy (s.l2Find pasid va) va read write

/-- Where a virtual address lies for new work. -/
def State.liveOfVa (s : State) (pasid va : Nat) (read write : Bool) : Option Place :=
  s.placeBy (s.l2Live pasid va) va read write

/-- A range cut at 4 KiB boundaries. -/
def pageRuns : Nat → Nat → Nat → List (Nat × Nat)
  | 0, _, _ => []
  | fuel + 1, a, n =>
    if n = 0 then []
    else
      let m := min n (4096 - a % 4096)
      (a, m) :: pageRuns fuel (a + m) (n - m)

/-- A range cut at 4 KiB boundaries. -/
def pagesOf (a n : Nat) : List (Nat × Nat) := pageRuns (n / 4096 + 2) a n

/-- The places of a virtual range, page by page; none if a page is missing or lacks a right. -/
def State.placesOfVa (s : State) (pasid va n : Nat) (read write : Bool) : Option (List (Place × Nat)) :=
  (pagesOf va n).mapM (fun r => (s.placeOfVa pasid r.1 read write).map (fun p => (p, r.2)))

/-- The places of a virtual range for new work. [DESIGN CHOICE, log 42] -/
def State.liveOf (s : State) (pasid va n : Nat) (read write : Bool) : Option (List (Place × Nat)) :=
  (pagesOf va n).mapM (fun r => (s.liveOfVa pasid r.1 read write).map (fun p => (p, r.2)))

/-- The base of the device-near Casket and tile ranges (Table 10.1). -/
def nearCasket : Nat := 0x0100000000000000
def nearTile : Nat := 0x0180000000000000

/-- The places of a range of a class 0x2, 0x3, 0x4 or 0x6 descriptor of partition `p`: device-near or virtual (R328,
R329). -/
def State.placesOf (s : State) (p a n : Nat) (read write : Bool) : Option (List (Place × Nat)) :=
  if n = 0 then some []
  else if nearTile ≤ a then
    match s.tileOfBead ((a - nearTile) / 65536) with
    | none => none
    | some t => some [(.tile t ((a - nearTile) % 65536), n)]
  else if nearCasket ≤ a then some [(.casket (a - nearCasket), n)]
  else s.placesOfVa (s.part p).pasid a n read write

/-! ### Host lines (R305) -/

/-- The 64 B lines a host range meets. -/
def linesOf (a n : Nat) : List Nat :=
  if n = 0 then [] else (List.range ((a + n - 1) / 64 + 1 - a / 64)).map (fun i => a / 64 + i)

/-- The line has been returned and not yet used. -/
def State.hostLine (s : State) (l : Nat) : Option HostLine := SMap.get none s.host.lines l

/-- The host lines a list of places needs and the device does not hold. -/
def State.missingLines (s : State) (ps : List (Place × Nat)) : List Nat :=
  ((ps.map (fun p => match p.1 with
    | .host a => linesOf a p.2
    | _ => [])).flatten).filter (fun l => (s.hostLine l).isNone)

/-- Ask the host for lines, each once (R305). -/
def State.askLines (s : State) (ls : List Nat) : State :=
  (nub ls).foldl (fun s l =>
    if s.host.asked.contains l then s
    else { s with host := { s.host with asked := s.host.asked ++ [l] }, out := s.out ++ [.rdCurr l] }) s

/-- The lines have been used: the device keeps no host line beyond the request (R305). -/
def State.useLines (s : State) (ls : List Nat) : State :=
  { s with host := { s.host with lines := SMap.keep (fun l => !ls.contains l) s.host.lines } }

/-- The control plane asks for a line of a ring or a cell (R305, R535). -/
def State.askCtl (s : State) (l : Nat) : State :=
  if s.host.ctlAsked.contains l then s
  else { s with host := { s.host with ctlAsked := s.host.ctlAsked ++ [l] }, out := s.out ++ [.rdCurr l] }

/-- Lines that the control plane has used, or keeps no longer. -/
def State.useCtl (s : State) (ls : List Nat) : State :=
  { s with host := { s.host with ctlLines := SMap.keep (fun l => !ls.contains l) s.host.ctlLines } }

/-- The lines read for pieces that have ended early are kept for no other (R305, R409): what still needs one asks again. [DEDUCED, log 29] -/
def State.forgetLines (s : State) : State :=
  (List.range 6).foldl (fun s q => s.updSite q (fun x => { x with asked := [], answers := [] }))
    { s with host := { s.host with asked := [], lines := [] } }

/-- The host lines a list of places meets. -/
def hostLinesOf (ps : List (Place × Nat)) : List Nat :=
  (ps.map (fun p => match p.1 with
    | .host a => linesOf a p.2
    | _ => [])).flatten

/-- The lines of die windows that a list of places needs and the device does not hold: (site, address div 64). -/
def State.missingSite (s : State) (ps : List (Place × Nat)) : List (Nat × Nat) :=
  (ps.map (fun p => match p.1 with
    | .site q a => ((linesOf a p.2).filter (fun l => (SMap.get none (s.site q).answers l).isNone)).map (fun l => (q, l))
    | _ => [])).flatten

/-- Ask dies for lines, each once (R409). -/
def State.askSite (s : State) (ls : List (Nat × Nat)) : State :=
  ls.foldl (fun s l =>
    if (s.site l.1).asked.any (fun a => a.2 == l.2) then s else s.siteAsk l.1 l.2) s

/-- The status of the first site answer that is not 0x00 among the lines a list of places meets. -/
def State.siteStatus (s : State) (ps : List (Place × Nat)) : Nat :=
  (((ps.map (fun p => match p.1 with
    | .site q a => (linesOf a p.2).filterMap (fun l => (SMap.get none (s.site q).answers l).map (fun x => x.1))
    | _ => [])).flatten).find? (fun st => st != 0)).getD 0

/-- The site lines have been used. -/
def State.useSite (s : State) (ps : List (Place × Nat)) : State :=
  ps.foldl (fun s p => match p.1 with
    | .site q a => s.updSite q (fun x => { x with answers := SMap.keep (fun l => !(linesOf a p.2).contains l) x.answers })
    | _ => s) s

/-- A read of one place. -/
def State.readPlace (s : State) (p : Place) (n : Nat) : List (Byte × Bool) :=
  match p with
  | .dev a => s.readDev a n
  | .host a => (List.range n).map (fun i =>
      match s.hostLine ((a + i) / 64) with
      | some l => (l.data.getD ((a + i) % 64) 0, l.poison)
      | none => (0, false))
  | .casket a => s.readCasket a n
  | .tile t off => (s.tile t).readDmem off n
  | .bar0 => List.replicate n (0, false)
  | .site q a => (List.range n).map (fun i =>
      match SMap.get none (s.site q).answers ((a + i) / 64) with
      | some (_, bs) => bs.getD ((a + i) % 64) (0, false)
      | none => (0, false))

/-- A read of several places, one after another. -/
def State.readPlaces (s : State) (ps : List (Place × Nat)) : List (Byte × Bool) :=
  (ps.map (fun p => s.readPlace p.1 p.2)).flatten

/-- A stack access of one of the places must wait. -/
def State.placesHeld (s : State) (ps : List (Place × Nat)) : Bool :=
  ps.any (fun p => match p.1 with
    | .dev a => s.readHeld a p.2
    | _ => false)

/-- Reads of the places have been issued and wait: corrected narrow beats are held for a canary read (R244). -/
def State.holdPlaces (s : State) (ps : List (Place × Nat)) : State :=
  ps.foldl (fun s p => match p.1 with
    | .dev a => s.holdBeats a p.2
    | _ => s) s

/-- The places have been read: what the stacks, the buffers and the Casket corrected is counted and charged (R208, R242, R247, R273). -/
def State.heedPlaces (s : State) (ps : List (Place × Nat)) : State :=
  ps.foldl (fun s p => match p.1 with
    | .dev a => s.heed a p.2
    | .casket a => s.heedCasket a p.2
    | .tile t off => s.updTile t (fun x => x.heedDmem off p.2)
    | _ => s) s

/-- A repair holds one of the places (R282). -/
def State.placesRepaired (s : State) (ps : List (Place × Nat)) : Bool :=
  ps.any (fun p => match p.1 with
    | .dev a => s.repairHeld a p.2
    | _ => false)

/-! ### The ordered writes (R21, R22, R305, R321, R535) -/

/-- Add to the ordered writes. -/
def State.queueWrite (s : State) (w : OrderedWrite) : State :=
  { s with host := { s.host with writes := s.host.writes ++ [w] } }

/-- A host write cut into its 64 B lines; a line with a byte of poison is sent with poison (R224). -/
def hostRuns (part : Nat) : Nat → Nat → List (Byte × Bool) → List OrderedWrite
  | 0, _, _ => []
  | fuel + 1, a, bs =>
    if bs.isEmpty then []
    else
      let m := 64 - a % 64
      .toHost part a (plain (bs.take m)) (poisoned (bs.take m)) false :: hostRuns part fuel (a + m) (bs.drop m)

/-- The ordered writes of a host range by partition `part`'s work (0xFF: the control plane). -/
def hostWrites (part a : Nat) (bs : List (Byte × Bool)) : List OrderedWrite := hostRuns part (bs.length / 64 + 2) a bs

/-- The ordered writes that put bytes at a place (device memory and host memory only). -/
def writesAt (p : Place) (bs : Bytes) : List OrderedWrite :=
  match p with
  | .dev a => [.toDev a bs]
  | .host a => hostWrites 0xFF a (clean bs)
  | _ => []

/-- A write of one place by partition `p`'s work (R246, R305). -/
def State.writePlace (s : State) (pl : Place) (bs : List (Byte × Bool)) (p : Nat) : State :=
  match pl with
  | .dev a => s.writeDev a bs p
  | .host a => { s with host := { s.host with writes := s.host.writes ++ hostWrites p a bs } }
  | .casket a => s.writeCasket a bs
  | .tile t off => s.updTile t (fun x => x.writeDmem off bs)
  | .bar0 => s
  | .site _ _ => s

/-- A write of several places with consecutive bytes. -/
def State.writePlaces (s : State) (ps : List (Place × Nat)) (bs : List (Byte × Bool)) (p : Nat) : State :=
  (ps.foldl (fun (a : State × List (Byte × Bool)) x =>
    (a.1.writePlace x.1 (a.2.take x.2) p, a.2.drop x.2)) (s, bs)).1

/-- A completion ring stops (R536). -/
def State.stopCRing (s : State) (c cause : Nat) : State :=
  let r : CRing := SMap.get {} s.work.crings c
  if r.state = 1 ∨ r.state = 2 then
    let s := { s with work := { s.work with crings := SMap.set {} s.work.crings c { r with state := 3, stopCause := cause } } }
    s.post 0x0020 2 r.partition 0xFFFF (detail [(2, c), (1, 1), (1, cause), (4, r.head)])
  else s

/-- A submission ring stops (R317). [DEDUCED, log 16] -/
def State.stopRing (s : State) (i cause : Nat) : State :=
  let r : Ring := SMap.get {} s.work.rings i
  if r.state = 1 then
    let s := { s with work := { s.work with
      rings := SMap.set {} s.work.rings i { r with state := 2, stopCause := cause, tail := none } } }
    s.post 0x0020 2 r.partition 0xFFFF (detail [(2, i), (1, 0), (1, cause), (4, r.head)])
  else s

/-! ### Requests to the host's translation agent (R332) -/

/-- Two waits name the same waiter. -/
def Wait.same (a b : Wait) : Bool := a.who == b.who

/-- Add a waiter to a list, or raise the rights of the one that is there. -/
def addWait (ws : List Wait) (w : Wait) : List Wait :=
  if ws.any (fun x => x.same w) then
    ws.map (fun x => if x.same w then { x with read := x.read || w.read, write := x.write || w.write } else x)
  else ws ++ [w]

/-- The page base of a virtual address. -/
def pageBase (va : Nat) : Nat := va / 4096 * 4096

/-- The waiter is a descriptor that has not been admitted. -/
def Wait.unadmitted (w : Wait) : Bool :=
  match w.who with
  | .admission _ => true
  | _ => false

/-- Send the oldest Translation Request that has not been sent, if fewer than 512 are outstanding (R332). -/
def State.sendReq (s : State) : State :=
  if 512 ≤ (s.xlat.reqs.filter (fun q => q.sent)).length then s
  else match s.xlat.reqs.find? (fun q => !q.sent) with
    | none => s
    | some q =>
      let nw := q.waits.all (fun w => !w.write)
      let reqs := s.xlat.reqs.map (fun r =>
        if r.pasid == q.pasid && r.page == q.page then
          { r with sent := true, noWrite := nw, epoch := SMap.get 0 s.xlat.epochs 49 } else r)
      { s with xlat := { s.xlat with reqs := reqs }, out := s.out ++ [.translationRequest q.pasid q.page nw] }

/-- Send Translation Requests as long as fewer than 512 are outstanding. [DESIGN CHOICE, log 40] -/
def State.sendReqs (s : State) : State :=
  (List.range s.xlat.reqs.length).foldl (fun s _ => s.sendReq) s

/-- Ask for a translation: a waiter joins the fault or the request that is outstanding for its page, or a Translation
Request is made (R332, R340). -/
def State.askPage (s : State) (pasid va : Nat) (w : Wait) : State :=
  let page := pageBase va
  if s.xlat.faults.any (fun f => f.pasid == pasid && f.page == page) then
    { s with xlat := { s.xlat with faults := s.xlat.faults.map (fun f =>
        if f.pasid == pasid && f.page == page then { f with waits := addWait f.waits w } else f) } }
  else if s.xlat.reqs.any (fun q => q.pasid == pasid && q.page == page) then
    { s with xlat := { s.xlat with reqs := s.xlat.reqs.map (fun q =>
        if q.pasid == pasid && q.page == page then { q with waits := addWait q.waits w } else q) } }
  else
    let q : XlatReq := ⟨pasid, page, false, SMap.get 0 s.xlat.epochs 49, false, false, [w], false⟩
    let s : State := { s with xlat := { s.xlat with reqs := s.xlat.reqs ++ [q] } }
    s.sendReqs

/-- Translation is possible at all (R331). -/
def State.xlatOn (s : State) : Bool := s.host.cfg.ats && s.host.cfg.pasid

/-! ### Draining the ordered writes -/

/-- What a control-plane write's purpose makes of a page that is untranslatable (R535, R536). -/
def State.writeFailed (s : State) (why : WritePurpose) : State :=
  match why with
  | .completionRing c => s.stopCRing c 2
  | .ringHead r => s.stopRing r 2
  | .eventRing => s

/-- The waiter that stands for a control-plane write. -/
def WritePurpose.waiter : WritePurpose → Waiter
  | .completionRing c => .cring c
  | .ringHead r => .ring r
  | .eventRing => .evt

/-- The writes of a purpose are given up. -/
def State.dropWrites (s : State) (why : WritePurpose) : State :=
  { s with host := { s.host with writes := s.host.writes.filter (fun w =>
      match w with
      | .byVa _ _ _ y => y != why
      | _ => true) } }

/-- Take the ordered writes as far as they go: the front one is translated, performed, issued or shown; a host write
that has been issued, and a missing translation, stop the queue (R305, R321, R535). [DEDUCED, log 28] -/
def State.drainWrites : Nat → State → State
  | 0, s => s
  | fuel + 1, s =>
    match s.host.writes with
    | [] => s
    | .showClasps v :: rest =>
      State.drainWrites fuel { s with clasps := { s.clasps with shown := v }, host := { s.host with writes := rest } }
    | .toDev a data :: rest =>
      State.drainWrites fuel (({ s with host := { s.host with writes := rest } }).writeDev a (clean data) 255)
    | .toHost part a data poison issued :: rest =>
      if issued then s
      else { s with host := { s.host with writes := .toHost part a data poison true :: rest }, out := s.out ++ [.hostWrite a data poison] }
    | .byVa pasid va data why :: rest =>
      if !s.xlatOn || 2 ^ 56 ≤ va then State.drainWrites fuel ((s.dropWrites why).writeFailed why)
      else
        match s.liveOf pasid va data.length false true with
        | some ps =>
          if ps.any (fun p => p.1 == .bar0) then State.drainWrites fuel ((s.dropWrites why).writeFailed why)
          else
            let ws := (ps.foldl (fun (a : List OrderedWrite × Bytes) p =>
              (a.1 ++ writesAt p.1 (a.2.take p.2), a.2.drop p.2)) ([], data)).1
            State.drainWrites fuel { s with host := { s.host with writes := ws ++ rest } }
        | none =>
          (pagesOf va data.length).foldl (fun s r =>
            if (s.liveOfVa pasid r.1 false true).isSome then s
            else s.askPage pasid r.1 ⟨why.waiter, false, true, 0, 0xFF, false⟩) s

/-- Take the ordered writes as far as they go. [DEDUCED, log 28; DESIGN CHOICE, log 37] -/
def State.drain (s : State) : State := State.drainWrites (16 * s.host.writes.length + 64) s

end Sys2Proof.Machine
end

