-- ==== Sys2Proof/Machine/FlightOps.lean ====
section
/-! DEFINITION. Descriptors: header fields (Table 9.19), the ranges a descriptor touches and their checks (R86, R222, R239,
R316, R329, R415, R416), the flights, their slices and their completion (R16 to R29, R320). -/

namespace Sys2Proof.Machine

/-! ### Header fields (Table 9.19) -/

def dVersion (d : Bytes) : Nat := byteAt d 0
def dClass (d : Bytes) : Nat := byteAt d 1
def dOpcode (d : Bytes) : Nat := fieldLe d 2 2
def dPartition (d : Bytes) : Nat := byteAt d 4
def dSize (d : Bytes) : Nat := byteAt d 5
def dFlags (d : Bytes) : Nat := fieldLe d 6 2
def dWait (d : Bytes) : Nat := fieldLe d 8 4
def dSignal (d : Bytes) : Nat := fieldLe d 12 4
def dThreshold (d : Bytes) : Nat := fieldLe d 16 8
def dTag (d : Bytes) : Nat := fieldLe d 24 8
def dSpeculative (d : Bytes) : Bool := bit (dFlags d) 0
def dPencil (d : Bytes) : Bool := bit (dFlags d) 1
def dStaged (d : Bytes) : Bool := bit (dFlags d) 2

/-- The signal clasp that means none (R9). -/
def noClasp : Nat := 0xFFFFFFFF

/-- Class and opcode as one key: class × 0x10000 + opcode. -/
def dKey (d : Bytes) : Nat := dClass d * 0x10000 + dOpcode d

/-! ### Statuses -/

/-- The status of the first check that fails, in order; 0 when none does. -/
def firstStatus : List (Bool × Nat) → Nat
  | [] => 0
  | (fails, st) :: r => if fails then st else firstStatus r

/-- The first nonzero status. -/
def orStatus (a b : Nat) : Nat := if a = 0 then b else a

/-! ### Ranges -/

/-- One range a descriptor touches: a space (Table 6.2; 4 names device memory, R79), an address, a length, and what is done
with it. -/
structure Range where
  space : Nat
  addr : Nat
  len : Nat
  read : Bool
  write : Bool
  atomic : Bool
  deriving DecidableEq, Repr

/-- A translated address field of a class 0x2, 0x3, 0x4 or 0x6 descriptor as a range (R329). -/
def nearRange (a n : Nat) (read write : Bool) : Range :=
  if nearTile ≤ a then ⟨2, a - nearTile, n, read, write, false⟩
  else if nearCasket ≤ a then ⟨1, a - nearCasket, n, read, write, false⟩
  else ⟨0, a, n, read, write, false⟩

/-- The partition is a sealed partition (R414): until the last region bound to it has been freed (R418). -/
def State.sealedPart (s : State) (p : Nat) : Bool :=
  s.locket.regions.any (fun e => (e.2.state == 1 || (e.2.state == 3 && e.2.wasBound)) && e.2.partition == p)

/-- The region a slab belongs to, if any (R413). -/
def State.regionOfSlab (s : State) (i : Nat) : Option Region :=
  (s.locket.regions.find? (fun e => e.2.state != 0 && e.2.slabs.contains i)).map (fun e => e.2)

/-- A device memory range meets the KV region of partition `p` (R86). -/
def State.meetsKvr (s : State) (p d n : Nat) : Bool :=
  let b := SMap.get 0 s.sail.kvrBase p
  let l := SMap.get 0 s.sail.kvrLimit p
  decide (b < l) && meets d n b (l - b)

/-- The partition whose KV region a device memory range meets. -/
def State.kvrOf (s : State) (d n : Nat) : Option Nat := (List.range 16).find? (fun p => s.meetsKvr p d n)

/-- The checks of a device memory range of partition `p`'s descriptor: unbacked 0x06 (R235), a KV region 0x03 (R86), a
donated slab 0x08 (R239), a sealed region not bound to `p`, or a byte that a sealed partition may write outside its
sealed places, 0x0A (R415, R416). -/
def State.devStatus (s : State) (p d n : Nat) (write : Bool) : Nat :=
  let slabs := slabsOf d n
  firstStatus [
    (!backed d n, 6),
    ((s.kvrOf d n).isSome, 3),
    (s.meetsHole d n, 8),
    (slabs.any (fun i => match s.regionOfSlab i with
      | some r => !(r.state == 1 && r.partition == p)
      | none => false), 0xA),
    (write && s.sealedPart p && slabs.any (fun i => (s.regionOfSlab i).isNone), 0xA)]

/-- The checks of a range that need no translation (R219, R222, R329, R398, R409): its bounds, its ownership, its unit, its site. -/
def State.rangeStatic (s : State) (p : Nat) (r : Range) : Nat :=
  match r.space with
  | 0 => firstStatus [(decide (2 ^ 56 < r.addr + r.len), 6)]
  | 1 => firstStatus [(decide (casketSize < r.addr + r.len), 6), (!s.casketAllowed p r.addr r.len, 3)]
  | 2 =>
    let tile := s.tileOfBead (r.addr / 65536)
    firstStatus [
      (decide (0x10000000 ≤ r.addr) || decide (65536 < r.addr % 65536 + r.len), 6),
      ((match tile with
        | none => true
        | some t => (s.tile t).partition != some p), 3),
      ((match tile with
        | none => false
        | some t => (s.tile t).coreFenced), 8)]
  | 3 =>
    let x := s.site (bits r.addr 59 56)
    firstStatus [
      (x.peer.windowLog2 == 0 || decide (2 ^ x.peer.windowLog2 < r.addr % 2 ^ 48 + r.len), 6),
      (!bit x.mask p, 3),
      (x.state == 4, 8),
      (r.write && s.sealedPart p && !x.grantedSealed, 0xA)]
  | 4 => s.devStatus p r.addr r.len r.write
  | _ => 0

/-- The statuses of a list, in the order of R222: 0x06, then 0x03, then 0x08, then 0x0A. -/
def worst (sts : List Nat) : Nat :=
  if sts.contains 6 then 6 else if sts.contains 3 then 3 else if sts.contains 8 then 8
  else if sts.contains 0xA then 0xA else (sts.find? (fun x => x != 0)).getD 0

/-- The checks of a range once it is translated (R330, R86, R239, R415, R416): BAR0 0x03; host memory written by a sealed
partition 0x0A. -/
def State.rangePlaced (s : State) (p : Nat) (r : Range) : Nat :=
  match r.space with
  | 0 =>
    match s.placesOfVa (s.part p).pasid r.addr r.len false false with
    | none => 0
    | some ps => worst (ps.map (fun x =>
        match x.1 with
        | .dev d => s.devStatus p d x.2 r.write
        | .bar0 => 3
        | .host _ => if r.write && s.sealedPart p then 0xA else 0
        | _ => 0))
  | _ => 0

/-- Casket segments a list of ranges touches. -/
def segsOf (rs : List Range) : List Nat :=
  nub ((rs.map (fun r => if r.space = 1 then segsOfRange r.addr r.len else [])).flatten)

/-- Memory slabs a list of ranges touches. -/
def State.slabsTouched (s : State) (p : Nat) (rs : List Range) : List Nat :=
  nub ((rs.map (fun r =>
    match r.space with
    | 0 =>
      match s.placesOfVa (s.part p).pasid r.addr r.len false false with
      | none => []
      | some ps => (ps.map (fun x => match x.1 with
          | .dev d => slabsOf d x.2
          | _ => [])).flatten
    | 4 => slabsOf r.addr r.len
    | _ => [])).flatten)

/-! ### Flights -/

/-- The flight with this number. -/
def State.flight (s : State) (f : Nat) : Option Flight := s.work.flights.find? (fun x => x.id == f)

/-- Change flight `f`. -/
def State.updFlight (s : State) (f : Nat) (g : Flight → Flight) : State :=
  { s with work := { s.work with flights := s.work.flights.map (fun x => if x.id == f then g x else x) } }

/-- Flights of partition `p` that count as in flight (R18, R312). -/
def State.inflight (s : State) (p : Nat) : Nat := (s.work.flights.filter (fun x => x.part == p && !x.failed)).length

/-- Strand `j` of a flight. -/
def Flight.strand (x : Flight) (j : Nat) : Strand := x.strands.getD j {}

/-- Change strand `j` of flight `f`. -/
def State.updStrand (s : State) (f j : Nat) (g : Strand → Strand) : State :=
  s.updFlight f (fun x => { x with strands := x.strands.mapIdx (fun i y => if i == j then g y else y) })

/-- Change every strand of flight `f`. -/
def State.updStrands (s : State) (f : Nat) (g : Strand → Strand) : State :=
  s.updFlight f (fun x => { x with strands := x.strands.map g })

/-- A strand whose piece runs, or one between two pieces of its slice. -/
def Strand.isRunning (y : Strand) : Bool :=
  match y.state with
  | .running _ => true
  | _ => false

/-- A piece of the strand starts in the slice of tick `n` (R61). -/
def Strand.enter (y : Strand) (n : Nat) : Strand :=
  { y with state := .running n, slice := n, slices := if y.slices ≠ 0 ∧ y.slice = n then y.slices else y.slices + 1 }

/-- The strand waits for its unit or for its pages (R29, R336). [DESIGN CHOICE, log 19] -/
def Strand.waits (y : Strand) : Bool := y.state == .eligible || y.state == .parked

/-- The pins of the pieces that satisfy `p` are taken away, and no invalidation waits for them any longer (R336, R345). -/
def State.unpinIf (s : State) (p : Nat × Nat → Bool) : State :=
  let drop (e : TlbEntry) : TlbEntry := { e with pins := e.pins.filter (fun y => !p y) }
  let l2 := (s.xlat.l2.map drop).filter (fun e => !(e.doomed && e.pins.isEmpty))
  let l1 := (s.xlat.l1.map (fun e => (e.1, drop e.2))).filter (fun e => !(e.2.doomed && e.2.pins.isEmpty))
  let invs := s.xlat.invs.map (fun i => { i with waits := i.waits.filter (fun y => !p y) })
  { s with xlat := { s.xlat with l2 := l2, l1 := l1, invs := invs } }

/-- The pages of the piece of strand `j` are unpinned when it ends (R336). -/
def State.unpinPiece (s : State) (f j : Nat) : State :=
  (s.unpinIf (fun y => y == (f, j))).updStrand f j (fun y => { y with pinned := false, issued := 0 })

/-- The pages of all pieces of flight `f` are unpinned. -/
def State.unpin (s : State) (f : Nat) : State :=
  (s.unpinIf (fun y => y.1 == f)).updStrands f (fun y => { y with pinned := false, issued := 0 })

/-- Flight `f` waits for no page any more: its piece leaves the waiters (Table 10.5, R276). -/
def State.dropWaits (s : State) (f : Nat) : State :=
  let keep (ws : List Wait) : List Wait := ws.filter (fun w => match w.who with
    | .piece g _ => g != f
    | .ahead g _ => g != f
    | _ => true)
  { s with xlat := { s.xlat with
      reqs := s.xlat.reqs.map (fun r => { r with waits := keep r.waits })
      faults := s.xlat.faults.map (fun r => { r with waits := keep r.waits }) } }

/-- Flight `f` ends early: what was read for its piece is dropped. [DEDUCED, log 29] -/
def State.dropReads (s : State) (f : Nat) : State :=
  match s.flight f with
  | none => s
  | some x => if x.strands.any (fun y => y.isRunning && !y.worked) then s.forgetLines else s

/-- Time at which tick `n` begins. -/
def State.tickAt (s : State) (n : Nat) : Nat := s.tick.epoch + n * s.period

/-- The end of a slice of tick `n` at time `t` (Table 1.2): the tick in whose Settle phase it completes, and whether it
counts as an overrun. -/
def State.sliceOutcome (s : State) (n t : Nat) : Nat × Bool :=
  if t < s.tickAt n + 19 * s.period / 20 then (n, false)
  else (n + 1, decide (s.tickAt (n + 1) ≤ t))

/-- The overrun deadline T_(n+1) + A of a slice of tick `n` (R27). -/
def State.deadline (s : State) (n : Nat) : Nat := s.tickAt (n + 1) + s.allowance

/-- The partition's overrun count rises (R27, Table 1.10). -/
def State.countOverrun (s : State) (p : Nat) : State :=
  { s with tick := { s.tick with overruns := SMap.upd 0 s.tick.overruns p (fun c => satAdd max32 c 1) } }

/-- The partition's abort count rises. -/
def State.countAbort (s : State) (p : Nat) : State :=
  { s with tick := { s.tick with aborts := SMap.upd 0 s.tick.aborts p (fun c => satAdd max32 c 1) } }

/-- The descriptor is served in slices: REPAIR, MAP_OUT and class 0x8 are not classified (R281, R288, R323), and SLOT_OPEN, SLOT_CLOSE
and KV_SETTLE run on no unit (R83, R84, R94). [DESIGN CHOICE, log 21] -/
def Flight.sliced (x : Flight) : Bool :=
  dClass x.desc != 8 && !(List.contains [0x60002, 0x60003, 0x20006, 0x20007, 0x20009] (dKey x.desc))

/-- The flight's slices are classified under R27; those of attached moves are not (R226). -/
def Flight.classified (x : Flight) : Bool := x.consumer.isNone && x.sliced

/-- The descriptor's strands run on Sail engines (R41, R92, R102). -/
def Flight.onEngines (x : Flight) : Bool := dClass x.desc == 2 && x.sliced

/-- A slice of tick `n` ends now: an end from T_(n+1) on is an overrun (Table 1.2). [DESIGN CHOICE, log 27] -/
def State.sliceOver (s : State) (x : Flight) (n : Nat) : State :=
  if x.classified && (s.sliceOutcome n s.tick.time).2 then s.countOverrun x.part else s

/-! ### Busy cycles (Table 2.20) -/

/-- The half in which engine `e` lies (Table 14.1). -/
def engineHalf (e : Nat) : Nat := e / 8 % 2

/-- Cycles of engine `e` since its half's clock counted `c` (Tables 2.20, 14.1, 14.2). [DESIGN CHOICE, log 23] -/
def State.cyclesSince (s : State) (e c : Nat) : Nat := (s.clockNow (engineHalf e) - c) / clockUnit

/-- The busy cycles of one strand are counted up to now. -/
def State.accrue (s : State) (x : Flight) (j : Nat) : State :=
  let y := x.strand j
  if !x.onEngines || !y.isRunning then s
  else
    let n := s.cyclesSince y.unit y.since
    let es := SMap.upd {} s.sail.engines y.unit (fun (e : Engine) => { e with busy := (e.busy + n) % 2 ^ 64 })
    ({ s with sail := { s.sail with engines := es } } : State).updStrand x.id j (fun y => { y with since := s.clockNow (engineHalf y.unit) })

/-- The busy cycles of every strand of a flight are counted up to now. -/
def State.accrueFlight (s : State) (x : Flight) : State := (List.range x.strands.length).foldl (fun s j => s.accrue x j) s

/-- SAIL.BUSY[e] as it reads: what has been counted, and the cycles of the strand that runs. -/
def State.busyShown (s : State) (e : Nat) : Nat :=
  let n := (s.work.flights.map (fun x => ((x.strands.filter (fun y => x.onEngines && y.isRunning && y.unit == e)).map
    (fun y => s.cyclesSince e y.since)).sum)).sum
  ((SMap.get {} s.sail.engines e : Engine).busy + n) % 2 ^ 64

/-! ### The end of work -/

/-- The slot a class 0x2 slot or cache descriptor names. -/
def dSlot (d : Bytes) : Nat := fieldLe d 32 2

/-- Slot `i`. -/
def State.slot (s : State) (i : Nat) : Slot := SMap.get {} s.sail.slots i

/-- The a0 of the bead with the lowest number whose exit value is not zero, or 0; a sealed partition's is hidden (R153, Table 4.12). -/
def State.exitOf (s : State) (x : Flight) : Nat :=
  if s.sealedPart x.part then 0
  else ((sortBy (fun (e : Nat × Nat × Option BeadEnd) => e.2.1) x.beads).filterMap (fun e => match e.2.2 with
    | some (.exit a) => if a = 0 then none else some a
    | _ => none)).headD 0

/-- A detail word of a LAUNCH, a LOAD or a RUN without a deciding trap or tile names tile 0xFFFF (R153, R191, R196). -/
def tileDetail (d : Bytes) (dt : Nat) : Nat :=
  if dt = 0 ∧ (dClass d = 3 ∨ dKey d = 0x40001 ∨ dKey d = 0x40002) then 0xFFFF * 2 ^ 48 else dt

/-- The detail word with which flight `x` completes: of a Sail descriptor, its slices, and its engine (Table 2.8) or its parts and how
many of them left their home engine (Table 3.8); of a launch or run, the exit value beside the trap (Table 4.12). -/
def State.detailOf (s : State) (x : Flight) (dt : Nat) : Nat :=
  if dClass x.desc = 3 ∨ dClass x.desc = 4 then
    let dt := tileDetail x.desc dt
    if dt % 2 ^ 32 = 0 ∧ (dClass x.desc = 3 ∨ dOpcode x.desc = 2) then dt + s.exitOf x else dt
  else if dClass x.desc ≠ 2 ∨ 5 < dOpcode x.desc then dt
  else
    let slices := (x.strands.map (fun y => y.slices)).foldl max 0 % 2 ^ 32
    if dOpcode x.desc = 2 then
      let r := (s.slot (dSlot x.desc)).record
      let away := ((x.strands.mapIdx (fun j y => y.unit != recGroup r j)).filter id).length
      slices * 2 ^ 32 + away * 2 ^ 24 + recG r * 2 ^ 16 + dt % 32
    else slices * 2 ^ 32 + (x.strand 0).unit * 2 ^ 16 + dt % 32

/-- The flight's work has ended; its completion waits for the Settle phase of tick `n`. -/
def Flight.finish (x : Flight) (status dt n : Nat) : Flight :=
  { x with worked := true, status := status, detail := dt, state := .ended, settleAt := some n
           strands := x.strands.map (fun y => { y with state := .ended }) }

/-- Flight `f` ends now with this status and completes in the next Settle phase that R338 gives it. [DESIGN CHOICE, log 20; DESIGN CHOICE, log 26] -/
def State.endFlight (s : State) (f status dt : Nat) : State :=
  match s.flight f with
  | none => s
  | some x => ((s.accrueFlight x).updFlight f (fun x => x.finish status (s.detailOf x dt) s.settleTick)).unpin f

/-- The work of flight `f` has been performed, with this status and detail, unless a site has already ended it with a status of its
own (R409); its slice ends with SLICE_END. -/
def State.workDone (s : State) (f status dt : Nat) : State :=
  s.updFlight f (fun x => { x with worked := true, status := orStatus x.status status, detail := dt
                                   strands := x.strands.map (fun y => { y with worked := true }) })

/-- The work of strand `j` stops the descriptor with a status: the other strands are stopped at once, and the slice of `j` ends with
SLICE_END (R75, R102). -/
def State.stopWork (s : State) (x : Flight) (j status dt : Nat) : State :=
  ((s.accrueFlight x).unpinIf (fun y => y.1 == x.id && y.2 != j)).updFlight x.id (fun x => { x with
    worked := true, status := orStatus x.status status, detail := dt
    strands := x.strands.mapIdx (fun i y =>
      if i = j then { y with worked := true } else { y with worked := true, pinned := false, state := .ended }) })

/-- The running piece of strand `j` has been worked and is not its last: it ends, a slice that ends late with it is an overrun, and the
next piece is due (R61, R336, Table 1.2). -/
def State.nextPiece (s : State) (x : Flight) (j dt : Nat) : State :=
  let s := match (x.strand j).state with
    | .running n => s.sliceOver x n
    | _ => s
  ((s.unpinPiece x.id j).updStrand x.id j (fun y => { y with piece := y.piece + 1 })).updFlight x.id (fun y => { y with detail := dt })

/-- The running piece of flight `x`'s one strand has been worked: after the last one, or with a status, the work is done; else the next
piece is due. -/
def State.endPiece (s : State) (x : Flight) (last : Bool) (status dt : Nat) : State :=
  if last || status != 0 then s.workDone x.id status dt else s.nextPiece x 0 dt

/-- A descriptor of class and opcode `key` whose strand `j` runs a piece with its pages pinned, not yet worked and not past its
deadline. [DESIGN CHOICE, log 2; DEDUCED, log 87] -/
def State.working (s : State) (f j key : Nat) : Option Flight :=
  match s.flight f with
  | none => none
  | some x =>
    let y := x.strand j
    if dKey x.desc = key ∧ y.pinned ∧ ¬ y.worked ∧ ¬ x.worked ∧ (SMap.get none s.care.resets x.part : Option PartReset).isNone then
      match y.state with
      | .running n => if x.classified ∧ s.deadline n < s.tick.time then none else some x
      | _ => none
    else none

/-- The slice of a flight starts only once a Settle phase has found its staging complete (R26, R150, R192, R193, R226). -/
def State.mustClear (s : State) (x : Flight) : Bool :=
  dClass x.desc == 3 || dKey x.desc == 0x40001 || (dKey x.desc == 0x40002 && fieldLe x.desc 44 4 != 0) ||
  (dClass x.desc != 1 && dClass x.desc != 4 && dStaged x.desc) || s.work.flights.any (fun y => y.consumer == some x.id)

/-- Nothing of its staging keeps the slice of a flight from starting. -/
def State.stagingDone (s : State) (x : Flight) : Bool := x.cleared || !s.mustClear x

/-- A control-plane descriptor of class and opcode `key` that is eligible and has not run. [DESIGN CHOICE, log 2; DESIGN CHOICE, log 21] -/
def State.controlReady (s : State) (f key : Nat) : Option Flight :=
  match s.flight f with
  | none => none
  | some x => if dKey x.desc = key ∧ x.state = .eligible ∧ ¬ x.worked ∧ s.stagingDone x then some x else none

/-- The unit id of strand `j` of a flight in its events (Table 1.3): its engine for class 0x2, else none. -/
def Flight.unitId (x : Flight) (j : Nat) : Nat := if x.onEngines && !x.strands.isEmpty then 0x2000 + (x.strand j).unit else 0xFFFF

/-- The first-level TLB that serves a strand: its engine's, its mover unit's, its adder's or the control TLB (Table 10.3). -/
def Flight.tlb (x : Flight) (j : Nat) : Nat :=
  match dClass x.desc with
  | 1 => 32 + (x.strand j).unit / 8
  | 2 => if x.onEngines then (x.strand j).unit else 48
  | 6 => 40 + (x.strand j).unit / 4
  | _ => 48

/-- Post an event of flight `x`: that of a speculative descriptor is held until it is confirmed (R96). -/
def State.postFor (s : State) (x : Flight) (code severity part unit dt : Nat) : State :=
  if dSpeculative x.desc && !x.confirmed then
    s.updFlight x.id (fun y => { y with events := y.events ++ [⟨code, severity, part, unit, 0, 0, dt⟩] })
  else s.post code severity part unit dt

/-! ### Pages (R333 to R337, R343, R345, Table 10.4) -/

/-- The rights needed on one page. -/
structure PageNeed where
  page : Nat
  read : Bool
  write : Bool
  deriving DecidableEq, Repr

/-- Add a need to a list by page. -/
def addNeed (ns : List PageNeed) (n : PageNeed) : List PageNeed :=
  if ns.any (fun m => m.page == n.page) then
    ns.map (fun m => if m.page == n.page then { m with read := m.read || n.read, write := m.write || n.write } else m)
  else ns ++ [n]

/-- The pages that ranges need, with their rights. -/
def needsOf (rs : List Range) : List PageNeed :=
  (((rs.filter (fun r => r.space == 0)).map (fun r =>
    (pagesOf r.addr r.len).map (fun x => (⟨pageBase x.1, r.read, r.write⟩ : PageNeed)))).flatten).foldl addNeed []

/-- The page is in the second level with the rights needed. -/
def State.pageLive (s : State) (pasid : Nat) (n : PageNeed) : Bool := (s.liveOfVa pasid n.page n.read n.write).isSome

/-- A doomed entry of the page is left: no piece may start with it (R345). -/
def State.pageDoomed (s : State) (pasid page : Nat) : Bool := s.xlat.l2.any (fun e => e.doomed && e.holds pasid page)

/-- What the unit of `tlb` has translated ahead of need of a page, with the rights needed (R343). -/
def State.pageAhead (s : State) (tlb pasid : Nat) (n : PageNeed) : Option TlbEntry :=
  (s.xlat.l1.find? (fun e => e.1 == tlb && e.2.ahead && !e.2.doomed && e.2.holds pasid n.page && (!n.read || e.2.read) &&
    (!n.write || e.2.write))).map (fun e => e.2)

/-- A piece of the unit may start on the page (R336, R343, R345). -/
def State.pageReady (s : State) (tlb pasid : Nat) (n : PageNeed) : Bool :=
  (s.pageLive pasid n || (s.pageAhead tlb pasid n).isSome) && !s.pageDoomed pasid n.page

/-- Ask for the pages of a list that are not there, for a waiter (R332, R334, R336). -/
def State.askPages (s : State) (pasid part : Nat) (ns : List PageNeed) (who : Waiter) (held : Bool) : State :=
  ns.foldl (fun s n => if s.pageLive pasid n then s else s.askPage pasid n.page ⟨who, n.read, n.write, 0, part, held⟩) s

/-- Remove the last entry of a list that satisfies `p`. -/
def dropLast {α : Type} (p : α → Bool) (l : List α) : List α :=
  match l.reverse.findIdx? p with
  | none => l
  | some i => (l.reverse.eraseIdx i).reverse

/-- The set of a second-level entry: 1,024 sets of 16 ways. -/
def TlbEntry.set (e : TlbEntry) : Nat := e.va / 2 ^ e.log2 % 1024

/-- Install an entry in the second level; the least recently used entry of its set that is not pinned makes way. [DESIGN CHOICE, log 39] -/
def State.installL2 (s : State) (e : TlbEntry) : State :=
  let l2 := s.xlat.l2.filter (fun x => !(x.pasid == e.pasid && x.va == e.va && x.log2 == e.log2 && !x.doomed && x.pins.isEmpty))
  let l2 := if (l2.filter (fun x => x.set == e.set)).length < 16 then l2
    else dropLast (fun x => x.set == e.set && x.pins.isEmpty) l2
  { s with xlat := { s.xlat with l2 := e :: l2 } }

/-- Put an entry into a unit's TLB, which holds 64 entries; the least recently used one that is not pinned makes way (R333). -/
def State.installL1 (s : State) (tlb : Nat) (e : TlbEntry) : State :=
  let same (x : Nat × TlbEntry) : Bool := x.1 == tlb && x.2.pasid == e.pasid && x.2.va == e.va && x.2.log2 == e.log2 && !x.2.doomed
  let rest := s.xlat.l1.filter (fun x => !same x)
  let rest := if (rest.filter (fun x => x.1 == tlb)).length < 64 then rest
    else dropLast (fun x => x.1 == tlb && x.2.pins.isEmpty) rest
  { s with xlat := { s.xlat with l1 := (tlb, { e with epoch := SMap.get 0 s.xlat.epochs tlb }) :: rest } }

/-- A page that the unit has translated ahead is installed normally, as a piece starts with it (R343). -/
def State.installAhead (s : State) (tlb pasid : Nat) (n : PageNeed) : State :=
  if s.pageLive pasid n then s
  else match s.pageAhead tlb pasid n with
    | none => s
    | some e => s.installL2 { e with ahead := false, pins := [], epoch := SMap.get 0 s.xlat.epochs 49 }

/-- A pin added to an entry's pins. -/
def TlbEntry.pinned (e : TlbEntry) (pin : Nat × Nat) : TlbEntry :=
  { e with pins := if e.pins.contains pin then e.pins else e.pins ++ [pin] }

/-- Pin one page for piece `pin` = (flight, strand) in the second level and in its unit's TLB (R336). -/
def State.pinPage (s : State) (pin : Nat × Nat) (tlb pasid page : Nat) : State :=
  match s.l2Live pasid page with
  | none => s
  | some e =>
    let old := match s.xlat.l1.find? (fun x => x.1 == tlb && x.2.pasid == e.pasid && x.2.va == e.va && x.2.log2 == e.log2 && !x.2.doomed) with
      | some x => x.2.pins
      | none => []
    let s : State := { s with xlat := { s.xlat with l2 := e.pinned pin :: s.xlat.l2.filter (fun x => x != e) } }
    s.installL1 tlb ({ e with pins := old }.pinned pin)

/-- Pin the pages of a piece. -/
def State.pinNeeds (s : State) (pin : Nat × Nat) (tlb pasid : Nat) (ns : List PageNeed) : State :=
  let s := ns.foldl (fun s n => s.installAhead tlb pasid n) s
  ns.foldl (fun s n => s.pinPage pin tlb pasid n.page) s

end Sys2Proof.Machine
end

