-- ==== Sys2Proof/Machine/Movers.lean ====
section
/-! DEFINITION. Mover descriptors: COPY, FILL, CRCGEN and CRCVERIFY (R214 to R229, 06_casket.md). -/

namespace Sys2Proof.Machine

/-! ### Fields (Tables 6.3, 6.4) -/

def copySrcSpace (d : Bytes) : Nat := byteAt d 32
def copyDstSpace (d : Bytes) : Nat := byteAt d 33
def copySrcCheck (d : Bytes) : Bool := bit (byteAt d 34) 0
def copyDstGen (d : Bytes) : Bool := bit (byteAt d 34) 1
def copyRows (d : Bytes) : Nat := fieldLe d 36 4
def copyRowBytes (d : Bytes) : Nat := fieldLe d 40 4
def copySrc (d : Bytes) : Nat := fieldLe d 48 8
def copyDst (d : Bytes) : Nat := fieldLe d 56 8
def copySrcStride (d : Bytes) : Nat := fieldLe d 64 8
def copyDstStride (d : Bytes) : Nat := fieldLe d 72 8

/-- FILL, CRCGEN and CRCVERIFY: space, length, address (Table 6.4). -/
def linSpace (d : Bytes) : Nat := byteAt d 32
def linLen (d : Bytes) : Nat := fieldLe d 40 8
def linAddr (d : Bytes) : Nat := fieldLe d 48 8

/-- An endpoint address is in the form of its space (Table 6.2); a single row has no stride. -/
def endpointOk (space a rows rowBytes stride : Nat) : Bool :=
  match space with
  | 0 => decide (a < 2 ^ 56)
  | 1 => decide (a < 2 ^ 32)
  | 2 => decide (a < 2 ^ 28)
  | 3 => decide (bits a 59 56 ≤ 5) && bits a 63 60 == 0 && bits a 55 48 == 0 && a % 64 == 0 && rowBytes % 64 == 0
      && (decide (rows ≤ 1) || stride % 64 == 0)
  | _ => false

/-- The rows of a strided transfer: (address, length), contiguous rows joined. -/
def rowRuns (a rows rowBytes stride : Nat) : List (Nat × Nat) :=
  if rows ≤ 1 || stride == rowBytes then [(a, rows * rowBytes)]
  else (List.range rows).map (fun i => (a + i * stride, rowBytes))

/-- The rows of an endpoint: in bead DMEM each row for itself, since one row may end where a DMEM ends (R222). -/
def endRuns (space a rows rowBytes stride : Nat) : List (Nat × Nat) :=
  if space = 2 then (List.range rows).map (fun i => (a + i * stride, rowBytes)) else rowRuns a rows rowBytes stride

/-- The source rows and the destination rows of a COPY (R221). -/
def copySrcRuns (d : Bytes) : List (Nat × Nat) := endRuns (copySrcSpace d) (copySrc d) (copyRows d) (copyRowBytes d) (copySrcStride d)
def copyDstRuns (d : Bytes) : List (Nat × Nat) := endRuns (copyDstSpace d) (copyDst d) (copyRows d) (copyRowBytes d) (copyDstStride d)

/-- The blocks a list of runs meets, by block address. -/
def runBlocks (runs : List (Nat × Nat)) : List Nat :=
  nub ((runs.map (fun r => (blocksOf r.1 r.2).map (fun b => b * 4096))).flatten)

/-- Every block has a checksum place: the Casket, or a checked window (R217). -/
def blocksCovered (ws : List ChkWindow) (space : Nat) (runs : List (Nat × Nat)) : Bool :=
  match space with
  | 1 => true
  | 0 => (runBlocks runs).all (fun b => (chkEntry ws b).isSome)
  | _ => false

/-- Bytes a COPY writes in one Casket slice, at most (R229). -/
def maxPerSlice (runs : List (Nat × Nat)) : Nat :=
  let slices := nub ((runs.map (fun r => (segsOfRange r.1 r.2).map (fun g => g / 8))).flatten)
  (slices.map (fun sl => (runs.map (fun r =>
    min (r.1 + r.2) ((sl + 1) * 0x80000) - max r.1 (sl * 0x80000))).sum)).foldl max 0

/-- Reserved fields of a mover descriptor are zero (R8, R218, R220). -/
def moverReserved (d : Bytes) : Bool :=
  match dOpcode d with
  | 1 => byteAt d 34 / 4 == 0 && byteAt d 35 == 0 && fieldLe d 44 4 == 0 && allZero (slice d 80 48)
  | 2 => byteAt d 33 &&& 0xFD == 0 && allZero (slice d 34 6)
  | _ => byteAt d 33 == 0 && allZero (slice d 34 6) && allZero (slice d 56 8)

/-- The checks of R218, R220, R222 and R229 that need no translation. -/
def State.moverStatic (s : State) (p : Nat) (d : Bytes) : Nat :=
  match dOpcode d with
  | 1 =>
    let contiguous := copyRows d == 1 || copyDstStride d == copyRowBytes d
    firstStatus [
      (dPencil d, 6),
      (!(endpointOk (copySrcSpace d) (copySrc d) (copyRows d) (copyRowBytes d) (copySrcStride d)), 6),
      (!(endpointOk (copyDstSpace d) (copyDst d) (copyRows d) (copyRowBytes d) (copyDstStride d)), 6),
      (copyRows d == 0 || decide (16777216 < copyRows d), 6),
      (copyRowBytes d == 0 || decide (1073741824 < copyRowBytes d), 6),
      (decide (1 < copyRows d) &&
        (decide (copySrcStride d < copyRowBytes d) || decide (copyDstStride d < copyRowBytes d)), 6),
      (copyDstGen d && !(contiguous && copyDst d % 4096 == 0 && copyRows d * copyRowBytes d % 4096 == 0), 6),
      (copyDstGen d && !blocksCovered (s.chkWindows p) (copyDstSpace d) (copyDstRuns d), 6),
      (copySrcCheck d && !blocksCovered (s.chkWindows p) (copySrcSpace d) (copySrcRuns d), 6),
      (dSpeculative d && !(copySrcSpace d ≤ 1 && copyDstSpace d == 1 && maxPerSlice (copyDstRuns d) ≤ 32768), 6)]
  | 2 =>
    let gen := bit (byteAt d 33) 1
    firstStatus [
      (dPencil d || dSpeculative d, 6),
      (decide (2 < linSpace d) || !(endpointOk (linSpace d) (linAddr d) 1 0 0), 6),
      (linLen d == 0 || decide (2 ^ 40 < linLen d), 6),
      (gen && !(linAddr d % 4096 == 0 && linLen d % 4096 == 0), 6),
      (gen && !blocksCovered (s.chkWindows p) (linSpace d) [(linAddr d, linLen d)], 6)]
  | _ =>
    firstStatus [
      (dPencil d || dSpeculative d, 6),
      (decide (1 < linSpace d) || !(endpointOk (linSpace d) (linAddr d) 1 0 0), 6),
      (linLen d == 0 || linLen d % 4096 != 0 || decide (2 ^ 40 < linLen d) || linAddr d % 4096 != 0, 6),
      (!blocksCovered (s.chkWindows p) (linSpace d) [(linAddr d, linLen d)], 6)]

/-- Whole blocks and side-table entries that checking, or generating, the checksums of these runs touches (R216, R217). -/
def checkRanges (ws : List ChkWindow) (space : Nat) (runs : List (Nat × Nat)) (gen : Bool) : List Range :=
  if space ≠ 0 then []
  else ((runBlocks runs).map (fun b =>
    (if gen then [] else [(⟨0, b, 4096, true, false, false⟩ : Range)]) ++
    (match chkEntry ws b with
      | some e => [(⟨0, e, 8, !gen, gen, false⟩ : Range)]
      | none => []))).flatten

/-- The ranges a mover touches (R16, R222, R334). -/
def moverRanges (ws : List ChkWindow) (d : Bytes) : List Range :=
  match dOpcode d with
  | 1 =>
    (copySrcRuns d).map (fun r => ⟨copySrcSpace d, r.1, r.2, true, false, false⟩) ++
    (copyDstRuns d).map (fun r => ⟨copyDstSpace d, r.1, r.2, false, true, false⟩) ++
    (if copySrcCheck d then checkRanges ws (copySrcSpace d) (copySrcRuns d) false else []) ++
    (if copyDstGen d then checkRanges ws (copyDstSpace d) (copyDstRuns d) true else [])
  | 2 =>
    ⟨linSpace d, linAddr d, linLen d, false, true, false⟩ ::
    (if bit (byteAt d 33) 1 then checkRanges ws (linSpace d) [(linAddr d, linLen d)] true else [])
  | 3 =>
    ⟨linSpace d, linAddr d, linLen d, true, false, false⟩ :: checkRanges ws (linSpace d) [(linAddr d, linLen d)] true
  | _ =>
    ⟨linSpace d, linAddr d, linLen d, true, false, false⟩ :: checkRanges ws (linSpace d) [(linAddr d, linLen d)] false

/-! ### Pieces (R221, R223, R336, R337) -/

/-- Distinct second-level entries a list of virtual ranges needs (R337). -/
def State.pinsOf (s : State) (pasid : Nat) (rs : List (Nat × Nat)) : Nat :=
  (nub (((rs.map (fun r => pagesOf r.1 r.2)).flatten).filterMap (fun r =>
    (s.l2Find pasid r.1).map (fun e => e.va)))).length

/-- A piece with these ranges pins more than 120 translations (R337). -/
def State.tooManyPins (s : State) (p : Nat) (rs : List Range) : Bool :=
  decide (120 < s.pinsOf (s.part p).pasid ((rs.filter (fun r => r.space == 0)).map (fun r => (r.addr, r.len))))

/-- The parts of a COPY's rows in row and address order, cut at the 4 KiB boundaries of the destination: (source, destination,
length). -/
def copyParts (d : Bytes) : List (Nat × Nat × Nat) :=
  ((List.range (copyRows d)).map (fun i =>
    let dst := copyDst d + i * copyDstStride d
    (pagesOf dst (copyRowBytes d)).map (fun w => (copySrc d + i * copySrcStride d + (w.1 - dst), w.1, w.2)))).flatten

/-- Parts that follow one another in one 4 KiB block of the destination, together. -/
def groupParts : List (Nat × Nat × Nat) → List (List (Nat × Nat × Nat))
  | [] => []
  | t :: r =>
    match groupParts r with
    | (u :: g) :: gs => if u.2.1 / 4096 = t.2.1 / 4096 then (t :: u :: g) :: gs else [t] :: (u :: g) :: gs
    | gs => [t] :: gs

/-- The pieces of a COPY (R221, R223). [DESIGN CHOICE, log 42] -/
def copyPieces (d : Bytes) : List (List (Nat × Nat × Nat)) := groupParts (copyParts d)

/-- The pieces of a FILL, CRCGEN or CRCVERIFY: (address, length). -/
def linPieces (d : Bytes) : List (Nat × Nat) := pagesOf (linAddr d) (linLen d)

/-- Source and destination runs of one COPY piece. -/
def srcOf (ts : List (Nat × Nat × Nat)) : List (Nat × Nat) := ts.map (fun t => (t.1, t.2.2))
def dstOf (ts : List (Nat × Nat × Nat)) : List (Nat × Nat) := ts.map (fun t => (t.2.1, t.2.2))

/-- Bytes of one COPY piece. -/
def partsLen (ts : List (Nat × Nat × Nat)) : Nat := (ts.map (fun t => t.2.2)).sum

/-- The ranges of the pieces of a mover, in order (R336). -/
def moverPieces (ws : List ChkWindow) (d : Bytes) : List (List Range) :=
  match dOpcode d with
  | 1 => (copyPieces d).map (fun ts =>
    (srcOf ts).map (fun r => ⟨copySrcSpace d, r.1, r.2, true, false, false⟩) ++
    (dstOf ts).map (fun r => ⟨copyDstSpace d, r.1, r.2, false, true, false⟩) ++
    (if copySrcCheck d then checkRanges ws (copySrcSpace d) (srcOf ts) false else []) ++
    (if copyDstGen d then checkRanges ws (copyDstSpace d) (dstOf ts) true else []))
  | 2 => (linPieces d).map (fun r => ⟨linSpace d, r.1, r.2, false, true, false⟩ ::
    (if bit (byteAt d 33) 1 then checkRanges ws (linSpace d) [r] true else []))
  | 3 => (linPieces d).map (fun r => ⟨linSpace d, r.1, r.2, true, false, false⟩ :: checkRanges ws (linSpace d) [r] true)
  | _ => (linPieces d).map (fun r => ⟨linSpace d, r.1, r.2, true, false, false⟩ :: checkRanges ws (linSpace d) [r] false)

/-! ### Doing the work -/

/-- The places of a run in a mover's space (Table 6.2); none if a page is missing. -/
def State.endPlaces (s : State) (p space : Nat) (r : Nat × Nat) (read write : Bool) : Option (List (Place × Nat)) :=
  match space with
  | 0 => s.placesOfVa (s.part p).pasid r.1 r.2 read write
  | 1 => some [(.casket r.1, r.2)]
  | 2 => (s.tileOfBead (r.1 / 65536)).map (fun t => [(.tile t (r.1 % 65536), r.2)])
  | _ => some [(.site (bits r.1 59 56) (bits r.1 47 0), r.2)]

/-- The places of several runs. -/
def State.endPlacesAll (s : State) (p space : Nat) (rs : List (Nat × Nat)) (read write : Bool) :
    Option (List (Place × Nat)) :=
  (rs.mapM (fun r => s.endPlaces p space r read write)).map List.flatten

/-- The stored checksum of the block at `b` of a space: none when its entry is not valid. -/
def State.storedCrc (s : State) (ws : List ChkWindow) (p space b : Nat) : Option Nat :=
  if space = 1 then SMap.get none s.casket.side (b / 4096)
  else match chkEntry ws b with
    | none => none
    | some e => (s.placesOfVa (s.part p).pasid e 8 true false).map (fun ps => leNat (plain (s.readPlaces ps)))

/-- The bytes of the block at `b` of a space. -/
def State.blockBytes (s : State) (p space b : Nat) : List (Byte × Bool) :=
  match s.endPlaces p space (b, 4096) true false with
  | some ps => s.readPlaces ps
  | none => []

/-- The block at `b` fails its verification (R215, R217). -/
def State.blockFails (s : State) (ws : List ChkWindow) (p space b : Nat) : Bool :=
  s.storedCrc ws p space b != some (crc64 (plain (s.blockBytes p space b)))

/-- The places that verifying these blocks reads: the blocks, whole, and the entries of translated ones (R216, R217). -/
def State.checkPlaces (s : State) (ws : List ChkWindow) (p space : Nat) (blocks : List Nat) : List (Place × Nat) :=
  (blocks.map (fun b =>
    ((s.endPlaces p space (b, 4096) true false).getD []) ++
    (if space = 1 then []
     else match chkEntry ws b with
      | some e => (s.placesOfVa (s.part p).pasid e 8 true false).getD []
      | none => []))).flatten

/-- The places that generating the checksums of these blocks writes (R216). -/
def State.entryPlaces (s : State) (ws : List ChkWindow) (p space : Nat) (blocks : List Nat) : List (Place × Nat) :=
  if space = 1 then []
  else (blocks.map (fun b => match chkEntry ws b with
    | some e => (s.placesOfVa (s.part p).pasid e 8 false true).getD []
    | none => [])).flatten

/-- Write the checksum of the block at `b` to its side table (R215, R216). -/
def State.genCrc (s : State) (ws : List ChkWindow) (p space b : Nat) : State :=
  let crc := crc64 (plain (s.blockBytes p space b))
  if space = 1 then s.setSide (b / 4096) crc
  else s.writePlaces (s.entryPlaces ws p space [b]) (clean (natLe 8 crc)) p

/-- The completion detail of a mover (R225). -/
def moverDetail (bytes : Nat) (checked poison : Bool) : Nat :=
  (if 2 ^ 40 ≤ bytes then bytes / 16384 * 2 ^ 24 + 2 ^ 23 else bytes * 2 ^ 24) + flag checked * 2 + flag poison

/-- CASKET.MOVED[p] grows (Table 6.12). -/
def State.countMoved (s : State) (p n : Nat) : State :=
  { s with casket := { s.casket with moved := SMap.upd 0 s.casket.moved p (fun c => (c + n) % 2 ^ 64) } }

/-- A verification of the block at `b` of a space has failed: counted for the slice if it lies in the Casket (Table 6.9). -/
def State.countMismatch (s : State) (space b : Nat) : State :=
  if space = 1 then s.casketErr (b / 0x80000) (fun e => { e with crcMismatch := satAdd 0xFFFF e.crcMismatch 1 }) else s

/-- CASKET_CRC_MISMATCH for the block at `b` of a space (Table 6.5). -/
def State.postCrcMismatch (s : State) (ws : List ChkWindow) (p tag space b dstSlice : Nat) : State :=
  (s.countMismatch space b).post 0x2061 2 p dstSlice
    (detail [(8, tag), (8, b), (1, space), (8, (s.storedCrc ws p space b).getD 0)])

/-- Bytes the specification leaves undefined. [DESIGN CHOICE, log 45] -/
def freeBytes (k n : Nat) : List (Byte × Bool) := (List.range n).map (fun i => (Config.freeByte k i, false))

/-- `n` bytes whose content, and whether they carry poison, nothing constrains. -/
def freePoison (k n : Nat) : List (Byte × Bool) :=
  (List.range n).map (fun i => (Config.freeByte k i, (Config.freeByte (k + 1) i).getLsbD 0))

/-- A piece on the DMEM of a tile waits until the tile's core is idle (R224). -/
def State.tilesBusy (s : State) (ps : List (Place × Nat)) : Bool :=
  ps.any (fun p => match p.1 with
    | .tile t _ => (s.tile t).state == 1 || (s.tile t).state == 2 || (s.tile t).state == 3
    | _ => false)

/-- The cost of each memory access of a piece, in order: the runs it reads and the runs it writes, each within one setting (R253). -/
def State.accessCosts (s : State) (reads writes : List (Place × Nat)) : List Nat :=
  (reads.map (fun p => match p.1 with
    | .dev a => (runsOf a p.2).map s.runCost
    | _ => [])).flatten ++
  (writes.map (fun p => match p.1 with
    | .dev a => (runsOf a p.2).map (fun r => writeCost r.2)
    | _ => [])).flatten

/-- Accesses of bucket `b` issue one after another, each while the count is at or above 1; the number that have been issued, and the wait
of the first that has not (R253). -/
def State.issueAll (s : State) (b : Nat) : List Nat → Nat → State × Nat
  | [], k => (s, k)
  | c :: cs, k =>
    if c = 0 then s.issueAll b cs (k + 1)
    else if s.mayIssue b then (s.charge b c).issueAll b cs (k + 1)
    else (s.bucketWait b, k)

/-- What a piece's accesses come to: they must wait (the state may have changed), or all have been issued. -/
inductive Access where
  | wait (s : State)
  | go (s : State)

/-- The accesses of strand `j`'s running piece: it waits for host and site lines (asked for here), a busy tile, a held stack, a granule
or a beat, and then for its partition's bucket, access by access (R224, R244, R253, R268, R283, R305, R409). -/
def State.access (s : State) (x : Flight) (j : Nat) (reads writes : List (Place × Nat)) : Access :=
  let miss := s.missingLines reads
  let missS := s.missingSite reads
  if !miss.isEmpty || !missS.isEmpty then .wait ((s.askLines miss).askSite missS)
  else if s.tilesBusy (reads ++ writes) || s.placesHeld reads || s.placesRepaired writes then .wait (s.holdPlaces reads)
  else
    let costs := (s.accessCosts reads writes).drop (x.strand j).issued
    let r := s.issueAll x.part costs 0
    if r.2 = costs.length then .go r.1 else .wait (r.1.updStrand x.id j (fun y => { y with issued := y.issued + r.2 }))

/-- The reads have been made: corrections are counted, and the host and site lines are used up (R208, R242, R247, R273, R305). -/
def State.took (s : State) (reads : List (Place × Nat)) : State :=
  ((s.heedPlaces reads).useLines (hostLinesOf reads)).useSite reads

/-- The same memory at another address. -/
def Place.move : Place → Nat → Place
  | .dev _, a => .dev a
  | .host _, a => .host a
  | .casket _, a => .casket a
  | .tile t _, a => .tile t a
  | .bar0, _ => .bar0
  | .site q _, a => .site q a

/-- The address of a place in its memory. -/
def Place.addr : Place → Nat
  | .dev a => a
  | .host a => a
  | .casket a => a
  | .tile _ a => a
  | .bar0 => 0
  | .site _ a => a

/-- The 64 B lines of a place that are returned with poison: those with an uncorrectable byte (R209, R224). -/
def State.badLines (s : State) (x : Place × Nat) : List Nat :=
  (linesOf x.1.addr x.2).filter (fun l => poisoned (s.readPlace (x.1.move (64 * l)) 64))

/-- A read by whole 64 B lines: poison marks every byte of its line (R209, R224). -/
def State.readLines (s : State) (x : Place × Nat) : List (Byte × Bool) :=
  let bad := s.badLines x
  (s.readPlace x.1 x.2).mapIdx (fun i b => (b.1, b.2 || bad.contains ((x.1.addr + i) / 64)))

/-- A read of several places by whole lines, one after another. -/
def State.readLinesOf (s : State) (ps : List (Place × Nat)) : List (Byte × Bool) := (ps.map s.readLines).flatten

/-- A mover's write: as any other, and a line to a site is a WRITE to its die that DONE answers (R409). [DEDUCED, log 46] -/
def State.moverWrite (s : State) (f p : Nat) (ps : List (Place × Nat)) (bs : List (Byte × Bool)) : State :=
  (ps.foldl (fun (a : State × List (Byte × Bool)) x =>
    let data := a.2.take x.2
    let s := match x.1 with
      | .site q w => (List.range (x.2 / 64)).foldl (fun s i =>
          s.sitePut q f (w + 64 * i) ((data.drop (64 * i)).take 64)) a.1
      | _ => a.1.writePlace x.1 data p
    (s, a.2.drop x.2)) (s, bs)).1

/-- The uncorrectable reads among a mover's sources: every bad Casket line once, and the first bad byte of each stack range (R209, R224,
R275). -/
def State.badReads (s : State) (ps : List (Place × Nat)) : List (Place × List (Byte × Bool)) :=
  ((ps.map (fun x =>
    match x.1 with
    | .casket _ => (s.badLines x).map (fun l => (Place.casket (64 * l), [((0 : Byte), true)]))
    | .dev a => ((firstPoison (s.readDev a x.2)).toList).map (fun i => (Place.dev (a + i), [((0 : Byte), true)]))
    | _ => [])).flatten).eraseDups

/-- A mover carries poison on, and the event of each uncorrectable read is posted (R209, R224, R275). [DEDUCED, log 46] -/
def State.reportBad (s : State) (p tag : Nat) (bad : List (Place × List (Byte × Bool))) : State :=
  bad.foldl (fun s b =>
    match b.1 with
    | .casket a => s.casketBadRead a 2 p
    | .dev a => s.postUncorrectable a b.2 p 1 tag
    | _ => s) s

/-- The 64 B lines of the pending store that a run of destination bytes occupies (R229). -/
def pendingLines (f : Nat) (ps : List (Place × Nat)) (bs : List (Byte × Bool)) : List PendingLine :=
  (ps.foldl (fun (a : List PendingLine × List (Byte × Bool)) x =>
    match x.1 with
    | .casket w =>
      let data := a.2.take x.2
      (a.1 ++ (linesOf w x.2).map (fun l =>
        let lo := max w (64 * l)
        let n := min (w + x.2) (64 * l + 64) - lo
        ⟨f, lo, (data.drop (lo - w)).take n, false⟩), a.2.drop x.2)
    | _ => (a.1, a.2.drop x.2)) ([], bs)).1

/-- 64 B lines of slice `sl` that pending-store entries occupy, for each prefetch. -/
def pendingIn (ls : List PendingLine) (sl : Nat) : Nat :=
  (((ls.filter (fun l => l.addr / 0x80000 == sl)).map (fun l => (l.flight, l.addr / 64))).eraseDups).length

/-- The pending stores have room for more lines: 32 KiB in each slice (R229). -/
def State.pendingRoom (s : State) (new : List PendingLine) : Bool :=
  new.all (fun l => decide (pendingIn (s.casket.pending ++ new) (l.addr / 0x80000) ≤ 512))

/-- Two lists of places share a byte. -/
def placesOverlap (a b : List (Place × Nat)) : Bool :=
  a.any (fun x => b.any (fun y =>
    match x.1, y.1 with
    | .dev u, .dev w => meets u x.2 w y.2
    | .casket u, .casket w => meets u x.2 w y.2
    | .host u, .host w => meets u x.2 w y.2
    | .tile t u, .tile t' w => t == t' && meets u x.2 w y.2
    | _, _ => false))

/-! ### Work that ends before it is done (R28, R74, R224, R338) -/

/-- The bytes of these ranges take the content `fill` gives, a free one, as far as they can be reached. -/
def State.fillRanges (s : State) (p : Nat) (fill : Nat → Nat → List (Byte × Bool)) (rs : List Range) : State :=
  (rs.filter (fun r => r.write)).foldl (fun (s : State) (r : Range) =>
    let ps := match r.space with
      | 0 => (s.placesOfVa (s.part p).pasid r.addr r.len false true).getD []
      | 4 => [(.dev r.addr, r.len)]
      | sp => (s.endPlaces p sp (r.addr, r.len) false true).getD []
    let ps := ps.filter (fun x => match x.1 with
      | .site _ _ => false
      | _ => true)
    if ps.isEmpty then s else (s.writePlaces ps (fill s.free r.len) p).useFree.useFree) s

/-- The bytes of these ranges take undefined content: what a descriptor that stopped had written. [DESIGN CHOICE, log 20] -/
def State.blurRanges (s : State) (p : Nat) (rs : List Range) : State := s.fillRanges p freeBytes rs

/-- The first places of a list, up to `n` bytes. -/
def takePlaces (n : Nat) : List (Place × Nat) → List (Place × Nat)
  | [] => []
  | (pl, m) :: r => if n = 0 then [] else (pl, min n m) :: takePlaces (n - m) r

/-! ### The commands -/

/-- The bytes of a COPY piece before the block at `b` of the source, in row and address order. -/
def bytesBefore (ts : List (Nat × Nat × Nat)) (b : Nat) : Nat :=
  (ts.foldl (fun (a : Nat × Bool) t =>
    if a.2 then a
    else if meets t.1 t.2.2 b 4096 then (a.1 + (b - t.1), true) else (a.1 + t.2.2, false)) (0, false)).1

/-- The places of those pages of several runs that are translated now. -/
def State.knownPlaces (s : State) (p space : Nat) (rs : List (Nat × Nat)) : List (Place × Nat) :=
  if space = 0 then
    ((rs.map (fun r => pagesOf r.1 r.2)).flatten).filterMap (fun r =>
      (s.placeOfVa (s.part p).pasid r.1 false false).map (fun x => (x, r.2)))
  else (s.endPlacesAll p space rs false false).getD []

/-- A source byte of a COPY is also a destination byte (R221), by its address or by where its page lies. -/
def State.copyOverlaps (s : State) (p : Nat) (d : Bytes) : Bool :=
  (copySrcSpace d == copyDstSpace d &&
    (copySrcRuns d).any (fun a => (copyDstRuns d).any (fun b => meets a.1 a.2 b.1 b.2))) ||
  placesOverlap (s.knownPlaces p (copySrcSpace d) (copySrcRuns d)) (s.knownPlaces p (copyDstSpace d) (copyDstRuns d))

/-- One piece of a COPY (R221).  A source check that fails stops the mover with status 0x09 before the byte whose block failed, and what
it has written takes undefined content (R224).  If source and destination overlap, the destination content is undefined (R221).
A speculative prefetch writes its bytes to the pending store (R229). [DESIGN CHOICE, log 45; DESIGN CHOICE, log 100] -/
def State.doCopy (s : State) (x : Flight) : State :=
  let d := x.desc
  let p := x.part
  let f := x.id
  let ws := x.windows
  let k := (x.strand 0).piece
  let ts := (copyPieces d).getD k []
  match s.endPlacesAll p (copySrcSpace d) (srcOf ts) true false, s.endPlacesAll p (copyDstSpace d) (dstOf ts) false true with
  | some src, some dst =>
    let blocks := if copySrcCheck d then runBlocks (srcOf ts) else []
    let chk := s.checkPlaces ws p (copySrcSpace d) blocks
    let gen := if copyDstGen d then runBlocks (dstOf ts) else []
    match s.access x 0 (src ++ chk) (dst ++ s.entryPlaces ws p (copyDstSpace d) gen) with
    | .wait s' => s'
    | .go s0 =>
      let done := (((copyPieces d).take k).map partsLen).sum
      let n := partsLen ts
      let old := x.detail % 2 == 1
      let last := k + 1 == (copyPieces d).length
      let bs := s0.readLinesOf src
      let overlap := s.copyOverlaps p d
      let siteSt := s0.siteStatus src
      if siteSt ≠ 0 then (s0.took (src ++ chk)).workDone f siteSt x.detail
      else match blocks.findIdx? (fun b => s0.blockFails ws p (copySrcSpace d) b) with
        | some i =>
          let b := blocks.getD i 0
          let m := bytesBefore ts b
          let read := takePlaces m src ++ s0.checkPlaces ws p (copySrcSpace d) (blocks.take (i + 1))
          let pois := old || poisoned (bs.take m)
          let s1 := s0.took (src ++ chk)
          let dt := moverDetail (done + m) true pois
          if dSpeculative d then
            (s1.workDone f 9 dt).updFlight f (fun y => { y with blob := natLe 8 b, held := (y.held ++ s0.badReads read).eraseDups })
          else
            let sl := match dst with
              | (.casket w, _) :: _ => 0x4000 + w / 0x80000
              | _ => 0xFFFF
            let s2 := (s1.moverWrite f p (takePlaces m dst) (freeBytes s.free m)).useFree
            let s2 := s2.blurRanges p ((((copyPieces d).take k).map (fun ts => (dstOf ts).map (fun r =>
              (⟨copyDstSpace d, r.1, r.2, false, true, false⟩ : Range)))).flatten)
            (((s2.reportBad p (dTag d) (s0.badReads read)).countMoved p m).postCrcMismatch ws p (dTag d) (copySrcSpace d) b sl).workDone
              f 9 dt
        | none =>
          let pois := old || poisoned bs
          let data := if overlap then freeBytes s.free n else bs
          let bad := s0.badReads (src ++ chk)
          let s1 := s0.took (src ++ chk)
          let dt := moverDetail (done + n) (copySrcCheck d) pois
          let st := if last && pois then 1 else 0
          if dSpeculative d then
            let lines := pendingLines f dst data
            if s.pendingRoom lines then
              (({ s1 with casket := { s1.casket with pending := s1.casket.pending ++ lines } } : State).updFlight f
                (fun y => { y with held := (y.held ++ bad).eraseDups })).endPiece x last st dt
            else s
          else
            let s2 := (if overlap then s1.useFree else s1).moverWrite f p dst data
            let s3 := gen.foldl (fun s b => s.genCrc ws p (copyDstSpace d) b) s2
            ((s3.reportBad p (dTag d) bad).countMoved p n).endPiece x last st dt
  | _, _ => s

/-- The pattern of a FILL, byte by byte (Table 6.4). -/
def fillBytes (pattern : Bytes) (n : Nat) : Bytes := (List.range n).map (fun k => pattern.getD (k % 8) 0)

/-- One piece of a FILL (R221). -/
def State.doFill (s : State) (x : Flight) : State :=
  let d := x.desc
  let p := x.part
  let ws := x.windows
  let k := (x.strand 0).piece
  let r := (linPieces d).getD k (0, 0)
  match s.endPlaces p (linSpace d) r false true with
  | none => s
  | some dst =>
    let gen := if bit (byteAt d 33) 1 then [r.1] else []
    match s.access x 0 [] (dst ++ s.entryPlaces ws p (linSpace d) gen) with
    | .wait s' => s'
    | .go s0 =>
      let off := r.1 - linAddr d
      let s1 := s0.moverWrite x.id p dst (clean ((fillBytes (slice d 56 8) (off % 8 + r.2)).drop (off % 8)))
      let s2 := gen.foldl (fun s b => s.genCrc ws p (linSpace d) b) s1
      (s2.countMoved p r.2).endPiece x (k + 1 == (linPieces d).length) 0 (moverDetail (off + r.2) false false)

/-- One block of a CRCGEN (R221): its checksum goes to the side table that covers it. -/
def State.doCrcGen (s : State) (x : Flight) : State :=
  let d := x.desc
  let p := x.part
  let ws := x.windows
  let k := (x.strand 0).piece
  let r := (linPieces d).getD k (0, 0)
  match s.endPlaces p (linSpace d) r true false with
  | none => s
  | some src =>
    match s.access x 0 src (s.entryPlaces ws p (linSpace d) [r.1]) with
    | .wait s' => s'
    | .go s0 =>
      let pois := x.detail % 2 == 1 || poisoned (s0.readLinesOf src)
      let last := k + 1 == (linPieces d).length
      let s1 := (s0.genCrc ws p (linSpace d) r.1).reportBad p (dTag d) (s0.badReads src)
      ((s1.took src).countMoved p 8).endPiece x last (if last && pois then 1 else 0) (moverDetail (8 * (k + 1)) false pois)

/-- One block of a CRCVERIFY (R221): blocks in ascending order, stopping at the first mismatch with status 0x09. -/
def State.doCrcVerify (s : State) (x : Flight) : State :=
  let d := x.desc
  let p := x.part
  let ws := x.windows
  let k := (x.strand 0).piece
  let r := (linPieces d).getD k (0, 0)
  let chk := s.checkPlaces ws p (linSpace d) [r.1]
  match s.access x 0 chk [] with
  | .wait s' => s'
  | .go s0 =>
    let pois := x.detail % 2 == 1 || poisoned (s0.blockBytes p (linSpace d) r.1)
    let last := k + 1 == (linPieces d).length
    let s1 := (s0.reportBad p (dTag d) (s0.badReads chk)).took chk
    if s0.blockFails ws p (linSpace d) r.1 then
      (s1.postCrcMismatch ws p (dTag d) (linSpace d) r.1 0xFFFF).workDone x.id 9 (moverDetail (r.1 - linAddr d) true pois)
    else s1.endPiece x last (if last && pois then 1 else 0) (moverDetail (r.1 - linAddr d + r.2) true pois)

/-- COPY (R221): one piece of the flight's work, once it runs with its pages pinned. -/
def execCopy (f : Nat) (s : State) : Host.Outcome State Fault Refusal :=
  match s.working f 0 0x10001 with
  | some x => .next (s.doCopy x)
  | none => .next s

/-- FILL (R221). -/
def execFill (f : Nat) (s : State) : Host.Outcome State Fault Refusal :=
  match s.working f 0 0x10002 with
  | some x => .next (s.doFill x)
  | none => .next s

/-- CRCGEN (R221). -/
def execCrcgen (f : Nat) (s : State) : Host.Outcome State Fault Refusal :=
  match s.working f 0 0x10003 with
  | some x => .next (s.doCrcGen x)
  | none => .next s

/-- CRCVERIFY (R221). -/
def execCrcverify (f : Nat) (s : State) : Host.Outcome State Fault Refusal :=
  match s.working f 0 0x10004 with
  | some x => .next (s.doCrcVerify x)
  | none => .next s

end Sys2Proof.Machine
end

