-- ==== Sys2Proof/Machine/Sail.lean ====
section
/-! DEFINITION. Sail descriptors: GEMM, SCAN, REDUCE and SFU (R38 to R76, 02_sail_arithmetic.md), and the record merge of
R108 that REDUCE op 3, the routers and the beads share. -/

namespace Sys2Proof.Machine

/-! ### Formats (Tables 2.3, 2.4) -/

/-- A float format code. -/
def fltFmt (c : Nat) : Option FFmt :=
  match c with
  | 0 => some fp32
  | 1 => some bf16
  | 2 => some fp16
  | 3 => some e4m3
  | 4 => some e5m2
  | _ => none

/-- An MX (or KVS4) format code's element. -/
def mxElem (c : Nat) : Option MxElem :=
  match c with
  | 0x08 => some (.flt e4m3)
  | 0x09 => some (.flt e5m2)
  | 0x0A => some (.flt e3m2)
  | 0x0B => some (.flt e2m3)
  | 0x0C => some (.flt e2m1)
  | 0x0D => some .int8
  | 0x0E => some (.flt e2m1)
  | _ => none

/-- MX codes proper, without KVS4. -/
def isMx (c : Nat) : Bool := decide (8 ≤ c) && decide (c ≤ 0xD)

/-- Float or MX family. -/
def isFloatFam (c : Nat) : Bool := decide (c ≤ 4) || isMx c

/-- Integer operand formats INT8 and INT4. -/
def isIntFam (c : Nat) : Bool := c == 5 || c == 6

/-- Bits of one element of a format code. -/
def fmtBits (c : Nat) : Nat :=
  match c with
  | 0 => 32
  | 1 => 16
  | 2 => 16
  | 3 => 8
  | 4 => 8
  | 5 => 8
  | 6 => 4
  | 0x10 => 32
  | 0x11 => 64
  | c => match mxElem c with
    | some e => e.width
    | none => 8

/-- Bytes of a row of `n` elements. -/
def rowSize (c n : Nat) : Nat := (n * fmtBits c + 7) / 8

/-- Element `i` of a packed row, with its row of scales if MX. -/
def elemAt (c : Nat) (row scales : Bytes) (i : Nat) : FVal :=
  match fltFmt c with
  | some f => f.decode (codeAt f.width row i)
  | none =>
    match mxElem c with
    | some e => mxValue e (byteAt scales (i / 32)) (codeAt e.width row i)
    | none => .ofInt (toSigned (fmtBits c) (codeAt (fmtBits c) row i))

/-- Integer element `i` of a packed row. -/
def intAt (c : Nat) (row : Bytes) (i : Nat) : Int := toSigned (fmtBits c) (codeAt (fmtBits c) row i)

/-! ### Accumulation (R56, R57) -/

/-- What a Sail operation notes for its detail word (Table 2.8). -/
structure SailNotes where
  nan : Bool
  inf : Bool
  overflow : Bool
  intSat : Bool
  deriving DecidableEq, Repr

/-- Nothing noted. -/
def SailNotes.none : SailNotes := ⟨false, false, false, false⟩

/-- Two notes together. -/
def SailNotes.join (a b : SailNotes) : SailNotes :=
  ⟨a.nan || b.nan, a.inf || b.inf, a.overflow || b.overflow, a.intSat || b.intSat⟩

/-- The low bits of the detail word. -/
def SailNotes.bits (n : SailNotes) (crc : Bool) : Nat :=
  flag crc * 16 + flag n.intSat * 8 + flag n.overflow * 4 + flag n.inf * 2 + flag n.nan

/-- One chunk: acc := RNE_FP32(acc + Σ products), exactly summed (R56). -/
def accChunk (sat : Bool) (acc : FVal) (prods : List FVal) : FVal × Bool := rneFp32 sat (sumExact (acc :: prods))

/-- Chunked accumulation of a list of products in runs of 32 (R56): the sum and whether a chunk overflowed. -/
def accumulate (sat : Bool) (acc : FVal) (prods : List FVal) : FVal × Bool :=
  (chunks 32 (prods.length / 32 + 1) prods).foldl (fun a c =>
    let r := accChunk sat a.1 c
    (r.1, a.2 || r.2)) (acc, false)

/-- An integer into 32 bits, saturating or wrapping, and whether that changed it (R57). -/
def int32 (sat : Bool) (i : Int) : Int × Bool :=
  if -(2 ^ 31 : Int) ≤ i ∧ i < 2 ^ 31 then (i, false)
  else (if sat then clampInt (-(2 ^ 31)) (2 ^ 31 - 1) i else toSigned 32 (fromSigned 32 i), true)

/-- An integer into `w` bits, saturating or wrapping. -/
def intW (w : Nat) (sat : Bool) (i : Int) : Int × Bool :=
  if -(2 ^ (w - 1) : Int) ≤ i ∧ i < 2 ^ (w - 1) then (i, false)
  else (if sat then clampInt (-(2 ^ (w - 1))) (2 ^ (w - 1) - 1) i else toSigned w (fromSigned w i), true)

/-- Chunked integer accumulation (R57). -/
def accumulateInt (sat : Bool) (acc : Int) (prods : List Int) : Int × Bool :=
  (chunks 32 (prods.length / 32 + 1) prods).foldl (fun a c =>
    let r := int32 sat (a.1 + c.sum)
    (r.1, a.2 || r.2)) (acc, false)

/-! ### Operands -/

/-- One operand of a Sail descriptor: rows of bytes from a base, whether its blocks are verified (R74), and whether it is
written. -/
structure Opnd where
  base : Nat
  rows : Nat
  rowBytes : Nat
  stride : Nat
  check : Bool
  write : Bool
  deriving DecidableEq, Repr

/-- The runs of an operand. -/
def Opnd.runs (o : Opnd) : List (Nat × Nat) := rowRuns o.base o.rows o.rowBytes o.stride

/-- Space and address of a translated address field (R329). -/
def nearSpace (a : Nat) : Nat × Nat :=
  if nearTile ≤ a then (2, a - nearTile) else if nearCasket ≤ a then (1, a - nearCasket) else (0, a)

/-- The runs of an operand in its own space. -/
def Opnd.spaceRuns (o : Opnd) : List (Nat × Nat) := o.runs.map (fun r => ((nearSpace r.1).2, r.2))

/-- Rows `r0` to `r0 + nr` of an operand, and of each the bytes `b0` to `b0 + nb`. -/
def Opnd.sub (o : Opnd) (r0 nr b0 nb : Nat) : Opnd := ⟨o.base + r0 * o.stride + b0, nr, nb, o.stride, o.check, o.write⟩

/-- The ranges of an operand, with the blocks and table entries its verification reads. -/
def opndRanges (ws : List ChkWindow) (o : Opnd) : List Range :=
  o.runs.map (fun r => nearRange r.1 r.2 (!o.write) o.write) ++
  (if o.check then checkRanges ws (nearSpace o.base).1 o.spaceRuns false else [])

/-- The operand's checked blocks all have a checksum place (R217). -/
def opndCovered (ws : List ChkWindow) (o : Opnd) : Bool := !o.check || blocksCovered ws (nearSpace o.base).1 o.spaceRuns

/-- The operand's places. -/
def State.opndPlaces (s : State) (p : Nat) (o : Opnd) : Option (List (Place × Nat)) :=
  (o.runs.mapM (fun r => s.placesOf p r.1 r.2 (!o.write) o.write)).map List.flatten

/-- The rows of an operand as read. -/
def State.opndRows (s : State) (p : Nat) (o : Opnd) : List Bytes :=
  match s.opndPlaces p o with
  | some ps => chunks o.rowBytes o.rows (plain (s.readPlaces ps))
  | none => []

/-- The places of those pages of an operand that are translated now. -/
def State.opndKnown (s : State) (p : Nat) (o : Opnd) : List (Place × Nat) := s.knownPlaces p (nearSpace o.base).1 o.spaceRuns

/-- An output shares a byte with an input (R63), by its address or by where its page lies. -/
def State.opndsOverlap (s : State) (p : Nat) (outs ins : List Opnd) : Bool :=
  outs.any (fun o => ins.any (fun i =>
    o.runs.any (fun a => i.runs.any (fun b => meets a.1 a.2 b.1 b.2)) || placesOverlap (s.opndKnown p o) (s.opndKnown p i)))

/-- A data operand's layout is legal (R60): aligned base, stride a multiple of 16 and at least the row. -/
def Opnd.ok (o : Opnd) : Bool := o.base % 64 == 0 && o.stride % 16 == 0 && decide (o.rowBytes ≤ o.stride)

/-- A scale operand's layout is legal (R60), or it is unused and zero. -/
def scaleOk (used : Bool) (base stride blocks : Nat) : Bool :=
  if used then base % 64 == 0 && decide (blocks ≤ stride) else base == 0 && stride == 0

/-- Uncorrectable data has been taken as input to work of partition `p` (R209, R275): the event of the memory it lay in, and a
partition reset. -/
def State.consume (s : State) (p unit tag : Nat) (ps : List (Place × Nat)) (reader : Nat) : State :=
  let s := match ps.find? (fun x => !(s.badLines x).isEmpty) with
    | none => s
    | some (.dev d, n) => s.postUncorrectable d (s.readLines (.dev d, n)) p 1 tag
    | some (.casket a, n) => s.casketBadRead (64 * (s.badLines (.casket a, n)).headD 0) reader p
    | some (.tile t off, n) =>
      s.post 0x2041 2 p t (detail [(1, 1), (4, 0x10000 + off + (firstPoison ((s.tile t).readDmem off n)).getD 0), (8, tag)])
    | some _ => s
  s.startReset p 1 unit

/-- The outcome of an engine's operand fetch. -/
inductive Fetch where
  /-- It must wait; the state may have changed (lines asked for, accesses issued, a wait counted). -/
  | wait (s : State)
  /-- The work stops: a checksum mismatch, or consumed poison. -/
  | stop (s : State)
  /-- The operands are readable; all accesses have been issued. -/
  | go (s : State)

/-- Fetch the operands of a piece of strand `j` (R74, R217, R253, R275): wait for what is missing, verify what is to be checked, take
poison as a partition's uncorrectable error.  On a mismatch the outputs of the pieces `done` take undefined content; a Casket block is
named by its Casket address.  `more`: device memory the piece reads beside its operands. [DESIGN CHOICE, log 118] -/
def State.fetch (s : State) (x : Flight) (j : Nat) (ins outs : List Opnd) (done : List Opnd) (more : List (Place × Nat)) : Fetch :=
  let p := x.part
  let ws := x.windows
  let unit := x.unitId j
  match ins.mapM (s.opndPlaces p), outs.mapM (s.opndPlaces p) with
  | some ips, some ops =>
    let reads := ips.flatten
    let blocks := (ins.filter (fun o => o.check)).map (fun o => ((nearSpace o.base).1, runBlocks o.spaceRuns))
    let chk := (blocks.map (fun b => s.checkPlaces ws p b.1 b.2)).flatten
    match s.access x j (reads ++ chk ++ more) ops.flatten with
    | .wait s' => .wait s'
    | .go s0 =>
      let bad := (blocks.map (fun b => (b.2.filter (fun k => s0.blockFails ws p b.1 k)).map (fun k => (b.1, k)))).flatten
      let s1 := s0.took (reads ++ chk ++ more)
      match bad with
      | (sp, k) :: _ =>
        let s2 := (s1.countMismatch sp k).postFor x 0x3001 2 p unit (detail [(8, dTag x.desc), (8, k), (8, (s1.storedCrc ws p sp k).getD 0)])
        .stop ((s2.blurRanges p ((done.map (opndRanges ws)).flatten)).stopWork x j 9 (x.detail ||| 16))
      | [] => if poisoned (s0.readLinesOf reads) then .stop ((s0.consume p unit (dTag x.desc) reads 3).took (reads ++ chk ++ more)) else .go s1
  | _, _ => .wait s

/-- Write rows to an output operand; where an output of the descriptor overlaps an input other than as R63 supports, undefined bytes. -/
def State.putRows (s : State) (x : Flight) (o : Opnd) (undef : Bool) (rows : List Bytes) : State :=
  match s.opndPlaces x.part o with
  | some ps =>
    if undef then (s.writePlaces ps (freeBytes s.free (o.rows * o.rowBytes)) x.part).useFree
    else s.writePlaces ps (clean rows.flatten) x.part
  | none => s

/-- Multiply-accumulates of engine `e` (Table 2.21). [DEDUCED, log 48] -/
def State.countMacs (s : State) (e n : Nat) : State :=
  { s with sail := { s.sail with
      engines := SMap.upd {} s.sail.engines e (fun y => { y with macs := (y.macs + n) % 2 ^ 64 }) } }

/-- The engine field of a descriptor is in range (R41). -/
def engineOk (e : Nat) : Bool := decide (e < 32) || e == 0xFF

/-- The engine is configured and not fenced. -/
def State.inService (s : State) (n : Nat) : Bool := bit s.sail.configured n && !bit s.sail.fenced n

/-- The engine field's checks (R41): not a value of the field 0x06, not the partition's 0x03, fenced or outside the configured set
(R500) 0x08. [DESIGN CHOICE, log 24] -/
def State.engineStatus (s : State) (p e : Nat) : Nat :=
  firstStatus [(!engineOk e, 6), (decide (e < 32) && !s.ownsEngine p e, 3), (decide (e < 32) && !s.inService e, 8)]

/-! ### GEMM (Table 2.9, R65) -/

def gAFmt (d : Bytes) : Nat := byteAt d 32
def gBFmt (d : Bytes) : Nat := byteAt d 33
def gCFmt (d : Bytes) : Nat := byteAt d 34
def gDFmt (d : Bytes) : Nat := byteAt d 35
def gFlags (d : Bytes) : Nat := byteAt d 37
def gLayout (d : Bytes) : Bool := bit (gFlags d) 0
def gM (d : Bytes) : Nat := fieldLe d 40 4
def gN (d : Bytes) : Nat := fieldLe d 44 4
def gK (d : Bytes) : Nat := fieldLe d 48 4
def gAlpha (d : Bytes) : Nat := fieldLe d 52 4

def gemmA (d : Bytes) : Opnd :=
  ⟨fieldLe d 56 8, gM d, rowSize (gAFmt d) (gK d), fieldLe d 88 4, bit (gFlags d) 3, false⟩
def gemmB (d : Bytes) : Opnd :=
  if gLayout d then ⟨fieldLe d 64 8, gK d, rowSize (gBFmt d) (gN d), fieldLe d 92 4, bit (gFlags d) 4, false⟩
  else ⟨fieldLe d 64 8, gN d, rowSize (gBFmt d) (gK d), fieldLe d 92 4, bit (gFlags d) 4, false⟩
def gemmC (d : Bytes) : Opnd :=
  ⟨fieldLe d 72 8, gM d, rowSize (gCFmt d) (gN d), fieldLe d 96 4, false, false⟩
def gemmD (d : Bytes) : Opnd :=
  ⟨fieldLe d 80 8, gM d, rowSize (gDFmt d) (gN d), fieldLe d 100 4, false, true⟩
def gemmAS (d : Bytes) : Opnd := ⟨fieldLe d 104 8, gM d, gK d / 32, fieldLe d 120 4, bit (gFlags d) 3, false⟩
def gemmBS (d : Bytes) : Opnd := ⟨fieldLe d 112 8, gN d, gK d / 32, fieldLe d 124 4, bit (gFlags d) 4, false⟩

/-- The input operands of a GEMM in use. -/
def gemmIns (d : Bytes) : List Opnd :=
  [gemmA d, gemmB d] ++ (if gCFmt d = 0xFF then [] else [gemmC d]) ++
  (if isMx (gAFmt d) then [gemmAS d] else []) ++ (if isMx (gBFmt d) then [gemmBS d] else [])

/-- Reserved fields of a GEMM are zero. -/
def gemmReserved (d : Bytes) : Bool := gFlags d / 32 == 0 && fieldLe d 38 2 == 0

/-- The checks of R60 and R64. -/
def gemmFields (d : Bytes) : Bool :=
  let fl := isFloatFam (gAFmt d)
  let famOk := (fl && isFloatFam (gBFmt d)) || (isIntFam (gAFmt d) && isIntFam (gBFmt d))
  let cOk := gCFmt d == 0xFF || (if fl then decide (gCFmt d ≤ 1) else gCFmt d == 0x10)
  let dOk := gDFmt d == 0 || (if fl then decide (gDFmt d ≤ 4) else gDFmt d == 0x10)
  let k32 := isMx (gAFmt d) || isMx (gBFmt d) || fmtBits (gAFmt d) == 4 || fmtBits (gBFmt d) == 4
  let rng (n : Nat) := decide (1 ≤ n) && decide (n ≤ 16777216)
  famOk && cOk && dOk && rng (gM d) && rng (gN d) && rng (gK d) && (!k32 || gK d % 32 == 0) &&
  (!gLayout d || (!isMx (gBFmt d) && fmtBits (gBFmt d) != 4)) &&
  (gemmA d).ok && (gemmB d).ok && (gemmD d).ok &&
  (if gCFmt d == 0xFF then fieldLe d 72 8 == 0 && fieldLe d 96 4 == 0 else (gemmC d).ok) &&
  scaleOk (isMx (gAFmt d)) (fieldLe d 104 8) (fieldLe d 120 4) (gK d / 32) &&
  scaleOk (isMx (gBFmt d)) (fieldLe d 112 8) (fieldLe d 124 4) (gK d / 32)

/-- Output tiles across, and in all: the pieces of a GEMM, row by row of tiles (R61). [DESIGN CHOICE, log 42] -/
def gemmAcross (d : Bytes) : Nat := ceilDiv (gN d) 64
def gemmPieces (d : Bytes) : Nat := ceilDiv (gM d) 128 * gemmAcross d

/-- Tile `k` of a GEMM: its first row, its rows, its first column, its columns. [DESIGN CHOICE, log 42] -/
def gemmTile (d : Bytes) (k : Nat) : Nat × Nat × Nat × Nat :=
  let i := k / gemmAcross d * 128
  let j := k % gemmAcross d * 64
  (i, min 128 (gM d - i), j, min 64 (gN d - j))

/-- Columns `j` to `j + n` of an operand of rows of whole-byte elements. -/
def Opnd.cols (o : Opnd) (fmt r0 nr j n : Nat) : Opnd := o.sub r0 nr (j * fmtBits fmt / 8) (n * fmtBits fmt / 8)

/-- The operands of tile `k`: A, B, C, D and the scales of A and B. -/
def gemmTileA (d : Bytes) (k : Nat) : Opnd := let t := gemmTile d k; (gemmA d).sub t.1 t.2.1 0 (gemmA d).rowBytes
def gemmTileB (d : Bytes) (k : Nat) : Opnd :=
  let t := gemmTile d k
  if gLayout d then (gemmB d).cols (gBFmt d) 0 (gK d) t.2.2.1 t.2.2.2 else (gemmB d).sub t.2.2.1 t.2.2.2 0 (gemmB d).rowBytes
def gemmTileC (d : Bytes) (k : Nat) : Opnd := let t := gemmTile d k; (gemmC d).cols (gCFmt d) t.1 t.2.1 t.2.2.1 t.2.2.2
def gemmTileD (d : Bytes) (k : Nat) : Opnd := let t := gemmTile d k; (gemmD d).cols (gDFmt d) t.1 t.2.1 t.2.2.1 t.2.2.2
def gemmTileAS (d : Bytes) (k : Nat) : Opnd := let t := gemmTile d k; (gemmAS d).sub t.1 t.2.1 0 (gemmAS d).rowBytes
def gemmTileBS (d : Bytes) (k : Nat) : Opnd := let t := gemmTile d k; (gemmBS d).sub t.2.2.1 t.2.2.2 0 (gemmBS d).rowBytes

/-- The input operands of tile `k` in use. -/
def gemmTileIns (d : Bytes) (k : Nat) : List Opnd :=
  [gemmTileA d k, gemmTileB d k] ++ (if gCFmt d = 0xFF then [] else [gemmTileC d k]) ++
  (if isMx (gAFmt d) then [gemmTileAS d k] else []) ++ (if isMx (gBFmt d) then [gemmTileBS d k] else [])

/-- Column `j` of the B of a tile as float values. -/
def gemmBCol (d : Bytes) (rows scales : List Bytes) (j : Nat) : List FVal :=
  if gLayout d then rows.map (fun r => elemAt (gBFmt d) r [] j)
  else (List.range (gK d)).map (elemAt (gBFmt d) (rows.getD j []) (scales.getD j []))

/-- Column `j` of the B of a tile as integers. -/
def gemmBColInt (d : Bytes) (rows : List Bytes) (j : Nat) : List Int :=
  if gLayout d then rows.map (fun r => intAt (gBFmt d) r j)
  else (List.range (gK d)).map (intAt (gBFmt d) (rows.getD j []))

/-- One float output element of a GEMM: its code and what it notes (R65). -/
def gemmElem (d : Bytes) (a b : List FVal) (c : FVal) : Nat × SailNotes :=
  let acc := accumulate (bit (gFlags d) 2) c (List.zipWith FVal.mul a b)
  let v := rneFp32 false (acc.1.mul (f32 (gAlpha d)))
  let f := (fltFmt (gDFmt d)).getD fp32
  let o := convertOut f (bit (gFlags d) 1) v.1
  (o.1, ⟨(f.decode o.1).isNaN, (f.decode o.1).isInf, acc.2 || v.2 || o.2, false⟩)

/-- One integer output element of a GEMM (R57, R65). -/
def gemmElemInt (d : Bytes) (a b : List Int) (c : Int) : Nat × SailNotes :=
  let acc := accumulateInt (bit (gFlags d) 2) c (List.zipWith (fun x y => x * y) a b)
  if gDFmt d = 0x10 then (fromSigned 32 acc.1, ⟨false, false, false, acc.2⟩)
  else
    let v := rneFp32 false ((FVal.ofInt acc.1).mul (f32 (gAlpha d)))
    (code32 v.1, ⟨v.1.isNaN, v.1.isInf, v.2, acc.2⟩)

/-- The output rows of a tile of `m` × `n` elements from its operand rows, and what it notes. -/
def gemmRows (d : Bytes) (m n : Nat) (a b c as bs : List Bytes) : List Bytes × SailNotes :=
  let w := fmtBits (gDFmt d)
  let cols := List.range n
  let rows := (List.range m).map (fun i =>
    let es := if isFloatFam (gAFmt d) then
        let ar := (List.range (gK d)).map (elemAt (gAFmt d) (a.getD i []) (as.getD i []))
        cols.map (fun j =>
          let c0 := if gCFmt d = 0xFF then FVal.fin false 0 0 else elemAt (gCFmt d) (c.getD i []) [] j
          gemmElem d ar (gemmBCol d b bs j) c0)
      else
        let ar := (List.range (gK d)).map (intAt (gAFmt d) (a.getD i []))
        cols.map (fun j =>
          let c0 := if gCFmt d = 0xFF then 0 else intAt 0x10 (c.getD i []) j
          gemmElemInt d ar (gemmBColInt d b j) c0)
    (packCodes w (es.map (fun e => e.1)), es.foldl (fun n e => n.join e.2) SailNotes.none))
  (rows.map (fun r => r.1), rows.foldl (fun n r => n.join r.2) SailNotes.none)

/-- D and C are the same array: the in-place accumulation R63 supports. -/
def gemmInPlace (d : Bytes) : Bool :=
  (gemmD d).base == (gemmC d).base && (gemmD d).stride == (gemmC d).stride && gCFmt d == gDFmt d

/-- The inputs of a GEMM that its output must not overlap (R63): C is none of them where it is accumulated in place. -/
def gemmApart (d : Bytes) : List Opnd :=
  [gemmA d, gemmB d] ++ (if gCFmt d = 0xFF || gemmInPlace d then [] else [gemmC d]) ++
  (if isMx (gAFmt d) then [gemmAS d] else []) ++ (if isMx (gBFmt d) then [gemmBS d] else [])

/-- One output tile of a GEMM (R65). -/
def State.doGemm (s : State) (x : Flight) : State :=
  let d := x.desc
  let p := x.part
  let k := (x.strand 0).piece
  let t := gemmTile d k
  match s.fetch x 0 (gemmTileIns d k) [gemmTileD d k] ((List.range k).map (gemmTileD d)) [] with
  | .wait s' => s'
  | .stop s' => s'
  | .go s1 =>
    let rows (o : Opnd) := s.opndRows p o
    let r := gemmRows d t.2.1 t.2.2.2 (rows (gemmTileA d k)) (rows (gemmTileB d k)) (rows (gemmTileC d k)) (rows (gemmTileAS d k))
      (rows (gemmTileBS d k))
    ((s1.putRows x (gemmTileD d k) (s.opndsOverlap p [gemmD d] (gemmApart d)) r.1).countMacs (x.strand 0).unit
      (t.2.1 * t.2.2.2 * gK d)).endPiece x (k + 1 == gemmPieces d) 0 (x.detail ||| r.2.bits (bit (gFlags d) 3 || bit (gFlags d) 4))

/-! ### SCAN (Table 2.10, R67, R68) -/

def sQFmt (d : Bytes) : Nat := byteAt d 32
def sTFmt (d : Bytes) : Nat := byteAt d 33
def sMetric (d : Bytes) : Nat := byteAt d 34
def sFlags (d : Bytes) : Nat := byteAt d 36
def sK (d : Bytes) : Nat := byteAt d 37
def sQCount (d : Bytes) : Nat := fieldLe d 38 2
def sDim (d : Bytes) : Nat := fieldLe d 40 4
def sRowFirst (d : Bytes) : Nat := fieldLe d 48 8
def sRowCount (d : Bytes) : Nat := fieldLe d 56 8

def scanQ (d : Bytes) : Opnd :=
  ⟨fieldLe d 64 8, sQCount d, rowSize (sQFmt d) (sDim d), rowSize (sQFmt d) (sDim d), bit (sFlags d) 2, false⟩
def scanT (d : Bytes) : Opnd :=
  ⟨fieldLe d 72 8, sRowCount d, rowSize (sTFmt d) (sDim d), fieldLe d 120 4, bit (sFlags d) 1, false⟩
def scanQS (d : Bytes) : Opnd := ⟨fieldLe d 80 8, sQCount d, sDim d / 32, sDim d / 32, bit (sFlags d) 2, false⟩
def scanTS (d : Bytes) : Opnd := ⟨fieldLe d 88 8, sRowCount d, sDim d / 32, fieldLe d 124 4, bit (sFlags d) 1, false⟩
def scanNorm (d : Bytes) : Opnd := ⟨fieldLe d 96 8, 1, 4 * sRowCount d, 4 * sRowCount d, false, false⟩
def scanFilter (d : Bytes) : Opnd := ⟨fieldLe d 104 8, 1, (sRowCount d + 7) / 8, (sRowCount d + 7) / 8, false, false⟩
def scanOut (d : Bytes) : Opnd := ⟨fieldLe d 112 8, sQCount d, 16 * sK d, 16 * sK d, false, true⟩

def scanIns (d : Bytes) : List Opnd :=
  [scanQ d, scanT d] ++ (if isMx (sQFmt d) then [scanQS d] else []) ++ (if isMx (sTFmt d) then [scanTS d] else []) ++
  (if sMetric d = 1 then [scanNorm d] else []) ++ (if bit (sFlags d) 0 then [scanFilter d] else [])

def scanReserved (d : Bytes) : Bool := sFlags d / 8 == 0 && fieldLe d 44 4 == 0

/-- The checks of R60 and R66. -/
def scanFields (d : Bytes) : Bool :=
  let fam := (isFloatFam (sQFmt d) && isFloatFam (sTFmt d)) || (sQFmt d == 5 && sTFmt d == 5)
  let base (used : Bool) (a : Nat) := if used then a % 64 == 0 else a == 0
  fam && decide (sMetric d ≤ 1) && decide (1 ≤ sK d) && decide (sK d ≤ 64) && decide (1 ≤ sQCount d) &&
  decide (sQCount d ≤ 64) && decide (32 ≤ sDim d) && decide (sDim d ≤ 8192) && sDim d % 32 == 0 &&
  decide (1 ≤ sRowCount d) && decide (sRowCount d ≤ 2 ^ 40) &&
  base true (scanQ d).base && (scanT d).ok && base true (scanOut d).base &&
  base (isMx (sQFmt d)) (fieldLe d 80 8) && scaleOk (isMx (sTFmt d)) (fieldLe d 88 8) (fieldLe d 124 4) (sDim d / 32) &&
  base (sMetric d == 1) (fieldLe d 96 8) && base (bit (sFlags d) 0) (fieldLe d 104 8)

/-- One candidate: row index and score. -/
structure Cand where
  row : Nat
  score : FVal
  deriving DecidableEq, Repr

/-- `a` ranks before `b`: higher score first, equal scores by ascending row (R67). -/
def Cand.before (a b : Cand) : Bool := b.score.lt a.score || (!a.score.lt b.score && decide (a.row < b.row))

/-- Insert a candidate in rank order, keeping the best `k`. -/
def insertCand (k : Nat) (c : Cand) : List Cand → List Cand
  | cs => ((cs.takeWhile (fun y => y.before c)) ++ c :: cs.dropWhile (fun y => y.before c)).take k

/-- One entry of a candidate list (R68). -/
def candEntry (q : Nat) (c : Cand) : Bytes := natLe 8 c.row ++ natLe 4 (code32 c.score) ++ natLe 2 q ++ [1, 0]

/-- An entry that no candidate fills (R68). -/
def candEmpty (q : Nat) : Bytes := natLe 8 (2 ^ 64 - 1) ++ natLe 4 0xFF800000 ++ natLe 2 q ++ [0, 0]

/-- The score of one row for one query (R67). -/
def scanScore (d : Bytes) (q t : List FVal) (qi ti : List Int) (norm : FVal) : FVal × SailNotes :=
  let dot : FVal × SailNotes :=
    if sQFmt d = 5 then
      let r := accumulateInt true 0 (List.zipWith (fun x y => x * y) qi ti)
      (rne32 (.ofInt r.1), ⟨false, false, false, r.2⟩)
    else
      let r := accumulate false (.fin false 0 0) (List.zipWith FVal.mul q t)
      (r.1, ⟨false, false, r.2, false⟩)
  if sMetric d = 0 then dot
  else
    let v := rneFp32 false (sumExact [dot.1.mul (.fin false 2 0), norm.negate])
    (v.1, dot.2.join ⟨false, false, v.2, false⟩)

/-- Rows of one piece of a SCAN (R61, R69), and its pieces. -/
def scanStep (d : Bytes) : Nat := if sQCount d ≤ 16 then 512 else if sQCount d ≤ 32 then 256 else 128
def scanPieces (d : Bytes) : Nat := ceilDiv (sRowCount d) (scanStep d)

/-- Rows `lo` to `lo + n` of a SCAN make its piece `k`. -/
def scanTile (d : Bytes) (k : Nat) : Nat × Nat := (k * scanStep d, min (scanStep d) (sRowCount d - k * scanStep d))

/-- The table rows, their scales, norms and filter bits that piece `k` reads. -/
def scanTileT (d : Bytes) (k : Nat) : Opnd := let t := scanTile d k; (scanT d).sub t.1 t.2 0 (scanT d).rowBytes
def scanTileTS (d : Bytes) (k : Nat) : Opnd := let t := scanTile d k; (scanTS d).sub t.1 t.2 0 (scanTS d).rowBytes
def scanTileNorm (d : Bytes) (k : Nat) : Opnd := let t := scanTile d k; (scanNorm d).sub 0 1 (4 * t.1) (4 * t.2)
def scanTileFilter (d : Bytes) (k : Nat) : Opnd := let t := scanTile d k; (scanFilter d).sub 0 1 (t.1 / 8) ((t.2 + 7) / 8)

def scanTileIns (d : Bytes) (k : Nat) : List Opnd :=
  [scanQ d, scanTileT d k] ++ (if isMx (sQFmt d) then [scanQS d] else []) ++ (if isMx (sTFmt d) then [scanTileTS d k] else []) ++
  (if sMetric d = 1 then [scanTileNorm d k] else []) ++ (if bit (sFlags d) 0 then [scanTileFilter d k] else [])

/-- The candidate lists are written with the last piece. -/
def scanTileOuts (d : Bytes) (k : Nat) : List Opnd := if k + 1 = scanPieces d then [scanOut d] else []

/-- The candidates of one query as the engine's buffer holds them, in the layout of R68. -/
def candParse (bs : Bytes) (k : Nat) : List Cand :=
  ((chunks 16 k bs).filter (fun e => byteAt e 14 % 2 == 1)).map (fun e => ⟨fieldLe e 0 8, f32 (fieldLe e 8 4)⟩)

/-- The candidate list of one query after the rows of a piece, and what they note (R67). -/
def scanQuery (d : Bytes) (lo n : Nat) (qRow qScale : Bytes) (tRows tScales : List Bytes) (norms filter : Bytes) (c0 : List Cand) :
    List Cand × SailNotes :=
  let qv := (List.range (sDim d)).map (elemAt (sQFmt d) qRow qScale)
  let qi := (List.range (sDim d)).map (intAt 5 qRow)
  (List.range n).foldl (fun a r =>
    if bit (sFlags d) 0 && bit (byteAt filter (r / 8)) (r % 8) then a
    else
      let t := tRows.getD r []
      let tv := (List.range (sDim d)).map (elemAt (sTFmt d) t (tScales.getD r []))
      let ti := (List.range (sDim d)).map (intAt 5 t)
      let sc := scanScore d qv tv qi ti (f32 (fieldLe norms (4 * r) 4))
      if sc.1.isNaN then (a.1, a.2.join sc.2)
      else (insertCand (sK d) ⟨sRowFirst d + lo + r, sc.1⟩ a.1, a.2.join sc.2)) (c0, SailNotes.none)

/-- The candidate lists of a SCAN after piece `k`, one row of bytes per query, and what the piece notes; the scores of filled entries
are judged with the last piece (R67, R68). -/
def scanRows (d : Bytes) (k : Nat) (q qs t ts : List Bytes) (norms filter held : Bytes) : List Bytes × SailNotes :=
  let tl := scanTile d k
  let n := 16 * sK d
  let lists := (List.range (sQCount d)).map (fun i =>
    scanQuery d tl.1 tl.2 (q.getD i []) (qs.getD i []) t ts norms filter (candParse (slice held (i * n) n) (sK d)))
  let last := k + 1 == scanPieces d
  (lists.mapIdx (fun i l => ((l.1.map (candEntry i)) ++ List.replicate (sK d - l.1.length) (candEmpty i)).flatten),
    lists.foldl (fun n l => n.join { l.2 with inf := last && l.1.any (fun c => c.score.isInf) }) SailNotes.none)

/-- One row tile of a SCAN (R67, R68). -/
def State.doScan (s : State) (x : Flight) : State :=
  let d := x.desc
  let p := x.part
  let y := x.strand 0
  let k := y.piece
  match s.fetch x 0 (scanTileIns d k) (scanTileOuts d k) [] [] with
  | .wait s' => s'
  | .stop s' => s'
  | .go s1 =>
    let rows (o : Opnd) := s.opndRows p o
    let qs := if isMx (sQFmt d) then rows (scanQS d) else []
    let ts := if isMx (sTFmt d) then rows (scanTileTS d k) else []
    let norms := if sMetric d = 1 then (rows (scanTileNorm d k)).flatten else []
    let filter := if bit (sFlags d) 0 then (rows (scanTileFilter d k)).flatten else []
    let r := scanRows d k (rows (scanQ d)) qs (rows (scanTileT d k)) ts norms filter y.blob
    let last := k + 1 == scanPieces d
    let s2 := if last then s1.putRows x (scanOut d) (s.opndsOverlap p [scanOut d] (scanIns d)) r.1
      else s1.updStrand x.id 0 (fun y => { y with blob := r.1.flatten })
    (s2.countMacs y.unit (sQCount d * (scanTile d k).2 * sDim d)).endPiece x last 0
      (x.detail ||| r.2.bits (bit (sFlags d) 1 || bit (sFlags d) 2))

/-! ### The record merge (R107, R108) -/

/-- A partial-attention record (Table 3.7); `o` as FP32 codes. -/
structure PRec where
  flags : Nat
  row : Nat
  head : Nat
  part : Nat
  m : Nat
  l : Nat
  count : Nat
  o : List Nat
  deriving DecidableEq, Repr

/-- The record in `4d + 64` bytes. -/
def PRec.parse (d : Nat) (bs : Bytes) : PRec :=
  ⟨byteAt bs 1, fieldLe bs 2 2, fieldLe bs 4 2, fieldLe bs 6 2, fieldLe bs 8 4, fieldLe bs 12 4, fieldLe bs 16 4,
    (List.range d).map (fun c => fieldLe bs (64 + 4 * c) 4)⟩

/-- The bytes of a record. -/
def PRec.bytes (r : PRec) : Bytes :=
  natLe 1 1 ++ natLe 1 r.flags ++ natLe 2 r.row ++ natLe 2 r.head ++ natLe 2 r.part ++ natLe 4 r.m ++ natLe 4 r.l ++
    natLe 4 r.count ++ zeros 44 ++ (r.o.map (natLe 4)).flatten

/-- FP32 -Inf. -/
def negInf32 : Nat := 0xFF800000

/-- The factors aA and aB of a merge from the two maxima (R108). -/
def mergeFactor (m mx : FVal) : FVal :=
  match m with
  | .inf true => .fin false 0 0
  | _ => exp2 (rne32 (sumExact [m, mx.negate]))

/-- The merge of R108. -/
def PRec.merge (a b : PRec) : PRec :=
  let am := f32 a.m
  let bm := f32 b.m
  let mx := am.max71 bm
  let fa := mergeFactor am mx
  let fb := mergeFactor bm mx
  let comb (x y : Nat) : FVal := rne32 (sumExact [fa.mul (f32 x), fb.mul (f32 y)])
  let l := comb a.l b.l
  let nan := bit a.flags 1 || bit b.flags 1 || mx.isNaN || l.isNaN
  ⟨flag (bit a.flags 0 && bit b.flags 0) + flag nan * 2 + flag (bit a.flags 2 || bit b.flags 2) * 4,
    (if bit a.flags 0 then b.row else a.row), (if bit a.flags 0 then b.head else a.head), 0xFFFF, code32 mx, code32 l, satAdd max32 a.count b.count,
    List.zipWith (fun x y => code32 (comb x y)) a.o b.o⟩

/-! ### REDUCE (Table 2.11, R71) -/

def rOp (d : Bytes) : Nat := byteAt d 32
def rIn (d : Bytes) : Nat := byteAt d 33
def rOut (d : Bytes) : Nat := byteAt d 34
def rN (d : Bytes) : Nat := byteAt d 36
def rFlags (d : Bytes) : Nat := byteAt d 37
def rCount (d : Bytes) : Nat := fieldLe d 40 8
def rHead (d : Bytes) : Nat := fieldLe d 120 2

/-- Bytes of one element or record of a REDUCE. -/
def rElem (d : Bytes) (fmt : Nat) : Nat := if rOp d = 3 then 4 * rHead d + 64 else fmtBits fmt / 8

def reduceIn (d : Bytes) (i : Nat) : Opnd :=
  let n := rCount d * rElem d (rIn d)
  ⟨fieldLe d (56 + 8 * i) 8, 1, n, n, bit (rFlags d) 2, false⟩
def reduceOut (d : Bytes) : Opnd :=
  let n := rCount d * rElem d (rOut d)
  ⟨fieldLe d 48 8, 1, n, n, false, true⟩
def reduceIns (d : Bytes) : List Opnd := (List.range (rN d)).map (reduceIn d)

def reduceReserved (d : Bytes) : Bool :=
  rFlags d / 8 == 0 && fieldLe d 38 2 == 0 && allZero (slice d 122 6)

def isIntOut (c : Nat) : Bool := c == 0x10 || c == 0x11

/-- The checks of R60, R70 and R71. -/
def reduceFields (d : Bytes) : Bool :=
  let lse := rOp d == 3
  decide (rOp d ≤ 3) && decide (2 ≤ rN d) && decide (rN d ≤ 8) && decide (1 ≤ rCount d) && decide (rCount d ≤ 2 ^ 40) &&
  (if lse then rIn d == 0 && rOut d == 0 && decide (64 ≤ rHead d) && decide (rHead d ≤ 512) && rHead d % 64 == 0
   else rHead d == 0 && ((decide (rIn d ≤ 2) && decide (rOut d ≤ 4)) || (isIntOut (rIn d) && isIntOut (rOut d)))) &&
  (reduceOut d).base % 64 == 0 && (reduceIns d).all (fun o => o.base % 64 == 0) &&
  (List.range 8).all (fun i => decide (i < rN d) || fieldLe d (56 + 8 * i) 8 == 0)

/-- One float element folded over the inputs (R71). -/
def reduceFloat (d : Bytes) (xs : List FVal) : Nat × SailNotes :=
  let f := (fltFmt (rOut d)).getD fp32
  match xs with
  | [] => (0, SailNotes.none)
  | x :: rest =>
    let r := rest.foldl (fun (a : FVal × Bool) y =>
      match rOp d with
      | 0 => let v := rneFp32 false (sumExact [a.1, y]); (v.1, a.2 || v.2)
      | 1 => (a.1.max71 y, a.2)
      | _ => (a.1.min71 y, a.2)) (x, false)
    let o := convertOut f (bit (rFlags d) 0) r.1
    (o.1, ⟨(f.decode o.1).isNaN, (f.decode o.1).isInf, r.2 || o.2, false⟩)

/-- One integer element folded over the inputs (R71). -/
def reduceInt (d : Bytes) (xs : List Int) : Nat × SailNotes :=
  let sat := bit (rFlags d) 1
  let wi := fmtBits (rIn d)
  let wo := fmtBits (rOut d)
  match xs with
  | [] => (0, SailNotes.none)
  | x :: rest =>
    let r := rest.foldl (fun (a : Int × Bool) y =>
      match rOp d with
      | 0 => let v := intW wi sat (a.1 + y); (v.1, a.2 || v.2)
      | 1 => (max a.1 y, a.2)
      | _ => (min a.1 y, a.2)) (x, false)
    let o := intW wo sat r.1
    (fromSigned wo o.1, ⟨false, false, false, r.2 || o.2⟩)

/-- Left fold of records in index order (R71, op 3). -/
def reduceRecs (recs : List PRec) : Option PRec :=
  match recs with
  | [] => none
  | r :: rest => some (rest.foldl PRec.merge r)

/-- Elements or records of one piece of a REDUCE (R61), and its pieces. -/
def reduceStep (d : Bytes) : Nat := if rOp d = 3 then 64 else 4096
def reducePieces (d : Bytes) : Nat := ceilDiv (rCount d) (reduceStep d)

/-- Elements or records `lo` to `lo + n` make piece `k`. -/
def reduceTile (d : Bytes) (k : Nat) : Nat × Nat := (k * reduceStep d, min (reduceStep d) (rCount d - k * reduceStep d))

/-- The part of an input, and of the output, that piece `k` reads and writes. -/
def reduceTileIn (d : Bytes) (k i : Nat) : Opnd :=
  let t := reduceTile d k; (reduceIn d i).sub 0 1 (t.1 * rElem d (rIn d)) (t.2 * rElem d (rIn d))
def reduceTileOut (d : Bytes) (k : Nat) : Opnd :=
  let t := reduceTile d k; (reduceOut d).sub 0 1 (t.1 * rElem d (rOut d)) (t.2 * rElem d (rOut d))
def reduceTileIns (d : Bytes) (k : Nat) : List Opnd := (List.range (rN d)).map (reduceTileIn d k)

/-- The output bytes of `n` elements or records of a REDUCE from its inputs' bytes. -/
def reduceRows (d : Bytes) (n : Nat) (ins : List Bytes) : Bytes × SailNotes :=
  if rOp d = 3 then
    let w := rElem d 0
    let outs := (List.range n).filterMap (fun i =>
      reduceRecs (ins.map (fun b => PRec.parse (rHead d) (slice b (i * w) w))))
    let notes : SailNotes := ⟨outs.any (fun r => (f32 r.m).isNaN || (f32 r.l).isNaN || r.o.any (fun c => (f32 c).isNaN)),
      outs.any (fun r => (f32 r.l).isInf || r.o.any (fun c => (f32 c).isInf)), false, false⟩
    ((outs.map PRec.bytes).flatten, notes)
  else
    let es := (List.range n).map (fun i =>
      if isIntOut (rIn d) then reduceInt d (ins.map (fun b => intAt (rIn d) b i))
      else reduceFloat d (ins.map (fun b => elemAt (rIn d) b [] i)))
    (packCodes (fmtBits (rOut d)) (es.map (fun e => e.1)), es.foldl (fun n e => n.join e.2) SailNotes.none)

/-- The inputs of a REDUCE that its output must not overlap (R63). -/
def reduceApart (d : Bytes) : List Opnd := (reduceIns d).filter (fun o => !(o.base == (reduceOut d).base && (rIn d == rOut d)))

/-- One piece of a REDUCE (R71). -/
def State.doReduce (s : State) (x : Flight) : State :=
  let d := x.desc
  let k := (x.strand 0).piece
  match s.fetch x 0 (reduceTileIns d k) [reduceTileOut d k] ((List.range k).map (reduceTileOut d)) [] with
  | .wait s' => s'
  | .stop s' => s'
  | .go s1 =>
    let r := reduceRows d (reduceTile d k).2 ((reduceTileIns d k).map (fun o => (s.opndRows x.part o).flatten))
    (s1.putRows x (reduceTileOut d k) (s.opndsOverlap x.part [reduceOut d] (reduceApart d)) [r.1]).endPiece x (k + 1 == reducePieces d) 0
      (x.detail ||| r.2.bits (bit (rFlags d) 2))

/-! ### SFU (Table 2.12, R73) -/

def fFunc (d : Bytes) : Nat := byteAt d 32
def fIn (d : Bytes) : Nat := byteAt d 33
def fOut (d : Bytes) : Nat := byteAt d 34
def fFlags (d : Bytes) : Nat := byteAt d 36
def fRows (d : Bytes) : Nat := fieldLe d 40 4
def fCols (d : Bytes) : Nat := fieldLe d 44 4
def fHead (d : Bytes) : Nat := fieldLe d 92 2
def fT0 (d : Bytes) : Nat := byteAt d 94

def sfuX (d : Bytes) : Opnd :=
  ⟨fieldLe d 56 8, fRows d, rowSize (fIn d) (fCols d), fieldLe d 80 4, bit (fFlags d) 1, false⟩
def sfuY (d : Bytes) : Opnd :=
  if fOut d = 0xE then ⟨fieldLe d 64 8 + fT0 d * (fHead d / 2), 1, fRows d * (fHead d / 2), fRows d * (fHead d / 2), false, true⟩
  else ⟨fieldLe d 64 8, fRows d, rowSize (fOut d) (fCols d), fieldLe d 84 4, false, true⟩
def sfuYS (d : Bytes) : Opnd :=
  if fOut d = 0xE then
    ⟨fieldLe d 64 8 + 16 * fHead d + fT0 d * (fHead d / 32), 1, fRows d * (fHead d / 32), fRows d * (fHead d / 32), false, true⟩
  else ⟨fieldLe d 72 8, fRows d, fCols d / 32, fieldLe d 88 4, false, true⟩
def sfuSmooth (d : Bytes) : Opnd := ⟨fieldLe d 96 8, 1, 4 * fHead d, 4 * fHead d, false, false⟩

def sfuIns (d : Bytes) : List Opnd := sfuX d :: (if fOut d = 0xE then [sfuSmooth d] else [])
def sfuOuts (d : Bytes) : List Opnd := sfuY d :: (if isMx (fOut d) || fOut d = 0xE then [sfuYS d] else [])

def sfuReserved (d : Bytes) : Bool :=
  fFlags d / 4 == 0 && allZero (slice d 37 3) && byteAt d 95 == 0 && allZero (slice d 104 24)

/-- The checks of R60 and R72. -/
def sfuFields (d : Bytes) : Bool :=
  let kv := fOut d == 0xE
  let mx := isMx (fOut d)
  decide (fFunc d ≤ 3) && decide (fIn d ≤ 2) && (decide (fOut d ≤ 4) || mx || (kv && fFunc d == 0)) &&
  decide (1 ≤ fRows d) && decide (fRows d ≤ 16777216) && decide (1 ≤ fCols d) && decide (fCols d ≤ 16777216) &&
  (!mx || fCols d % 32 == 0) && (sfuX d).ok && fieldLe d 64 8 % 64 == 0 &&
  (if kv then decide (64 ≤ fHead d) && decide (fHead d ≤ 512) && fHead d % 64 == 0 && fCols d == fHead d &&
      decide (fT0 d ≤ 31) && decide (fRows d ≤ 32 - fT0 d) && fieldLe d 84 4 == 0 && fieldLe d 96 8 % 64 == 0
   else (sfuY d).ok && fHead d == 0 && fT0 d == 0 && fieldLe d 96 8 == 0) &&
  scaleOk mx (fieldLe d 72 8) (fieldLe d 88 4) (fCols d / 32)

/-- The special function (Table 2.6). -/
def sfuFn (f : Nat) (t : FVal) : FVal :=
  match f with
  | 0 => t
  | 1 => exp2 t
  | 2 => rcp t
  | _ => rsqrt t

/-- One element of an SFU descriptor as FP32 (R59, R73). -/
def sfuElem (d : Bytes) (x : FVal) : FVal := sfuFn (fFunc d) (fma32 x (f32 (fieldLe d 48 4)) (f32 (fieldLe d 52 4)))

/-- The element overflows (R53, R59, Table 2.6, Table 2.8): the pre-step of finite operands, or EXP2 or RCP of a finite nonzero t,
goes beyond the FP32 range. [DEDUCED, log 48] -/
def sfuOver (d : Bytes) (x : FVal) : Bool :=
  let a := f32 (fieldLe d 48 4)
  let b := f32 (fieldLe d 52 4)
  let t := fma32 x a b
  (t.isInf && x.isFin && a.isFin && b.isFin) ||
    (List.contains [1, 2] (fFunc d) && t.isFin && !t.isZero && (sfuFn (fFunc d) t).isInf)

/-- A factor of a smoothing vector is a positive normal finite BF16 value (R49). -/
def factorOk (c : Nat) : Bool := !bit c 15 && decide (1 ≤ bits c 14 7) && decide (bits c 14 7 ≤ 254)

/-- The FP32 values y_c of channels `c0` on of one token under a smoothing vector (R51). -/
def kvSmooth (smooth : Bytes) (d c0 : Nat) (xs : List FVal) : List FVal :=
  xs.mapIdx (fun i x =>
    let sc := bf16.decode (fieldLe smooth (2 * (c0 + i)) 2)
    let mu := bf16.decode (fieldLe smooth (2 * d + 2 * (c0 + i)) 2)
    rne32 ((rne32 (sumExact [x, mu.negate])).mul (rcp sc)))

/-- A row quantised in blocks of 32 (R47): scales and packed element data. -/
def mxRow (el : MxElem) (ys : List FVal) : Bytes × Bytes :=
  let bl := (chunks 32 (ys.length / 32 + 1) ys).map (mxQuantise el)
  (bl.map (fun b => BitVec.ofNat 8 b.1), packCodes el.width ((bl.map (fun b => b.2)).flatten))

/-- What a quantised row notes: NaN blocks. -/
def mxNotes (scales : Bytes) : SailNotes := ⟨scales.any (fun b => b == 0xFF), false, false, false⟩

/-- Pieces of an SFU: 4,096 elements each, row after row (R61). -/
def sfuPieces (d : Bytes) : Nat := ceilDiv (fRows d * fCols d) 4096

/-- Row parts of piece `k` of an SFU: (row, first column, columns). -/
def sfuParts (d : Bytes) (k : Nat) : List (Nat × Nat × Nat) :=
  let e0 := 4096 * k
  let e1 := min (e0 + 4096) (fRows d * fCols d)
  let r0 := e0 / fCols d
  (List.range ((e1 - 1) / fCols d + 1 - r0)).map (fun i =>
    let r := r0 + i
    let c0 := e0 - r * fCols d
    (r, c0, min (e1 - r * fCols d) (fCols d) - c0))

/-- The input, the output and the scales of one row part. -/
def sfuPartX (d : Bytes) (q : Nat × Nat × Nat) : Opnd := (sfuX d).cols (fIn d) q.1 1 q.2.1 q.2.2
def sfuPartY (d : Bytes) (q : Nat × Nat × Nat) : Opnd :=
  if fOut d = 0xE then (sfuY d).sub 0 1 (q.1 * (fHead d / 2) + q.2.1 / 2) (q.2.2 / 2)
  else (sfuY d).cols (fOut d) q.1 1 q.2.1 q.2.2
def sfuPartYS (d : Bytes) (q : Nat × Nat × Nat) : Opnd :=
  if fOut d = 0xE then (sfuYS d).sub 0 1 (q.1 * (fHead d / 32) + q.2.1 / 32) (q.2.2 / 32)
  else (sfuYS d).sub q.1 1 (q.2.1 / 32) (q.2.2 / 32)

def sfuTileIns (d : Bytes) (k : Nat) : List Opnd :=
  (sfuParts d k).map (sfuPartX d) ++ (if fOut d = 0xE then [sfuSmooth d] else [])
def sfuTileOuts (d : Bytes) (k : Nat) : List Opnd :=
  (sfuParts d k).map (sfuPartY d) ++ (if isMx (fOut d) || fOut d = 0xE then (sfuParts d k).map (sfuPartYS d) else [])

/-- The data and the scales of one row part from column `c0` on, and what it notes. -/
def sfuRow (d : Bytes) (c0 n : Nat) (x smooth : Bytes) : Bytes × Bytes × SailNotes :=
  let ins := (List.range n).map (fun i => elemAt (fIn d) x [] i)
  let row := ins.map (sfuElem d)
  let spill : SailNotes := ⟨false, false, ins.any (sfuOver d), false⟩
  match mxElem (fOut d) with
  | some el =>
    let q := mxRow el (if fOut d = 0xE then kvSmooth smooth (fHead d) c0 row else row)
    (q.2, q.1, spill.join (mxNotes q.1))
  | none =>
    let f := (fltFmt (fOut d)).getD fp32
    let os := row.map (fun v => convertOut f (bit (fFlags d) 0) v)
    (packCodes f.width (os.map (fun o => o.1)), [],
      os.foldl (fun n o => n.join ⟨(f.decode o.1).isNaN, (f.decode o.1).isInf, o.2, false⟩) spill)

/-- The inputs of an SFU that its outputs must not overlap (R63). -/
def sfuApart (d : Bytes) : List Opnd :=
  let inPlace := fieldLe d 64 8 == fieldLe d 56 8 && fieldLe d 84 4 == fieldLe d 80 4 && fOut d == fIn d
  (if inPlace then [] else [sfuX d]) ++ (if fOut d = 0xE then [sfuSmooth d] else [])

/-- One piece of an SFU (R73). -/
def State.doSfu (s : State) (x : Flight) : State :=
  let d := x.desc
  let p := x.part
  let k := (x.strand 0).piece
  match s.fetch x 0 (sfuTileIns d k) (sfuTileOuts d k) (((List.range k).map (sfuTileOuts d)).flatten) [] with
  | .wait s' => s'
  | .stop s' => s'
  | .go s1 =>
    let smooth := if fOut d = 0xE then (s.opndRows p (sfuSmooth d)).flatten else []
    let rs := (sfuParts d k).map (fun q => (q, sfuRow d q.2.1 q.2.2 ((s.opndRows p (sfuPartX d q)).flatten) smooth))
    let undef := s.opndsOverlap p (sfuOuts d) (sfuApart d)
    let s2 := rs.foldl (fun s r =>
      let s := s.putRows x (sfuPartY d r.1) undef [r.2.1]
      if isMx (fOut d) || fOut d = 0xE then s.putRows x (sfuPartYS d r.1) undef [r.2.2.1] else s) s1
    let notes := rs.foldl (fun n r => n.join r.2.2.2) SailNotes.none
    s2.endPiece x (k + 1 == sfuPieces d) 0 (x.detail ||| notes.bits (bit (fFlags d) 1))

/-! ### Checks of class 0x2 opcodes 0x0001, 0x0003 to 0x0005 (R60, R337) -/

/-- The operands of a Sail descriptor. -/
def sailOpnds (d : Bytes) : List Opnd :=
  match dOpcode d with
  | 1 => gemmIns d ++ [gemmD d]
  | 3 => scanIns d ++ [scanOut d]
  | 4 => reduceIns d ++ [reduceOut d]
  | _ => sfuIns d ++ sfuOuts d

def sailReserved (d : Bytes) : Bool :=
  match dOpcode d with
  | 1 => gemmReserved d
  | 3 => scanReserved d
  | 4 => reduceReserved d
  | _ => sfuReserved d

def sailFields (d : Bytes) : Bool :=
  match dOpcode d with
  | 1 => gemmFields d
  | 3 => scanFields d
  | 4 => reduceFields d
  | _ => sfuFields d

/-- The engine field's place: byte 36 in GEMM, byte 35 in the others. -/
def sailEngine (d : Bytes) : Nat := if dOpcode d = 1 then byteAt d 36 else byteAt d 35

/-- The checks that need no translation. -/
def State.sailStatic (s : State) (p : Nat) (d : Bytes) : Nat :=
  firstStatus [(dSpeculative d || dPencil d, 6), (!engineOk (sailEngine d), 6), (!sailFields d, 6),
    (!(sailOpnds d).all (opndCovered (s.chkWindows p)), 6)]

/-- The ranges a Sail descriptor touches. -/
def sailRanges (ws : List ChkWindow) (d : Bytes) : List Range := ((sailOpnds d).map (opndRanges ws)).flatten

/-- Pieces of a Sail descriptor (R61). -/
def sailCount (d : Bytes) : Nat :=
  match dOpcode d with
  | 1 => gemmPieces d
  | 3 => scanPieces d
  | 4 => reducePieces d
  | _ => sfuPieces d

/-- The operands of piece `k` of a Sail descriptor. -/
def sailTileOpnds (d : Bytes) (k : Nat) : List Opnd :=
  match dOpcode d with
  | 1 => gemmTileIns d k ++ [gemmTileD d k]
  | 3 => scanTileIns d k ++ scanTileOuts d k
  | 4 => reduceTileIns d k ++ [reduceTileOut d k]
  | _ => sfuTileIns d k ++ sfuTileOuts d k

/-- The ranges of piece `k` of a Sail descriptor (R336). -/
def sailPiece (ws : List ChkWindow) (d : Bytes) (k : Nat) : List Range := ((sailTileOpnds d k).map (opndRanges ws)).flatten

/-! ### The commands -/

/-- One hardware fault that the engine of strand `j` meets in flight `x` (R40, R75). [DEDUCED, log 48] -/
def State.sailFault (s : State) (x : Flight) (j : Nat) (e : SailFault) : State :=
  let n := (x.strand j).unit
  if bit s.sail.fenced n then s
  else
    let upd (g : Engine → Engine) (s : State) : State :=
      { s with sail := { s.sail with engines := SMap.upd {} s.sail.engines n g } }
    let fence (cause : Nat) (s : State) : State :=
      ({ s with sail := { s.sail with fenced := s.sail.fenced ||| 2 ^ n } }).post 0x3003 2 0xFF (0x2000 + n) (detail [(1, cause)])
    match e with
    | .corrected => upd (fun y => { y with corrected := satAdd 0xFFFF y.corrected 1 }) s
    | .fails => fence 1 s
    | .recomputed =>
      let c := satAdd 0xFFFF (SMap.get {} s.sail.engines n : Engine).residue 1
      let s := (upd (fun y => { y with residue := c }) s).post 0x3002 1 x.part (0x2000 + n)
        (detail [(8, dTag x.desc), (4, (x.strand j).piece), (2, c)])
      if 16 ≤ c then fence 2 s else s

/-- The piece of strand `j` of flight `x` with the hardware faults its engine meets: a tile whose check fails is never written, and the
fence of the engine ends the descriptor with status 0x08 (R75). -/
def State.sailWork (s : State) (x : Flight) (j : Nat) (es : List SailFault) (work : State → State) : State :=
  let s' := es.foldl (fun s e => s.sailFault x j e) s
  if s'.sail.fenced = s.sail.fenced then work s' else s'.stopWork x j 8 x.detail

/-- GEMM (R65): one piece of the flight's work, once it runs with its pages pinned. -/
def execGemm (f : Nat) (e : List SailFault) (s : State) : Host.Outcome State Fault Refusal :=
  match s.working f 0 0x20001 with
  | some x => .next (s.sailWork x 0 e (fun s => s.doGemm x))
  | none => .next s

/-- SCAN (R67). -/
def execScan (f : Nat) (e : List SailFault) (s : State) : Host.Outcome State Fault Refusal :=
  match s.working f 0 0x20003 with
  | some x => .next (s.sailWork x 0 e (fun s => s.doScan x))
  | none => .next s

/-- REDUCE (R71). -/
def execReduce (f : Nat) (e : List SailFault) (s : State) : Host.Outcome State Fault Refusal :=
  match s.working f 0 0x20004 with
  | some x => .next (s.sailWork x 0 e (fun s => s.doReduce x))
  | none => .next s

/-- SFU (R73). -/
def execSfu (f : Nat) (e : List SailFault) (s : State) : Host.Outcome State Fault Refusal :=
  match s.working f 0 0x20005 with
  | some x => .next (s.sailWork x 0 e (fun s => s.doSfu x))
  | none => .next s

end Sys2Proof.Machine
end

