-- ==== Sys2Proof/Machine/Attend.lean ====
section
/-! DEFINITION. Sequence slots, KV pages and attention: SLOT_OPEN, SLOT_CLOSE, KV_WRITE, KV_SETTLE and ATTEND (R78 to R112,
03_attention_service.md). -/

namespace Sys2Proof.Machine

/-! ### The slot record (Table 3.2) -/

def recFmt (r : Bytes) : Nat := byteAt r 1
def recT (r : Bytes) : Nat := 32 * 2 ^ byteAt r 2
def recLayers (r : Bytes) : Nat := fieldLe r 4 2
def recH (r : Bytes) : Nat := fieldLe r 6 2
def recD (r : Bytes) : Nat := fieldLe r 8 2
def recMax (r : Bytes) : Nat := fieldLe r 16 4
def recDir (r : Bytes) : Nat := fieldLe r 24 8
def recSmooth (r : Bytes) : Nat := fieldLe r 32 8

/-- The element of the cache format. -/
def recElem (r : Bytes) : MxElem := (mxElem (recFmt r)).getD (.flt e2m1)

/-- Pages per layer (R87). -/
def recPages (r : Bytes) : Nat := ceilDiv (recMax r) (recT r)

/-- Bytes of the page directory and of the smoothing vectors (R82). -/
def recDirLen (r : Bytes) : Nat := recLayers r * recPages r * 8
def recSmoothLen (r : Bytes) : Nat := recLayers r * recH r * 8 * recD r

/-- Bytes of one token's element data and scales in a tile (R89). -/
def tokData (r : Bytes) : Nat := recD r * (recElem r).width / 8
def tokScale (r : Bytes) : Nat := recD r / 32

/-- Bytes of one tile (R89). -/
def tileBytes (r : Bytes) : Nat := 32 * tokData r + recD r

/-- Bytes of one page (R89). -/
def pageBytes (r : Bytes) : Nat := 64 + recH r * (recT r / 32) * 2 * tileBytes r

/-- The byte offset in a page of the key tile (or, `value`, the value tile) j of head h (R89). -/
def tileOff (r : Bytes) (h j : Nat) (value : Bool) : Nat :=
  64 + (h * (recT r / 32) + j) * 2 * tileBytes r + (if value then tileBytes r else 0)

/-- Byte offset of the first failing field of a slot record, for a descriptor of partition `p` (R82). -/
def recordFail (p : Nat) (r : Bytes) : Option Nat :=
  let fmtOk := [0xE, 0xC, 0xA, 0xB, 8, 9].contains (recFmt r)
  let g := recG r
  firstFail ([
    (0, byteAt r 0 == 1), (1, fmtOk), (2, decide (1 ≤ byteAt r 2) && decide (byteAt r 2 ≤ 6)),
    (3, decide (1 ≤ g) && decide (g ≤ 32)), (4, decide (1 ≤ recLayers r) && decide (recLayers r ≤ 1024)),
    (6, decide (1 ≤ recH r) && decide (recH r ≤ 256)),
    (8, decide (64 ≤ recD r) && decide (recD r ≤ 512) && recD r % 64 == 0 && decide (recH r * recD r ≤ 8192)),
    (10, byteAt r 10 == p), (11, allZero (slice r 11 5)),
    (16, decide (1 ≤ recMax r) && decide (recMax r ≤ 16777216)), (20, fieldLe r 20 4 == 0),
    (24, recDir r % 64 == 0),
    (32, if recFmt r = 0xE then recSmooth r % 64 == 0 else recSmooth r == 0),
    (40, allZero (slice r 40 24))] ++
    (List.range 32).map (fun j => (64 + j,
      if j < g then decide (recGroup r j < 32) && !((List.range j).any (fun i => recGroup r i == recGroup r j))
      else recGroup r j == 0xFF)) ++
    [(96, allZero (slice r 96 160))])

/-- The address checks of a slot's metadata (R82): one view and no donated slab, else 0x06; the KV region of another
partition 0x03; a sealed region not bound to `p` 0x0A. -/
def State.metaStatus (s : State) (p a n : Nat) : Nat :=
  firstStatus [
    (a % 64 != 0 || !backed a n || s.meetsHole a n, 6),
    ((List.range 16).any (fun q => q != p && s.meetsKvr q a n), 3),
    ((slabsOf a n).any (fun i => match s.regionOfSlab i with
      | some r => !(r.state == 1 && r.partition == p)
      | none => false), 0xA)]

/-! ### Slots -/

/-- Change slot `i`. -/
def State.updSlot (s : State) (i : Nat) (f : Slot → Slot) : State :=
  { s with sail := { s.sail with slots := SMap.upd {} s.sail.slots i f } }

/-- Whether a class 0x2 descriptor names a slot (Table 3.1, ATTEND). -/
def namesSlot (d : Bytes) : Bool := dClass d == 2 && [2, 6, 7, 8, 9].contains (dOpcode d)

/-- The slot is open or closing under another partition. -/
def State.slotForeign (s : State) (p i : Nat) : Bool := (s.slot i).state != 0 && (s.slot i).partition != p

/-- SAIL.SLOT_LEN's layout (Table 3.14): the completion detail of KV_WRITE and KV_SETTLE (R95). -/
def Slot.lenWord (x : Slot) : Nat := x.pencil * 2 ^ 32 + x.len

/-! ### SLOT_OPEN (R80, R82, R83) -/

/-- The device memory address of the slot record. -/
def openAddr (d : Bytes) : Nat := fieldLe d 40 8

def openReserved (d : Bytes) : Bool := allZero (slice d 34 6) && allZero (slice d 48 16)

/-- The check of the record's own address at admission, after that of the slot: status and detail (R82). -/
def State.openStatic (s : State) (p : Nat) (d : Bytes) : Nat × Nat :=
  let st := s.metaStatus p (openAddr d) 256
  if st = 0 then (0, 0) else if (s.slot (dSlot d)).state ≠ 0 then (6, 0xFF * 2 ^ 56) else (st, 0xFE * 2 ^ 56)

/-- The checks of a record that has been read: status and the byte offset for the detail (R82). -/
def State.openChecks (s : State) (p slot : Nat) (r : Bytes) : Nat × Nat :=
  if (s.slot slot).state ≠ 0 then (6, 0xFF)
  else match recordFail p r with
    | some o => (6, o)
    | none =>
      let dir := s.metaStatus p (recDir r) (recDirLen r)
      let smooth := if recFmt r = 0xE then s.metaStatus p (recSmooth r) (recSmoothLen r) else 0
      if dir ≠ 0 then (dir, 24)
      else if smooth ≠ 0 then (smooth, 32)
      else match (List.range (recG r)).find? (fun j => (s.group (recGroup r j)).state == 5) with
        | some j => (6, 64 + j)
        | none =>
          match (List.range (recG r)).find? (fun j => !s.ownsEngine p (recGroup r j)) with
          | some j => (6, 64 + j)
          | none => (0, 0)

/-- SLOT_OPEN (R82, R83): the record is read and checked in the Run phase; the slot opens in its Settle phase. -/
def State.doSlotOpen (s : State) (x : Flight) : State :=
  let a := openAddr x.desc
  let reads := [(Place.dev a, 256)]
  match s.access x 0 reads [] with
  | .wait s' => s'
  | .go s0 =>
    let bs := s0.readLinesOf reads
    if poisoned bs then (s0.consume x.part 0xFFFF (dTag x.desc) reads 3).took reads
    else
      let c := s0.openChecks x.part (dSlot x.desc) (plain bs)
      ((s0.took reads).endFlight x.id c.1 (c.2 * 2 ^ 56)).updFlight x.id (fun y => { y with blob := plain bs })

/-- A SLOT_OPEN takes effect in step 1 of its Settle phase (R83). -/
def State.commitOpen (s : State) (x : Flight) : State :=
  if x.status ≠ 0 then s
  else if (s.slot (dSlot x.desc)).state ≠ 0 then
    s.updFlight x.id (fun y => { y with status := 6, detail := 0xFF * 2 ^ 56 })
  else
    let g := (s.sail.generation + 1) % 2 ^ 32
    let s := { s with sail := { s.sail with generation := g } }
    s.updSlot (dSlot x.desc) (fun _ =>
      { state := 1, generation := g, partition := x.part, len := 0, pencil := 0, record := x.blob, moved := [] })

/-! ### SLOT_CLOSE (R84) -/

def closeReserved (d : Bytes) : Bool := allZero (slice d 34 30)

/-- The admission checks of SLOT_CLOSE (R84). -/
def State.closeStatic (s : State) (p : Nat) (d : Bytes) : Nat :=
  firstStatus [(s.slotForeign p (dSlot d), 3), ((s.slot (dSlot d)).state != 1, 6)]

/-- No descriptor that names the slot and was admitted before the SLOT_CLOSE `x` is in flight (R84). [DESIGN CHOICE, log 50] -/
def State.closeDue (s : State) (x : Flight) : Bool :=
  s.work.flights.all (fun y => !(namesSlot y.desc && dSlot y.desc == dSlot x.desc && decide (y.id < x.id)))

/-- SLOT_CLOSE (R84): its slot has been closing since admission; it completes in the first Settle phase that leaves no
earlier descriptor naming the slot in flight. -/
def State.doSlotClose (s : State) (x : Flight) : State :=
  s.updFlight x.id (fun y => { y with worked := true, state := .running s.tick.count })

/-! ### KV_SETTLE (R94) -/

def settleReserved (d : Bytes) : Bool := allZero (slice d 34 2) && allZero (slice d 40 24)

/-- The admission checks of KV_SETTLE (R94). -/
def State.settleStatic (s : State) (p : Nat) (d : Bytes) : Nat :=
  firstStatus [(s.slotForeign p (dSlot d), 3), ((s.slot (dSlot d)).state != 1, 6)]

/-- A KV_SETTLE is applied in step 1 of its Settle phase (R94); its detail holds L and P as they then stand (R95). -/
def State.commitSettle (s : State) (x : Flight) : State :=
  let i := dSlot x.desc
  let a := fieldLe x.desc 36 4
  let sl := s.slot i
  if sl.pencil < a then s.updFlight x.id (fun y => { y with status := 6, detail := sl.lenWord })
  else
    let sl' := { sl with len := sl.len + a, pencil := 0 }
    (s.updSlot i (fun _ => sl')).updFlight x.id (fun y => { y with status := 0, detail := sl'.lenWord })

/-! ### KV_WRITE (R91 to R93) -/

def kLayer (d : Bytes) : Nat := fieldLe d 34 2
def kN (d : Bytes) : Nat := fieldLe d 36 2
def kSrc (d : Bytes) : Nat := byteAt d 38
def kPos (d : Bytes) : Nat := fieldLe d 40 4

/-- The key source and the value source of a KV_WRITE under a slot record (Table 3.5). -/
def kvSrc (d r : Bytes) (value : Bool) : Opnd :=
  let row := rowSize (kSrc d) (recH r * recD r)
  if value then ⟨fieldLe d 56 8, kN d, row, fieldLe d 68 4, bit (byteAt d 39) 1, false⟩
  else ⟨fieldLe d 48 8, kN d, row, fieldLe d 64 4, bit (byteAt d 39) 0, false⟩

def kvwReserved (d : Bytes) : Bool :=
  byteAt d 39 / 4 == 0 && fieldLe d 44 4 == 0 && allZero (slice d 72 56)

/-- The admission checks of KV_WRITE (R91). -/
def State.kvwStatic (s : State) (p : Nat) (d : Bytes) : Nat :=
  let sl := s.slot (dSlot d)
  let r := sl.record
  firstStatus [
    (s.slotForeign p (dSlot d), 3), (sl.state != 1, 6), (decide (1 < kSrc d), 6), (decide (recLayers r ≤ kLayer d), 6),
    (kN d == 0 || decide (2048 < kN d), 6), (decide (recT r < kPos d % recT r + kN d), 6),
    (decide (recMax r < kPos d + kN d), 6), (decide (kPos d < sl.len), 6),
    (decide (2097152 < kN d * 2 * recH r * (tokData r + tokScale r)), 6),
    (!(opndCovered (s.chkWindows p) (kvSrc d r false) && opndCovered (s.chkWindows p) (kvSrc d r true)), 6)]

/-- The part (list position) of a page (R88). -/
def partOf (r : Bytes) (page layer : Nat) : Nat := (page + layer) % recG r

/-- The smoothing vectors of layer l, heads h to h + n, keys before values in each; none but for KVS4 (R90). -/
def smoothPlaces (r : Bytes) (l h n : Nat) : List (Place × Nat) :=
  if recFmt r = 0xE then [(.dev (recSmooth r + (l * recH r + h) * 8 * recD r), n * 8 * recD r)] else []

/-- The key or value vector of the i-th head of `smoothPlaces`. -/
def smoothOf (r sm : Bytes) (i : Nat) (value : Bool) : Bytes :=
  slice sm (i * 8 * recD r + (if value then 4 * recD r else 0)) (4 * recD r)

/-- One token of one head quantised: element data then scales (R92). -/
def kvToken (r smooth : Bytes) (xs : List FVal) : Bytes :=
  let q := mxRow (recElem r) (if recFmt r = 0xE then kvSmooth smooth (recD r) 0 xs else xs)
  q.2 ++ q.1

/-- The tokens of a KV_WRITE quantised, token by token and head by head, keys before values (R92). -/
def kvTokens (d r sm : Bytes) (ks vs : List Bytes) : Bytes :=
  let head (row : Bytes) (h : Nat) := (List.range (recD r)).map (fun c => elemAt (kSrc d) row [] (h * recD r + c))
  ((List.range (kN d)).map (fun t => ((List.range (recH r)).map (fun h =>
    kvToken r (smoothOf r sm h false) (head (ks.getD t []) h) ++
      kvToken r (smoothOf r sm h true) (head (vs.getD t []) h))).flatten)).flatten

/-- Metadata that a piece read beside its operands was uncorrectable: consumed (R275). -/
def State.metaBad (s0 s1 : State) (x : Flight) (j : Nat) (places : List (Place × Nat)) : Option State :=
  if poisoned (s0.readLinesOf places) then some (s1.consume x.part (x.unitId j) (dTag x.desc) places 3) else none

/-- KV_WRITE (R92): the sources are read and every token of every head is quantised privately. -/
def State.doKvWrite (s : State) (x : Flight) : State :=
  let d := x.desc
  let r := (s.slot (dSlot d)).record
  let ko := kvSrc d r false
  let vo := kvSrc d r true
  let sm := smoothPlaces r (kLayer d) 0 (recH r)
  match s.fetch x 0 [ko, vo] [] [] sm with
  | .wait s' => s'
  | .stop s' => s'
  | .go s1 =>
    match s.metaBad s1 x 0 sm with
    | some s' => s'
    | none =>
      (s1.workDone x.id 0 0).updFlight x.id (fun y => { y with
        blob := kvTokens d r (plain (s.readPlaces sm)) (s.opndRows x.part ko) (s.opndRows x.part vo) })

/-- The directory entry of page i of layer l (R87, Table 3.3): the page's address if the entry is valid. -/
def State.pageEntry (s : State) (r : Bytes) (l i : Nat) : Option Nat :=
  let e := leNat (plain (s.readDev (recDir r + (l * recPages r + i) * 8) 8))
  if bit e 0 then some (bits e 56 6 * 64) else none

/-- A device memory range lies wholly in setting group `n`: one byte of every setting it meets does. -/
def inGroup (a n g : Nat) : Bool :=
  backed a n && (runsOf a n).all (fun r => match storageOf r.1 with
    | some k => groupOf k == g
    | none => false)

/-- The group of list position j has been mapped out since the slot opened, or it is being evacuated now (R92, R102, R291). -/
def State.groupMoved (s : State) (sl : Slot) (j : Nat) : Bool :=
  sl.moved.contains j || (s.group (recGroup sl.record j)).state == 4

/-- The placement check of a page (R88, R102): wholly in the partition's KV region, and wholly in its part's group unless
that group has been mapped out since the slot opened. -/
def State.placed (s : State) (sl : Slot) (j a : Nat) : Bool :=
  let b := SMap.get 0 s.sail.kvrBase sl.partition
  let l := SMap.get 0 s.sail.kvrLimit sl.partition
  within a (pageBytes sl.record) b (l - b) && (s.groupMoved sl j || inGroup a (pageBytes sl.record) (recGroup sl.record j))

/-- The page header (Table 3.4). -/
def pageHeader (slot gen layer page mark : Nat) : Bytes :=
  natLe 1 1 ++ [0] ++ natLe 2 slot ++ natLe 4 gen ++ natLe 2 layer ++ natLe 2 mark ++ natLe 4 page ++ zeros 48

/-- A header matches a slot for a page (R89). -/
def headerMatches (h : Bytes) (slot gen layer page : Nat) : Bool :=
  fieldLe h 2 2 == slot && fieldLe h 4 4 == gen && fieldLe h 8 2 == layer && fieldLe h 12 4 == page

/-- The in-page mark of a header. -/
def headerMark (h : Bytes) : Nat := fieldLe h 10 2

/-- The writes of a KV_WRITE's tokens into their page: (offset in the page, bytes) (R89). -/
def kvStores (r blob : Bytes) (o n : Nat) : List (Nat × Bytes) :=
  let u := tokData r + tokScale r
  ((List.range n).map (fun t => ((List.range (recH r)).map (fun h =>
    let at0 := (t * recH r + h) * 2 * u
    let one (v : Bool) (off : Nat) : List (Nat × Bytes) :=
      let base := tileOff r h ((o + t) / 32) v
      [(base + (o + t) % 32 * tokData r, slice blob off (tokData r)),
       (base + 32 * tokData r + (o + t) % 32 * tokScale r, slice blob (off + tokData r) (tokScale r))]
    one false at0 ++ one true (at0 + u))).flatten)).flatten

/-- A KV_WRITE is applied in step 2 of its Settle phase (R93). -/
def State.commitKvWrite (s : State) (x : Flight) : State :=
  if x.status ≠ 0 then s
  else
    let d := x.desc
    let i := dSlot d
    let sl := s.slot i
    let r := sl.record
    let page := kPos d / recT r
    let o := kPos d % recT r
    let j := partOf r page (kLayer d)
    let fin (s : State) (st : Nat) := s.updFlight x.id (fun y => { y with status := st, detail := (s.slot i).lenWord })
    if kPos d < sl.len then fin s 0xB
    else match s.pageEntry r (kLayer d) page with
      | none => fin s 6
      | some a =>
        if !s.placed sl j a then
          fin (s.post 0x3011 2 sl.partition (x.unitId 0)
            (detail [(8, dTag d), (2, i), (2, kLayer d), (4, page), (8, a)])) 6
        else
          let h := plain (s.readDev a 64)
          if o ≠ 0 ∧ ¬ (headerMatches h i sl.generation (kLayer d) page ∧ o ≤ headerMark h) then fin s 6
          else if 4095 < kPos d + kN d - sl.len then fin s 6
          else
            let s := (kvStores r x.blob o (kN d)).foldl (fun s w => s.writeDev (a + w.1) (clean w.2) x.part) s
            let s := s.writeDev a (clean (pageHeader i sl.generation (kLayer d) page (o + kN d))) x.part
            fin (s.updSlot i (fun y => { y with pencil := max y.pencil (kPos d + kN d - y.len) })) 0

/-! ### ATTEND (R100 to R112) -/

def aLayer (d : Bytes) : Nat := fieldLe d 34 2
def aHead (d : Bytes) : Nat := fieldLe d 36 2
def aHeads (d : Bytes) : Nat := fieldLe d 38 2
def aQFmt (d : Bytes) : Nat := byteAt d 40
def aPFmt (d : Bytes) : Nat := byteAt d 41
def aG (d : Bytes) : Nat := byteAt d 42
def aNpos (d : Bytes) : Nat := byteAt d 43
def aMode (d : Bytes) : Nat := byteAt d 44
def aOutFmt (d : Bytes) : Nat := byteAt d 45
def aFlags (d : Bytes) : Nat := byteAt d 46
def aPos (d : Bytes) : Nat := fieldLe d 48 4
def aWindow (d : Bytes) : Nat := fieldLe d 52 4
def aScale (d : Bytes) : Nat := fieldLe d 56 4
def aFirst (d : Bytes) : Nat := fieldLe d 64 4
def aLimit (d : Bytes) : Nat := fieldLe d 68 4
def aQ (d : Bytes) : Nat := aG d * aNpos d
def aReduction (d : Bytes) : Nat := fieldLe d 112 2
def aDest (d : Bytes) : Nat := fieldLe d 114 2

/-- Bytes of one partial record and of one part's carry area (R107, R111). -/
def recBytes (r : Bytes) : Nat := 4 * recD r + 64
def carryBytes (d r : Bytes) : Nat := 64 + aHeads d * aQ d * recBytes r

/-- The queries. -/
def attQ (d r : Bytes) : Opnd :=
  ⟨fieldLe d 72 8, aHeads d * aQ d, rowSize (aQFmt d) (recD r), fieldLe d 104 4, bit (aFlags d) 2, false⟩

/-- The output, none in out_mode 2. -/
def attOut (d r : Bytes) : List Opnd :=
  match aMode d with
  | 0 => let n := recG r * aHeads d * aQ d * recBytes r; [⟨fieldLe d 80 8, 1, n, n, false, true⟩]
  | 1 => [⟨fieldLe d 80 8, aHeads d * aQ d, rowSize (aOutFmt d) (recD r), fieldLe d 108 4, false, true⟩]
  | _ => []

/-- The carry areas. -/
def attCarry (d r : Bytes) (out : Bool) : List Opnd :=
  let n := recG r * carryBytes d r
  if out then (if bit (aFlags d) 1 then [⟨fieldLe d 96 8, 1, n, n, false, true⟩] else [])
  else (if bit (aFlags d) 0 then [⟨fieldLe d 88 8, 1, n, n, false, false⟩] else [])

def attReserved (d : Bytes) : Bool :=
  aFlags d / 8 == 0 && byteAt d 47 == 0 && fieldLe d 60 4 == 0 && allZero (slice d 116 140)

/-- The admission checks of ATTEND that need no translation (R60, R97, R101); `reduction g` says whether the partition's
loaded schedule declares reduction_id with g inputs and that output tile (R101, R198). -/
def State.attStatic (s : State) (p : Nat) (d : Bytes) (reduction : Nat → Bool) : Nat :=
  let sl := s.slot (dSlot d)
  let r := sl.record
  let carry := bit (aFlags d) 0 || bit (aFlags d) 1
  let zeroUnless (c : Bool) (off n : Nat) := c || fieldLe d off n == 0
  firstStatus [
    (s.slotForeign p (dSlot d), 3), (sl.state != 1, 6),
    (dSpeculative d && decide (2 ≤ aMode d), 6),
    (decide (recLayers r ≤ aLayer d), 6), (aHeads d == 0 || decide (recH r < aHead d + aHeads d), 6),
    (!(aQFmt d == 1 || aQFmt d == 3) || !(aPFmt d == 1 || aPFmt d == 3), 6),
    (aG d == 0 || decide (128 < aG d) || aNpos d == 0 || decide (128 < aNpos d) || decide (128 < aQ d), 6),
    (decide (2 < aMode d) || (if aMode d = 1 then decide (2 < aOutFmt d) else aOutFmt d != 0), 6),
    (decide (2097152 < aHeads d * aQ d * (4 * recD r + 64)), 6),
    (carry && (aFirst d % 64 != 0 || aLimit d % 64 != 0), 6),
    (bit (aFlags d) 0 && fieldLe d 88 8 == 0 || bit (aFlags d) 1 && fieldLe d 96 8 == 0, 6),
    (!(zeroUnless (bit (aFlags d) 0) 88 8 && zeroUnless (bit (aFlags d) 1) 96 8 && zeroUnless (aMode d == 1) 108 4 &&
      zeroUnless (aMode d != 2) 80 8 && zeroUnless (aMode d == 2) 112 2 && zeroUnless (aMode d == 2) 114 2), 6),
    (!((attQ d r).ok && fieldLe d 80 8 % 64 == 0 && fieldLe d 88 8 % 64 == 0 && fieldLe d 96 8 % 64 == 0), 6),
    (aMode d == 1 && !(match attOut d r with
      | o :: _ => o.ok
      | [] => true), 6),
    (aMode d == 2 && !reduction (recG r), 6),
    (!opndCovered (s.chkWindows p) (attQ d r), 6)]

/-- The translated operands of an ATTEND. -/
def attOpnds (d r : Bytes) : List Opnd := [attQ d r] ++ attOut d r ++ attCarry d r false ++ attCarry d r true

/-- One page as an ATTEND finds it. -/
structure PageView where
  page : Nat
  addr : Nat
  mark : Nat
  /-- Why its positions are unseen: 1 invalid entry, 2 header mismatch; 0: they are seen up to the mark. -/
  cause : Nat
  placed : Bool
  deriving DecidableEq, Repr

/-- Row r at position pos_base + jp may see position t under the first four conditions of R104. -/
def attSees (d : Bytes) (hz jp t : Nat) : Bool :=
  decide (aFirst d ≤ t) && decide (t < hz) && (aLimit d == 0 || decide (t < aLimit d)) && decide (t ≤ aPos d + jp) &&
  (aWindow d == 0 || decide (aPos d + jp + 1 ≤ t + aWindow d))

/-- The positions that some row of the descriptor could see under the first four conditions of R104: from the first to one past the
last. -/
def attSpan (d : Bytes) (hz : Nat) : Nat × Nat :=
  let top := min hz (aPos d + aNpos d)
  (if aWindow d = 0 then aFirst d else max (aFirst d) (aPos d + 1 - aWindow d), if aLimit d = 0 then top else min top (aLimit d))

/-- The pages of part j that hold such a position (R104). -/
def attPages (d r : Bytes) (hz j : Nat) : List Nat :=
  let w := attSpan d hz
  if w.2 ≤ w.1 then []
  else ((List.range ((w.2 - 1) / recT r + 1 - w.1 / recT r)).map (fun i => w.1 / recT r + i)).filter (fun i =>
    partOf r i (aLayer d) == j)

/-- The in-page offsets that some row sees of a page: from the first to one past the last (R104). -/
def PageView.seen (v : PageView) (d r : Bytes) (hz : Nat) : Nat × Nat :=
  let w := attSpan d hz
  if v.cause == 0 && v.placed then (w.1 - v.page * recT r, min (w.2 - v.page * recT r) (min v.mark (recT r))) else (0, 0)

/-- What a part reads of a page: its directory entry, its header, and of each head's tiles the data and the scales of the tokens that
some row sees; of a page that is misplaced, the entry only, and of one whose header does not match, no token (R95, R98, R104). -/
def PageView.places (v : PageView) (d r : Bytes) (hz : Nat) : List (Place × Nat) :=
  let w := v.seen d r hz
  let tile (h t : Nat) (value : Bool) : List (Place × Nat) :=
    let a := max w.1 (32 * t) - 32 * t
    let b := min w.2 (32 * t + 32) - 32 * t
    let base := v.addr + tileOff r h t value
    if b ≤ a then []
    else [(.dev (base + a * tokData r), (b - a) * tokData r),
          (.dev (base + 32 * tokData r + a * tokScale r), (b - a) * tokScale r)]
  let entry := (Place.dev (recDir r + (aLayer d * recPages r + v.page) * 8), 8)
  if !v.placed || v.cause == 1 then [entry]
  else [entry, (.dev v.addr, 64)] ++ ((List.range (aHeads d)).map (fun i => ((List.range (recT r / 32)).map (fun t =>
    tile (aHead d + i) t false ++ tile (aHead d + i) t true)).flatten)).flatten

/-- A page as it stands in memory. -/
def State.pageView (s : State) (slot : Nat) (d : Bytes) (j i : Nat) : PageView :=
  let sl := s.slot slot
  match s.pageEntry sl.record (aLayer d) i with
  | none => ⟨i, 0, 0, 1, true⟩
  | some a =>
    if !s.placed sl j a then ⟨i, a, 0, 0, false⟩
    else
      let h := plain (s.readDev a 64)
      if headerMatches h slot sl.generation (aLayer d) i then ⟨i, a, headerMark h, 0, true⟩ else ⟨i, a, 0, 2, true⟩

/-- The running state of a row (R105). -/
structure RowAcc where
  m : FVal
  l : FVal
  o : List FVal
  count : Nat
  deriving DecidableEq, Repr

/-- The empty state a part starts a row from (R105). -/
def RowAcc.empty (d : Nat) : RowAcc := ⟨.inf true, .fin false 0 0, List.replicate d (.fin false 0 0), 0⟩

/-- One block of 64 positions (R105): the scores and value rows of the positions the row sees. [DEDUCED, log 119] -/
def attBlock (pf : FFmt) (a : RowAcc) (seen : List (FVal × List FVal)) : RowAcc :=
  match seen with
  | [] => a
  | _ =>
    let mn := seen.foldl (fun m x => m.max71 x.1) a.m
    let al : FVal := if a.m = .inf true then .fin false 0 0 else exp2 (rne32 (sumExact [a.m, mn.negate]))
    let ps := seen.map (fun x =>
      if x.1 = .inf true then FVal.fin false 0 0
      else pf.decode (pf.convert true (exp2 (rne32 (sumExact [x.1, mn.negate])))).1)
    ⟨mn, rne32 (sumExact (al.mul a.l :: ps)),
      a.o.mapIdx (fun c oc => rne32 (sumExact (al.mul oc :: (List.zipWith (fun p x => p.mul (x.2.getD c .nan)) ps seen)))),
      satAdd max32 a.count seen.length⟩

/-- A smoothing factor of the 32-channel block of channel c is not a positive normal finite BF16 value (R49). -/
def smoothBad (smooth : Bytes) (c : Nat) : Bool :=
  (List.range 32).any (fun i => !factorOk (fieldLe smooth (2 * (c / 32 * 32 + i)) 2))

/-- The MX values of one token of one head in a page (R105): keys or values. -/
def State.kvValues (s : State) (r : Bytes) (a h off : Nat) (value : Bool) (smooth : Bytes) : List FVal :=
  let base := a + tileOff r h (off / 32) value
  let data := plain (s.readDev (base + off % 32 * tokData r) (tokData r))
  let scale := plain (s.readDev (base + 32 * tokData r + off % 32 * tokScale r) (tokScale r))
  (List.range (recD r)).map (fun c =>
    if recFmt r = 0xE && smoothBad smooth c then .nan
    else mxValue (recElem r) (byteAt scale (c / 32)) (codeAt (recElem r).width data c))

/-- The score of a query row against a key (R105). -/
def attScore (d : Bytes) (q k : List FVal) : FVal :=
  rne32 ((accumulate false (.fin false 0 0) (List.zipWith FVal.mul q k)).1.mul (f32 (aScale d)))

/-- A query row as it is used, in q_fmt: q' of R105. -/
def attQuery (d r smooth row : Bytes) : Bytes :=
  let f := (fltFmt (aQFmt d)).getD bf16
  if recFmt r = 0xE then packCodes f.width ((List.range (recD r)).map (fun c =>
    (f.convert true ((elemAt (aQFmt d) row [] c).mul (bf16.decode (fieldLe smooth (2 * c) 2)))).1))
  else row

/-- One row over one page of a part, block by block (R105). -/
def State.attRow (s : State) (d r : Bytes) (hz jp head : Nat) (q : List FVal) (kSm vSm : Bytes) (pg : PageView) (a0 : RowAcc) : RowAcc :=
  let pf := (fltFmt (aPFmt d)).getD bf16
  (List.range (recT r / 64)).foldl (fun a b =>
    let offs := ((List.range 64).map (fun i => 64 * b + i)).filter (fun off =>
      pg.cause == 0 && decide (off < pg.mark) && attSees d hz jp (pg.page * recT r + off))
    attBlock pf a (offs.map (fun off =>
      (attScore d q (s.kvValues r pg.addr head off false kSm), s.kvValues r pg.addr head off true vSm)))) a0

/-- A row's state as a record of part j (R107). -/
def RowAcc.toRec (a : RowAcc) (row head part : Nat) : PRec :=
  let nan := a.m.isNaN || a.l.isNaN || a.o.any FVal.isNaN
  ⟨flag (a.count == 0) + 2 * flag nan, row, head, part, code32 a.m, code32 a.l, a.count, a.o.map code32⟩

/-- A record as a row's state. -/
def PRec.toAcc (r : PRec) : RowAcc := ⟨f32 r.m, f32 r.l, r.o.map f32, r.count⟩

/-- A record finalised (R109): the codes of its row and whether each is NaN or infinite. -/
def finalise (fmt : Nat) (kvs4 : Bool) (vSm : Bytes) (d : Nat) (r : PRec) : List Nat :=
  let f := (fltFmt fmt).getD fp32
  if bit r.flags 0 then List.replicate d 0
  else
    let inv := rcp (f32 r.l)
    r.o.mapIdx (fun c oc =>
      let y := rne32 ((f32 oc).mul inv)
      let sc := if kvs4 then bf16.decode (fieldLe vSm (2 * c) 2) else .fin false 1 0
      let mu := if kvs4 then bf16.decode (fieldLe vSm (2 * d + 2 * c) 2) else .fin false 0 0
      (convertOut f true (fma32 y sc mu)).1)

/-- The header of part j's carry area (R111). -/
def carryHeader (d : Bytes) (slot gen next j : Nat) : Bytes :=
  natLe 1 1 ++ [0] ++ natLe 2 slot ++ natLe 4 gen ++ natLe 2 (aLayer d) ++ natLe 2 (aHead d) ++ natLe 2 (aHeads d) ++
    natLe 1 (aG d) ++ natLe 1 (aNpos d) ++ natLe 4 next ++ natLe 4 j ++ zeros 40

/-- The horizon of an ATTEND (R104). -/
def attHorizon (x : Flight) : Nat := if dPencil x.desc then x.snapL + x.snapP else x.snapL

/-- Records judged for the detail word (Table 3.8): NaN in m, l or o; infinity in l or o. -/
def recNotes (rs : List PRec) : Bool × Bool :=
  (rs.any (fun r => (f32 r.m).isNaN || (f32 r.l).isNaN || r.o.any (fun c => (f32 c).isNaN)),
   rs.any (fun r => (f32 r.l).isInf || r.o.any (fun c => (f32 c).isInf)))

/-- The rows of an ATTEND in record order: head within the range, query row (R103, R110). -/
def attRows (d : Bytes) : List (Nat × Nat) :=
  ((List.range (aHeads d)).map (fun hh => (List.range (aQ d)).map (fun q => (hh, q)))).flatten

/-- Part j's area of a carry operand (R111). -/
def attCarryPart (d r : Bytes) (j : Nat) : List Opnd :=
  (attCarry d r false).map (fun o => o.sub 0 1 (j * carryBytes d r) (carryBytes d r))

/-- What the engine of a part holds from piece to piece: the query rows as used, the smoothing vectors, the records of its rows. -/
structure AttHeld where
  queries : Bytes
  smooth : Bytes
  recs : List PRec
  deriving DecidableEq, Repr

/-- It as the bytes of the strand's buffer. -/
def AttHeld.bytes (h : AttHeld) : Bytes := h.queries ++ h.smooth ++ (h.recs.map PRec.bytes).flatten

/-- It from the bytes of the strand's buffer. -/
def AttHeld.parse (d r blob : Bytes) : AttHeld :=
  let nq := aHeads d * aQ d * rowSize (aQFmt d) (recD r)
  let ns := if recFmt r = 0xE then aHeads d * 8 * recD r else 0
  ⟨blob.take nq, slice blob nq ns,
    (chunks (recBytes r) (aHeads d * aQ d) (blob.drop (nq + ns))).map (PRec.parse (recD r))⟩

/-- What a part starts with: its queries formed once, its smoothing vectors, and its carry records or empty states (R105, R111). -/
def AttHeld.start (d r : Bytes) (j : Nat) (qRows : List Bytes) (smooth : Bytes) (carry : Option Bytes) : AttHeld :=
  let rows := attRows d
  ⟨(rows.mapIdx (fun i hr => attQuery d r (smoothOf r smooth hr.1 false) (qRows.getD i []))).flatten, smooth,
    rows.mapIdx (fun i hr => match carry with
      | some c => PRec.parse (recD r) (slice c (64 + i * recBytes r) (recBytes r))
      | none => (RowAcc.empty (recD r)).toRec hr.2 (aHead d + hr.1) j)⟩

/-- One page enters every row of every head of a part (R105, R106). -/
def State.attPage (s : State) (d r : Bytes) (hz j : Nat) (v : PageView) (h : AttHeld) : AttHeld :=
  let row := rowSize (aQFmt d) (recD r)
  { h with recs := (attRows d).mapIdx (fun i hr =>
      let q := (List.range (recD r)).map (elemAt (aQFmt d) (slice h.queries (i * row) row) [])
      let a := s.attRow d r hz (hr.2 / aG d) (aHead d + hr.1) q (smoothOf r h.smooth hr.1 false) (smoothOf r h.smooth hr.1 true) v
        ((h.recs.map PRec.toAcc).getD i (RowAcc.empty (recD r)))
      a.toRec hr.2 (aHead d + hr.1) j) }

/-- Scores a page adds: positions seen, over all rows of all heads (Table 2.21). -/
def attScores (d r : Bytes) (hz : Nat) (v : PageView) : Nat :=
  let w := v.seen d r hz
  ((attRows d).map (fun hr => ((List.range (w.2 - w.1)).filter (fun i =>
    attSees d hz (hr.2 / aG d) (v.page * recT r + w.1 + i))).length)).sum

/-- Bytes to lie at several places, one after another. -/
def placeBytes (ps : List (Place × Nat)) (bs : List (Byte × Bool)) : List (Place × List (Byte × Bool)) :=
  (ps.foldl (fun (a : List (Place × List (Byte × Bool)) × List (Byte × Bool)) p =>
    (a.1 ++ [(p.1, a.2.take p.2)], a.2.drop p.2)) ([], bs)).1

/-- An output of an ATTEND held until its completion Settle phase; one that overlaps an input has undefined content (R63, R110). -/
def State.attHold (s : State) (x : Flight) (o ins : List Opnd) (data : Bytes) : State :=
  match o.mapM (s.opndPlaces x.part) with
  | none => s
  | some ps =>
    let undef := s.opndsOverlap x.part o ins
    let bs := if undef then freeBytes s.free data.length else clean data
    let s := if undef then s.useFree else s
    s.updFlight x.id (fun y => { y with held := y.held ++ placeBytes ps.flatten bs })

/-- The records of all parts are in: the outputs and the carry areas are formed and held, and the detail is judged (R107 to R112). -/
def State.attFinish (s : State) (x : Flight) (dt : Nat) (parts : List AttHeld) : State :=
  let d := x.desc
  let i := dSlot d
  let sl := s.slot i
  let r := sl.record
  let hz := attHorizon x
  let recs := parts.map (fun h => h.recs)
  let bound := if aLimit d = 0 then hz else aLimit d
  let carryData := (recs.mapIdx (fun j rs => carryHeader d i sl.generation bound j ++ (rs.map PRec.bytes).flatten)).flatten
  let none := RowAcc.toRec (RowAcc.empty (recD r)) 0 0 0
  let merged := (List.range (attRows d).length).map (fun k => (reduceRecs (recs.map (fun rs => rs.getD k none))).getD none)
  let smooth := (parts.map (fun h => h.smooth)).headD []
  let outRows := merged.mapIdx (fun k m =>
    finalise (aOutFmt d) (recFmt r = 0xE) (smoothOf r smooth (k / aQ d) true) (recD r) m)
  let f := (fltFmt (aOutFmt d)).getD fp32
  let data : Bytes := match aMode d with
    | 0 => (recs.flatten.map PRec.bytes).flatten
    | 1 => (outRows.map (packCodes f.width)).flatten
    | _ => []
  let notes := if aMode d = 1 then
      (outRows.any (fun o => o.any (fun c => (f.decode c).isNaN)), outRows.any (fun o => o.any (fun c => (f.decode c).isInf)))
    else recNotes recs.flatten
  let ins := attQ d r :: attCarry d r false
  let s := (s.attHold x (attOut d r) ins data).attHold x (attCarry d r true) ins carryData
  (s.workDone x.id 0 (dt ||| (flag (merged.any (fun m => m.count == 0)) * 4 + flag notes.2 * 2 + flag notes.1))).updFlight x.id
    (fun y => { y with blob := if aMode d = 2 then (recs.flatten.map PRec.bytes).flatten else [] })

/-- Part j has worked a piece and holds `h`: it goes on with its next page, or it waits for the other parts, or the results are formed
(R102, R106). -/
def State.attNext (s : State) (x : Flight) (j : Nat) (last : Bool) (dt : Nat) (h : AttHeld) : State :=
  let s := (s.updStrand x.id j (fun y => { y with blob := h.bytes })).updFlight x.id (fun y => { y with detail := dt })
  if !last then s.nextPiece x j dt
  else
    let s := s.updStrand x.id j (fun y => { y with worked := true })
    match s.flight x.id with
    | some x' =>
      if x'.strands.all (fun y => y.worked) then
        s.attFinish x' dt (x'.strands.map (fun y => AttHeld.parse x.desc (s.slot (dSlot x.desc)).record y.blob))
      else s
    | none => s

/-- One piece of part j of an ATTEND: one page across the head range (R102 to R106); its first piece reads the queries, the smoothing
vectors and its carry area, whose header decides before any page is examined (R111).  The one event of an unwritten page names the first
that a part examines. [DESIGN CHOICE, log 118] -/
def State.doAttend (s : State) (x : Flight) (j : Nat) : State :=
  let d := x.desc
  let i := dSlot d
  let sl := s.slot i
  let r := sl.record
  let hz := attHorizon x
  let y := x.strand j
  let pages := attPages d r hz j
  let first := y.piece == 0
  let last := decide (pages.length ≤ y.piece + 1)
  let final := last && (x.strands.mapIdx (fun n z => n == j || z.worked)).all id
  let carry := (attCarryPart d r j).map (fun o => (s.opndRows x.part o).flatten)
  let starts := !first || carry.all (fun (c : Bytes) => carryHeader d i sl.generation (aFirst d) j == c.take 64)
  let view := if starts then (pages[y.piece]?).map (s.pageView i d j) else none
  let sm := if starts && first then smoothPlaces r (aLayer d) (aHead d) (aHeads d) else []
  let more := sm ++ (match view with
    | some v => v.places d r hz
    | none => [])
  let dt := x.detail ||| (flag (bit (aFlags d) 2) * 16)
  match s.fetch x j (if first then attQ d r :: attCarryPart d r j else []) (if final then attOut d r ++ attCarry d r true else []) [] more with
  | .wait s' => s'
  | .stop s' => s'
  | .go s1 =>
    if !starts then s1.stopWork x j 6 dt
    else match s.metaBad s1 x j more with
    | some s' => s'
    | none =>
      let h := if first then AttHeld.start d r j (s.opndRows x.part (attQ d r)) (plain (s.readPlaces sm)) carry.head?
        else AttHeld.parse d r y.blob
      match view with
      | none => s1.attNext x j last dt h
      | some v =>
        let names (n c : Nat) := detail [(8, dTag d), (2, i), (2, aLayer d), (4, v.page), (n, c)]
        if !v.placed then (s1.postFor x 0x3011 2 sl.partition (x.unitId j) (names 8 v.addr)).stopWork x j 6 dt
        else if v.cause != 0 then
          let s2 := if bit x.detail 3 then s1 else s1.postFor x 0x3010 1 sl.partition (x.unitId j) (names 1 v.cause)
          s2.attNext x j last (dt ||| 8) h
        else
          (s1.countMacs y.unit (2 * recD r * attScores d r hz v)).attNext x j last dt (s.attPage d r hz j v h)

/-! ### The commands -/

/-- SLOT_OPEN (R83). -/
def execSlotOpen (f : Nat) (s : State) : Host.Outcome State Fault Refusal :=
  match s.controlReady f 0x20006 with
  | some x => .next (s.doSlotOpen x)
  | none => .next s

/-- SLOT_CLOSE (R84). -/
def execSlotClose (f : Nat) (s : State) : Host.Outcome State Fault Refusal :=
  match s.controlReady f 0x20007 with
  | some x => .next (s.doSlotClose x)
  | none => .next s

/-- KV_WRITE (R93). -/
def execKvWrite (f : Nat) (s : State) : Host.Outcome State Fault Refusal :=
  match s.working f 0 0x20008 with
  | some x => .next (s.doKvWrite x)
  | none => .next s

/-- KV_SETTLE (R94): it is applied in step 1 of the Settle phase of the tick in which it is eligible. -/
def execKvSettle (f : Nat) (s : State) : Host.Outcome State Fault Refusal :=
  match s.controlReady f 0x20009 with
  | some _ => .next (s.endFlight f 0 0)
  | none => .next s

/-- ATTEND (R102): one piece of its part j. -/
def execAttend (f j : Nat) (e : List SailFault) (s : State) : Host.Outcome State Fault Refusal :=
  match s.working f j 0x20002 with
  | some x => .next (s.sailWork x j e (fun s => s.doAttend x j))
  | none => .next s

end Sys2Proof.Machine
end

