-- ==== Sys2Proof/Machine/MeshOps.lean ====
section
/-! DEFINITION. The mesh: geometry, words and links, slot tables, in-router reduction, frames and schedule faults
(05_mesh_filigree.md).  A frame's slots are applied as the cores reach them, so words and instructions meet cycle for cycle. -/

namespace Sys2Proof.Machine

/-! ### Geometry (R3, R164, R167) -/

def tileRow (t : Nat) : Nat := t / 72
def tileCol (t : Nat) : Nat := t % 72

/-- Clock region of a tile. -/
def tileRegion (t : Nat) : Nat := tileRow t / 16 + (if tileCol t < 36 then 0 else 4)

/-- Latency h between neighbouring tiles (Table 5.2). -/
def linkLatency (a b : Nat) : Nat :=
  if (tileCol a < 36) != (tileCol b < 36) then 8 else if tileRegion a = tileRegion b then 2 else 4

/-- The neighbour on output 0 N, 1 E, 2 S, 3 W, with the input (1 N, 2 E, 3 S, 4 W) on which a word arrives there.  Row 0 is the
north edge. -/
def neighbour (t dir : Nat) : Option (Nat × Nat) :=
  match dir with
  | 0 => if tileRow t = 0 then none else some (t - 72, 3)
  | 1 => if tileCol t = 71 then none else some (t + 1, 4)
  | 2 => if tileRow t = 63 then none else some (t + 72, 1)
  | _ => if tileCol t = 0 then none else some (t - 1, 2)

/-- The port tile of Sail engine n (Table 5.3). -/
def sailPort (n : Nat) : Nat :=
  (if n < 16 then 0 else 63) * 72 + 4 * (n % 16) + 2 + (if 8 ≤ n % 16 then 4 else 0)

/-- The port kind and index of a tile (Tables 5.3, 5.22): 0 none, 1 Sail, 2 crown, 3 beside. -/
def tilePort (t : Nat) : Nat × Nat :=
  match (List.range 32).find? (fun n => sailPort n == t) with
  | some n => (1, n)
  | none =>
    let r := tileRow t
    let c := tileCol t
    match (List.range 4).find? (fun q =>
        let r0 := 8 + 32 * (q / 2)
        let c0 := 9 + 36 * (q % 2)
        decide (r0 ≤ r) && decide (r ≤ r0 + 12) && (r - r0) % 4 == 0 && decide (c0 ≤ c) && decide (c ≤ c0 + 18) && (c - c0) % 6 == 0) with
    | some q => (2, q)
    | none =>
      let side := decide (4 ≤ r) && decide (r ≤ 60) && (r - 4) % 8 == 0
      if side && c == 0 then (3, 0) else if side && c == 71 then (3, 1) else (0, 0)

/-- The site a port tile feeds: crown q is site q, beside 0 and 1 are sites 4 and 5. -/
def portSite (t : Nat) : Option Nat :=
  match tilePort t with
  | (2, q) => some q
  | (3, q) => some (4 + q)
  | _ => none

/-! ### Slot-table entries (Table 5.4) -/

def eRxFlow (e : Nat) : Nat := bits e 55 46
def eTxFlow (e : Nat) : Nat := bits e 45 36
def eRedFirst (e : Nat) : Bool := bit e 32
def eRedOp (e : Nat) : Nat := bits e 31 28
def eRedB (e : Nat) : Nat := bits e 27 25
def eRedA (e : Nat) : Nat := bits e 24 22
def eTxChan (e : Nat) : Nat := bits e 21 20
def eRxChan (e : Nat) : Nat := bits e 19 18
def eSelX (e : Nat) : Nat := bits e 17 15
def eSelCore (e : Nat) : Nat := bits e 14 12
/-- The source of link output 0 N, 1 E, 2 S, 3 W. -/
def eSelLink (e dir : Nat) : Nat :=
  match dir with
  | 0 => bits e 2 0
  | 1 => bits e 5 3
  | 2 => bits e 8 6
  | _ => bits e 11 9

/-- Every source code the entry uses. -/
def eSources (e : Nat) : List Nat :=
  nub ((([eSelLink e 0, eSelLink e 1, eSelLink e 2, eSelLink e 3, eSelCore e, eSelX e] ++
    (if eRedOp e = 0 then [] else [eRedA e, eRedB e]))).filter (fun c => c != 0))

/-! ### Reduction (R173 to R175) -/

/-- Lane i of a word. -/
def laneOf (w : Bytes) (i : Nat) : Nat := fieldLe w (4 * i) 4

/-- The lane result of operations 1 to 6 (Table 5.6). -/
def redLane (op a b : Nat) : Nat :=
  match op with
  | 1 => code32 (rne32 (sumExact [f32 a, f32 b]))
  | 2 => (bf16.convert false (sumExact [f32 a, f32 b])).1 * 65536
  | 3 => (a + b) % 2 ^ 32
  | 4 => fromSigned 32 (intW 32 true (toSigned 32 a + toSigned 32 b)).1
  | 5 => code32 ((f32 a).max71 (f32 b))
  | _ => if toSigned 32 a < toSigned 32 b then b else a

/-- A word's lanes combined. -/
def redWord (op : Nat) (a b : Bytes) : Bytes :=
  ((List.range 8).map (fun i => natLe 4 (redLane op (laneOf a i) (laneOf b i)))).flatten

/-- Word 0 of a record is acceptable to a merge: version 1 and reserved bytes zero (R175). -/
def recWordOk (w : Bytes) : Bool := byteAt w 0 == 1 && byteAt w 1 / 8 == 0 && allZero (slice w 20 12)

/-- Word 0 of two records may be merged (R175). -/
def recWordsMatch (a b : Bytes) : Bool :=
  recWordOk a && recWordOk b &&
    (bit (byteAt a 1) 0 || bit (byteAt b 1) 0 || slice a 2 4 == slice b 2 4)

/-- Word 0 of the merged record, and the two factors (R108, R175). -/
def mergeWord0 (a b : Bytes) : Bytes × Nat × Nat :=
  let ma := f32 (fieldLe a 8 4)
  let mb := f32 (fieldLe b 8 4)
  let m := ma.max71 mb
  let fa := mergeFactor ma m
  let fb := mergeFactor mb m
  let l := rne32 (sumExact [fa.mul (f32 (fieldLe a 12 4)), fb.mul (f32 (fieldLe b 12 4))])
  let ea := bit (byteAt a 1) 0
  let eb := bit (byteAt b 1) 0
  let nan := bit (byteAt a 1) 1 || bit (byteAt b 1) 1 || m.isNaN || l.isNaN
  let disc := bit (byteAt a 1) 2 || bit (byteAt b 1) 2
  let flags := flag (ea && eb) + 2 * flag nan + 4 * flag disc
  let rowHead := if ea then slice b 2 4 else slice a 2 4
  ([1, BitVec.ofNat 8 flags] ++ rowHead ++ natLe 2 0xFFFF ++ natLe 4 (code32 m) ++ natLe 4 (code32 l) ++
    natLe 4 (satAdd max32 (fieldLe a 16 4) (fieldLe b 16 4)) ++ zeros 12, code32 fa, code32 fb)

/-- A later word of the merged record: word 1 is zero, the others are the weighted sums of the lanes (R175). -/
def mergeWordN (h : LseHold) (a b : Bytes) : Bytes :=
  if h.issued = 1 then zeros 32
  else ((List.range 8).map (fun i =>
    natLe 4 (code32 (rne32 (sumExact [(f32 h.factorA).mul (f32 (laneOf a i)), (f32 h.factorB).mul (f32 (laneOf b i))]))))).flatten

/-! ### Offered records (R199) -/

/-- An empty record of input j of a reduction, with or without the discarded flag. -/
def emptyRecord (d j : Nat) (discarded : Bool) : Bytes :=
  [1, BitVec.ofNat 8 (1 + 4 * flag discarded)] ++ natLe 2 0xFFFF ++ natLe 2 0xFFFF ++ natLe 2 j ++ natLe 4 0xFF800000 ++
    zeros (4 * d + 64 - 12)

/-- The schedule of partition `p`. -/
def State.sched (s : State) (p : Nat) : Sched := SMap.get {} s.mesh.scheds p

/-- Change the schedule of partition `p`. -/
def State.updSched (s : State) (p : Nat) (f : Sched → Sched) : State :=
  { s with mesh := { s.mesh with scheds := SMap.upd {} s.mesh.scheds p f } }

/-- Change the run of partition `p`. -/
def State.updRun (s : State) (p : Nat) (f : RunState → RunState) : State :=
  s.updSched p (fun x => { x with run := x.run.map f })

/-- The i-th word that the X input of Sail port tile `t` supplies in the running frame (R199). -/
def State.offeredWord (s : State) (p : Nat) (c : Sched) (r : RunState) (t i : Nat) : Option MeshWord :=
  match c.reductions.find? (fun x => x.inputTiles.contains t) with
  | none => none
  | some x =>
    let j := (x.inputTiles.idxOf t)
    let w := x.headDim / 8 + 2
    let k := i / w
    let offer := if r.framesDone = x.frame then
        s.mesh.offers.find? (fun o => o.part == p && o.reduction == x.id && o.tick + 1 == r.frameTick)
      else none
    let rcd := match offer with
      | none => emptyRecord x.headDim j false
      | some o =>
        if o.discarded.contains j then emptyRecord x.headDim j true
        else slice (o.records.getD j []) (k * (4 * x.headDim + 64)) (4 * x.headDim + 64)
    some ⟨slice rcd (32 * (i % w)) 32, x.id % 1024, false⟩

/-! ### Applying one slot -/

/-- A schedule fault of kind 1 to 5 at tile `t` (R183): counted; the first of a run is remembered, and posted at most once per
partition per tick. [DEDUCED, log 54] -/
def State.schedFault (s : State) (p t kind code : Nat) : State :=
  let c := s.sched p
  match c.run with
  | none => s
  | some r =>
    let tag := match s.flight r.flight with
      | some x => dTag x.desc
      | none => 0
    let inc (n : Nat) (k : Bool) : Nat := if k then satAdd 0xFFFF n 1 else n
    let s1 := s.updSched p (fun c => { c with
      misses := inc c.misses (kind == 1), drops := inc c.drops (kind == 2), overflows := inc c.overflows (kind == 3),
      other := inc c.other (decide (4 ≤ kind)), faultTick := some s.tick.count,
      run := c.run.map (fun r => if r.fault.isNone then { r with fault := some (t, kind) } else r) })
    if c.faultTick = some s.tick.count then s1
    else s1.post 0x2050 2 p t (detail [(8, tag), (1, kind), (1, code), (2, r.slot), (2, r.framesDone)])

/-- The channels of a tile. -/
def Tile.txCh (x : Tile) (c : Nat) : Channel := SMap.get {} x.tx c
def Tile.rxCh (x : Tile) (c : Nat) : Channel := SMap.get {} x.rx c

/-- Change a channel. -/
def Tile.updTx (x : Tile) (c : Nat) (f : Channel → Channel) : Tile := { x with tx := SMap.upd {} x.tx c f }
def Tile.updRx (x : Tile) (c : Nat) (f : Channel → Channel) : Tile := { x with rx := SMap.upd {} x.rx c f }

/-- The words delivered to RX channel `c` in DMEM mode that are there at core cycle `cyc` are written and counted (R164, R178). -/
def Tile.landChan (x : Tile) (c cyc : Nat) : Tile :=
  let ls := (x.rxCh c).landing
  if ls.isEmpty then x
  else
    (ls.filter (fun e => decide (e.1 ≤ cyc))).foldl (fun (x : Tile) e =>
      let ch := x.rxCh c
      (x.writeDmem (ch.base * 32 + 32 * ch.count) (e.2.data.map (fun b => (b, e.2.poison)))).updRx c (fun y => { y with count := y.count + 1 }))
      (x.updRx c (fun y => { y with landing := ls.filter (fun e => !decide (e.1 ≤ cyc)) }))

/-- The words of every channel that are there at core cycle `cyc`. -/
def Tile.land (x : Tile) (cyc : Nat) : Tile := [0, 1, 2, 3].foldl (fun (x : Tile) c => x.landChan c cyc) x

/-- All words still on their way into DMEM are written: no core reads any longer. -/
def Tile.landAll (x : Tile) : Tile :=
  [0, 1, 2, 3].foldl (fun (x : Tile) c => x.landChan c (((x.rxCh c).landing.map (fun e => e.1)).foldl max 0)) x

/-- The oldest word a TX channel can give up at cycle `cyc`, and the tile after it has (R177, R178). -/
def Tile.takeTx (x : Tile) (c cyc : Nat) : Option (MeshWord × Tile) :=
  let ch := x.txCh c
  if ch.dmemMode then
    if ch.length ≤ ch.count then none
    else
      let off := ch.base * 32 + 32 * ch.count
      let bs := x.readDmem off 32
      some (⟨plain bs, 0, poisoned bs⟩, (x.heedDmem off 32).updTx c (fun y => { y with count := y.count + 1 }))
  else match ch.fifo with
    | [] => none
    | (from_, w) :: rest =>
      if cyc < from_ then none
      else
        -- a core stalled on the full channel goes on in the next cycle (R177)
        let x := x.updTx c (fun y => { y with fifo := rest, count := y.count + 1 })
        some (w, if x.stall = .tx c then { x with stall := .none, cycle := max x.cycle (cyc + 1) } else x)

/-- A word delivered to an RX channel at cycle `cyc`; none: overflow (R177, R178). -/
def Tile.putRx (x : Tile) (c cyc : Nat) (w : MeshWord) : Option Tile :=
  let ch := x.rxCh c
  let x' : Option Tile :=
    if ch.dmemMode then
      if ch.length ≤ ch.count + ch.landing.length then none
      else some (x.updRx c (fun y => { y with landing := y.landing ++ [(cyc + 1, w)] }))
    else if 4 ≤ ch.fifo.length then none
    else some (x.updRx c (fun y => { y with fifo := y.fifo ++ [(cyc + 1, w)], count := y.count + 1 }))
  x'.map (fun x =>
    let n := (x.rxCh c).count + (x.rxCh c).landing.length
    let wake := match x.stall with
      | .rx k => k == c && !(x.rxCh c).dmemMode
      | .await k v => k == c && decide (v ≤ n)
      | _ => false
    if wake then { x with stall := .none, cycle := max x.cycle (cyc + 1) } else x)

/-- The core of tile `t` is fenced (R156): 1 a failed rewrite, 2 a second uncorrectable error. -/
def State.fenceCore (s : State) (t cause : Nat) : State :=
  if (s.tile t).coreFenced then s
  else (s.updTile t (fun x => { x with coreFenced := true })).post 0x2042 2 0xFF t (detail [(1, cause)])

/-- An uncorrectable data error of partition `p` in tile `t` (R156): counted, posted and charged to the partition, the core stops, and what
has failed is noted for the rewrite of the partition reset; a second error fences the core. -/
def State.beadFault (s : State) (p t memory addr : Nat) : State :=
  let x := s.tile t
  let tag := match x.prog.bind (fun f => s.flight f) with
    | some f => dTag f.desc
    | none => 0
  let s := s.updTile t (fun x => { x with
    uncorrectable := satAdd 0xFFFF x.uncorrectable 1, memErrors := x.memErrors + 1, state := 0, stall := .none
    failing := if memory < 3 then x.failing ++ [(memory, addr)] else x.failing })
  let s := (s.post 0x2041 2 p t (detail [(1, memory), (4, addr), (8, tag)])).startReset p 1 t
  if 1 ≤ x.memErrors then s.fenceCore t 2 else s

/-- One source of one tile in a slot. -/
structure Picked where
  code : Nat
  word : MeshWord

/-- Resolve the source codes an entry uses at tile `t`, slot `u` of the tick: the words found, and the state after core and X
inputs have given theirs up. -/
def State.pick (s : State) (p t e u cyc : Nat) : List Nat → State × List Picked
  | [] => (s, [])
  | code :: rest =>
    let c := s.sched p
    match c.run with
    | none => (s, [])
    | some r =>
      let found : Option (MeshWord × State) :=
        if code ≤ 4 then
          (r.transit.find? (fun x => x.1 == u && x.2.1 == t && x.2.2.1 == code)).map (fun x => (x.2.2.2, s))
        else if code = 5 then
          if (s.tile t).coreFenced then none
          else ((s.tile t).takeTx (eTxChan e) cyc).map (fun x =>
            let ch := (s.tile t).txCh (eTxChan e)
            let s := s.updTile t (fun _ => x.2)
            ({ x.1 with flow := eTxFlow e }, if x.1.poison then s.beadFault p t 1 (0x10000 + ch.base * 32 + 32 * ch.count) else s))
        else if code = 6 then
          let i := SMap.get 0 r.taken t
          (s.offeredWord p c r t i).map (fun w =>
            (w, s.updRun p (fun r => { r with taken := SMap.set 0 r.taken t (i + 1) })))
        else (r.results.find? (fun x => x.1 == u && x.2.1 == t)).map (fun x => (x.2.2, s))
      match found with
      | none =>
        let rest' := (s.schedFault p t 1 code).pick p t e u cyc rest
        rest'
      | some (w, s1) =>
        let r' := s1.pick p t e u cyc rest
        (r'.1, ⟨code, w⟩ :: r'.2)

/-- The word picked for a source code. -/
def wordOf (ws : List Picked) (code : Nat) : Option MeshWord := (ws.find? (fun x => x.code == code)).map (fun x => x.word)

/-- Deliver a word to the core of tile `t` (R172, R177, R178, R184). -/
def State.deliver (s : State) (p t e cyc : Nat) (w : MeshWord) : State :=
  if (s.tile t).coreFenced then s
  else
    let s := if w.flow ≠ eRxFlow e then s.schedFault p t 4 (eSelCore e) else s
    match (s.tile t).putRx (eRxChan e) cyc w with
    | none => s.schedFault p t 3 (eSelCore e)
    | some x =>
      let s := s.updTile t (fun _ => if x.state = 2 then x else x.landAll)
      if w.poison then
        let ch := (s.tile t).rxCh (eRxChan e)
        let n := ch.count + ch.landing.length
        s.beadFault p t 1 (if ch.dmemMode then 0x10000 + ch.base * 32 + 32 * (n - 1) else 0x20100 + 0x40 * eRxChan e)
      else s

/-- The index k of a site's port tile, in the order of Table 5.3. -/
def portIndex (t : Nat) : Nat :=
  match portSite t with
  | none => 0
  | some q => ((List.range t).filter (fun y => portSite y == some q)).length

/-- Word out through X to a site's egress buffer (R168): accepted only from a granted partition, and from a sealed one only
for a site granted sealed access (R409); otherwise, and when the buffer is full, it is dropped as an overflow fault. -/
def State.sendX (s : State) (p t code : Nat) (w : MeshWord) : State :=
  match portSite t with
  | none => s
  | some q =>
    let x := s.site q
    if !bit x.mask p || (s.sealedPart p && !x.grantedSealed) then
      let s := s.updSite q (fun x => { x with bezelRefused := satAdd 0xFFFF x.bezelRefused 1 })
      let s := s.postOnce (fun e => e.unit == 0x6000 + q) 0x6006 1 p (0x6000 + q)
        (detail [(1, 4), (1, siteStreamOp), (1, p), (8, 0)])
      s.schedFault p t 3 code
    else if 512 ≤ (x.egress.filter (fun e => e.tile == t)).length then s.schedFault p t 3 code
    else (s.updSite q (fun x => { x with egress := x.egress ++ [⟨t, p, w⟩] })).siteDrain q portIndex

/-- The reduction unit of tile `t` issues at slot `u` (R173, R175). -/
def State.reduce (s : State) (p t e u : Nat) (a b : MeshWord) : State :=
  let put (s : State) (bs : Bytes) (bad : Bool) : State :=
    s.updRun p (fun r => { r with results := r.results ++ [(u + 6, t, ⟨bs, a.flow, a.poison || b.poison || bad⟩)] })
  if eRedOp e ≠ 7 then put s (redWord (eRedOp e) a.data b.data) false
  else
    match (s.sched p).run with
    | none => s
    | some r =>
      if eRedFirst e then
        let m := mergeWord0 a.data b.data
        let s := if recWordsMatch a.data b.data then s else s.schedFault p t 5 7
        let s := s.updRun p (fun r => { r with holds := SMap.set none r.holds t (some ⟨1, 0, m.2.1, m.2.2, a.poison || b.poison⟩) })
        put s m.1 false
      else
        let h := (SMap.get none r.holds t).getD ⟨1, 0, 0, 0, false⟩
        let s := if h.issued = 1 ∧ ¬ (allZero a.data ∧ allZero b.data) then s.schedFault p t 5 7 else s
        let s := s.updRun p (fun r => { r with holds := SMap.set none r.holds t (some { h with issued := h.issued + 1 }) })
        put s (mergeWordN h a.data b.data) (h.poison && h.issued != 1)

/-- The word that arrives at tile `t` in slot `u` on input `i` fails its check (R184): it is poisoned, counted and posted; the
fourth failure on one input is a router fault of the tile that drives it. -/
def State.wordCheck (s : State) (p t u i : Nat) : State :=
  let arrives (r : RunState) : Bool := r.transit.any (fun x => x.1 == u && x.2.1 == t && x.2.2.1 == i)
  match (s.sched p).run, neighbour t (i - 1) with
  | some r, some (from_, _) =>
    if !arrives r then s
    else
      let s := s.updRun p (fun r => { r with transit := r.transit.map (fun x =>
        if x.1 == u && x.2.1 == t && x.2.2.1 == i then (x.1, x.2.1, x.2.2.1, { x.2.2.2 with poison := true }) else x) })
      let n := satAdd 0xFF (SMap.get 0 (s.tile t).checkFails (i - 1)) 1
      let seen := SMap.get 0 (s.tile t).checkSeen (i - 1) + 1
      let s := s.updTile t (fun x => { x with
        checkFails := SMap.set 0 x.checkFails (i - 1) n, checkSeen := SMap.set 0 x.checkSeen (i - 1) seen })
      let s := s.post 0x2051 2 p t (detail [(1, i), (2, from_), (1, n)])
      if seen = 4 then s.updTile from_ (fun x => if x.routerFault = 0 then { x with routerFault := 3 } else x) else s
  | _, _ => s

/-- The hardware faults of tile `t` in slot `j` of the running frame, slot `u` of the tick (R184, R201). [DESIGN CHOICE, log 55] -/
def State.hardFaults (s : State) (p t j u : Nat) : State :=
  match (s.sched p).run with
  | none => s
  | some r =>
    (r.hard.filter (fun f => f.slot == j && f.tile == t)).foldl (fun s f =>
      match f.kind with
      | 5 => s.updTile t (fun x => { x with tableCorrected := satAdd 0xFFFF x.tableCorrected 1 })
      | 6 => s.updTile t (fun x => { x with routerFault := 1 })
      | 7 => s.updTile t (fun x => { x with routerFault := 2 })
      | i => s.wordCheck p t u i) s

/-- Tile `t` applies its entry in slot `u` of the tick, which is core cycle `cyc` (R170, R171).  A router with a fault puts out
only poison (R201). -/
def State.tileSlot (s : State) (p u cyc t : Nat) : State :=
  let c := s.sched p
  match c.run with
  | none => s
  | some r =>
    let e := (s.tile t).table.getD (u % max 1 c.frameLen) 0
    let used := eSources e
    let unused := r.transit.filter (fun x => x.1 == u && x.2.1 == t && !used.contains x.2.2.1)
    let s := unused.foldl (fun s x => s.schedFault p t 2 x.2.2.1) s
    let got := s.pick p t e u cyc used
    let s := got.1
    let ws := if (s.tile t).routerFault = 0 then got.2
      else got.2.map (fun x => { x with word := { x.word with poison := true } })
    let s := (List.range 4).foldl (fun s dir =>
      match wordOf ws (eSelLink e dir), neighbour t dir with
      | some w, some (t', i) =>
        s.updRun p (fun r => { r with transit := r.transit ++ [(u + linkLatency t t', t', i, w)] })
      | _, _ => s) s
    let s := match wordOf ws (eSelCore e) with
      | some w => s.deliver p t e cyc w
      | none => s
    let s := match wordOf ws (eSelX e) with
      | some w => s.sendX p t (eSelX e) w
      | none => s
    if eRedOp e = 0 then s
    else match wordOf ws (eRedA e), wordOf ws (eRedB e) with
      | some a, some b => s.reduce p t e u a b
      | _, _ => s

/-- One slot of the running frame: every tile of the schedule, in ascending index; a word that arrives at a tile without an entry is
dropped (R183, R187); words and results of past slots go. -/
def State.applySlot (s : State) (p : Nat) : State :=
  let c := s.sched p
  match c.run with
  | none => s
  | some r =>
    let u := r.framesDone * c.frameLen + r.slot
    let tiles := sortBy id (c.tiles.map (fun x => x.1))
    let s := tiles.foldl (fun s t => (s.hardFaults p t r.slot u).tileSlot p u (r.frameStart + r.slot) t) s
    let stray := ((s.sched p).run.map (fun r => r.transit.filter (fun x => x.1 == u && !tiles.contains x.2.1))).getD []
    let s := stray.foldl (fun s x => s.schedFault p x.2.1 2 x.2.2.1) s
    s.updRun p (fun r => { r with
      slot := r.slot + 1, transit := r.transit.filter (fun x => decide (u < x.1)),
      results := r.results.filter (fun x => decide (u < x.1)) })

/-! ### Running frames against the cores -/

/-- The cycle before which core `t` may still act on the mesh: none when it cannot. [DESIGN CHOICE, log 51] -/
def State.coreHorizon (s : State) (r : RunState) (t : Nat) : Option Nat :=
  let x := s.tile t
  if x.state ≠ 2 ∨ x.prog ≠ some r.flight then none
  else match x.stall with
    | .none => some x.cycle
    | .barrier b =>
      match r.barriers.find? (fun y => y.index == b) with
      | some y => if y.members.all (fun m => y.arrived.any (fun a => a.1 == m)) then
          some ((y.arrived.map (fun a => a.2)).foldl max 0) else none
      | none => none
    | _ => none

/-- The last cycle whose slot may be applied now; none: no core holds the frame back. -/
def State.horizon (s : State) (p : Nat) (r : RunState) : Option Nat :=
  ((s.sched p).tiles.filterMap (fun x => s.coreHorizon r x.1)).foldl (fun a c =>
    match a with
    | none => some c
    | some h => some (min h c)) none

/-- The end is a trap. -/
def BeadEnd.isTrap : BeadEnd → Bool
  | .trap .. => true
  | _ => false

/-- The deciding trap of a launch or run: the bead of the lowest tile index that trapped (R153). -/
def decidingTrap (ends : List (Nat × Nat × BeadEnd)) : Option (Nat × Nat × BeadEnd) := ends.find? (fun e => e.2.2.isTrap)

/-- Status of a launch or run from how its beads ended, tiles ascending, and the trap in its detail (R153, Table 4.12). -/
def endStatus (ends : List (Nat × Nat × BeadEnd)) : Nat × Nat :=
  match decidingTrap ends with
  | some (t, _, .trap cause _ _ window) =>
    (if cause = 24 ∨ ((cause = 5 ∨ cause = 7) ∧ window) then 3 else 6, t * 2 ^ 48 + cause % 256 * 2 ^ 40)
  | _ => (0, 0xFFFF * 2 ^ 48)

/-- The tiles whose program belongs to flight `f`, ascending. -/
def State.progTiles (s : State) (f : Nat) : List (Nat × Tile) := s.tiles.filter (fun e => e.2.prog == some f)

/-- How the beads of flight `f` ended, tiles ascending; none while one still runs. -/
def State.beadEnds (s : State) (f : Nat) : Option (List (Nat × Nat × BeadEnd)) :=
  match s.flight f with
  | none => none
  | some x => (sortBy (fun (e : Nat × Nat × Option BeadEnd) => e.1) x.beads).mapM (fun e => e.2.2.map (fun d => (e.1, e.2.1, d)))

/-- The bead of tile `t` of flight `f` has ended. -/
def State.noteEnd (s : State) (f t : Nat) (e : BeadEnd) : State :=
  s.updFlight f (fun x => { x with beads := x.beads.map (fun b => if b.1 == t then (b.1, b.2.1, some e) else b) })

/-- BEAD_TRAP for the deciding trap of a launch or run (Table 4.13). -/
def State.postTrap (s : State) (x : Flight) (ends : List (Nat × Nat × BeadEnd)) : State :=
  match decidingTrap ends with
  | some (t, b, .trap cause epc tval _) =>
    let hide := s.sealedPart x.part
    s.post 0x2040 1 x.part t (detail [(8, dTag x.desc), (4, cause), (4, if hide then 0 else epc), (4, if hide then 0 else tval), (2, b)])
  | _ => s

/-- The programs of flight `f` stop where they are (R183, R276). -/
def State.stopProgs (s : State) (f : Nat) : State :=
  { s with tiles := s.tiles.map (fun e =>
      if e.2.prog == some f && e.2.state != 0 then (e.1, { e.2 with state := 0, stall := .none }) else e) }

/-- The run of partition `p` is over: its routers stop, words still in flight are discarded, and its channels are gone (R179, R196). [DEDUCED, log 22; DEDUCED, log 54] -/
def State.closeRun (s : State) (p : Nat) : State :=
  match (s.sched p).run with
  | none => s
  | some _ =>
    let s := (s.sched p).tiles.foldl (fun s e => s.updTile e.1 (fun x => { x.landAll with tx := [], rx := [] })) s
    s.updSched p (fun c => { c with run := none, state := if c.state = 3 then 2 else c.state })

/-- A run ends if its last frame has ended and every program has, or at a schedule fault's frame end (R183, R196). -/
def State.runCheck (s : State) (p : Nat) : State :=
  match (s.sched p).run with
  | none => s
  | some r =>
    match s.flight r.flight with
    | none => s
    | some x =>
      match r.fault with
      | some (t, kind) =>
        if r.inFrame then s
        else
          (((s.stopProgs x.id).closeRun p).updStrands x.id (fun y => { y with state := .running s.tick.count })).workDone x.id 6
            (t * 2 ^ 48 + (0x80 + kind) * 2 ^ 40)
      | none =>
        if r.startTick + r.ticks ≤ r.frameTick then
          match s.beadEnds x.id with
          | none => s
          | some ends =>
            let st := endStatus ends
            ((s.postTrap x ends).closeRun p).workDone x.id st.1 st.2
        else s

/-- A frame has been applied to its end. [DEDUCED, log 54] -/
def State.endFrame (s : State) (p : Nat) : State :=
  let c := s.sched p
  let s := s.updRun p (fun r =>
    let last := decide (c.frames ≤ r.framesDone + 1)
    { r with
      inFrame := false, lastEnd := r.frameStart + c.frameLen, slot := 0, hard := [],
      framesDone := if last then 0 else r.framesDone + 1, frameTick := if last then r.frameTick + 1 else r.frameTick,
      transit := if last then [] else r.transit, results := if last then [] else r.results,
      taken := [] })
  s.runCheck p

/-- Apply the slots that no core can still change; `fuel` bounds them. -/
def State.advanceN (s : State) (p : Nat) : Nat → State
  | 0 => s
  | fuel + 1 =>
    let c := s.sched p
    match c.run with
    | none => s
    | some r =>
      if !r.inFrame then s
      else if c.frameLen ≤ r.slot then s.endFrame p
      else
        let ready := match s.horizon p r with
          | none => true
          | some h => decide (r.frameStart + r.slot ≤ h)
        if ready then (s.applySlot p).advanceN p fuel else s

/-- Apply the slots of the running frame that no core can still change. [DESIGN CHOICE, log 97] -/
def State.advance (s : State) (p : Nat) : State := s.advanceN p ((s.sched p).frameLen + 2)

/-- Core `t` must not yet execute: a slot of the running frame before its next cycle is still to come (the mesh and the cores
are kept in step). -/
def State.ahead (s : State) (t : Nat) : Bool :=
  let x := s.tile t
  x.inRun && (match (s.sched x.progPart).run with
    | some r => r.inFrame && decide (r.slot < (s.sched x.progPart).frameLen) && decide (r.frameStart + r.slot < x.cycle)
    | none => false)

end Sys2Proof.Machine
end

