-- ==== Sys2Proof/Machine/BeadOps.lean ====
section
/-! DEFINITION. The bead core (04_bead_cores.md): registers, memory map, CSRs, traps, and the execution of one instruction. -/

namespace Sys2Proof.Machine

/-! ### Registers -/

/-- Integer register n; x0 reads zero. -/
def Tile.reg (x : Tile) (n : Nat) : Nat := if n = 0 then 0 else (SMap.get (0 : W32) x.regs n).toNat

/-- Write integer register n; a write to x0 is discarded. -/
def Tile.setReg (x : Tile) (n v : Nat) : Tile :=
  if n = 0 then x else { x with regs := SMap.set 0 x.regs n (BitVec.ofNat 32 v) }

/-- Vector register n. -/
def Tile.vreg (x : Tile) (n : Nat) : BitVec 128 := SMap.get 0 x.vregs n

/-- Write vector register n. -/
def Tile.setVreg (x : Tile) (n : Nat) (v : BitVec 128) : Tile := { x with vregs := SMap.set 0 x.vregs n v }

/-- The bytes of a vector register (R129). -/
def vbytes (v : BitVec 128) : Bytes := natLe 16 v.toNat

/-- A vector register from its bytes. -/
def vofBytes (bs : Bytes) : BitVec 128 := BitVec.ofNat 128 (leNat bs)

/-! ### What an instruction does -/

/-- The outcome of one instruction on the core of one tile. -/
inductive BeadRes where
  /-- It completes: the state, the next pc, the cycles it occupied (Table 4.1). -/
  | done (s : State) (pc cycles : Nat)
  /-- It raises a trap (Table 4.10); `window`: the access was in the Casket window. -/
  | trap (cause tval : Nat) (window : Bool)
  /-- It stalls, with no effect (R120). -/
  | stall (s : State) (why : Stall)
  /-- It meets a hardware fault (R156): the core stops. -/
  | hard (s : State)
  /-- The program ends, or the core halts. -/
  | ends (s : State)

/-! ### Memory (R127, R141, R142) -/

/-- The regions of Table 4.3. -/
def inDmem (a n : Nat) : Bool := within a n 0x10000 0x10000
def inPorts (a n : Nat) : Bool := within a n 0x20000 0x1000
def inWindow (a n : Nat) : Bool := within a n 0x10000000 0x80000

/-- The Casket address of a window address of tile `t` (R141). -/
def windowAddr (t a : Nat) : Nat := sliceOfTile t * 0x80000 + (a - 0x10000000)

/-- What a store shows a bead of another tile of the launch before cycle `until_` (R144): going back from the latest store to a byte, the
byte before every store that it need not see yet. [DEDUCED, log 107] -/
def lateByte (t f cycle a : Nat) : List LateStore → Byte × Bool → Byte × Bool
  | [], v => v
  | e :: es, v =>
    if e.addr ≤ a ∧ a < e.addr + e.new.length then
      if e.new.getD (a - e.addr) (0, false) = v ∧ e.flight = f ∧ e.tile ≠ t ∧ cycle < e.until_ then
        lateByte t f cycle a es (e.old.getD (a - e.addr) (0, false))
      else v
    else lateByte t f cycle a es v

/-- A window load of tile `t` (R144). [DEDUCED, log 107] -/
def State.windowRead (s : State) (t w n : Nat) : List (Byte × Bool) :=
  let bs := s.readCasket w n
  if s.casket.late.isEmpty then bs
  else bs.mapIdx (fun i v => lateByte t ((s.tile t).prog.getD 0) (s.tile t).cycle (w + i) s.casket.late.reverse v)

/-- A window store of tile `t`, which occupies 8 cycles (Table 4.1), is visible to the loads of other beads that start 8 cycles after its
end (R144). [DEDUCED, log 107] -/
def State.windowWrite (s : State) (t w : Nat) (bs : Bytes) : State :=
  let x := s.tile t
  let s' := s.writeCasket w (clean bs)
  { s' with casket := { s'.casket with
      late := s'.casket.late ++ [⟨t, x.prog.getD 0, w, s.readCasket w bs.length, clean bs, x.cycle + 16⟩] } }

/-- A read of DMEM or the Casket window by the core of tile `t` (R127, R142, R145): the state after it and the bytes; an access fault, with
whether it lay in the window; or an uncorrectable word. -/
inductive BeadRead where
  | data (s : State) (bs : Bytes)
  | fault (window : Bool)
  | hard (s : State)

/-- Read `n` bytes at `a`. -/
def State.beadRead (s : State) (t a n : Nat) : BeadRead :=
  let x := s.tile t
  if inDmem a n then
    let bs := x.readDmem (a - 0x10000) n
    if poisoned bs then .hard (s.beadFault x.progPart t 1 a) else .data (s.updTile t (fun x => x.heedDmem (a - 0x10000) n)) (plain bs)
  else if inWindow a n then
    let w := windowAddr t a
    if !s.casketAllowed x.progPart w n then .fault true
    else
      let bs := s.windowRead t w n
      if poisoned bs then .hard ((s.casketBadRead w 1 x.progPart).beadFault x.progPart t 3 a) else .data (s.heedCasket w n) (plain bs)
  else .fault false

/-- Several reads, one after another. -/
inductive BeadReads where
  | data (s : State) (bs : List Bytes)
  | fault (window : Bool)
  | hard (s : State)

/-- Read several ranges (address, length) in order. -/
def State.beadReads (s : State) (t : Nat) : List (Nat × Nat) → List Bytes → BeadReads
  | [], acc => .data s acc
  | (a, n) :: rest, acc =>
    match s.beadRead t a n with
    | .data s' bs => s'.beadReads t rest (acc ++ [bs])
    | .fault w => .fault w
    | .hard s' => .hard s'

/-- A write of DMEM or the Casket window: the state after it; an access fault, with whether it lay in the window; or an uncorrectable word
that a store of part of it has met. -/
inductive BeadWrite where
  | done (s : State)
  | fault (window : Bool)
  | hard (s : State)

/-- Write bytes at `a`. -/
def State.beadWrite (s : State) (t a : Nat) (bs : Bytes) : BeadWrite :=
  let x := s.tile t
  if inDmem a bs.length then
    let off := a - 0x10000
    let part := (wordsMet off bs.length).filter (fun w => !(wholeWords off bs.length).contains w)
    if part.any (fun w => SMap.get false x.dmemBad w) then .hard (s.beadFault x.progPart t 1 a)
    else .done (s.updTile t (fun x => x.writeDmem off (clean bs)))
  else if inWindow a bs.length then
    let w := windowAddr t a
    if s.casketAllowed x.progPart w bs.length then .done (s.windowWrite t w bs) else .fault true
  else .fault false

/-! ### Traps (R155) -/

/-- All programs of a launch have ended: its work is done (R151, R153). [DEDUCED, log 22] -/
def State.launchCheck (s : State) (f : Nat) : State :=
  match s.flight f with
  | none => s
  | some x =>
    if x.worked then s
    else if dClass x.desc = 4 then s.runCheck x.part
    else match s.beadEnds f with
      | none => s
      | some ends =>
        let st := endStatus ends
        (s.postTrap x ends).workDone f st.1 st.2

/-- The program of tile `t` ends. -/
def State.beadEnded (s : State) (t : Nat) (e : BeadEnd) : State :=
  let x := s.tile t
  let s := s.updTile t (fun x => { x.landAll with
    state := 0, ended := some e, stall := .none, traps := if e.isTrap then satAdd 0xFFFF x.traps 1 else x.traps })
  match x.prog with
  | some f => (s.noteEnd f t e).launchCheck f
  | none => s

/-- A trap at the instruction at pc (R155): taken to the handler, or the end of the program. -/
def State.beadTrap (s : State) (t cause tval : Nat) (window : Bool) : State :=
  let x := s.tile t
  if x.mtvec ≠ 0 ∧ ¬ x.trapActive then
    s.updTile t (fun x => { x with
      mepc := x.pc, mcause := BitVec.ofNat 32 cause, mtval := BitVec.ofNat 32 tval, trapActive := true,
      pc := x.mtvec, cycle := x.cycle + 4 })
  else s.beadEnded t (.trap cause x.pc.toNat tval window)

/-! ### One instruction -/

/-- The instruction at pc: what it is, its bits and its length; none: an access fault at the address given (R127). -/
def Tile.fetch (x : Tile) : (BeadInstr × Nat × Nat) ⊕ Nat :=
  let pc := x.pc.toNat
  let half (a : Nat) : Nat := leNat ((SMap.getList 0 x.imem a 2))
  if 0x4000 < pc + 2 then .inr pc
  else
    let d := decodeBead (half pc) (if pc + 4 ≤ 0x4000 then half (pc + 2) else 0)
    if d.2.2 = 4 ∧ 0x4000 < pc + 4 then .inr pc else .inl d

/-- What the outcome of an instruction makes of the state; then the mesh goes on as far as the cores let it. -/
def State.beadCommit (s : State) (t : Nat) (r : BeadRes) : State :=
  let p := (s.tile t).progPart
  let go (s' : State) : State := if (s'.tile t).inRun then s'.advance p else s'
  match r with
  | .done s' pc cycles => go (s'.updTile t (fun x => { x with
      pc := BitVec.ofNat 32 pc, cycle := x.cycle + cycles, instret := x.instret + 1 }))
  | .trap cause tval window => go (s.beadTrap t cause tval window)
  | .stall s' why => go (s'.updTile t (fun x => { x with stall := why }))
  | .hard s' => go (s'.updTile t (fun x => { x with state := 0, stall := .none }))
  | .ends s' => go s'

/-- Execute the instruction at the pc of tile `t` if it is one that `want` accepts, by `sem` (given the state, the tile, the
instruction's bits and its length); otherwise the command has no occasion.  What has arrived in DMEM is there, and a single-bit error of a
fetched word is corrected (R118, R164). [DESIGN CHOICE, log 2; DESIGN CHOICE, log 97; DESIGN CHOICE, log 100] -/
def State.bead (s : State) (t : Nat) (want : Tile → BeadInstr → Bool) (sem : State → Tile → BeadInstr → Nat → Nat → BeadRes) : State :=
  let x := (s.tile t).land (s.tile t).cycle
  if x.state ≠ 2 ∨ x.stall ≠ .none ∨ x.coreFenced ∨ s.ahead t then s
  else match x.fetch with
    | .inr _ => s
    | .inl (i, w, len) =>
      let ws := wordsMet x.pc.toNat len
      if !want x i then s
      else if ws.any (fun w => SMap.get false x.imemBad w) then s.beadCommit t (.hard (s.beadFault x.progPart t 0 x.pc.toNat))
      else
        let s := s.updTile t (fun _ => x.heedWords ws)
        s.beadCommit t (sem s (s.tile t) i w len)

/-- Bits of a tile's memories have been upset (R118): of each word named (IMEM word w at w, DMEM word w at 4096 + w) one bit, or more than
one. [DESIGN CHOICE, log 55] -/
def Tile.upset (x : Tile) (ws : List (Nat × Bool)) : Tile :=
  ws.foldl (fun (x : Tile) e =>
    if e.2 || SMap.get false x.weak e.1 then
      let x := { x with weak := SMap.set false x.weak e.1 false }
      if e.1 < 4096 then { x with imemBad := SMap.set false x.imemBad e.1 true }
      else { x with dmemBad := SMap.set false x.dmemBad (e.1 - 4096) true }
    else { x with weak := SMap.set false x.weak e.1 true }) x

/-- The pc after an instruction of `len` bytes. -/
def Tile.next (x : Tile) (len : Nat) : Nat := (x.pc.toNat + len) % 2 ^ 32

/-- Complete with the tile changed by `f`. -/
def State.doneWith (s : State) (t pc cycles : Nat) (f : Tile → Tile) : BeadRes := .done (s.updTile t f) pc cycles

/-! ### Integer instructions (R123, R124) -/

/-- Result of an integer operation by funct3; `alt` is SUB or SRA. -/
def aluOp (f : Nat) (alt : Bool) (a b : Nat) : Nat :=
  let sh := b % 32
  match f with
  | 0 => if alt then (a + (2 ^ 32 - b % 2 ^ 32)) % 2 ^ 32 else (a + b) % 2 ^ 32
  | 1 => a * 2 ^ sh % 2 ^ 32
  | 2 => flag (decide (toSigned 32 a < toSigned 32 b))
  | 3 => flag (decide (a < b))
  | 4 => a ^^^ b
  | 5 => if alt then fromSigned 32 (toSigned 32 a / 2 ^ sh) else a / 2 ^ sh
  | 6 => a ||| b
  | _ => a &&& b

/-- Integer register and immediate operations, LUI, AUIPC. -/
def State.semInteger (s : State) (t : Nat) (x : Tile) (i : BeadInstr) (len : Nat) : BeadRes :=
  let put (rd v : Nat) : BeadRes := s.doneWith t (x.next len) 1 (fun y => y.setReg rd v)
  match i with
  | .lui rd imm => put rd imm
  | .auipc rd imm => put rd ((x.pc.toNat + imm) % 2 ^ 32)
  | .opImm f alt rd rs1 imm => put rd (aluOp f alt (x.reg rs1) imm)
  | .opReg f alt rd rs1 rs2 => put rd (aluOp f alt (x.reg rs1) (x.reg rs2))
  | _ => .done s (x.next len) 1

/-- The condition of a branch by funct3. -/
def branchTaken (f a b : Nat) : Bool :=
  match f with
  | 0 => a == b
  | 1 => a != b
  | 4 => decide (toSigned 32 a < toSigned 32 b)
  | 5 => !decide (toSigned 32 a < toSigned 32 b)
  | 6 => decide (a < b)
  | _ => !decide (a < b)

/-- Multiply and divide, as the M standard defines them. -/
def mulDiv (f a b : Nat) : Nat :=
  let sa := toSigned 32 a
  let sb := toSigned 32 b
  match f with
  | 0 => a * b % 2 ^ 32
  | 1 => fromSigned 32 (sa * sb / 2 ^ 32)
  | 2 => fromSigned 32 (sa * (b : Int) / 2 ^ 32)
  | 3 => a * b / 2 ^ 32
  | 4 => if b = 0 then 2 ^ 32 - 1 else fromSigned 32 (Int.tdiv sa sb)
  | 5 => if b = 0 then 2 ^ 32 - 1 else a / b
  | 6 => if b = 0 then a else fromSigned 32 (Int.tmod sa sb)
  | _ => if b = 0 then a else a % b

/-! ### Loads and stores (R124, R125, R127) -/

/-- Bytes of a load or store by funct3. -/
def accessSize (f : Nat) : Nat := if f % 4 = 0 then 1 else if f % 4 = 1 then 2 else 4

/-- A loaded value by funct3. -/
def loadValue (f v : Nat) : Nat :=
  match f with
  | 0 => sext32 8 v
  | 1 => sext32 16 v
  | _ => v

/-- The effective address rs1 + imm. -/
def Tile.addr (x : Tile) (rs1 imm : Nat) : Nat := (x.reg rs1 + imm) % 2 ^ 32

/-- The registers of the router-port region (Table 5.7). -/
inductive PortReg where
  | tx (c off : Nat)
  | rx (c off : Nat)
  | txCfg (c : Nat)
  | rxCfg (c : Nat)
  | txCount (c : Nat)
  | rxCount (c : Nat)
  | await (c : Nat)
  | barrier (b : Nat)
  | frame
  | framePos
  | none
  deriving DecidableEq

/-- The register that holds an access of `n` bytes at `a`. -/
def portReg (a n : Nat) : PortReg :=
  let o := a - 0x20000
  if !inPorts a n then .none
  else if o < 0x100 then if o % 0x40 + n ≤ 32 then .tx (o / 0x40) (o % 0x40) else .none
  else if o < 0x200 then if o % 0x40 + n ≤ 32 then .rx ((o - 0x100) / 0x40) (o % 0x40) else .none
  else if n ≠ 4 then .none
  else if o < 0x240 then
    if o % 0x10 = 0 then .txCfg ((o - 0x200) / 0x10) else if o % 0x10 = 4 then .rxCfg ((o - 0x200) / 0x10) else .none
  else if 0x300 ≤ o ∧ o < 0x340 then
    if o % 0x10 = 0 then .txCount ((o - 0x300) / 0x10) else if o % 0x10 = 4 then .rxCount ((o - 0x300) / 0x10)
    else if o % 0x10 = 8 then .await ((o - 0x300) / 0x10) else .none
  else if 0x800 ≤ o ∧ o < 0x880 then if o % 8 = 0 then .barrier ((o - 0x800) / 8) else .none
  else if o = 0x900 then .frame
  else if o = 0x908 then .framePos
  else .none

/-- The word of a channel's configuration register. -/
def Channel.cfgWord (c : Channel) : Nat := flag c.dmemMode * 2 ^ 31 + c.length * 2 ^ 16 + c.base * 32

/-- The run of the program on tile `x`, which its router ports belong to (R182). -/
def State.runOf (s : State) (x : Tile) : Option RunState :=
  if x.inRun then (s.sched x.progPart).run else none

/-- Loads of the port registers that never wait: configurations, counts, the frame position. -/
def State.portLoad (s : State) (x : Tile) (r : PortReg) : Option Nat :=
  match s.runOf x, r with
  | some _, .txCfg c => some (x.txCh c).cfgWord
  | some _, .rxCfg c => some (x.rxCh c).cfgWord
  | some _, .txCount c => some (x.txCh c).count
  | some _, .rxCount c => some (x.rxCh c).count
  | some run, .framePos => some (run.framesDone * 65536 + (if x.cycle < run.frameStart then 0 else
      (x.cycle - run.frameStart) % max 1 (s.sched x.progPart).frameLen))
  | _, _ => none

/-- A scalar load outside the ports that wait: a misaligned address is reported before a foreign one. [DESIGN CHOICE, log 108] -/
def State.semLoad (s : State) (t : Nat) (x : Tile) (i : BeadInstr) (len : Nat) : BeadRes :=
  match i with
  | .load f rd rs1 imm =>
    let a := x.addr rs1 imm
    let n := accessSize f
    if a % n ≠ 0 then .trap 4 a false
    else if inPorts a n then
      match s.portLoad x (portReg a n) with
      | some v => s.doneWith t (x.next len) 2 (fun y => y.setReg rd v)
      | none => .trap 5 a false
    else match s.beadRead t a n with
      | .data s bs => s.doneWith t (x.next len) (if inDmem a n then 2 else 16) (fun y => y.setReg rd (loadValue f (leNat bs)))
      | .fault w => .trap 5 a w
      | .hard s' => .hard s'
  | _ => .done s (x.next len) 1

/-- A scalar store outside the port registers that take one. [DESIGN CHOICE, log 108] -/
def State.semStore (s : State) (t : Nat) (x : Tile) (i : BeadInstr) (len : Nat) : BeadRes :=
  match i with
  | .store f rs1 rs2 imm =>
    let a := x.addr rs1 imm
    let n := accessSize f
    if a % n ≠ 0 then .trap 6 a false
    else match s.beadWrite t a (natLe n (x.reg rs2)) with
      | .done s' => .done s' (x.next len) (if inDmem a n then (if n = 4 then 1 else 2) else 8)
      | .fault w => .trap 7 a w
      | .hard s' => .hard s'
  | _ => .done s (x.next len) 1

/-! ### CSRs (R126) -/

/-- The value of a CSR other than the clasp ones; none: no such CSR (Table 4.2). -/
def State.csrRead (s : State) (t : Nat) (x : Tile) (n : Nat) : Option Nat :=
  let lo (v : Nat) := v % 2 ^ 32
  let hi (v : Nat) := v / 2 ^ 32 % 2 ^ 32
  match n with
  | 0x300 => some 0x1800
  | 0x301 => some 0x40801104
  | 0x304 => some 0
  | 0x305 => some x.mtvec.toNat
  | 0x340 => some x.mscratch.toNat
  | 0x341 => some x.mepc.toNat
  | 0x342 => some x.mcause.toNat
  | 0x343 => some x.mtval.toNat
  | 0x344 => some 0
  | 0xB00 => some (lo x.cycle)
  | 0xB80 => some (hi x.cycle)
  | 0xB02 => some (lo x.instret)
  | 0xB82 => some (hi x.instret)
  | 0xC00 => some (lo x.cycle)
  | 0xC80 => some (hi x.cycle)
  | 0xC02 => some (lo x.instret)
  | 0xC82 => some (hi x.instret)
  | 0xF11 => some 0
  | 0xF12 => some 0xB5E
  | 0xF13 => some 0xA1
  | 0xF14 => some t
  | 0x7C0 => some x.lseCfg.toNat
  | 0x7C1 => some x.lseSmooth.toNat
  | 0x7C2 => some x.claspId.toNat
  | 0x7C3 => some (if x.signalTick = s.tick.count then x.signals else 0)
  | 0xFC0 => some ((s.beadOfTile t).getD 0xFFFF)
  | 0xFC1 => some x.progPart
  | 0xFC2 => some (lo s.tick.count)
  | 0xFC3 => some (hi s.tick.count)
  | 0xFC4 => some (flag x.trapActive + (if x.signalTick = s.tick.count then x.signals else 0) * 256)
  | 0xFC5 => some (lo x.launchTick)
  | _ => none

/-- A write of a CSR other than bead.clasp_add: ignored where Table 4.2 says so; the reserved bits of bead.lse_cfg stay zero. [DESIGN CHOICE, log 108] -/
def Tile.csrWrite (x : Tile) (n v : Nat) : Tile :=
  let w : W32 := BitVec.ofNat 32 v
  match n with
  | 0x305 => { x with mtvec := BitVec.ofNat 32 (v / 4 * 4) }
  | 0x340 => { x with mscratch := w }
  | 0x341 => { x with mepc := BitVec.ofNat 32 (v / 2 * 2) }
  | 0x342 => { x with mcause := w }
  | 0x343 => { x with mtval := w }
  | 0x7C0 => { x with lseCfg := BitVec.ofNat 32 (bits v 9 0 + bits v 23 16 * 65536) }
  | 0x7C1 => { x with lseSmooth := w }
  | 0x7C2 => { x with claspId := w }
  | _ => x

/-- The CSR instruction writes (the standard: CSRRW always, CSRRS and CSRRC when the rs1 field is not zero). -/
def csrWrites (f rs1 : Nat) : Bool := f % 4 == 1 || rs1 != 0

/-- The value a CSR instruction writes, from the old value and the operand. -/
def csrValue (f old v : Nat) : Nat :=
  match f % 4 with
  | 1 => v
  | 2 => old ||| v
  | _ => old &&& (2 ^ 32 - 1 - v)

/-- The operand of a CSR instruction: a register, or the five-bit immediate. -/
def Tile.csrOperand (x : Tile) (f rs1 : Nat) : Nat := if 4 ≤ f then rs1 else x.reg rs1

/-- CSR instructions but for the clasp CSRs (R126). -/
def State.semCsr (s : State) (t : Nat) (x : Tile) (i : BeadInstr) (w len : Nat) : BeadRes :=
  match i with
  | .csr f rd n rs1 =>
    match s.csrRead t x n with
    | none => .trap 2 w false
    | some old =>
      if csrWrites f rs1 then
        if 0xC00 ≤ n then .trap 2 w false
        else s.doneWith t (x.next len) 2 (fun y => (y.csrWrite n (csrValue f old (x.csrOperand f rs1))).setReg rd old)
      else s.doneWith t (x.next len) 2 (fun y => y.setReg rd old)
  | _ => .done s (x.next len) 1

/-- The clasp named by bead.clasp_id may be used by the tile's partition (R146). -/
def State.claspOk (s : State) (x : Tile) : Bool :=
  decide (x.claspId.toNat < 16384) && s.ownsClasp x.progPart x.claspId.toNat

/-- A write to bead.clasp_add (R146). -/
def State.semClaspAdd (s : State) (t : Nat) (x : Tile) (i : BeadInstr) (len : Nat) : BeadRes :=
  match i with
  | .csr f rd _ rs1 =>
    let queued := if x.signalTick = s.tick.count then x.signals else 0
    let v := csrValue f queued (x.csrOperand f rs1)
    let k := x.claspId.toNat
    if !s.claspOk x then .trap 24 k false
    else if 16 ≤ queued then .trap 25 k false
    else
      let add := if s.sealedPart x.progPart then 1 else if v % 2 ^ 31 = 0 then 1 else v % 2 ^ 31
      (s.signal k add (bit v 31)).doneWith t (x.next len) 2 (fun y =>
        { y with signals := queued + 1, signalTick := s.tick.count }.setReg rd queued)
  | _ => .done s (x.next len) 1

/-- A read of bead.clasp_val or bead.clasp_valh (R147). -/
def State.semClaspVal (s : State) (t : Nat) (x : Tile) (i : BeadInstr) (w len : Nat) : BeadRes :=
  match i with
  | .csr f rd n rs1 =>
    if csrWrites f rs1 then .trap 2 w false
    else if !s.claspOk x then .trap 24 x.claspId.toNat false
    else
      let v := s.clasp x.claspId.toNat
      s.doneWith t (x.next len) 24 (fun y => y.setReg rd (if n = 0xFC6 then v % 2 ^ 32 else v / 2 ^ 32))
  | _ => .done s (x.next len) 1

end Sys2Proof.Machine
end

