-- ==== Sys2Proof/Machine/Beads.lean ====
section
/-! DEFINITION. The bead instructions, one meaning per command (04_bead_cores.md, 05_mesh_filigree.md).  A command executes the
instruction at the pc of its tile if that instruction is one of the command's; otherwise it has no occasion. -/

namespace Sys2Proof.Machine

/-- The tile exists (R3). -/
def tileOk (t : Nat) : Bool := decide (t < 4608)

/-! ### The standard instructions (R122 to R126) -/

/-- INTEGER_OP (R124). -/
def execIntegerOp (t : Nat) (s : State) : Host.Outcome State Fault Refusal :=
  guarded "INTEGER_OP" (tileOk t) (s.bead t
    (fun _ i => match i with
      | .lui .. => true
      | .auipc .. => true
      | .opImm .. => true
      | .opReg .. => true
      | _ => false)
    (fun s x i _ len => s.semInteger t x i len))

/-- BRANCH (R124). -/
def execBranch (t : Nat) (s : State) : Host.Outcome State Fault Refusal :=
  guarded "BRANCH" (tileOk t) (s.bead t
    (fun _ i => match i with
      | .branch .. => true
      | _ => false)
    (fun s x i _ len => match i with
      | .branch f rs1 rs2 imm =>
        if branchTaken f (x.reg rs1) (x.reg rs2) then .done s ((x.pc.toNat + imm) % 2 ^ 32) 3 else .done s (x.next len) 1
      | _ => .done s (x.next len) 1))

/-- JUMP (R124): JAL and JALR; JALR clears bit 0 of its target (R154). -/
def execJump (t : Nat) (s : State) : Host.Outcome State Fault Refusal :=
  guarded "JUMP" (tileOk t) (s.bead t
    (fun _ i => match i with
      | .jal .. => true
      | .jalr .. => true
      | _ => false)
    (fun s x i _ len => match i with
      | .jal rd imm => s.doneWith t ((x.pc.toNat + imm) % 2 ^ 32) 3 (fun y => y.setReg rd (x.next len))
      | .jalr rd rs1 imm => s.doneWith t (x.addr rs1 imm / 2 * 2) 3 (fun y => y.setReg rd (x.next len))
      | _ => .done s (x.next len) 1))

/-- BEAD_LOAD (R127): a scalar load from DMEM, the Casket window, or a port register that never waits; `upset`: words of the tile's
memories that have been upset before it (R118). -/
def execBeadLoad (t : Nat) (upset : List (Nat × Bool)) (s : State) : Host.Outcome State Fault Refusal :=
  guarded "BEAD_LOAD" (tileOk t && upset.all (fun e => decide (e.1 < 20480))) ((s.updTile t (fun x => x.upset upset)).bead t
    (fun x i => match i with
      | .load f _ rs1 imm =>
        let a := x.addr rs1 imm
        match portReg a (accessSize f) with
        | .rx _ _ => !x.inRun || accessSize f != 4 || a % 4 != 0
        | .barrier _ => !x.inRun
        | .frame => !x.inRun
        | _ => true
      | _ => false)
    (fun s x i _ len => s.semLoad t x i len))

/-- BEAD_STORE (R127): a scalar store to DMEM or the Casket window; elsewhere it faults. -/
def execBeadStore (t : Nat) (upset : List (Nat × Bool)) (s : State) : Host.Outcome State Fault Refusal :=
  guarded "BEAD_STORE" (tileOk t && upset.all (fun e => decide (e.1 < 20480))) ((s.updTile t (fun x => x.upset upset)).bead t
    (fun x i => match i with
      | .store f rs1 _ imm =>
        let a := x.addr rs1 imm
        match portReg a (accessSize f) with
        | .tx _ _ => !x.inRun || accessSize f != 4 || a % 4 != 0
        | .txCfg _ => !x.inRun
        | .rxCfg _ => !x.inRun
        | .await _ => !x.inRun
        | .barrier _ => !x.inRun
        | _ => true
      | _ => false)
    (fun s x i _ len => s.semStore t x i len))

/-- MUL (R124). -/
def execMul (t : Nat) (s : State) : Host.Outcome State Fault Refusal :=
  guarded "MUL" (tileOk t) (s.bead t
    (fun _ i => match i with
      | .mulDiv f _ _ _ => decide (f < 4)
      | _ => false)
    (fun s x i _ len => match i with
      | .mulDiv f rd rs1 rs2 => s.doneWith t (x.next len) 3 (fun y => y.setReg rd (mulDiv f (x.reg rs1) (x.reg rs2)))
      | _ => .done s (x.next len) 1))

/-- DIV (R124): divisions and remainders, 34 cycles whatever the operands. -/
def execDiv (t : Nat) (s : State) : Host.Outcome State Fault Refusal :=
  guarded "DIV" (tileOk t) (s.bead t
    (fun _ i => match i with
      | .mulDiv f _ _ _ => decide (4 ≤ f)
      | _ => false)
    (fun s x i _ len => match i with
      | .mulDiv f rd rs1 rs2 => s.doneWith t (x.next len) 34 (fun y => y.setReg rd (mulDiv f (x.reg rs1) (x.reg rs2)))
      | _ => .done s (x.next len) 1))

/-- CSR_ACCESS (R126): a CSR instruction on any CSR but the clasp ones, or on one that does not exist. -/
def execCsrAccess (t : Nat) (s : State) : Host.Outcome State Fault Refusal :=
  guarded "CSR_ACCESS" (tileOk t) (s.bead t
    (fun _ i => match i with
      | .csr f _ n rs1 => !((n == 0x7C3 && csrWrites f rs1) || n == 0xFC6 || n == 0xFC7)
      | _ => false)
    (fun s x i w len => s.semCsr t x i w len))

/-- FENCE (R123). -/
def execFence (t : Nat) (s : State) : Host.Outcome State Fault Refusal :=
  guarded "FENCE" (tileOk t) (s.bead t
    (fun _ i => match i with
      | .fence => true
      | _ => false)
    (fun s x _ _ len => .done s (x.next len) 1))

/-- ECALL (R151, Table 4.10): with a7 = 0 the program ends with exit value a0; otherwise trap cause 11. -/
def execEcall (t : Nat) (s : State) : Host.Outcome State Fault Refusal :=
  guarded "ECALL" (tileOk t) (s.bead t
    (fun _ i => match i with
      | .ecall => true
      | _ => false)
    (fun s x _ _ _ =>
      if x.reg 17 = 0 then
        .ends ((s.updTile t (fun y => { y with cycle := y.cycle + 4, instret := y.instret + 1 })).beadEnded t (.exit (x.reg 10)))
      else .trap 11 0 false))

/-- The bead debug halt is open in the present life-cycle state (Table 13.9). -/
def State.beadHaltOpen (s : State) : Bool :=
  match s.locket.lc with
  | 3 => s.ctl.debugHalt
  | 5 => false
  | _ => true

/-- EBREAK (R157): halts a claimed core while debug access is open; otherwise trap cause 3. -/
def execEbreak (t : Nat) (s : State) : Host.Outcome State Fault Refusal :=
  guarded "EBREAK" (tileOk t) (s.bead t
    (fun _ i => match i with
      | .ebreak => true
      | _ => false)
    (fun s x _ _ _ =>
      if s.beadHaltOpen && s.dbg.claim && s.dbg.tile == t && !(s.locket.lc == 3 && s.sealedPart x.progPart) then
        .ends (s.updTile t (fun y => { y with state := 3 }))
      else .trap 3 x.pc.toNat false))

/-- MRET (R155). -/
def execMret (t : Nat) (s : State) : Host.Outcome State Fault Refusal :=
  guarded "MRET" (tileOk t) (s.bead t
    (fun _ i => match i with
      | .mret => true
      | _ => false)
    (fun s x _ _ _ => s.doneWith t x.mepc.toNat 4 (fun y => { y with trapActive := false })))

/-- WFI (R122): the core stalls until the next tick boundary. -/
def execWfi (t : Nat) (s : State) : Host.Outcome State Fault Refusal :=
  guarded "WFI" (tileOk t) (s.bead t
    (fun _ i => match i with
      | .wfi => true
      | _ => false)
    (fun s x _ _ len => s.doneWith t (x.next len) 0 (fun y => { y with stall := .wfi s.tick.count })))

/-- The first core cycle of tile `x`'s program at or after now. -/
def State.programCycle (s : State) (t : Nat) : Nat := s.cycleNow (tileCol t / 36) - (s.tile t).origin / clockUnit

/-- A tick begins (R122, R144): a core stalled in WFI goes on in its first cycle from now on, and every window store is visible. -/
def State.beadBoundary (s : State) : State :=
  let stalled (x : Tile) : Bool := match x.stall with
    | .wfi n => x.state == 2 && n + 1 == s.tick.count
    | _ => false
  let s : State := { s with casket := { s.casket with late := [] } }
  (s.tiles.filter (fun e => stalled e.2)).foldl (fun s e => s.updTile e.1 (fun x => { x with cycle := max x.cycle (s.programCycle e.1) })) s

/-- WFI_WAKE (R122): a core stalled in WFI goes on in the first core cycle at or after the tick boundary. -/
def execWfiWake (t : Nat) (s : State) : Host.Outcome State Fault Refusal :=
  guarded "WFI_WAKE" (tileOk t) (
    let x := s.tile t
    match x.stall with
    | .wfi n =>
      if x.state = 2 ∧ n < s.tick.count then
        let s := s.updTile t (fun y => { y with stall := .none })
        if x.inRun then s.advance x.progPart else s
      else s
    | _ => s)

/-- ILLEGAL_INSTRUCTION (R123, R127, R128): an encoding outside the core's sets raises cause 2; a fetch outside IMEM raises
cause 1. -/
def execIllegalInstruction (t : Nat) (s : State) : Host.Outcome State Fault Refusal :=
  guarded "ILLEGAL_INSTRUCTION" (tileOk t) (
    let x := s.tile t
    match x.fetch with
    | .inr a => if x.state ≠ 2 ∨ x.stall ≠ .none ∨ x.coreFenced ∨ s.ahead t then s else s.beadCommit t (.trap 1 a false)
    | .inl _ => s.bead t
        (fun _ i => match i with
          | .illegal => true
          | _ => false)
        (fun _ _ _ w _ => .trap 2 w false))

/-! ### Byte SIMD (R129 to R132) -/

/-- One byte of a vector–vector operation other than VSHUF.B (Table 4.5): from vd, vs1, vs2. -/
def vvByte (f : Nat) (d a b : Byte) : Byte :=
  match f with
  | 0x0 => a + b
  | 0x1 => a - b
  | 0x2 => BitVec.ofNat 8 (min (a.toNat + b.toNat) 255)
  | 0x3 => BitVec.ofNat 8 (a.toNat - b.toNat)
  | 0x4 => if b < a then b else a
  | 0x5 => if a < b then b else a
  | 0x6 => a &&& b
  | 0x7 => a ||| b
  | 0x8 => a ^^^ b
  | 0x9 => a &&& ~~~b
  | 0xA => if a = b then 0xFF else 0
  | 0xB => if a < b then 0xFF else 0
  | 0xD => (d &&& a) ||| (~~~d &&& b)
  | _ => a >>> (b.toNat % 8)

/-- VSHUF.B: bytes of vs1 by the indices in vs2. -/
def vshuf (a b : Bytes) : Bytes :=
  b.map (fun i => if i.toNat ≥ 128 then 0 else a.getD (i.toNat % 16) 0)

/-- A vector–vector operation (Table 4.5). -/
def vvOp (f : Nat) (d a b : BitVec 128) : BitVec 128 :=
  if f = 0xC then vofBytes (vshuf (vbytes a) (vbytes b))
  else vofBytes (List.zipWith (fun (y : Byte × Byte) (z : Byte) => vvByte f y.1 y.2 z) ((vbytes d).zip (vbytes a)) (vbytes b))

/-- The core of tile `t` executes the vector–vector operation with funct7 `f`. -/
def State.beadVv (s : State) (t f : Nat) : State :=
  s.bead t
    (fun _ i => match i with
      | .vv g _ _ _ => g == f
      | _ => false)
    (fun s x i _ len => match i with
      | .vv g vd vs1 vs2 => s.doneWith t (x.next len) 1 (fun y => y.setVreg vd (vvOp g (x.vreg vd) (x.vreg vs1) (x.vreg vs2)))
      | _ => .done s (x.next len) 1)

/-- VADD.B (R130). -/
def execVaddB (t : Nat) (s : State) : Host.Outcome State Fault Refusal := guarded "VADD_B" (tileOk t) (s.beadVv t 0x0)
/-- VSUB.B (R130). -/
def execVsubB (t : Nat) (s : State) : Host.Outcome State Fault Refusal := guarded "VSUB_B" (tileOk t) (s.beadVv t 0x1)
/-- VADDSU.B (R130). -/
def execVaddsuB (t : Nat) (s : State) : Host.Outcome State Fault Refusal := guarded "VADDSU_B" (tileOk t) (s.beadVv t 0x2)
/-- VSUBSU.B (R130). -/
def execVsubsuB (t : Nat) (s : State) : Host.Outcome State Fault Refusal := guarded "VSUBSU_B" (tileOk t) (s.beadVv t 0x3)
/-- VMINU.B (R130). -/
def execVminuB (t : Nat) (s : State) : Host.Outcome State Fault Refusal := guarded "VMINU_B" (tileOk t) (s.beadVv t 0x4)
/-- VMAXU.B (R130). -/
def execVmaxuB (t : Nat) (s : State) : Host.Outcome State Fault Refusal := guarded "VMAXU_B" (tileOk t) (s.beadVv t 0x5)
/-- VAND (R130). -/
def execVand (t : Nat) (s : State) : Host.Outcome State Fault Refusal := guarded "VAND" (tileOk t) (s.beadVv t 0x6)
/-- VOR (R130). -/
def execVor (t : Nat) (s : State) : Host.Outcome State Fault Refusal := guarded "VOR" (tileOk t) (s.beadVv t 0x7)
/-- VXOR (R130). -/
def execVxor (t : Nat) (s : State) : Host.Outcome State Fault Refusal := guarded "VXOR" (tileOk t) (s.beadVv t 0x8)
/-- VANDN (R130). -/
def execVandn (t : Nat) (s : State) : Host.Outcome State Fault Refusal := guarded "VANDN" (tileOk t) (s.beadVv t 0x9)
/-- VCMPEQ.B (R130). -/
def execVcmpeqB (t : Nat) (s : State) : Host.Outcome State Fault Refusal := guarded "VCMPEQ_B" (tileOk t) (s.beadVv t 0xA)
/-- VCMPLTU.B (R130). -/
def execVcmpltuB (t : Nat) (s : State) : Host.Outcome State Fault Refusal := guarded "VCMPLTU_B" (tileOk t) (s.beadVv t 0xB)
/-- VSHUF.B (R130). -/
def execVshufB (t : Nat) (s : State) : Host.Outcome State Fault Refusal := guarded "VSHUF_B" (tileOk t) (s.beadVv t 0xC)
/-- VSEL (R130). -/
def execVsel (t : Nat) (s : State) : Host.Outcome State Fault Refusal := guarded "VSEL" (tileOk t) (s.beadVv t 0xD)
/-- VSHR.B (R130). -/
def execVshrB (t : Nat) (s : State) : Host.Outcome State Fault Refusal := guarded "VSHR_B" (tileOk t) (s.beadVv t 0xE)

/-- VMSK (R131). -/
def execVmsk (t : Nat) (s : State) : Host.Outcome State Fault Refusal :=
  guarded "VMSK" (tileOk t) (s.bead t
    (fun _ i => match i with
      | .vmsk .. => true
      | _ => false)
    (fun s x i _ len => match i with
      | .vmsk rd vs1 => s.doneWith t (x.next len) 1 (fun y => y.setReg rd
          (maskOf ((List.range 16).filter (fun k => (x.vreg vs1).toNat.testBit (8 * k + 7)))))
      | _ => .done s (x.next len) 1))

/-- VEXT.W (R131). -/
def execVextW (t : Nat) (s : State) : Host.Outcome State Fault Refusal :=
  guarded "VEXT_W" (tileOk t) (s.bead t
    (fun _ i => match i with
      | .vextW .. => true
      | _ => false)
    (fun s x i _ len => match i with
      | .vextW rd vs1 idx => s.doneWith t (x.next len) 1 (fun y => y.setReg rd (bits (x.vreg vs1).toNat (32 * idx + 31) (32 * idx)))
      | _ => .done s (x.next len) 1))

/-- VSPLAT.B (R131). -/
def execVsplatB (t : Nat) (s : State) : Host.Outcome State Fault Refusal :=
  guarded "VSPLAT_B" (tileOk t) (s.bead t
    (fun _ i => match i with
      | .vsplatB .. => true
      | _ => false)
    (fun s x i _ len => match i with
      | .vsplatB vd rs1 => s.doneWith t (x.next len) 1 (fun y => y.setVreg vd
          (vofBytes (List.replicate 16 (BitVec.ofNat 8 (x.reg rs1)))))
      | _ => .done s (x.next len) 1))

/-- VINS.W (R131). -/
def execVinsW (t : Nat) (s : State) : Host.Outcome State Fault Refusal :=
  guarded "VINS_W" (tileOk t) (s.bead t
    (fun _ i => match i with
      | .vinsW .. => true
      | _ => false)
    (fun s x i _ len => match i with
      | .vinsW vd rs1 idx => s.doneWith t (x.next len) 1 (fun y => y.setVreg vd
          (vofBytes (splice (vbytes (x.vreg vd)) (4 * idx) (natLe 4 (x.reg rs1)))))
      | _ => .done s (x.next len) 1))

/-- Cycles of a 16-byte access (R132). -/
def vecCycles (a : Nat) (store : Bool) : Nat :=
  if inDmem a 16 then (if a % 16 = 0 then 1 else 2) else if inWindow a 16 then (if store then 8 else 16) else 1

/-- A load from RX channel `c` at offset `off` of its head word: the bytes, the load that removes it, or a stall (R177). -/
def State.rxTake (s : State) (t c off n : Nat) : Option (Bytes × State) :=
  match ((s.tile t).rxCh c).fifo with
  | [] => none
  | (from_, w) :: rest =>
    let s := s.updTile t (fun x => { x with cycle := max x.cycle from_ })
    some (slice w.data off n,
      if off + n = 32 then s.updTile t (fun x => x.updRx c (fun y => { y with fifo := rest })) else s)

/-- A store into the staging word of TX channel `c`; a store that writes byte 31 commits the word, or stalls on a full channel
(R177). [DESIGN CHOICE, log 53] -/
def State.txPut (s : State) (t c off cycles : Nat) (bs : Bytes) : Option State :=
  let x := s.tile t
  let ch := x.txCh c
  let st := SMap.setList 0 ch.staging off bs
  if off + bs.length < 32 then some (s.updTile t (fun x => x.updTx c (fun y => { y with staging := st })))
  else if ch.dmemMode then some (s.updTile t (fun x => x.updTx c (fun y => { y with staging := st })))
  else if 4 ≤ ch.fifo.length then none
  else some (s.updTile t (fun x => x.updTx c (fun y => { y with
    staging := st, fifo := y.fifo ++ [(x.cycle + cycles, ⟨SMap.getList 0 st 0 32, 0, false⟩)] })))

/-- VLD (R132, R180): from DMEM, the Casket window, or an RX channel. -/
def execVld (t : Nat) (s : State) : Host.Outcome State Fault Refusal :=
  guarded "VLD" (tileOk t) (s.bead t
    (fun _ i => match i with
      | .vld .. => true
      | _ => false)
    (fun s x i _ len => match i with
      | .vld vd rs1 imm =>
        let a := x.addr rs1 imm
        if a % 8 ≠ 0 then .trap 4 a false
        else if inPorts a 16 then
          match s.runOf x, portReg a 16 with
          | some _, .rx c off =>
            match s.rxTake t c off 16 with
            | some (bs, s') => s'.doneWith t (x.next len) 1 (fun y => y.setVreg vd (vofBytes bs))
            | none => .stall s (.rx c)
          | _, _ => .trap 5 a false
        else match s.beadRead t a 16 with
          | .data s bs => s.doneWith t (x.next len) (vecCycles a false) (fun y => y.setVreg vd (vofBytes bs))
          | .fault w => .trap 5 a w
          | .hard s' => .hard s'
      | _ => .done s (x.next len) 1))

/-- VST (R132, R180): to DMEM, the Casket window, or a TX channel. -/
def execVst (t : Nat) (s : State) : Host.Outcome State Fault Refusal :=
  guarded "VST" (tileOk t) (s.bead t
    (fun _ i => match i with
      | .vst .. => true
      | _ => false)
    (fun s x i _ len => match i with
      | .vst vs2 rs1 imm =>
        let a := x.addr rs1 imm
        let bs := vbytes (x.vreg vs2)
        if a % 8 ≠ 0 then .trap 6 a false
        else if inPorts a 16 then
          match s.runOf x, portReg a 16 with
          | some _, .tx c off =>
            match s.txPut t c off 1 bs with
            | some s' => .done s' (x.next len) 1
            | none => .stall s (.tx c)
          | _, _ => .trap 7 a false
        else match s.beadWrite t a bs with
          | .done s' => .done s' (x.next len) (vecCycles a true)
          | .fault w => .trap 7 a w
          | .hard s' => .hard s'
      | _ => .done s (x.next len) 1))

/-! ### Keccak, trie, top-k, LSE, scalar FP32 (R133 to R140) -/

/-- The 208 bytes of v0 to v12. -/
def Tile.keccakBytes (x : Tile) : Bytes := ((List.range 13).map (fun i => vbytes (x.vreg i))).flatten

/-- KROUND (R133). -/
def execKround (t : Nat) (s : State) : Host.Outcome State Fault Refusal :=
  guarded "KROUND" (tileOk t) (s.bead t
    (fun _ i => match i with
      | .kround .. => true
      | _ => false)
    (fun s x i w len => match i with
      | .kround rs1 =>
        let r := x.reg rs1 % 32
        if 24 ≤ r then .trap 2 w false
        else
          let a := keccakRound (keccakLanes x.keccakBytes) (keccakRC.getD r 0)
          let bs := laneBytes a ++ x.keccakBytes.drop 200
          s.doneWith t (x.next len) 2 (fun y => (List.range 13).foldl (fun z k => z.setVreg k (vofBytes (slice bs (16 * k) 16))) y)
      | _ => .done s (x.next len) 1))

/-- The binary search of R134 among n entries; `fuel` bounds it. -/
def trieSearch (key : Nat → Nat) (b : Nat) : Nat → Nat → Nat → Nat
  | 0, lo, _ => lo
  | fuel + 1, lo, hi =>
    if lo < hi then
      let mid := (lo + hi) / 2
      if key mid < b then trieSearch key b fuel (mid + 1) hi else trieSearch key b fuel lo mid
    else lo

/-- TSTEP (R134); a child offset is returned as it stands. [DEDUCED, log 52; DESIGN CHOICE, log 108] -/
def execTstep (t : Nat) (s : State) : Host.Outcome State Fault Refusal :=
  guarded "TSTEP" (tileOk t) (s.bead t
    (fun _ i => match i with
      | .tstep .. => true
      | _ => false)
    (fun s x i _ len => match i with
      | .tstep rd rs1 rs2 =>
        let a := x.reg rs1
        let b := x.reg rs2 % 256
        if a % 4 ≠ 0 then .trap 26 a false
        else if !inDmem a 4 then .trap 5 a false
        else match s.beadRead t a 4 with
          | .data s h =>
            let n := bits (leNat h) 31 23
            if 256 < n then .trap 26 a false
            else if !inDmem a (4 + 4 * n) then .trap 5 a false
            else match s.beadRead t a (4 + 4 * n) with
              | .data s node =>
                let entry (e : Nat) := fieldLe node (4 + 4 * e) 4
                let lo := trieSearch (fun e => bits (entry e) 31 24) b 10 0 n
                let v := if lo < n ∧ bits (entry lo) 31 24 = b then 0x10000 + entry lo % 65536 else 0xFFFFFFFF
                s.doneWith t (x.next len) 12 (fun y => y.setReg rd v)
              | .fault _ => .trap 5 a false
              | .hard s' => .hard s'
          | .fault _ => .trap 5 a false
          | .hard s' => .hard s'
      | _ => .done s (x.next len) 1))

/-- A candidate entry of R68. -/
def candOf (e : Bytes) : Cand := ⟨fieldLe e 0 8, f32 (fieldLe e 8 4)⟩

/-- The list of R135 after an insertion, and the place, if the candidate ranks: k, the entries, the candidate. -/
def topkInsert (k : Nat) (entries : List Bytes) (cand : Bytes) : Option (List Bytes × Nat) :=
  let c := candOf cand
  if byteAt cand 14 % 2 = 0 ∨ c.score.isNaN then none
  else
    let p := (entries.filter (fun e => !c.before (candOf e))).length
    if k ≤ p then none else some ((entries.take p ++ [cand] ++ entries.drop p).take k, p)

/-- TOPK (R135). [DEDUCED, log 52] -/
def execTopk (t : Nat) (s : State) : Host.Outcome State Fault Refusal :=
  guarded "TOPK" (tileOk t) (s.bead t
    (fun _ i => match i with
      | .topk .. => true
      | _ => false)
    (fun s x i _ len => match i with
      | .topk rd rs1 rs2 =>
        let a := x.reg rs1
        let b := x.reg rs2
        if a % 16 ≠ 0 then .trap 26 a false
        else if b % 16 ≠ 0 then .trap 26 b false
        else if !inDmem a 16 then .trap 5 a false
        else if !inDmem b 16 then .trap 5 b false
        else match s.beadReads t [(a, 16), (b, 16)] [] with
          | .data s [h, cand] =>
            let k := fieldLe h 0 2
            let n := fieldLe h 2 2
            if k = 0 ∨ 256 < k ∨ k < n ∨ ¬ allZero (slice h 4 12) then .trap 26 a false
            else if !inDmem a (16 + 16 * k) then .trap 5 a false
            else match s.beadRead t a (16 + 16 * n) with
              | .data s l =>
                let cyc := 6 + ceilDiv k 4
                match topkInsert k (chunks 16 n (l.drop 16)) cand with
                | none => s.doneWith t (x.next len) cyc (fun y => y.setReg rd 0xFFFFFFFF)
                | some (es, p) =>
                  s.doneWith t (x.next len) cyc (fun y => (y.writeDmem (a - 0x10000)
                    (clean (natLe 2 k ++ natLe 2 es.length ++ zeros 12 ++ es.flatten))).setReg rd p)
              | .fault _ => .trap 5 a false
              | .hard s' => .hard s'
          | .hard s' => .hard s'
          | _ => .trap 5 a false
      | _ => .done s (x.next len) 1))

/-- d and the finalise format of bead.lse_cfg, and whether they are legal (R137). -/
def Tile.lseD (x : Tile) : Nat := bits x.lseCfg.toNat 9 0
def Tile.lseFmt (x : Tile) : Nat := bits x.lseCfg.toNat 23 16
def Tile.lseOk (x : Tile) : Bool :=
  x.lseD % 64 == 0 && decide (64 ≤ x.lseD) && decide (x.lseD ≤ 512) && decide (x.lseFmt ≤ 2)

/-- A record's version and reserved bytes are legal (R137). -/
def recordOk (bs : Bytes) : Bool := byteAt bs 0 == 1 && byteAt bs 1 / 8 == 0 && allZero (slice bs 20 44)

/-- LSEC (R136). -/
def execLsec (t : Nat) (s : State) : Host.Outcome State Fault Refusal :=
  guarded "LSEC" (tileOk t) (s.bead t
    (fun _ i => match i with
      | .lsec .. => true
      | _ => false)
    (fun s x i _ len => match i with
      | .lsec rs1 rs2 =>
        let a := x.reg rs1
        let b := x.reg rs2
        let d := x.lseD
        let n := 4 * d + 64
        if !x.lseOk || a % 16 != 0 then .trap 26 a false
        else if b % 16 ≠ 0 then .trap 26 b false
        else if !inDmem a n then .trap 5 a false
        else if !inDmem b n then .trap 5 b false
        else match s.beadReads t [(a, n), (b, n)] [] with
          | .data s [ra, rb] =>
            if !recordOk ra then .trap 26 a false
            else if !recordOk rb then .trap 26 b false
            else s.doneWith t (x.next len) (16 + d / 2) (fun y =>
              y.writeDmem (a - 0x10000) (clean ((PRec.parse d ra).merge (PRec.parse d rb)).bytes))
          | .hard s' => .hard s'
          | _ => .trap 5 a false
      | _ => .done s (x.next len) 1))

/-- LSEF (R136). -/
def execLsef (t : Nat) (s : State) : Host.Outcome State Fault Refusal :=
  guarded "LSEF" (tileOk t) (s.bead t
    (fun _ i => match i with
      | .lsef .. => true
      | _ => false)
    (fun s x i _ len => match i with
      | .lsef rs1 rs2 =>
        let a := x.reg rs1
        let b := x.reg rs2
        let d := x.lseD
        let w := fmtBits x.lseFmt / 8
        let smooth := !bit x.lseSmooth.toNat 31
        let sm := x.lseSmooth.toNat
        if !x.lseOk || a % 16 != 0 then .trap 26 a false
        else if b % w ≠ 0 then .trap 26 b false
        else if !inDmem a (4 * d + 64) then .trap 5 a false
        else if !inDmem b (w * d) then .trap 5 b false
        else if smooth && !inDmem sm (4 * d) then .trap 5 sm false
        else match s.beadReads t [(a, 4 * d + 64), if smooth then (sm, 4 * d) else (a, 4)] [] with
          | .data s [ra, vs] =>
            if !recordOk ra then .trap 26 a false
            else
              let out := finalise x.lseFmt smooth vs d (PRec.parse d ra)
              s.doneWith t (x.next len) (16 + d / 2) (fun y =>
                y.writeDmem (b - 0x10000) (clean ((out.map (natLe w)).flatten)))
          | .hard s' => .hard s'
          | _ => .trap 5 a false
      | _ => .done s (x.next len) 1))

/-- The order key of an FP32 value (R140). -/
def orderKey (v : Nat) : Nat :=
  if (f32 v).isNaN then 0
  else if v = 0x80000000 then 0x80000000
  else if v < 0x80000000 then v + 0x80000000
  else 0xFFFFFFFF - v

/-- A scalar FP32 operation (Table 4.9). -/
def fpOp (f a b : Nat) : Nat :=
  match f with
  | 0 => code32 (rne32 (sumExact [f32 a, f32 b]))
  | 1 => code32 (rne32 ((f32 a).mul (f32 b)))
  | 2 => code32 ((f32 a).max71 (f32 b))
  | 3 => code32 (exp2 (f32 a))
  | 4 => code32 (rcp (f32 a))
  | _ => orderKey a

/-- The core of tile `t` executes the scalar FP32 operation with funct7 `f`. -/
def State.beadFp (s : State) (t f cycles : Nat) : State :=
  s.bead t
    (fun _ i => match i with
      | .fp g _ _ _ => g == f
      | _ => false)
    (fun s x i _ len => match i with
      | .fp g rd rs1 rs2 => s.doneWith t (x.next len) cycles (fun y => y.setReg rd (fpOp g (x.reg rs1) (x.reg rs2)))
      | _ => .done s (x.next len) 1)

/-- FADD32 (R139). -/
def execFadd32 (t : Nat) (s : State) : Host.Outcome State Fault Refusal := guarded "FADD32" (tileOk t) (s.beadFp t 0 4)
/-- FMUL32 (R139). -/
def execFmul32 (t : Nat) (s : State) : Host.Outcome State Fault Refusal := guarded "FMUL32" (tileOk t) (s.beadFp t 1 4)
/-- FMAX32 (R139). -/
def execFmax32 (t : Nat) (s : State) : Host.Outcome State Fault Refusal := guarded "FMAX32" (tileOk t) (s.beadFp t 2 1)
/-- FEXP2 (R139). -/
def execFexp2 (t : Nat) (s : State) : Host.Outcome State Fault Refusal := guarded "FEXP2" (tileOk t) (s.beadFp t 3 8)
/-- FRCP (R139). -/
def execFrcp (t : Nat) (s : State) : Host.Outcome State Fault Refusal := guarded "FRCP" (tileOk t) (s.beadFp t 4 8)
/-- FKEY (R140). -/
def execFkey (t : Nat) (s : State) : Host.Outcome State Fault Refusal := guarded "FKEY" (tileOk t) (s.beadFp t 5 1)

/-! ### Clasps (R146, R147) -/

/-- BEAD_CLASP_ADD (R146). -/
def execBeadClaspAdd (t : Nat) (s : State) : Host.Outcome State Fault Refusal :=
  guarded "BEAD_CLASP_ADD" (tileOk t) (s.bead t
    (fun _ i => match i with
      | .csr f _ n rs1 => n == 0x7C3 && csrWrites f rs1
      | _ => false)
    (fun s x i _ len => s.semClaspAdd t x i len))

/-- BEAD_CLASP_VAL_READ (R147). -/
def execBeadClaspValRead (t : Nat) (s : State) : Host.Outcome State Fault Refusal :=
  guarded "BEAD_CLASP_VAL_READ" (tileOk t) (s.bead t
    (fun _ i => match i with
      | .csr _ _ n _ => n == 0xFC6 || n == 0xFC7
      | _ => false)
    (fun s x i w len => s.semClaspVal t x i w len))

/-! ### Router ports, barriers, frames (R176 to R181) -/

/-- TX_STORE (R177): a word store into TX[c] of a program started by a RUN. [DESIGN CHOICE, log 53] -/
def execTxStore (t : Nat) (s : State) : Host.Outcome State Fault Refusal :=
  guarded "TX_STORE" (tileOk t) (s.bead t
    (fun x i => match i with
      | .store f rs1 _ imm => x.inRun && f == 2 && x.addr rs1 imm % 4 == 0 && (match portReg (x.addr rs1 imm) 4 with
          | .tx _ _ => true
          | _ => false)
      | _ => false)
    (fun s x i _ len => match i with
      | .store _ rs1 rs2 imm =>
        match portReg (x.addr rs1 imm) 4 with
        | .tx c off =>
          match s.txPut t c off 1 (natLe 4 (x.reg rs2)) with
          | some s' => .done s' (x.next len) 1
          | none => .stall s (.tx c)
        | _ => .trap 7 (x.addr rs1 imm) false
      | _ => .done s (x.next len) 1))

/-- RX_LOAD (R177): a word load from RX[c]. -/
def execRxLoad (t : Nat) (s : State) : Host.Outcome State Fault Refusal :=
  guarded "RX_LOAD" (tileOk t) (s.bead t
    (fun x i => match i with
      | .load f _ rs1 imm => x.inRun && f == 2 && x.addr rs1 imm % 4 == 0 && (match portReg (x.addr rs1 imm) 4 with
          | .rx _ _ => true
          | _ => false)
      | _ => false)
    (fun s x i _ len => match i with
      | .load _ rd rs1 imm =>
        match portReg (x.addr rs1 imm) 4 with
        | .rx c off =>
          match s.rxTake t c off 4 with
          | some (bs, s') => s'.doneWith t (x.next len) 2 (fun y => y.setReg rd (leNat bs))
          | none => .stall s (.rx c)
        | _ => .trap 5 (x.addr rs1 imm) false
      | _ => .done s (x.next len) 1))

/-- A configuration word is legal (R176, R179): reserved bits zero, a length, and a range within DMEM. -/
def cfgOk (v : Nat) : Bool :=
  v % 32 == 0 && bits v 30 28 == 0 && decide (1 ≤ bits v 27 16) && decide (bits v 27 16 ≤ 2048) &&
    decide (bits v 15 5 * 32 + bits v 27 16 * 32 ≤ 65536)

/-- The channel a configuration write leaves: empty, with a count of zero (R179). -/
def cfgChannel (v : Nat) : Channel := { dmemMode := bit v 31, length := bits v 27 16, base := bits v 15 5 }

/-- TX_CFG_WRITE (R179). -/
def execTxCfgWrite (t : Nat) (s : State) : Host.Outcome State Fault Refusal :=
  guarded "TX_CFG_WRITE" (tileOk t) (s.bead t
    (fun x i => match i with
      | .store f rs1 _ imm => x.inRun && (match portReg (x.addr rs1 imm) (accessSize f) with
          | .txCfg _ => true
          | _ => false)
      | _ => false)
    (fun s x i _ len => match i with
      | .store _ rs1 rs2 imm =>
        match portReg (x.addr rs1 imm) 4 with
        | .txCfg c =>
          if cfgOk (x.reg rs2) then s.doneWith t (x.next len) 1 (fun y => y.updTx c (fun _ => cfgChannel (x.reg rs2)))
          else .trap 7 (x.addr rs1 imm) false
        | _ => .trap 7 (x.addr rs1 imm) false
      | _ => .done s (x.next len) 1))

/-- RX_CFG_WRITE (R179). -/
def execRxCfgWrite (t : Nat) (s : State) : Host.Outcome State Fault Refusal :=
  guarded "RX_CFG_WRITE" (tileOk t) (s.bead t
    (fun x i => match i with
      | .store f rs1 _ imm => x.inRun && (match portReg (x.addr rs1 imm) (accessSize f) with
          | .rxCfg _ => true
          | _ => false)
      | _ => false)
    (fun s x i _ len => match i with
      | .store _ rs1 rs2 imm =>
        match portReg (x.addr rs1 imm) 4 with
        | .rxCfg c =>
          if cfgOk (x.reg rs2) then s.doneWith t (x.next len) 1 (fun y => y.updRx c (fun _ => cfgChannel (x.reg rs2)))
          else .trap 7 (x.addr rs1 imm) false
        | _ => .trap 7 (x.addr rs1 imm) false
      | _ => .done s (x.next len) 1))

/-- RX_AWAIT (R176, R180): the core stalls until RX_COUNT[c] is at or above the value stored. -/
def execRxAwait (t : Nat) (s : State) : Host.Outcome State Fault Refusal :=
  guarded "RX_AWAIT" (tileOk t) (s.bead t
    (fun x i => match i with
      | .store f rs1 _ imm => x.inRun && (match portReg (x.addr rs1 imm) (accessSize f) with
          | .await _ => true
          | _ => false)
      | _ => false)
    (fun s x i _ len => match i with
      | .store _ rs1 rs2 imm =>
        match portReg (x.addr rs1 imm) 4 with
        | .await c =>
          if x.reg rs2 ≤ (x.rxCh c).count then .done s (x.next len) 1 else .stall s (.await c (x.reg rs2))
        | _ => .trap 7 (x.addr rs1 imm) false
      | _ => .done s (x.next len) 1))

/-- Barrier `b` of the run on tile `x`. -/
def State.barrierOf (s : State) (x : Tile) (b : Nat) : Option Barrier :=
  (s.runOf x).bind (fun r => r.barriers.find? (fun y => y.index == b))

/-- Change barrier `b` of the run of partition `p`. -/
def State.updBarrier (s : State) (p b : Nat) (f : Barrier → Barrier) : State :=
  s.updRun p (fun r => { r with barriers := r.barriers.map (fun y => if y.index == b then f y else y) })

/-- BARRIER_ARRIVE (R181). -/
def execBarrierArrive (t : Nat) (s : State) : Host.Outcome State Fault Refusal :=
  guarded "BARRIER_ARRIVE" (tileOk t) (s.bead t
    (fun x i => match i with
      | .store f rs1 _ imm => x.inRun && (match portReg (x.addr rs1 imm) (accessSize f) with
          | .barrier _ => true
          | _ => false)
      | _ => false)
    (fun s x i _ len => match i with
      | .store _ rs1 _ imm =>
        let a := x.addr rs1 imm
        match portReg a 4 with
        | .barrier b =>
          match s.barrierOf x b with
          | some y =>
            if !y.members.contains t || y.arrived.any (fun z => z.1 == t) then .trap 7 a false
            else .done (s.updBarrier x.progPart b (fun y => { y with
              arrived := y.arrived ++ [(t, x.cycle)], passed := y.passed.filter (fun z => z != t) })) (x.next len) 1
          | none => .trap 7 a false
        | _ => .trap 7 a false
      | _ => .done s (x.next len) 1))

/-- BARRIER_WAIT (R181): waits for the release of the generation the member has arrived in, and returns the generation. -/
def execBarrierWait (t : Nat) (s : State) : Host.Outcome State Fault Refusal :=
  guarded "BARRIER_WAIT" (tileOk t) (s.bead t
    (fun x i => match i with
      | .load f _ rs1 imm => x.inRun && (match portReg (x.addr rs1 imm) (accessSize f) with
          | .barrier _ => true
          | _ => false)
      | _ => false)
    (fun s x i _ len => match i with
      | .load _ rd rs1 imm =>
        let a := x.addr rs1 imm
        match portReg a 4 with
        | .barrier b =>
          match s.barrierOf x b with
          | some y =>
            if !y.members.contains t then .trap 5 a false
            else if y.passed.contains t then
              let at_ := if tileCol t < 36 then y.releaseWest else y.releaseEast
              (s.updBarrier x.progPart b (fun y => { y with passed := y.passed.filter (fun z => z != t) })).doneWith t
                (x.next len) 2 (fun z => { z with cycle := max z.cycle at_ }.setReg rd y.generation)
            else .stall s (.barrier b)
          | none => .trap 5 a false
        | _ => .trap 5 a false
      | _ => .done s (x.next len) 1))

/-- BARRIER_RELEASE (R181): every member has arrived; the generation advances and the waiting members are released, those of one
half in one cycle, at most 40 cycles (72 when the members lie in both halves) after the last arrival. -/
def execBarrierRelease (p b : Nat) (s : State) : Host.Outcome State Fault Refusal :=
  guarded "BARRIER_RELEASE" (decide (p < 16) && decide (b < 16)) (
    match (s.sched p).run.bind (fun r => r.barriers.find? (fun y => y.index == b)) with
    | none => s
    | some y =>
      if y.members.all (fun m => y.arrived.any (fun z => z.1 == m)) then
        let last := (y.arrived.map (fun z => z.2)).foldl max 0
        let both := y.members.any (fun m => tileCol m < 36) && y.members.any (fun m => 36 ≤ tileCol m)
        let bound := if both then 73 else 41
        let west := last + Config.barrierDelay s.free 0 % bound
        let east := last + Config.barrierDelay s.free 1 % bound
        let s := (s.updBarrier p b (fun y => { y with
          arrived := [], generation := (y.generation + 1) % 2 ^ 32, passed := y.members,
          releaseWest := west, releaseEast := east })).useFree
        let s : State := { s with casket := { s.casket with late := s.casket.late.filter (fun e => !y.members.contains e.tile) } }
        let s := y.members.foldl (fun s m =>
          if (s.tile m).stall = .barrier b then
            s.updTile m (fun x => { x with
              stall := .none, cycle := max x.cycle (if tileCol m < 36 then west else east) })
          else s) s
        s.advance p
      else s)

/-- FRAME (R176): stalls until the first cycle of the next frame, and returns that frame's index. -/
def execFrame (t : Nat) (s : State) : Host.Outcome State Fault Refusal :=
  guarded "FRAME" (tileOk t) (s.bead t
    (fun x i => match i with
      | .load f _ rs1 imm => x.inRun && (match portReg (x.addr rs1 imm) (accessSize f) with
          | .frame => true
          | _ => false)
      | _ => false)
    (fun s x i _ len => match i with
      | .load _ rd _ _ =>
        match s.runOf x with
        | some r =>
          if r.inFrame ∧ x.cycle ≤ r.frameStart then
            s.doneWith t (x.next len) (r.frameStart - x.cycle + 2) (fun y => y.setReg rd r.framesDone)
          else .stall s .frame
        | none => .stall s .frame
      | _ => .done s (x.next len) 1))

/-- The cores stalled on FRAME go on with the frame that begins. -/
def State.wakeFrames (s : State) (p start index : Nat) : State :=
  (s.sched p).tiles.foldl (fun s e =>
    let t := e.1
    let x := s.tile t
    if x.state = 2 ∧ x.inRun ∧ x.stall = .frame then
      match x.fetch with
      | .inl (.load _ rd _ _, _, len) => s.updTile t (fun y =>
          { y.setReg rd index with
            stall := .none, pc := BitVec.ofNat 32 (x.next len), cycle := max y.cycle start + 2, instret := y.instret + 1 })
      | _ => s
    else s) s

/-- The cycle U_m + l + frame_offset of the tick whose frames are due, counted from the start of the programs at U_s + l (R195); none before
the Run phase of that tick. -/
def RunState.firstCycle (r : RunState) (offset : Nat) : Option Nat :=
  let u (m : Nat) : Option Nat := (r.phases.find? (fun e => e.1 == m)).map (fun e => ceilDiv e.2 clockUnit)
  match u r.startTick, u r.frameTick with
  | some us, some um => some (um - us + offset)
  | _, _ => none

/-- The Run phase of the tick begins: U_m, for the programs that start in it and for the frames of the runs (R194, R195). -/
def State.meshRunPhase (s : State) : State :=
  let s : State := { s with mesh := { s.mesh with runWest := s.clockNow 0, runEast := s.clockNow 1 } }
  (s.mesh.scheds.map (fun e => e.1)).foldl (fun s p => s.updRun p (fun r => { r with
    phases := r.phases.filter (fun e => e.1 == r.startTick || decide (r.frameTick ≤ e.1)) ++ [(s.tick.count, if r.half = 0 then s.mesh.runWest else s.mesh.runEast)] })) s

/-- FRAME_START (R169, R195): the next frame of the run of partition `p` begins; `e`: the hardware faults its routers will meet. -/
def execFrameStart (p : Nat) (e : List MeshFault) (s : State) : Host.Outcome State Fault Refusal :=
  guarded "FRAME_START" (decide (p < 16) && e.all (fun x => decide (x.tile < 4608) && decide (1 ≤ x.kind) && decide (x.kind ≤ 7))) (
    let c := s.sched p
    match c.run with
    | none => s
    | some r =>
      if r.inFrame ∨ s.tick.count < r.frameTick ∨ r.startTick + r.ticks ≤ r.frameTick then s
      else
        match r.firstCycle c.offset with
        | none => s
        | some first =>
        let start := if r.framesDone = 0 then max r.lastEnd first else r.lastEnd
        let s := s.updRun p (fun r => { r with inFrame := true, frameStart := start, slot := 0, hard := e })
        let s := { s with mesh := { s.mesh with offers := s.mesh.offers.map (fun (o : Offer) =>
          if o.part == p && o.tick + 1 == r.frameTick && c.reductions.any (fun x => x.id == o.reduction && x.frame == r.framesDone)
          then { o with taken := true } else o) } }
        (s.wakeFrames p start r.framesDone).advance p)

end Sys2Proof.Machine
end

