-- ==== Sys2Proof/Machine/MemCare.lean ====
section
/-! DEFINITION. Memory care (08_memory_care.md, and the codes' responses of 07_memory.md): leak periods and storm windows,
patrol scrub, canaries, holds, retrains, rebuilds, evacuation and the group's regular commands. -/

namespace Sys2Proof.Machine

/-! ### Correctable errors (R274) -/

/-- LEAK_PERIOD (R274): every bucket's count leaks at the start of a leak period. -/
def execLeakPeriod (s : State) : Host.Outcome State Fault Refusal :=
  .next ((List.range 34).foldl (fun s b => s.updCe b (fun x => { x with count := x.count - s.care.leak })) s)

/-- STORM_WINDOW_END (R274): storm_periods leak periods after the overflow that posted, the bucket's storm window closes. [DESIGN CHOICE, log 3] -/
def execStormWindowEnd (b : Nat) (s : State) : Host.Outcome State Fault Refusal :=
  guarded "STORM_WINDOW_END" (decide (b < 34)) (s.updCe b (fun x => { x with storm := false }))

/-! ### Holds, retrains, rejoining (R283 to R286, R293) -/

/-- A hold of group `n` for pseudo-channel `pc` begins, or joins the one that runs, or is a second fault (R283, R285). -/
def State.beginHold (s : State) (n pc : Nat) : State :=
  let g := s.group n
  if g.state = 0 then
    -- lines that do not need the affected pseudo-channel are written back first (R283)
    let s := s.writebackAll (fun l => l.setting / settingsPerGroup == n && !g.wide && l.validIn pc == 0 && !s.lineHeld l)
    s.updGroup n (fun g => { g with state := 1, formerState := 0, holdStart := s.tick.time, heldPc := pc, attempts := 0 })
  else if g.state = 3 ∧ g.deadDie ≠ some pc then s.secondFault n
  else s

/-- The mode registers as the device programs them (Table 7.2), with these latencies. -/
def modeRegs (readLatency writeLatency : Nat) : ModeRegs :=
  ⟨112, readLatency, writeLatency, true, true, true, false, false, true, false⟩

/-- Pseudo-channel `c` is programmed (R233). -/
def State.programAs (s : State) (c : Nat) (m : ModeRegs) : State :=
  ({ s with mem := { s.mem with modes := SMap.set none s.mem.modes c (some m) } } : State).emit (.modeRegisters c m)

/-- Pseudo-channel `c` is programmed again after a retrain (R233). -/
def State.programModes (s : State) (c : Nat) : State :=
  s.programAs c (((SMap.get none s.mem.modes c : Option ModeRegs)).getD (modeRegs 0 0))

/-- STACK_COMMAND_FAILURE (R233, R283): a command of pseudo-channel `c` failed with the kind of Table 7.8 (1 to 3), or, kind
0, its reissue succeeded.  The first failure has it reissued; the third consecutive one is a link failure, and the group is held for a
retrain. -/
def execStackCommandFailure (c kind : Nat) (s : State) : Host.Outcome State Fault Refusal :=
  guarded "STACK_COMMAND_FAILURE" (decide (c < 512) && decide (kind ≤ 3)) (
    if kind = 0 then { s with mem := { s.mem with failures := SMap.set 0 s.mem.failures c 0 } }
    else
      let k := SMap.get 0 s.mem.failures c + 1
      let s := s.postOnce (fun e => e.unit == 0x3000 + c) 0x1013 0 0xFF (0x3000 + c) (detail [(1, kind), (1, k)])
      let s : State := { s with mem := { s.mem with failures := SMap.set 0 s.mem.failures c (if 3 ≤ k then 0 else k) } }
      if 3 ≤ k then s.beginHold (c / 16) (c % 16) else s.emit (.reissue c kind))

/-- HOLD_BUDGET_EXPIRY (R284): 8 µs after it began the hold becomes degraded mode; the first attempt counts as failed. [DESIGN CHOICE, log 3] -/
def execHoldBudgetExpiry (n : Nat) (s : State) : Host.Outcome State Fault Refusal :=
  guarded "HOLD_BUDGET_EXPIRY" (decide (n < 32)) (
    let g := s.group n
    if g.state ≠ 1 then s
    else
      let s := s.arrive (g.holdStart + 8000)
      let s := s.updGroup n (fun g => { g with state := 2, attempts := 1, erased := if g.wide then some g.heldPc else none })
      s.postGroupState n 1 2 (some g.heldPc) false 0)

/-- The affected die rejoins (R293): a wide group rebuilds what it wrote meanwhile; a narrow one is in service at once. -/
def State.rejoin (s : State) (n : Nat) : State :=
  let g := s.group n
  let s := s.bumpGroup n
  if g.wide then s.updGroup n (fun g => { g with attempts := 0, rejoining := true })
  else (s.updGroup n (fun g => { g with state := 0, attempts := 0 })).postGroupState n 2 0 (some g.heldPc) false 0

/-- The lines that a group has kept back are written back when it goes on (R249, R283). -/
def State.endHold (s : State) (n : Nat) : State := s.writebackFull n

/-- RETRAIN_ATTEMPT_END (R283, R284): an attempt to retrain or recalibrate has ended; after a good one the mode registers are
programmed again (R233).  Within the budget success ends the hold; past it success lets the die rejoin, and the third failure makes
the die dead. -/
def execRetrainAttemptEnd (n : Nat) (ok : Bool) (s : State) : Host.Outcome State Fault Refusal :=
  guarded "RETRAIN_ATTEMPT_END" (decide (n < 32)) (
    let g := s.group n
    if g.state = 1 then
      if ok then ((s.updGroup n (fun g => { g with state := g.formerState })).bumpGroup n).programModes (16 * n + g.heldPc) |>.endHold n
      else s
    else if g.state = 2 ∧ g.deadDie = none ∧ g.attempts ≠ 0 then
      if ok then ((s.rejoin n).programModes (16 * n + g.heldPc)).endHold n
      else if 3 ≤ g.attempts + 1 then s.dieDead n g.heldPc
      else s.updGroup n (fun g => { g with attempts := g.attempts + 1 })
    else s)

/-- REBUILD_DONE (R293): every marked granule has been rebuilt, and the group takes state 0. -/
def execRebuildDone (n : Nat) (s : State) : Host.Outcome State Fault Refusal :=
  guarded "REBUILD_DONE" (decide (n < 32)) (
    let g := s.group n
    if g.wide && g.state == 2 && g.rejoining && !s.memoryRests then
      (s.updGroup n (fun g => { g with state := 0, rejoining := false, erased := none, rebuild := [] })).postGroupState n 2 0
        (some g.heldPc) false 0
    else s)

/-- The canary beat of pseudo-channel `c`: beat 25,165,824 of its reserved area (Table 7.1, R244). [DESIGN CHOICE, log 105] -/
def State.canaryIntact (s : State) (c : Nat) : Bool :=
  let b := SMap.get [] s.mem.reserved (1024 * c)
  b.isEmpty || b.take 64 == (List.range 64).map Config.canaryByte

/-- CANARY_READ (R244): the canary beat of a narrow pseudo-channel was read.  If it returns the pattern, the corrected beats that wait for
it are delivered; a failure marks its core die failed, and they are delivered as uncorrectable. -/
def execCanaryRead (c : Nat) (ok : Bool) (s : State) : Host.Outcome State Fault Refusal :=
  guarded "CANARY_READ" (decide (c < 512)) (
    let n := c / 16
    let a := c % 16
    let g := s.group n
    if s.memoryRests || g.wide || g.state == 1 || g.state == 5 || g.deadDie == some a then s
    else if ok && s.canaryIntact c then
      { s with mem := { s.mem with corrected := s.mem.corrected.map (fun e =>
          if pcUnit (64 * e.1) = 0x3000 + c then (e.1, some true) else e) } }
    else
      let s : State := { s with mem := { s.mem with
        failedDies := SMap.set false s.mem.failedDies (16 * (n / 4) + a) true
        corrected := s.mem.corrected.filter (fun e => !(groupOf (64 * e.1) / 4 == n / 4 && e.1 % 16 == a)) } }
      let s := s.post 0x1012 2 0xFF (0x3000 + c) (detail [(1, n), (1, a)])
      if g.state = 0 then s.dieDead n a else s)

/-! ### Patrol scrub (R271, R272) -/

/-- Bank, as 4 × bank group + bank, and row of local setting `st` (R238). -/
def bankOf (st : Nat) : Nat := 4 * (st / 16 % 16 ^^^ st / 1024 % 16) + st / 256 % 4
def rowOf (st : Nat) : Nat := st / 1024

/-- Scrub state of group `n`. -/
def State.scrub (s : State) (n : Nat) : Scrub := SMap.get {} s.care.scrub n

/-- Change the scrub state of group `n`. -/
def State.updScrub (s : State) (n : Nat) (f : Scrub → Scrub) : State :=
  { s with care := { s.care with scrub := SMap.upd {} s.care.scrub n f } }

/-- A corrected read of die `a`'s pseudo-channel in setting `st`: at the fourth of its physical row in the pass the row is
hot (R272). [DEDUCED, log 62] -/
def State.rowCorrected (s : State) (n st a : Nat) : State :=
  let key := (a * 24576 + rowOf st) * 64 + bankOf st
  let k := SMap.get 0 (s.scrub n).rows key + 1
  let s := s.updScrub n (fun x => { x with rows := SMap.set 0 x.rows key k })
  if k < 4 then s
  else
    let s := { s with care := { s.care with rowHot := SMap.set {} s.care.rowHot n ⟨k, a, bankOf st, rowOf st⟩ } }
    if k = 4 then s.post 0x1025 1 0xFF (0x3000 + 16 * n + a) (detail [(2, rowOf st), (1, bankOf st), (2, k)]) else s

/-- Bytes of a setting or beat go back through the buffer where no valid byte stands (R272); the writer is memory care. -/
def State.scrubWrite (s : State) (k : Nat) (bs : List (Byte × Bool)) : State :=
  let l := s.mem.wcb.find? (fun l => l.setting == k / 1024)
  let free (i : Nat) : Bool := match l with
    | some l => (SMap.get none l.bytes (k % 1024 + i)).isNone
    | none => true
  let writer := match l with
    | some l => l.writer
    | none => 255
  let all := (List.range bs.length).all free
  if all then s.writeSetting k bs writer
  else ((bs.mapIdx (fun i b => (i, b))).filter (fun e => free e.1)).foldl (fun s e => s.writeSetting (k + e.1) [e.2] writer) s

/-- The scrub found `k` (a setting's or a beat's first storage byte) uncorrectable: poison is written back through the buffer where no
valid byte stands, counted and posted, and in permanent erasure mode it is a second fault (R246, R272, R287). -/
def State.scrubBad (s : State) (n k beats : Nat) : State :=
  let s := s.scrubWrite k (List.replicate (64 * beats) (0, true))
  let s := s.updScrub n (fun x => { x with uncorrectable := satAdd 0xFFFF x.uncorrectable 1 })
  (s.post 0x1022 2 0xFF (pcUnit k) (detail [(8, localAddr k)])).secondFault n

/-- What the scrub makes of one setting or beat at storage byte `k`, as it decodes (R272); corrections are charged as any reader's
(R273), and a die that the decoder locates is acted on (R242).  Dies are those whose symbols were corrected. -/
def State.scrubResult (s : State) (n st k beats : Nat) (r : Decoded) (dies : List Nat) : State :=
  match r with
  | .clean _ => s
  | .poison => s
  | .corrected data _ _ =>
    let s := (if beats = 16 then s.heedSetting (k / 1024) else s.heedBeat (k / 64)).scrubWrite k (clean data)
    let s := s.updScrub n (fun x => { x with corrected := satAdd 0xFFFF x.corrected 1 })
    dies.foldl (fun s a => s.rowCorrected n st a) s
  | .erased _ _ _ => s.heedSetting (k / 1024)
  | .uncorrectable => s.scrubBad n k beats

/-- The first written local setting of group `n` at or after `st`, granule by granule. -/
def State.nextWritten (s : State) (n st : Nat) : Option Nat :=
  if settingsPerGroup ≤ st then none
  else if s.granuleValid (393216 * n + st / 64) then some st
  else if s.mem.filled then
    ((List.range (s.mem.flipped.length + 1)).map (fun i => st / 64 + 1 + i)).findSome? (fun g =>
      if g < 393216 ∧ s.granuleValid (393216 * n + g) then some (64 * g) else none)
  else ((s.mem.flipped.map (fun e => e.1)).find? (fun g => decide (393216 * n + st / 64 < g) && decide (g < 393216 * (n + 1)))).map
    (fun g => 64 * (g - 393216 * n))

/-- The pass goes on after setting `st`: past the last written one it is complete, and the next pass takes the period that is set
(R271). -/
def State.scrubOn (s : State) (n st : Nat) : State :=
  match s.nextWritten n (st + 1) with
  | some q => s.updScrub n (fun x => { x with pos := q })
  | none =>
    let h := s.care.scrubHours
    s.updScrub n (fun x => { x with passes := satAdd max32 x.passes 1, rows := [], pos := 0, hours := h })

/-- The scrub cannot read setting `st` (its first storage byte `k`) now: the group is out of service or held, or a stack access to it
must wait (R271, R282 to R284). -/
def State.scrubWaits (s : State) (n k : Nat) : Bool :=
  s.memoryRests || (s.group n).state == 1 || (s.group n).state == 5 || s.care.repairHold.any (fun h => h.1 == k / 65536) ||
    s.mem.filling.contains (k / 65536) ||
    (!(s.group n).wide && (s.group n).state == 2 && (s.group n).deadDie.isNone)

/-- SCRUB_READ (R271, R272): the pass of group `n` has come to the written setting `st` and reads it; `raw` is what the stack holds
there, 16 beats of 64 data and 8 metadata bytes.  A wide setting is decoded whole, a narrow one beat by beat; the settings of a
pass are read in ascending order. [DEDUCED, log 98] -/
def execScrubRead (n st : Nat) (raw : List Bytes) (s : State) : Host.Outcome State Fault Refusal :=
  guarded "SCRUB_READ" (decide (n < 32) && decide (st < settingsPerGroup) && raw.length == 16 && raw.all (fun b => b.length == 72)) (
    let wide := (s.group n).wide
    let k := (n * settingsPerGroup + st) * 1024
    if s.nextWritten n (s.scrub n).pos ≠ some st ∨ s.scrubWaits n k then s
    else
      let s : State := { s with mem := s.mem.holdSetting wide (k / 1024) raw }
      let s := if wide then
          let r := s.readSetting (k / 1024)
          s.scrubResult n st k 16 r (match r with
            | .corrected _ _ ds => ds
            | _ => [])
        else (List.range 16).foldl (fun s b => s.scrubResult n st (k + 64 * b) 1 (s.readBeat (k / 64 + b)) [b]) s
      s.scrubOn n st)

/-! ### Granule fills, the group's regular commands (R249, R250, R254, R260, R268) -/

/-- GRANULE_FILL_DONE (R268): the zero writes of a first-written granule are done, and its reads and writebacks proceed. -/
def execGranuleFillDone (g : Nat) (s : State) : Host.Outcome State Fault Refusal :=
  guarded "GRANULE_FILL_DONE" (decide (g < 12582912))
    (if s.memoryRests then s
     else ({ s with mem := { s.mem with filling := s.mem.filling.filter (fun x => x != g) } } : State).writebackFull (g / 393216))

/-- STACK_REFRESH (R260): a per-bank refresh of bank `bank` of pseudo-channel `c` goes out. -/
def execStackRefresh (c bank : Nat) (s : State) : Host.Outcome State Fault Refusal :=
  guarded "STACK_REFRESH" (decide (c < 512) && decide (bank < 64))
    (if s.memoryRests ∨ (s.group (c / 16)).state = 1 then s else s.emit (.refresh c bank))

/-- CALIBRATION (R249, R254, R283): the group's lines are written back, and its 16 pseudo-channels are calibrated together; a
recalibration of pseudo-channel `pc` outside the regular slot holds the group, until RETRAIN_ATTEMPT_END. -/
def execCalibration (n : Nat) (pc : Option Nat) (s : State) : Host.Outcome State Fault Refusal :=
  guarded "CALIBRATION" (decide (n < 32) && pc.all (fun c => decide (c < 16))) (
    if s.memoryRests then s
    else match pc with
    | some c => if [0, 3].contains (s.group n).state then s.beginHold n c else s
    | none =>
      if (s.group n).state = 1 then s
      else
        let s := s.updGroup n (fun g => { g with recal := false })
        (s.writebackAll (fun l => l.setting / settingsPerGroup == n && !s.lineHeld l)).emit (.calibrate n))

/-! ### Evacuation (R291) -/

/-- The written settings of a slab that hold anything: stored data, metadata other than the checks, or buffered bytes; all of them on a
narrow group whose die is dead, since each of them has lost a beat. -/
def State.slabSettings (s : State) (n j : Nat) : List Nat :=
  let lo := slabBase (24 * n + j) / 1024
  let written (st : Nat) : Bool := s.granuleValid (st / 64)
  if !(s.group n).wide && (s.group n).deadDie.isSome then
    (((List.range 16384).filter (fun i => s.granuleValid (lo / 64 + i))).map (fun i =>
      (List.range 64).map (fun q => lo + 64 * i + q))).flatten
  else
    (nub ((s.mem.bytes.map (fun e => e.1 / 1024)) ++ (s.mem.checks.map (fun e => e.1 / 16)) ++
      (s.mem.wcb.map (fun l => l.setting)))).filter (fun st => decide (lo ≤ st) && decide (st < lo + 2 ^ 20) && written st)

/-- One setting goes to its donor through the donor's buffer; one that does not decode goes as poison, and is counted (Table 8.8, step 2). -/
def State.moveSetting (s : State) (n donor : Nat) (bad : List Nat) (st : Nat) : State :=
  let k := 1024 * st
  let data := (List.range 1024).map (fun i => s.readStorage (k + i))
  let lost := poisoned data || bad.contains (st % settingsPerGroup)
  let s := if (s.group n).wide then s.heedSetting st else (List.range 16).foldl (fun s b => s.heedBeat (k / 64 + b)) s
  let s := s.writeLine (slabBase donor + k % 2 ^ 30) (if lost then data.map (fun b => (b.1, true)) else data) 255
  if lost then
    let e := s.evac n
    { s with care := { s.care with evac := SMap.set {} s.care.evac n { e with poisoned := satAdd max32 e.poisoned 1 } } }
  else s

/-- EVACUATION_SLAB_DONE (R291): every setting of slab j has been read, decoded and written to its donor; `bad` are further local settings
that did not decode when they were read.  The source's buffer lines are written back, the slab is remapped, and the next one starts;
after the last one the group is mapped out, and a MAP_OUT that waits for it completes. [DEDUCED, log 62] -/
def execEvacuationSlabDone (n : Nat) (bad : List Nat) (s : State) : Host.Outcome State Fault Refusal :=
  guarded "EVACUATION_SLAB_DONE" (decide (n < 32) && bad.all (fun x => decide (x < settingsPerGroup))) (
    let e := s.evac n
    match e.current with
    | none => s
    | some j =>
      if (s.group n).state ≠ 4 ∨ s.mem.wcb.any (fun l => l.setting * 1024 / 2 ^ 30 == 24 * n + j && s.lineHeld l) then s
      else
        let donor := e.donors.getD j 0
        let dst := slabBase donor
        let bad := (nub bad).filter (fun x => x / 2 ^ 20 == j && s.granuleValid ((n * settingsPerGroup + x) / 64))
        let moved := nub (s.slabSettings n j ++ bad.map (fun x => n * settingsPerGroup + x))
        -- the donor's stale content gives way to what the slab holds; settings that hold only zeros arrive as zeros
        let s : State := { s with mem := { s.mem with
          bytes := SMap.clear s.mem.bytes dst (dst + 2 ^ 30)
          checks := SMap.clear s.mem.checks (dst / 64) (dst / 64 + 2 ^ 24)
          wcb := s.mem.wcb.filter (fun l => l.setting * 1024 / 2 ^ 30 != donor) } }
        let s := moved.foldl (fun s st => s.moveSetting n donor bad st) s
        let s := s.writebackAll (fun l => l.setting * 1024 / 2 ^ 30 == 24 * n + j)
        let s : State := { s with mem := { s.mem with
          wcb := s.mem.wcb.filter (fun l => l.setting * 1024 / 2 ^ 30 != 24 * n + j)
          slabs := SMap.upd {} s.mem.slabs (24 * n + j) (fun x => { x with movedTo := some donor }) } }
        let next := if j + 1 < e.donors.length then some (j + 1) else none
        let s : State := { s with care := { s.care with
          evac := SMap.set {} s.care.evac n { s.evac n with current := next, done := (s.evac n).done + 1 } } }
        match next with
        | some i => s.beginSlab n i (e.donors.getD i 0)
        | none =>
          let s := s.mappedOut n
          match e.flight.bind s.flight with
          | some x => if x.state = .ended then s else s.endFlight x.id 0 (s.evac n).word
          | none => s)

end Sys2Proof.Machine
end

