-- ==== Sys2Proof/Machine/SafeOps.lean ====
section
/-! DEFINITION. What sealing, resets and the safe state share: the Keel's copies (R472, R473), zeroisation and orphaning
(R419), entry to the safe state (R475, R476), internal cold and warm restarts that are due. -/

namespace Sys2Proof.Machine

/-! ### Sealing and its copies -/

/-- Region `r`. -/
def State.region (s : State) (r : Nat) : Region := SMap.get {} s.locket.regions r

/-- Post LOCKET_REGION_STATE (Table 13.12). -/
def State.postRegion (s : State) (r old new part : Nat) : State :=
  s.post 0x7009 0 part 0x7000 (detail [(1, r), (1, old), (1, new)])

/-- What the egress checkers go by, as domain 17 holds it (R472). -/
def State.sealMap (s : State) : SealMap :=
  ⟨sortBy id (nub (s.locket.regions.map (fun e => if e.2.state = 0 then [] else e.2.slabs)).flatten),
   (List.range 16).filter (fun p => s.sealedPart p),
   (List.range 6).filter (fun q => (s.site q).grantedSealed)⟩

/-- A change to sealing or to a grant is written to both copies in the same cycle (R473). -/
def State.syncKeel (s : State) : State := { s with keel := { s.keel with copy := s.sealMap } }

/-- Region `r` changes state, with its event. -/
def State.setRegion (s : State) (r : Nat) (x : Region) (part : Nat) : State :=
  let old := s.region r
  ({ s with locket := { s.locket with regions := SMap.set {} s.locket.regions r x } }).postRegion r old.state x.state part

/-- Every bound region, and every region unsealing, becomes an orphaned region (R419). -/
def State.orphanRegions (s : State) : State :=
  (List.range 64).foldl (fun s r =>
    let x := s.region r
    if x.state = 1 then s.setRegion r { x with state := 2, partition := 0 } x.partition else s) s

/-- Zeroise every key slot and the IDE keys, end the SPDM sessions, orphan every bound region (R419, R438, R476). -/
def State.zeroise (s : State) (cause : Nat) : State :=
  let s := { s with
    locket := { s.locket with keys := [], sessions := [] }
    host := { s.host with ide := false } }
  (s.orphanRegions.syncKeel).post 0x7008 1 0xFF 0x7000 (detail [(1, cause)])

/-! ### The safe state -/

/-- COOL_DEMAND takes full duty (R460). -/
def State.fullCooling (s : State) : State :=
  { s with therm := { s.therm with
      duty := 0xFF
      fullSince := some (s.therm.fullSince.getD s.tick.time) } }

/-- Cause `c` of Table 15.2, detected by unit `u`: latched, and the safe state is entered unless it is in force (R475,
R476).  The Keel runs while PWRGOOD is high (R470). [DESIGN CHOICE, log 85; DEDUCED, log 86] -/
def State.enterSafe (s : State) (c u : Nat) : State :=
  let k := s.keel
  let mask := k.mask ||| 2 ^ c
  if !s.ctl.pwrgood then s
  else if k.safe then { s with keel := { k with mask := mask } }
  else
    let k := { k with
      safe := true
      first := if k.newCause then k.first else c
      mask := if k.newCause then mask else 2 ^ c
      unit := if k.newCause then k.unit else u
      causeAt := if k.newCause then k.causeAt else s.tick.time
      newCause := true }
    let s := { s with keel := k }
    let s := (List.range 16).foldl (fun s p => s.startReset p 3 0xA000) s
    let s := (s.zeroise 2).countClocks
    let s := { s with
      pwr := { s.pwr with alertStretch := true, forceP7 := true }
      therm := { s.therm with fault := true }
      ctl := { s.ctl with warm := none, warmDue := none } }
    (s.fullCooling).post 0xA001 3 0xFF 0xA000 (detail [(1, c), (2, k.mask / 2), (2, u), (8, s.tick.time)])

/-- A warm reset of a cause is due (R478): in its first cycle it stops admission; it begins with WARM_RESET_BEGIN. [DESIGN CHOICE, log 64; DESIGN CHOICE, log 99] -/
def State.warmDue (s : State) (cause : Nat) : State :=
  if s.ctl.released ∧ s.ctl.warmDue.isNone ∧ s.ctl.warm.isNone then
    { s with ctl := { s.ctl with warmDue := some cause } }
  else s

/-- An internal cold restart is due (R486). -/
def State.restartDue (s : State) : State := { s with ctl := { s.ctl with restartDue := true } }

/-- SAFETY_DEGRADED (Table 15.7). -/
def State.degraded (s : State) (kind unit index : Nat) : State :=
  s.post 0xA003 1 0xFF unit (detail [(1, kind), (2, index)])

end Sys2Proof.Machine
end

