-- ==== Sys2Proof/Machine/MemCmds.lean ====
section
/-! DEFINITION. Descriptors of class 0x6 (SCATTER_ADD, REPAIR, MAP_OUT), the memory, donor, KV-region and Casket-ownership
register writes, the Casket's patrol scrub, and the host's CXL.mem accesses (07_memory.md, 08_memory_care.md,
06_casket.md, 09_host_work.md). -/

namespace Sys2Proof.Machine

/-! ### SCATTER_ADD (R255 to R258) -/

def xFmt (d : Bytes) : Nat := byteAt d 32
def xFlags (d : Bytes) : Nat := byteAt d 33
def xSpace (d : Bytes) : Nat := byteAt d 34
def xCount (d : Bytes) : Nat := fieldLe d 36 4
def xSrc (d : Bytes) : Nat := fieldLe d 40 8
def xDst (d : Bytes) : Nat := fieldLe d 48 8
def xElems (d : Bytes) : Nat := fieldLe d 56 8

/-- Bytes of an element (R255). -/
def xSize (fmt : Nat) : Nat := if fmt = 1 then 2 else if fmt = 0x11 then 8 else 4

/-- Reserved fields of a SCATTER_ADD are zero. -/
def scatterReserved (d : Bytes) : Bool := xFlags d / 4 == 0 && byteAt d 35 == 0

/-- Space and address of the records: in src_space 0 a device-near address names the Casket or a DMEM (R255, R329). -/
def xFrom (d : Bytes) : Nat × Nat := if xSpace d = 0 then nearSpace (xSrc d) else (1, xSrc d)

/-- Records `lo` to `lo + n` as a run of the source. -/
def xRun (d : Bytes) (lo n : Nat) : Nat × Nat := ((xFrom d).2 + 16 * lo, 16 * n)

/-- The checks of R255 that need no translation. -/
def State.scatterStatic (s : State) (p : Nat) (d : Bytes) : Nat :=
  firstStatus [
    (dSpeculative d || dPencil d || dStaged d, 6),
    (!(([0, 1, 0x10, 0x11] : List Nat).contains (xFmt d)), 6),
    (decide (1 < xSpace d) || (xSpace d == 1 && !(endpointOk 1 (xSrc d) 0 0 0)), 6),
    (xCount d == 0 || decide (16777216 < xCount d), 6),
    (xDst d % xSize (xFmt d) != 0, 6),
    (xElems d == 0 || decide (2 ^ 37 < xElems d), 6),
    (bit (xFlags d) 1 && !blocksCovered (s.chkWindows p) (xFrom d).1 [xRun d 0 (xCount d)], 6)]

/-- The whole target, which needs the atomic right (R256). -/
def xTarget (d : Bytes) : Range := ⟨0, xDst d, xElems d * xSize (xFmt d), false, true, true⟩

/-- The ranges of `n` records from `lo` on, with the blocks their verification reads, and of the target. -/
def scatterRows (ws : List ChkWindow) (d : Bytes) (lo n : Nat) : List Range :=
  ⟨(xFrom d).1, (xRun d lo n).1, (xRun d lo n).2, true, false, false⟩ :: xTarget d ::
  (if bit (xFlags d) 1 then checkRanges ws (xFrom d).1 [xRun d lo n] false else [])

/-- The ranges of a SCATTER_ADD: its records, and its whole target with the atomic right (R256). -/
def scatterRanges (ws : List ChkWindow) (d : Bytes) : List Range := scatterRows ws d 0 (xCount d)

/-- The pieces of a SCATTER_ADD: 4,096 records each (R258); the first record and the records of piece `k`. -/
def scatterPieces (d : Bytes) : Nat := ceilDiv (xCount d) 4096
def scatterTile (d : Bytes) (k : Nat) : Nat × Nat := (4096 * k, min 4096 (xCount d - 4096 * k))

/-- The ranges of piece `k` (R336). -/
def scatterPiece (ws : List ChkWindow) (d : Bytes) (k : Nat) : List Range := scatterRows ws d (scatterTile d k).1 (scatterTile d k).2

/-- Status 0x06 once the target is translated, if any part of it lies outside the device's HDM (R256). -/
def State.scatterPlaced (s : State) (p : Nat) (d : Bytes) : Nat :=
  match s.placesOfVa (s.part p).pasid (xDst d) (xElems d * xSize (xFmt d)) false false with
  | none => 0
  | some ps => if ps.all (fun x => match x.1 with
      | .dev _ => true
      | _ => false) then 0 else 6

/-- The new element of one update: its code, whether it became NaN, and whether it overflowed (R257). -/
def scatterAdd (fmt : Nat) (sat : Bool) (old v : Nat) : Nat × Bool × Bool :=
  match fmt with
  | 0 =>
    let r := rneFp32 false (sumExact [f32 old, f32 v])
    (code32 r.1, r.1.isNaN, r.2)
  | 1 =>
    let r := bf16.convert false (sumExact [bf16.decode old, bf16.decode v])
    (r.1, (bf16.decode r.1).isNaN, r.2)
  | _ =>
    let w := if fmt = 0x11 then 64 else 32
    let r := intW w sat (toSigned w old + toSigned w v)
    (fromSigned w r.1, false, r.2)

/-- A piece of a SCATTER_ADD as it is applied: the state, the records not yet applied, the settings or beats its adders have filled, and
the detail word so far. -/
structure ScatterRun where
  s : State
  left : List Bytes
  filled : List Nat
  dt : Nat

/-- The setting of a wide group, or the beat of a narrow one, that holds storage byte `k`, as one key. -/
def State.lineKey (s : State) (k : Nat) : Nat := if (s.group (groupOf k)).wide then 2 * (k / 1024) else 2 * (k / 64) + 1

/-- The records of a piece from the first one on, in order: an element beyond the array is skipped; an update waits for a stack, a repair
or its bucket; a line that reads uncorrectable is left and its partition takes the error; a line is filled, and its read charged, once
while it stays in the buffer (R253, R257, R258). [DESIGN CHOICE, log 106] -/
def State.scatterRun (s : State) (x : Flight) : List Bytes → List Nat → Nat → ScatterRun
  | [], filled, dt => ⟨s, [], filled, dt⟩
  | r :: rs, filled, dt =>
    let d := x.desc
    let w := xSize (xFmt d)
    let i := fieldLe r 0 8
    let stop (s : State) (rs : List Bytes) : ScatterRun := ⟨s, rs, filled, dt⟩
    if xElems d ≤ i then s.scatterRun x rs filled (dt + 2 ^ 32)
    else
      match s.placeOfVa (s.part x.part).pasid (xDst d + i * w) false true with
      | some (.dev a) =>
        let key := (storageOf a).map (fun k => s.lineKey (s.redirect k))
        let held := (match storageOf a with
          | some k => s.mem.wcb.any (fun l => l.setting == s.redirect k / 1024)
          | none => false) && key.all (fun y => filled.contains y)
        if s.readHeld a w then stop (s.holdBeats a w) (r :: rs)
        else if !s.mayIssue x.part then stop (s.bucketWait x.part) (r :: rs)
        else
          let old := s.readDev a w
          let s := s.charge x.part ((if held then 0 else s.readCost a w) + writeCost w)
          if poisoned old then stop ((s.postUncorrectable a old x.part 1 (dTag d)).startReset x.part 1 (x.unitId 0)) rs
          else
            let n := scatterAdd (xFmt d) (bit (xFlags d) 0) (leNat (plain old)) (fieldLe r 8 w)
            ((s.heed a w).writeDev a (clean (natLe w n.1)) x.part).scatterRun x rs (nub (filled ++ key.toList))
              (dt ||| (flag n.2.2 * 2 + flag n.2.1))
      | _ => stop s (r :: rs)

/-- The records of a piece have been fetched, and are applied as far as they can be; the piece ends with the last. -/
def State.scatterApply (s : State) (x : Flight) (rs : List Bytes) : State :=
  let k := (x.strand 0).piece
  let r := s.scatterRun x rs ((chunks 8 (x.blob.length / 8) x.blob).map leNat) x.detail
  if r.left.isEmpty then
    ((r.s.updStrand x.id 0 (fun y => { y with blob := [] })).updFlight x.id (fun y => { y with blob := [] })).endPiece x
      (k + 1 == scatterPieces x.desc) 0 r.dt
  else
    (r.s.updStrand x.id 0 (fun y => { y with blob := r.left.flatten })).updFlight x.id (fun y => { y with
      blob := (r.filled.map (natLe 8)).flatten, detail := r.dt })

/-- One piece of a SCATTER_ADD: 4,096 records are fetched, verified if asked, and applied in ascending order (R257, R258). -/
def State.doScatter (s : State) (x : Flight) : State :=
  let d := x.desc
  let p := x.part
  let ws := x.windows
  let y := x.strand 0
  let tl := scatterTile d y.piece
  let run := xRun d tl.1 tl.2
  let sp := (xFrom d).1
  let check := bit (xFlags d) 1
  if !y.blob.isEmpty then s.scatterApply x (chunks 16 (y.blob.length / 16) y.blob)
  else match s.endPlaces p sp run true false with
  | none => s
  | some src =>
    let blocks := if check then runBlocks [run] else []
    let chk := s.checkPlaces ws p sp blocks
    match s.access x 0 (src ++ chk) [] with
    | .wait s' => s'
    | .go s0 =>
      let s1 := s0.took (src ++ chk)
      let dt := x.detail ||| (flag check * 4)
      match blocks.find? (fun b => s0.blockFails ws p sp b) with
      | some b =>
        ((s1.countMismatch sp b).post 0x3001 2 p 0xFFFF (detail [(8, dTag d), (8, b), (8, (s0.storedCrc ws p sp b).getD 0)])).workDone
          x.id 9 dt
      | none =>
        let bs := s0.readLinesOf src
        if poisoned bs then s1.consume p (x.unitId 0) (dTag d) src 3
        else s1.scatterApply { x with detail := dt } (chunks 16 tl.2 (plain bs))

/-- SCATTER_ADD (R257). -/
def execScatterAdd (f : Nat) (s : State) : Host.Outcome State Fault Refusal :=
  match s.working f 0 0x60001 with
  | some x => .next (s.doScatter x)
  | none => .next s

/-! ### REPAIR and MAP_OUT (R280 to R282, R288) -/

def repStack (d : Bytes) : Nat := byteAt d 32
def repPc (d : Bytes) : Nat := byteAt d 33
def repKind (d : Bytes) : Nat := byteAt d 34
def repBank (d : Bytes) : Nat := byteAt d 35
def repRow (d : Bytes) : Nat := fieldLe d 36 4
/-- The group and, within it, the die that a REPAIR names (R234). -/
def repGroup (d : Bytes) : Nat := 4 * repStack d + repPc d / 16
def repDie (d : Bytes) : Nat := repPc d % 16

/-- The affected granule of a repaired row (R282). -/
def repGranule (d : Bytes) : Nat :=
  let st := 1024 * repRow d + 256 * (repBank d % 4) + 16 * (repBank d / 4 ^^^ repRow d % 16)
  393216 * repGroup d + st / 64

/-- Reserved fields of REPAIR and MAP_OUT are zero. -/
def maintReserved (d : Bytes) : Bool := if dOpcode d = 2 then allZero (slice d 40 24) else allZero (slice d 33 31)

/-- The admission checks of REPAIR (R280, R281) and MAP_OUT (R288). -/
def State.maintStatic (s : State) (p : Nat) (d : Bytes) : Nat :=
  if dOpcode d = 2 then
    firstStatus [
      (!(s.part p).maintenance, 3),
      (dSpeculative d || dPencil d || dStaged d, 6),
      (decide (7 < repStack d) || decide (63 < repPc d) || (repKind d != 1 && repKind d != 2) || decide (63 < repBank d)
        || decide (24575 < repRow d), 6),
      (!(s.group (repGroup d)).wide, 6),
      (s.mem.noSpare.contains ((2 * (64 * repStack d + repPc d) + (repKind d - 1)) * 64 + repBank d), 6),
      ((s.group (repGroup d)).state != 0, 8)]
  else
    let n := byteAt d 32
    firstStatus [
      (!(s.part p).maintenance, 3),
      (dSpeculative d || dPencil d || dStaged d, 6),
      (decide (31 < n), 6),
      ([1, 4, 5].contains (s.group n).state, 8),
      (decide ((s.eligibleDonors n).length < 24), 8)]

/-- REPAIR (R282): the granule's lines are written back and its accesses held; the group is held for sPPR, or put into
degraded mode for the repaired die for hPPR. -/
def execRepair (f : Nat) (s : State) : Host.Outcome State Fault Refusal :=
  match s.controlReady f 0x60002 with
  | none => .next s
  | some x =>
    let d := x.desc
    let n := repGroup d
    let g := repGranule d
    if (s.group n).state ≠ 0 then .next (s.endFlight f 8 0)
    else
      let s := s.writebackAll (fun l => l.setting / 64 == g && !s.lineHeld l)
      let s := { s with care := { s.care with repairHold := s.care.repairHold ++ [(g, f)] } }
      let s := s.updFlight f (fun y => { y with state := .running s.tick.count })
      if repKind d = 1 then .next (s.beginHold n (repDie d))
      else
        let s := s.updGroup n (fun y => { y with state := 2, heldPc := repDie d, attempts := 0, erased := some (repDie d) })
        .next (s.postGroupState n 0 2 (some (repDie d)) false 0)

/-- The hold of a REPAIR ends (R270, R282, R292): after a good one the granule is zero and its lines are gone. -/
def State.repairEnd (s : State) (x : Flight) (good : Bool) : State :=
  let d := x.desc
  let n := repGroup d
  let g := repGranule d
  let s := { s with care := { s.care with repairHold := s.care.repairHold.filter (fun h => h.2 != x.id) } }
  let s : State := if good then
      let s := s.setGranule g false
      { s with mem := { s.mem with wcb := s.mem.wcb.filter (fun l => l.setting / 64 != g) } }
    else s
  if repKind d = 1 then
    if (s.group n).state = 1 then (s.updGroup n (fun y => { y with state := y.formerState })).bumpGroup n else s
  else s.rejoin n

/-- REPAIR_DONE (R282): the stack has reported the repair; a good one leaves the granule unwritten; the group is released. -/
def execRepairDone (f : Nat) (good : Bool) (s : State) : Host.Outcome State Fault Refusal :=
  match s.flight f with
  | none => .next s
  | some x =>
    if s.care.repairHold.any (fun h => h.2 == f) then .next ((s.repairEnd x good).endFlight f (if good then 0 else 8) 0)
    else .next s

/-- MAP_OUT (R288): evacuation of the group starts; the descriptor completes when it is mapped out. -/
def execMapOut (f : Nat) (s : State) : Host.Outcome State Fault Refusal :=
  match s.controlReady f 0x60003 with
  | none => .next s
  | some x =>
    let n := byteAt x.desc 32
    if [1, 4, 5].contains (s.group n).state || decide ((s.eligibleDonors n).length < 24) then .next (s.endFlight f 8 0)
    else
      .next ((s.updFlight f (fun y => { y with state := .running s.tick.count })).startEvac n (some f))

/-! ### Register writes of the memory blocks -/

/-- The value of a register after a write of the whole or of one half (R5). -/
def mergeHalf (h : Half) (old : Nat) (v : W64) : Nat :=
  match h with
  | .full => v.toNat
  | .low => old / 2 ^ 32 * 2 ^ 32 + v.toNat % 2 ^ 32
  | .high => v.toNat % 2 ^ 32 * 2 ^ 32 + old % 2 ^ 32

/-- A write of MEM.REG[b] (Table 7.13). -/
def State.writeMemReg (s : State) (b : Nat) (h : Half) (v : W64) : State :=
  s.updBucket b (fun x =>
    let w := mergeHalf h (x.depth * 2 ^ 32 + x.rate) v
    { x with rate := w % 2 ^ 32, depth := w / 2 ^ 32 })

/-- MEM_REG_WRITE (R252): a bucket's rate and depth, in force from the next tick boundary. -/
def execMemRegWrite (b : Nat) (h : Half) (v : W64) (s : State) : Host.Outcome State Fault Refusal :=
  guarded "MEM_REG_WRITE" (decide (b < 18)) (s.regWrite fun s => s.writeMemReg b h v)

/-- A write of MEMC.DONOR[w] (Table 8.17): bits of donated slabs keep their value. -/
def State.writeDonor (s : State) (w : Nat) (h : Half) (v : W64) : State :=
  let old := (SMap.get 0 s.care.donor w).toNat
  let new := mergeHalf h old v
  let donated := maskOf ((List.range 64).filter (fun i => (s.slab (64 * w + i)).hole))
  { s with care := { s.care with
      donor := SMap.set 0 s.care.donor w (BitVec.ofNat 64 ((new &&& (2 ^ 64 - 1 - donated)) ||| (old &&& donated))) } }

/-- DONOR_WRITE (R289): donor reservations. -/
def execDonorWrite (w : Nat) (h : Half) (v : W64) (s : State) : Host.Outcome State Fault Refusal :=
  guarded "DONOR_WRITE" (decide (w < 12)) (s.regWrite fun s => s.writeDonor w h v)

/-- A write of SAIL.KVR_BASE[p] or SAIL.KVR_LIMIT[p] (Table 3.12): bits 56:21 of a KV region's start or end; dropped while the
partition has an open or closing slot. -/
def State.writeKvr (s : State) (p : Nat) (limit : Bool) (h : Half) (v : W64) : State :=
  if s.sail.slots.any (fun e => e.2.state != 0 && e.2.partition == p) then s
  else
    let put (m : SMap Nat) := SMap.upd 0 m p (fun old => mergeHalf h old v % 2 ^ 57 / 2 ^ 21 * 2 ^ 21)
    if limit then { s with sail := { s.sail with kvrLimit := put s.sail.kvrLimit } }
    else { s with sail := { s.sail with kvrBase := put s.sail.kvrBase } }

/-- KVR_WRITE (R86): a KV region's start or end. -/
def execKvrWrite (p : Nat) (limit : Bool) (h : Half) (v : W64) (s : State) : Host.Outcome State Fault Refusal :=
  guarded "KVR_WRITE" (decide (p < 16)) (s.regWrite fun s => s.writeKvr p limit h v)

/-! ### Casket ownership and scrub (R210, R212) -/

/-- A write of CASKET.OWN[sl] (Table 6.8). -/
def State.writeOwn (s : State) (sl : Nat) (h : Half) (v : W64) : State :=
  { s with casket := { s.casket with
      own := SMap.upd {} s.casket.own sl (fun o => { o with requested := mergeHalf h o.requested v % 2 ^ 48 }) } }

/-- CASKET_OWN_WRITE (R212): the requested ownership of a slice's segments. -/
def execCasketOwnWrite (sl : Nat) (h : Half) (v : W64) (s : State) : Host.Outcome State Fault Refusal :=
  guarded "CASKET_OWN_WRITE" (decide (sl < 576)) (s.regWrite fun s => s.writeOwn sl h v)

/-- The fields of segment `g` copied from the word `w` into the word `o`. -/
def copySeg (o w g : Nat) : Nat :=
  let m := 15 * 2 ^ (4 * g) + 2 ^ (32 + g) + 2 ^ (40 + g)
  (o &&& (2 ^ 48 - 1 - m)) ||| (w &&& m)

/-- A descriptor in flight of partition `p` touches segment `g` of slice `sl` (R212). -/
def State.segTouched (s : State) (p sl g : Nat) : Bool := s.work.flights.any (fun x => x.part == p && x.segs.contains (8 * sl + g))

/-- The segments of slice `sl` whose requested owner and kind differ from the current ones and which may change now. -/
def State.segsToApply (s : State) (sl : Nat) : List Nat :=
  let o := s.casketOwn sl
  (List.range 8).filter (fun g =>
    segOwner o.requested g != segOwner o.current g &&
      (match segOwner o.current g with
        | none => true
        | some (p, _) => !s.segTouched p sl g))

/-- CASKET_OWN_APPLY (R212): in an Admit phase, each changed segment that no descriptor in flight of its old owner touches
takes its new owner and kind, and is zeroed; one event for the segments each new owner gains. -/
def execCasketOwnApply (sl : Nat) (s : State) : Host.Outcome State Fault Refusal :=
  guarded "CASKET_OWN_APPLY" (decide (sl < 576)) (
    if s.tick.phase ≠ 0 then s
    else
      let o := s.casketOwn sl
      let go := s.segsToApply sl
      let same := (List.range 8).filter (fun g => segOwner o.requested g == segOwner o.current g)
      let current := (go ++ same).foldl (fun w g => copySeg w o.requested g) o.current
      let s := go.foldl (fun s g => (s.zeroCasket (sl * 0x80000 + g * 0x10000) 0x10000).dropPending
        (sl * 0x80000 + g * 0x10000) 0x10000) s
      let s := { s with casket := { s.casket with own := SMap.set {} s.casket.own sl { o with current := current } } }
      let owners := nub (go.map (fun g => match segOwner o.requested g with
        | some (p, _) => p
        | none => 0xFF))
      owners.foldl (fun s p => s.post 0x2063 0 p (0x4000 + sl) (detail [(1, maskOf (go.filter (fun g =>
        (match segOwner o.requested g with
          | some (q, _) => q
          | none => 0xFF) == p)))])) s)

/-- Codewords of a slice have come to differ from what was stored: `upset` gives slice offsets and the bits that flipped. -/
def State.upsetCasket (s : State) (sl : Nat) (upset : List (Nat × BitVec 12)) : State :=
  { s with casket := { s.casket with errs := upset.foldl (fun m u =>
      SMap.upd 0 m (sl * 0x80000 + u.1) (fun e => e ^^^ u.2.toNat)) s.casket.errs } }

/-- CASKET_PATROL_SCRUB (R208 to R210): the scrub of slice `sl` reads the codeword of the byte at slice offset `off` as the array holds it,
corrects a single error as any reader does, and meets an uncorrectable one as any reader does; `upset` are bits that have flipped
elsewhere in the slice, for later readers to meet. [DEDUCED, log 47] -/
def execCasketPatrolScrub (sl off : Nat) (codeword : BitVec 12) (upset : List (Nat × BitVec 12)) (s : State) :
    Host.Outcome State Fault Refusal :=
  guarded "CASKET_PATROL_SCRUB" (decide (sl < 576) && decide (off < 0x80000) && upset.all (fun u => decide (u.1 < 0x80000))) (
    let a := sl * 0x80000 + off
    let errs := SMap.set 0 s.casket.errs a (hammingEncode (SMap.get 0 s.casket.bytes a).toNat ^^^ codeword.toNat)
    let s : State := { s with casket := { s.casket with
      errs := errs, scrubbed := SMap.upd 0 s.casket.scrubbed sl (fun n => (n + 1) % 0x80000) } }
    let s := (s.heedCasketByte a).upsetCasket sl upset
    if (s.casketByte a).2 then s.casketBadRead a 5 0xFF else s)

/-! ### The host's CXL.mem accesses (R301 to R304) -/

/-- An access event that is posted at most once per source per tick; its detail is the address, the source (1 host read, 2 host
write, 3 Tether, 4 descriptor, 5 site, 6 debug), then `rest`. -/
def State.postAccess (s : State) (code part unit a source : Nat) (rest : List (Nat × Nat)) : State :=
  s.postOnce (fun e => e.detail / 2 ^ 64 % 256 == source) code 1 part unit (detail ([(8, a), (1, source)] ++ rest))

/-- The unit id of the pseudo-channel that holds a device memory address. -/
def State.pcOfDev (s : State) (d : Nat) : Nat :=
  match storageOf d with
  | some k => pcUnit (s.redirect k)
  | none => 0xFFFF

/-- The first row of Table 9.3, or of R86 and R239, that stops a non-descriptor access to a device memory range, with its
event: 1 sealed region, 2 KV region, 3 donated slab. [DEDUCED, log 61] -/
def State.accessStop (s : State) (d n source part : Nat) : Option State :=
  match s.locket.regions.find? (fun e => e.2.state != 0 && (slabsOf d n).any (fun i => e.2.slabs.contains i)) with
  | some e => some (s.postAccess 0x7001 part 0x7000 d source [(1, e.1)])
  | none =>
    match s.kvrOf d n with
    | some p => some (s.postAccess 0x3012 p (s.pcOfDev d) d source [])
    | none => if s.meetsHole d n then some (s.postAccess 0x1010 part 0xFFFF d source []) else none

/-- HDM_DECODER_COMMIT (R301): a decoder takes effect and locks until the next warm reset. [PRESUMED, log 9] -/
def execHdmDecoderCommit (d base size : Nat) (s : State) : Host.Outcome State Fault Refusal :=
  guarded "HDM_DECODER_COMMIT" (decide (d < 2) && base % 2 ^ 28 == 0 && size % 2 ^ 28 == 0 && decide (size ≤ 0xC000000000)
    && decide (base + size ≤ 2 ^ 64)) (
    if d = 0 then
      if s.host.hdm0.isSome then s else { s with host := { s.host with hdm0 := some (base, size) } }
    else
      if s.host.hdm1.isSome then s else { s with host := { s.host with hdm1 := some (base, size) } })

/-- What a read or a writeback of setting `st` meets comes to stand in the stack and in its buffer line; of a line whose two tag copies
both fail, the writes are lost and a warm reset is due (R247, R278). -/
def State.meetErrors (s : State) (st : Nat) (e : MemErrors) : State :=
  let mem := if e.stack.isEmpty then s.mem else s.mem.holdSetting (s.group (st / settingsPerGroup)).wide st e.stack
  let flip (l : WcbLine) : WcbLine := { l with errs := e.upsets.foldl (fun m u =>
    if (SMap.get none l.bytes u.1).isSome then SMap.upd 0 m u.1 (fun x => x ^^^ u.2.toNat) else m) l.errs }
  let line := mem.wcb.any (fun l => l.setting == st)
  let s : State := { s with mem := { mem with wcb := mem.wcb.map (fun l => if l.setting == st then flip l else l) } }
  if e.copies = 0 ∧ line then
    ({ s with mem := s.mem.dropLine st } : State).warmDue 3
  else s

/-- CXL_MEM_READ (R303, Table 9.3): a 64 B read of HDM by the host.  An access that must wait for a bucket, a hold or a granule
leaves the device as it is but for the counted wait; it is the same command again. [DESIGN CHOICE, log 63] -/
def execCxlMemRead (hpa : Nat) (e : MemErrors) (s : State) : Host.Outcome State Fault Refusal :=
  guarded "CXL_MEM_READ" (hpa % 64 == 0 && decide (hpa < 2 ^ 64)) (
    match s.placeOfHpa hpa with
    | .dev d =>
      if s.keel.safe then s.emit (.memData hpa (List.replicate 64 0xFF) false)
      else match s.accessStop d 64 1 0xFF with
      | some s' => s'.emit (.memData hpa (List.replicate 64 0xFF) false)
      | none =>
        let s := match storageOf d with
          | some k => s.meetErrors (s.redirect k / 1024) e
          | none => s
        if bit s.pwr.idle 2 then s.wakeMemory
        else if s.readHeld d 64 then s.holdBeats d 64
        else if s.readCost d 64 != 0 && !s.mayIssue 16 then s.bucketWait 16
        else
          let bs := s.readDev d 64
          let s := (s.charge 16 (s.readCost d 64)).heed d 64
          let s := if poisoned bs then s.postUncorrectable d bs 0xFF 2 0 else s
          s.emit (.memData hpa (plain bs) (poisoned bs))
    | _ => s)

/-- The bytes of a line that a mask enables, as (offset, byte). -/
def maskedBytes (mask : W64) (data : Bytes) : List (Nat × Byte) :=
  ((List.range 64).filter (fun i => mask.toNat.testBit i)).map (fun i => (i, data.getD i 0))

/-- CXL_MEM_WRITE (R303, Table 9.3): a write of the enabled bytes of one 64 B line of HDM by the host. -/
def execCxlMemWrite (hpa : Nat) (mask : W64) (data : Bytes) (s : State) : Host.Outcome State Fault Refusal :=
  guarded "CXL_MEM_WRITE" (hpa % 64 == 0 && decide (hpa < 2 ^ 64) && data.length == 64) (
    match s.placeOfHpa hpa with
    | .dev d =>
      if s.keel.safe then s.emit (.memCompletion hpa)
      else match s.accessStop d 64 2 0xFF with
      | some s' => s'.emit (.memCompletion hpa)
      | none =>
        if bit s.pwr.idle 2 then s.wakeMemory
        else if s.repairHeld d 64 then s
        else if !s.mayIssue 16 then s.bucketWait 16
        else
          let s := s.charge 16 (writeCost 64)
          let s := if mask = BitVec.allOnes 64 then s.writeDev d (clean data) 16
            else (maskedBytes mask data).foldl (fun s b => s.writeDev (d + b.1) [(b.2, false)] 16) s
          s.emit (.memCompletion hpa)
    | _ => s)

end Sys2Proof.Machine
end

