-- ==== Sys2Proof/Machine/MeshCmds.lean ====
section
/-! DEFINITION. Launches and Filigree descriptors: LAUNCH, LOAD, RUN, UNLOAD, their staging, starts and completions
(04_bead_cores.md, 05_mesh_filigree.md, R228). -/

namespace Sys2Proof.Machine

/-! ### LAUNCH (R148 to R153) -/

def lFirst (d : Bytes) : Nat := fieldLe d 32 2
def lCount (d : Bytes) : Nat := fieldLe d 34 2
def lBudget (d : Bytes) : Nat := fieldLe d 36 2
def lFlags (d : Bytes) : Nat := byteAt d 38
def lEntry (d : Bytes) : Nat := fieldLe d 40 4
def lILen (d : Bytes) : Nat := fieldLe d 44 4
def lIBase (d : Bytes) : Nat := fieldLe d 48 8
def lSLen (d : Bytes) : Nat := fieldLe d 56 4
def lSDmem (d : Bytes) : Nat := fieldLe d 60 4
def lSBase (d : Bytes) : Nat := fieldLe d 64 8
def lPLen (d : Bytes) : Nat := fieldLe d 72 4
def lPDmem (d : Bytes) : Nat := fieldLe d 76 4
def lPBase (d : Bytes) : Nat := fieldLe d 80 8
def lPStride (d : Bytes) : Nat := fieldLe d 88 4
def lWLen (d : Bytes) : Nat := fieldLe d 92 4
def lWDmem (d : Bytes) : Nat := fieldLe d 96 4
def lWStride (d : Bytes) : Nat := fieldLe d 100 4
def lWBase (d : Bytes) : Nat := fieldLe d 104 8
def lArg (d : Bytes) : Nat := fieldLe d 112 4

/-! ### RUN and LOAD fields (Tables 5.13, 5.14) -/

def uTicks (d : Bytes) : Nat := fieldLe d 32 4
def uArg (d : Bytes) : Nat := fieldLe d 36 4
def uFlags (d : Bytes) : Nat := byteAt d 40
def uPLen (d : Bytes) : Nat := fieldLe d 44 4
def uPDmem (d : Bytes) : Nat := fieldLe d 48 4
def uPStride (d : Bytes) : Nat := fieldLe d 52 4
def uPBase (d : Bytes) : Nat := fieldLe d 56 8
def uWLen (d : Bytes) : Nat := fieldLe d 64 4
def uWDmem (d : Bytes) : Nat := fieldLe d 68 4
def uWStride (d : Bytes) : Nat := fieldLe d 72 4
def uWBase (d : Bytes) : Nat := fieldLe d 80 8
def oBase (d : Bytes) : Nat := fieldLe d 32 8
def oLen (d : Bytes) : Nat := fieldLe d 40 4
def oCheck (d : Bytes) : Bool := bit (byteAt d 44) 0

/-! ### Sets of tiles and their stage areas (R228) -/

/-- The tiles of a LAUNCH, in bead order; none if a bead number is not assigned. -/
def State.launchTiles (s : State) (d : Bytes) : Option (List Nat) :=
  (List.range (lCount d)).mapM (fun i => s.tileOfBead (lFirst d + i))

/-- The program tiles of a schedule, in the order of their TILES entries (R187). -/
def Sched.programTiles (c : Sched) : List Nat := (c.tiles.filter (fun e => e.2 != 0xFFFF)).map (fun e => e.1)

/-- The tiles whose memories a class 0x3 or 0x4 descriptor loads. -/
def State.setTiles (s : State) (p : Nat) (d : Bytes) : List Nat :=
  if dClass d = 3 then (s.launchTiles d).getD [] else (s.sched p).programTiles

/-- Bytes of stage segments that partition `p` has in slice `sl`. -/
def State.stageBytes (s : State) (p sl : Nat) : Nat :=
  ((List.range 8).filter (fun g => segOwner (s.casketOwn sl).current g == some (p, true))).length * 65536

/-- Bytes that the staging of a LAUNCH or RUN needs in each slice: (slice, bytes). -/
def State.stageNeed (s : State) (p : Nat) (d : Bytes) : List (Nat × Nat) :=
  let tiles := s.setTiles p d
  (nub (tiles.map sliceOfTile)).map (fun sl =>
    let n := (tiles.filter (fun t => sliceOfTile t == sl)).length
    (sl, if dClass d = 3 then lILen d + lSLen d + lPLen d * n else uPLen d * n))

/-- The stage segments of partition `p` in the slices that a staging uses, as Casket segments. -/
def State.stageSegs (s : State) (p : Nat) (need : List (Nat × Nat)) : List Nat :=
  (need.map (fun e => (List.range 8).filterMap (fun g =>
    if segOwner (s.casketOwn e.1).current g == some (p, true) then some (8 * e.1 + g) else none))).flatten

/-- The stage segments exist for what the staging needs. -/
def State.stageFits (s : State) (p : Nat) (need : List (Nat × Nat)) : Bool :=
  need.all (fun x => decide (x.2 ≤ s.stageBytes p x.1))

/-- Bytes that the implicit staging of flight `x` needs in each slice (R228): those judged at its admission, or those of a RUN by the
schedule that is loaded. [DEDUCED, log 109] -/
def State.needOf (s : State) (x : Flight) : List (Nat × Nat) :=
  if dClass x.desc = 3 ∨ dKey x.desc = 0x40001 then x.stage else if dKey x.desc = 0x40002 then s.stageNeed x.part x.desc else []

/-- The flight is a LAUNCH, a LOAD or a RUN that has not started. -/
def Flight.unstarted (x : Flight) : Bool :=
  (dClass x.desc == 3 || dClass x.desc == 4) && x.state == .eligible && (x.strand 0).state == .eligible && !x.worked

/-- An earlier descriptor of the partition still holds images in a stage area that this one needs. -/
def State.stageBusy (s : State) (x : Flight) : Bool :=
  let slices := (s.needOf x).map (fun e => e.1)
  s.work.flights.any (fun y => y.id != x.id && y.part == x.part && y.staged && y.unstarted &&
    (s.needOf y).any (fun e => slices.contains e.1))

/-! ### Admission checks -/

/-- A length, offset and stride of a per-tile image (Tables 4.11, 5.14). -/
def imageOk (len off stride : Nat) : Bool :=
  len % 16 == 0 && decide (len ≤ 65536) && off % 16 == 0 && decide (off + len ≤ 65536) && stride % 64 == 0 && decide (len ≤ stride)

/-- An image lies at a multiple of 64 B, if there is one (R148). -/
def imageAligned (len base : Nat) : Bool := len == 0 || base % 64 == 0

/-- Reserved fields of a LAUNCH are zero. -/
def launchReserved (d : Bytes) : Bool := lFlags d / 32 == 0 && byteAt d 39 == 0 && allZero (slice d 116 12)

/-- The fields of a LAUNCH are in range (R148, R149). -/
def launchFields (d : Bytes) : Bool :=
  let keepI := bit (lFlags d) 0
  let keepD := bit (lFlags d) 1
  decide (1 ≤ lCount d) && decide (lCount d ≤ 4096) && decide (lFirst d + lCount d ≤ 4096) &&
  decide (1 ≤ lBudget d) && decide (lBudget d ≤ 1024) && lEntry d % 2 == 0 && decide (lEntry d < 16384) &&
  lILen d % 4 == 0 && decide (lILen d ≤ 16384) && (keepI == (lILen d == 0)) && imageAligned (lILen d) (lIBase d) &&
  (keepI || decide (lEntry d < lILen d)) &&
  lSLen d % 16 == 0 && decide (lSLen d ≤ 65536) && lSDmem d % 16 == 0 && decide (lSDmem d + lSLen d ≤ 65536) && imageAligned (lSLen d) (lSBase d) &&
  imageOk (lPLen d) (lPDmem d) (lPStride d) && imageAligned (lPLen d) (lPBase d) &&
  imageOk (lWLen d) (lWDmem d) (lWStride d) && (bit (lFlags d) 2 == (lWLen d != 0)) &&
  !(keepD && (lSLen d != 0 || lPLen d != 0)) &&
  !(lSLen d != 0 && lPLen d != 0 && meets (lSDmem d) (lSLen d) (lPDmem d) (lPLen d))

/-- The admission checks of a LAUNCH (R148, R149, R228). -/
def State.launchStatic (s : State) (p : Nat) (d : Bytes) : Nat :=
  let tiles := s.launchTiles d
  firstStatus [
    (dSpeculative d || dPencil d || !launchFields d, 6),
    (!s.stageFits p (s.stageNeed p d), 6),
    ((match tiles with
      | none => true
      | some ts => ts.any (fun t => (s.tile t).partition != some p)), 3),
    ((match tiles with
      | none => false
      | some ts => ts.any (fun t => (s.tile t).coreFenced)), 8)]

/-- The source operands of a descriptor's images, with their verification (R74): (operand, check). -/
def State.imageOpnds (s : State) (p : Nat) (d : Bytes) : List Opnd :=
  let one (b n : Nat) (c : Bool) : List Opnd := if n = 0 then [] else [⟨b, 1, n, n, c, false⟩]
  match dKey d with
  | 0x30001 =>
    one (lIBase d) (lILen d) (bit (lFlags d) 3) ++ one (lSBase d) (lSLen d) (bit (lFlags d) 4) ++
      (if lPLen d = 0 then [] else [⟨lPBase d, lCount d, lPLen d, lPStride d, bit (lFlags d) 4, false⟩])
  | 0x40001 => one (oBase d) (oLen d) (oCheck d)
  | _ =>
    let n := (s.sched p).programTiles.length
    if uPLen d = 0 ∨ n = 0 then [] else [⟨uPBase d, n, uPLen d, uPStride d, bit (uFlags d) 2, false⟩]

/-- The writeback operand of a LAUNCH or RUN. -/
def State.writebackOpnds (s : State) (p : Nat) (d : Bytes) : List Opnd :=
  match dKey d with
  | 0x30001 => if lWLen d = 0 then [] else [⟨lWBase d, lCount d, lWLen d, lWStride d, false, true⟩]
  | 0x40002 =>
    let n := (s.sched p).programTiles.length
    if uWLen d = 0 ∨ n = 0 then [] else [⟨uWBase d, n, uWLen d, uWStride d, false, true⟩]
  | _ => []

/-- The ranges of a class 0x3 or 0x4 descriptor. -/
def State.meshRanges (s : State) (ws : List ChkWindow) (p : Nat) (d : Bytes) : List Range :=
  ((s.imageOpnds p d ++ s.writebackOpnds p d).map (opndRanges ws)).flatten

/-- Reserved fields of a class 0x4 descriptor are zero. -/
def meshReserved (d : Bytes) : Bool :=
  match dOpcode d with
  | 1 => byteAt d 44 / 2 == 0 && allZero (slice d 45 19)
  | 2 => uFlags d / 8 == 0 && allZero (slice d 41 3) && fieldLe d 76 4 == 0 && allZero (slice d 88 40)
  | _ => allZero (slice d 32 32)

/-- The admission checks of LOAD, RUN and UNLOAD (R192, R228). -/
def State.meshStatic (s : State) (p : Nat) (d : Bytes) : Nat :=
  let opOk := match dOpcode d with
    | 2 =>
      let keepD := bit (uFlags d) 0
      decide (1 ≤ uTicks d) && decide (uTicks d ≤ 16777216) && imageOk (uPLen d) (uPDmem d) (uPStride d) &&
        !(keepD && uPLen d != 0) && imageOk (uWLen d) (uWDmem d) (uWStride d) && (bit (uFlags d) 1 == (uWLen d != 0))
    | _ => true
  firstStatus [
    (dSpeculative d || dPencil d || !opOk, 6),
    ((s.imageOpnds p d).any (fun o => !opndCovered (s.chkWindows p) o), 6),
    (dOpcode d == 2 && !s.stageFits p (s.stageNeed p d), 6)]

/-- Some operand that a LAUNCH verifies has no checksum place. -/
def State.launchCovered (s : State) (p : Nat) (d : Bytes) : Bool := (s.imageOpnds p d).all (opndCovered (s.chkWindows p))

/-! ### Staging (R26, R150, R193, R194, R228) -/

/-- An eligible staged descriptor of class and opcode `key`, its pages pinned, whose images are still to be staged. -/
def State.staging (s : State) (f key : Nat) : Option Flight :=
  match s.flight f with
  | none => none
  | some x => if dKey x.desc = key ∧ x.unstarted ∧ (x.strand 0).pinned ∧ ¬ x.staged then some x else none

/-- Fetch the images of flight `x` into its stage areas, verifying what is to be verified (R74); `k` goes on with the bytes. -/
def State.stage (s : State) (x : Flight) (k : State → Bytes → State) : State :=
  if s.stageBusy x then s
  else
    let ops := s.imageOpnds x.part x.desc
    match s.fetch x 0 ops [] [] [] with
    | .wait s' => s'
    | .stop s' =>
      match s'.flight x.id with
      | some y => if y.worked then s'.endFlight x.id y.status 0 else s'
      | none => s'
    | .go s' => k (s'.unpin x.id) ((ops.map (fun o => (s.opndRows x.part o).flatten)).flatten)

/-- The staging of flight `x` has moved its bytes (Table 6.12). -/
def State.movedFor (s : State) (x : Flight) : State := s.countMoved x.part ((s.needOf x).map (fun e => e.2)).sum

/-- The staged bytes are held with the flight. -/
def State.staged (s : State) (f : Nat) (bytes : Bytes) : State := s.updFlight f (fun y => { y with staged := true, blob := bytes })

/-- LAUNCH (R150, step 1): the images are staged and verified. -/
def execLaunch (f : Nat) (s : State) : Host.Outcome State Fault Refusal :=
  match s.staging f 0x30001 with
  | none => .next s
  | some x => .next (s.stage x (fun s bs => (s.movedFor x).staged f bs))

/-- The program of a tile starts (R150, step 4). -/
def Tile.start (x : Tile) (f tick part origin : Nat) (inRun : Bool) (entry bead arg index : Nat) : Tile :=
  { x with
    origin := origin, loads := false, state := 2, prog := some f, inRun := inRun, launchTick := tick % 2 ^ 32, progPart := part,
    regs := SMap.set 0 (SMap.set 0 (SMap.set 0 (SMap.set 0 [] 2 0x20000) 10 (BitVec.ofNat 32 bead)) 11 (BitVec.ofNat 32 arg)) 12
      (BitVec.ofNat 32 index),
    vregs := [], pc := BitVec.ofNat 32 entry, mtvec := 0, mscratch := 0, mepc := 0, mcause := 0, mtval := 0, lseCfg := 0,
    lseSmooth := 0, claspId := 0, cycle := 0, instret := 0, trapActive := false, stall := .none, ended := none,
    tx := [], rx := [] }

/-- The count of its clock at which tile `t` is done with `l` cycles that begin with the Run phase of this tick (R150, R193, R194). -/
def State.afterLoad (s : State) (t l : Nat) : Nat :=
  (ceilDiv (if tileCol t < 36 then s.mesh.runWest else s.mesh.runEast) clockUnit + l) * clockUnit

/-- Tile `t` loads (Table 4.16): its table and IMEM, or the images of a program that has not begun. [DEDUCED, log 110] -/
def State.tileLoads (s : State) (t : Nat) : Bool :=
  let x := s.tile t
  decide (s.clockNow (tileCol t / 36) < x.origin) && (x.loads || (x.state == 2 && x.cycle == 0 && x.instret == 0))

/-- Every tile of a set is idle. -/
def State.allIdle (s : State) (ts : List Nat) : Bool := ts.all (fun t => (s.tile t).state == 0 && !s.tileLoads t)

/-- The flight's slice starts now, with these beads; it counts as one that started in tick `n` (R151, R196). -/
def State.startSlice (s : State) (f n : Nat) (beads : List (Nat × Nat)) : State :=
  (s.updStrand f 0 (fun y => y.enter n)).updFlight f (fun y => { y with
    blob := [], beads := beads.map (fun b => (b.1, b.2, none)) })

/-- A descriptor of class and opcode `key` that can start (R150, R193, R194): in a Run phase, with its staging done and every tile of the set
idle. -/
def State.canStart (s : State) (f key : Nat) (tiles : Flight → List Nat) : Option Flight :=
  match s.flight f with
  | none => none
  | some x =>
    if dKey x.desc = key ∧ x.staged ∧ s.stagingDone x ∧ x.unstarted ∧ s.tick.phase = 1 ∧ s.allIdle (tiles x) then some x else none

/-- The DMEM of a tile as a load leaves it: zero outside the loaded ranges, unless it is kept (R150, R194). -/
def Tile.loadDmem (x : Tile) (keep : Bool) (images : List (Nat × Bytes)) : Tile :=
  let x := if keep then x else { x with dmem := [], dmemBad := [], weak := x.weak.filter (fun e => decide (e.1 < 4096)) }
  images.foldl (fun (x : Tile) e => x.writeDmem e.1 (clean e.2)) x

/-- The IMEM of a tile as a load leaves it. -/
def Tile.loadImem (x : Tile) (code : Bytes) : Tile :=
  let ws := wordsMet 0 code.length
  { x with
    imem := SMap.setList 0 x.imem 0 code
    imemBad := ws.foldl (fun m w => SMap.set false m w false) x.imemBad
    weak := ws.foldl (fun m w => SMap.set false m w false) x.weak }

/-- LAUNCH_START (R150, steps 2 to 4): in a Run phase, with the images staged and every tile of the set idle, the tiles load their
images and start together. -/
def execLaunchStart (f : Nat) (s : State) : Host.Outcome State Fault Refusal :=
  match s.canStart f 0x30001 (fun x => s.setTiles x.part x.desc) with
  | none => .next s
  | some x =>
    let d := x.desc
    let tiles := s.setTiles x.part d
    let img := x.blob
    let pOff := lILen d + lSLen d
    let l := 64 + ceilDiv (lILen d + lSLen d + lPLen d) 16
    let s := (tiles.mapIdx (fun i t => (i, t))).foldl (fun s e =>
      s.updTile e.2 (fun y =>
        let y := if bit (lFlags d) 0 then y else y.loadImem (slice img 0 (lILen d))
        let y := y.loadDmem (bit (lFlags d) 1)
          [(lSDmem d, slice img (lILen d) (lSLen d)), (lPDmem d, slice img (pOff + e.1 * lPLen d) (lPLen d))]
        y.start f s.tick.count x.part (s.afterLoad e.2 l) false (lEntry d) (lFirst d + e.1) (lArg d) e.1)) s
    .next (s.startSlice f (s.tick.count + lBudget d - 1) (tiles.mapIdx (fun i t => (t, lFirst d + i))))

/-! ### Filigree images (R185 to R191) -/

/-- The entry of the section of a type: its position in the section table, version, count, offset, length. -/
structure SectionEntry where
  index : Nat
  kind : Nat
  version : Nat
  reserved : Nat
  count : Nat
  offset : Nat
  length : Nat

/-- The section table (Table 5.10). -/
def imgSections (g : Bytes) : List SectionEntry :=
  (List.range (min 4 (fieldLe g 12 2))).map (fun i =>
    let o := 64 + 16 * i
    ⟨i, fieldLe g o 2, byteAt g (o + 2), byteAt g (o + 3), fieldLe g (o + 4) 4, fieldLe g (o + 8) 4, fieldLe g (o + 12) 4⟩)

/-- The section of a type. -/
def imgSection (g : Bytes) (kind : Nat) : Option SectionEntry := (imgSections g).find? (fun e => e.kind == kind)

def imgS (g : Bytes) : Nat := fieldLe g 14 2
def imgR (g : Bytes) : Nat := fieldLe g 16 4
def imgOffset (g : Bytes) : Nat := fieldLe g 20 4
def imgSeam (g : Bytes) : Bool := bit (byteAt g 6) 0
def imgBuild (g : Bytes) : Nat := fieldLe g 40 8

/-- A TILES entry: where it stands, the tile, the program index, the slot entries. -/
structure TileEntry where
  at_ : Nat
  tile : Nat
  program : Nat
  slots : List Nat

/-- The TILES entries (R187). -/
def imgTiles (g : Bytes) : List TileEntry :=
  match imgSection g 1 with
  | none => []
  | some e => (List.range (min e.count (e.length / (16 + 8 * imgS g)))).map (fun i =>
      let o := e.offset + i * (16 + 8 * imgS g)
      ⟨o, fieldLe g o 2, fieldLe g (o + 2) 2, (List.range (imgS g)).map (fun u => fieldLe g (o + 16 + 8 * u) 8)⟩)

/-- A PROGRAMS entry: where it stands, index, entry address, code. -/
structure ProgEntry where
  at_ : Nat
  index : Nat
  entry : Nat
  len : Nat
  code : Bytes

/-- A length padded to a multiple of 16. -/
def pad16 (n : Nat) : Nat := (n + 15) / 16 * 16

/-- The bytes that pad an entry of `n` bytes at `o` are zero (R188 to R190). -/
def padZero (g : Bytes) (o n : Nat) : Bool := allZero (slice g (o + n) (pad16 n - n))

/-- The PROGRAMS entries (R188), one after another, as far as the section reaches. -/
def progEntries (g : Bytes) (end_ : Nat) : Nat → Nat → List ProgEntry
  | 0, _ => []
  | n + 1, o =>
    if end_ ≤ o then []
    else
      let len := fieldLe g (o + 8) 4
      ⟨o, fieldLe g o 2, fieldLe g (o + 4) 4, len, slice g (o + 16) len⟩ :: progEntries g end_ n (o + 16 + pad16 len)

def imgPrograms (g : Bytes) : List ProgEntry :=
  match imgSection g 2 with
  | none => []
  | some e => progEntries g (e.offset + e.length) (min e.count (e.length / 16)) e.offset

/-- Bytes of a REDUCTIONS entry and of a BARRIERS entry without their padding (R189, R190). -/
def redBytes (g : Bytes) (o : Nat) : Nat := 64 + 2 * byteAt g (o + 3)
def barBytes (g : Bytes) (o : Nat) : Nat := 4 + 2 * fieldLe g (o + 2) 2

/-- The REDUCTIONS entries with their places (R189). -/
def redEntries (g : Bytes) (end_ : Nat) : Nat → Nat → List (Nat × Reduction)
  | 0, _ => []
  | n + 1, o =>
    if end_ ≤ o then []
    else
      let k := byteAt g (o + 3)
      (o, ⟨fieldLe g o 2, k, fieldLe g (o + 4) 2, fieldLe g (o + 6) 2, fieldLe g (o + 8) 2, byteAt g (o + 10), fieldLe g (o + 12) 4,
        (List.range k).map (fun j => fieldLe g (o + 64 + 2 * j) 2)⟩) :: redEntries g end_ n (o + pad16 (redBytes g o))

def imgReductions (g : Bytes) : List (Nat × Reduction) :=
  match imgSection g 3 with
  | none => []
  | some e => redEntries g (e.offset + e.length) (min e.count (e.length / 64)) e.offset

/-- The BARRIERS entries with their places (R190): index and members. -/
def barEntries (g : Bytes) (end_ : Nat) : Nat → Nat → List (Nat × Nat × List Nat)
  | 0, _ => []
  | n + 1, o =>
    if end_ ≤ o then []
    else
      (o, byteAt g o, (List.range (fieldLe g (o + 2) 2)).map (fun j => fieldLe g (o + 4 + 2 * j) 2)) ::
        barEntries g end_ n (o + pad16 (barBytes g o))

def imgBarriers (g : Bytes) : List (Nat × Nat × List Nat) :=
  match imgSection g 4 with
  | none => []
  | some e => barEntries g (e.offset + e.length) (min e.count (e.length / 16)) e.offset

/-- The places and sizes of the entries of a section. -/
def sectionEntries (g : Bytes) (e : SectionEntry) : List (Nat × Nat) :=
  match e.kind with
  | 1 => (imgTiles g).map (fun x => (x.at_, 16 + 8 * imgS g))
  | 2 => (imgPrograms g).map (fun x => (x.at_, 16 + pad16 x.len))
  | 3 => (imgReductions g).map (fun x => (x.1, pad16 (redBytes g x.1)))
  | _ => (imgBarriers g).map (fun x => (x.1, pad16 (barBytes g x.1)))

/-- The section is exactly its entries (Table 5.10). -/
def sectionFull (g : Bytes) (e : SectionEntry) : Bool :=
  let es := sectionEntries g e
  es.length == e.count && (es.map (fun x => x.2)).sum == e.length

/-- A refusal of a LOAD (Table 5.12): reason, status, tile, section index, byte offset. -/
structure Refused where
  reason : Nat
  status : Nat
  tile : Nat
  section_ : Nat
  offset : Nat
  deriving DecidableEq, Repr

/-- A list of numbers has no repeats. -/
def noRepeats (xs : List Nat) : Bool := nub xs == xs

/-- Header and section table (reason 1): the offset of the first field out of range. -/
def imgHeaderBad (g : Bytes) (len : Nat) : Option Nat :=
  let secs := imgSections g
  firstFail ([
    (0, fieldLe g 0 4 == 0x52474C46), (6, byteAt g 6 / 2 == 0), (7, byteAt g 7 == 0),
    (8, fieldLe g 8 4 == len && g.length == len && decide (128 ≤ len) && decide (len ≤ 67108864) && len % 16 == 0),
    (12, decide (1 ≤ fieldLe g 12 2) && decide (fieldLe g 12 2 ≤ 4)),
    (14, decide (1 ≤ imgS g) && decide (imgS g ≤ 1024)), (16, decide (1 ≤ imgR g) && decide (imgR g ≤ 65535)),
    (20, decide (imgOffset g ≤ 1048575)), (24, fieldLe g 24 2 == 72), (26, fieldLe g 26 2 == 64), (28, fieldLe g 28 4 == 0),
    (48, allZero (slice g 48 16)),
    (64, noRepeats (secs.map (fun e => e.kind)) && (imgSection g 1).isSome)] ++
    secs.map (fun e => (64 + 16 * e.index,
      decide (1 ≤ e.kind) && decide (e.kind ≤ 4) && e.reserved == 0 && e.offset % 16 == 0 &&
        decide (64 + 16 * fieldLe g 12 2 ≤ e.offset) && decide (e.offset + e.length ≤ len) &&
        secs.all (fun f => f.index == e.index || !(meets e.offset e.length f.offset f.length)) &&
        sectionFull g e)) ++
    (imgTiles g).map (fun e => (e.at_, allZero (slice g (e.at_ + 4) 12) && decide (e.tile < 4608))) ++
    [((imgTiles g).headD ⟨64, 0, 0, []⟩ |>.at_, noRepeats ((imgTiles g).map (fun e => e.tile)))])

/-- An entry of the slot table is legal for its tile at slot `u` (reason 7). -/
def slotOk (t : Nat) (slots : List Nat) (u : Nat) : Bool :=
  let e := slots.getD u 0
  let kind := (tilePort t).1
  let src := eSources e
  bits e 63 56 == 0 && bits e 35 33 == 0 && decide (eRedOp e < 8) &&
  (List.range 4).all (fun dir => eSelLink e dir == 0 || (neighbour t dir).isSome) &&
  (eSelX e == 0 || kind == 2 || kind == 3) && (!src.contains 6 || kind == 1) &&
  (if eRedOp e == 0 then eRedA e == 0 && eRedB e == 0 && !eRedFirst e
   else eRedA e != 0 && eRedB e != 0 && (!eRedFirst e || eRedOp e == 7)) &&
  (!src.contains 7 || eRedOp (slots.getD ((u + 6 * slots.length - 6) % max 1 slots.length) 0) != 0)

/-- The tile's table crosses the seam at slot `u`. -/
def slotCrosses (t e : Nat) : Bool := (tileCol t == 35 && eSelLink e 1 != 0) || (tileCol t == 36 && eSelLink e 3 != 0)

/-- A reduction declaration keeps R189. -/
def reductionOk (g : Bytes) (all : List Reduction) (x : Nat × Reduction) : Bool :=
  let r := x.2
  let tiles := imgTiles g
  decide (1 ≤ r.id) && (all.filter (fun y => y.id == r.id)).length == 1 && byteAt g (x.1 + 2) == 7 &&
  decide (1 ≤ r.inputs) && decide (r.inputs ≤ 32) && r.headDim % 64 == 0 && decide (64 ≤ r.headDim) && decide (r.headDim ≤ 512) &&
  decide (1 ≤ r.records) && decide (r.records ≤ 32768) && decide (r.destTile < 4608) && decide (r.destChan ≤ 3) &&
  byteAt g (x.1 + 11) == 0 && decide (r.frame < imgR g) && allZero (slice g (x.1 + 16) 48) && padZero g x.1 (redBytes g x.1) &&
  r.inputTiles.all (fun t => (tilePort t).1 == 1 &&
    ((all.map (fun y => (y.inputTiles.filter (fun z => z == t)).length)).sum == 1) &&
    (match tiles.find? (fun e => e.tile == t) with
      | none => false
      | some e => (e.slots.filter (fun w => (eSources w).contains 6)).length == r.records * (r.headDim / 8 + 2)))

/-- A barrier declaration keeps R190. -/
def barrierOk (g : Bytes) (all : List (Nat × Nat × List Nat)) (x : Nat × Nat × List Nat) : Bool :=
  decide (x.2.1 ≤ 15) && byteAt g (x.1 + 1) == 0 && padZero g x.1 (barBytes g x.1) && decide (2 ≤ x.2.2.length) && decide (x.2.2.length ≤ 4608) &&
  (all.filter (fun y => y.2.1 == x.2.1)).length == 1 &&
  x.2.2.all (fun t => (imgTiles g).any (fun e => e.tile == t && e.program != 0xFFFF))

/-- A program entry keeps R188. -/
def programOk (g : Bytes) (x : ProgEntry) : Bool :=
  fieldLe g (x.at_ + 2) 2 == 0 && fieldLe g (x.at_ + 12) 4 == 0 && x.len % 4 == 0 && decide (4 ≤ x.len) && decide (x.len ≤ 16384) &&
  x.entry % 2 == 0 && decide (x.entry < x.len) && decide (x.at_ + 16 + x.len ≤ g.length) && padZero g x.at_ (16 + x.len)

/-- A LOAD of partition `p` among those that `which` names is in flight and may still succeed (R193). -/
def State.loading (s : State) (p : Nat) (which : Nat → Bool) : Bool :=
  s.work.flights.any (fun y => y.part == p && dKey y.desc == 0x40001 && !y.failed && !(y.worked && y.status != 0) && which y.id)

/-- MESH.SCHED[p].state (Table 5.20): a LOAD in flight makes it 1 while nothing is loaded. [DEDUCED, log 110] -/
def State.schedState (s : State) (p : Nat) : Nat :=
  if (s.sched p).state ≠ 0 then (s.sched p).state else if s.loading p (fun _ => true) then 1 else 0

/-- The first check of Table 5.12 that fails for image `g` of LOAD `f` of partition `p`. -/
def State.loadCheck (s : State) (p f len : Nat) (g : Bytes) : Option Refused :=
  let tiles := imgTiles g
  let secs := imgSections g
  let slotsBad (bad : TileEntry → Nat → Bool) : Option (TileEntry × Nat) :=
    tiles.findSome? (fun e => ((List.range (imgS g)).find? (fun u => bad e u)).map (fun u => (e, u)))
  let tileSec := ((imgSection g 1).map (fun e => e.index)).getD 0
  let progs := imgPrograms g
  let reds := imgReductions g
  let bars := imgBarriers g
  match imgHeaderBad g len with
  | some o => some ⟨1, 6, 0xFFFF, 0, o⟩
  | none =>
  if byteAt g 4 ≠ 1 then some ⟨2, 7, 0xFFFF, 0, 4⟩
  else if byteAt g 5 ≠ 1 then some ⟨2, 7, 0xFFFF, 0, 5⟩
  else match secs.find? (fun e => e.version != 1) with
  | some e => some ⟨2, 7, 0xFFFF, e.index, 64 + 16 * e.index + 2⟩
  | none =>
  if crc64 (splice g 32 (zeros 8)) ≠ fieldLe g 32 8 then some ⟨3, 9, 0xFFFF, 0, 32⟩
  else match tiles.find? (fun e => (s.tile e.tile).partition != some p) with
  | some e => some ⟨4, 3, e.tile, tileSec, e.at_⟩
  | none =>
  match tiles.find? (fun e => (s.tile e.tile).routerFenced) with
  | some e => some ⟨5, 8, e.tile, tileSec, e.at_⟩
  | none =>
  match tiles.find? (fun e => (s.tile e.tile).coreFenced && (e.program != 0xFFFF ||
      e.slots.any (fun w => (eSources w).contains 5 || eSelCore w != 0 || eRedOp w != 0))) with
  | some e => some ⟨6, 8, e.tile, tileSec, e.at_⟩
  | none =>
  match slotsBad (fun e u => !slotOk e.tile e.slots u) with
  | some (e, u) => some ⟨7, 6, e.tile, tileSec, e.at_ + 16 + 8 * u⟩
  | none =>
  match slotsBad (fun e u => !imgSeam g && slotCrosses e.tile (e.slots.getD u 0)) with
  | some (e, u) => some ⟨8, 6, e.tile, tileSec, e.at_ + 16 + 8 * u⟩
  | none =>
  if imgSeam g && s.mesh.westP != s.mesh.eastP then some ⟨9, 8, 0xFFFF, 0, 6⟩
  else match reds.find? (fun x => !reductionOk g (reds.map (fun y => y.2)) x) with
  | some x => some ⟨10, 6, 0xFFFF, ((imgSection g 3).map (fun e => e.index)).getD 0, x.1⟩
  | none =>
  match bars.find? (fun x => !barrierOk g bars x) with
  | some x => some ⟨11, 6, 0xFFFF, ((imgSection g 4).map (fun e => e.index)).getD 0, x.1⟩
  | none =>
  if (s.sched p).state ≠ 0 || s.loading p (fun y => decide (y < f)) then some ⟨12, 6, 0xFFFF, 0, 0⟩
  else match progs.find? (fun x => !programOk g x) with
  | some x => some ⟨13, 6, 0xFFFF, ((imgSection g 2).map (fun e => e.index)).getD 0, x.at_⟩
  | none =>
  match tiles.find? (fun e => e.program != 0xFFFF && (progs.filter (fun x => x.index == e.program)).length != 1) with
  | some e => some ⟨13, 6, e.tile, tileSec, e.at_⟩
  | none => none

/-- Bytes that the staging of a LOAD needs in each slice (R228). -/
def loadNeed (g : Bytes) : List (Nat × Nat) :=
  let tiles := imgTiles g
  (nub (tiles.map (fun e => sliceOfTile e.tile))).map (fun sl =>
    (sl, ((tiles.filter (fun e => sliceOfTile e.tile == sl)).map (fun e =>
      16 + 8 * imgS g + (match (imgPrograms g).find? (fun x => x.index == e.program) with
        | some x => (x.len + 15) / 16 * 16
        | none => 0))).sum))

/-- The staged image of a LOAD is held, and the stage segments it needs are touched (R212). -/
def State.stagedAs (s : State) (x : Flight) (g : Bytes) : State :=
  (s.staged x.id g).updFlight x.id (fun z => { z with stage := x.stage, segs := nub (z.segs ++ s.stageSegs x.part x.stage) })

/-- LOAD (R191, R193, step 1): the image is staged and checked; the first failing check decides, and nothing is loaded.  An image that its
attached moves brought is sized here (R228). -/
def execLoad (f : Nat) (s : State) : Host.Outcome State Fault Refusal :=
  match s.staging f 0x40001 with
  | none => .next s
  | some x => .next (s.stage x (fun s g =>
      let p := x.part
      match s.loadCheck p f (oLen x.desc) g with
      | some r =>
        (s.post 0x2053 1 p r.tile (detail [(8, dTag x.desc), (1, r.reason), (1, r.section_), (4, r.offset)])).endFlight f r.status
          (r.tile * 2 ^ 48 + r.reason * 2 ^ 40 + r.section_ * 2 ^ 32 + r.offset % 2 ^ 32)
      | none =>
        let y := { x with stage := loadNeed g }
        if !s.stageFits p y.stage then s.endFlight f 6 0
        else if s.stageBusy y then s
        else (s.movedFor y).stagedAs y g))

/-- LOAD_START (R193, steps 2 and 3): in a Run phase, with the image staged and every schedule tile idle, the tiles write their
tables and IMEM. -/
def execLoadStart (f : Nat) (s : State) : Host.Outcome State Fault Refusal :=
  match s.canStart f 0x40001 (fun x => (imgTiles x.blob).map (fun e => e.tile)) with
  | none => .next s
  | some x =>
    let g := x.blob
    let s := (imgTiles g).foldl (fun s e =>
      let prog := (imgPrograms g).find? (fun q => q.index == e.program)
      let code := (prog.map (fun q => q.code)).getD []
      let l := 64 + ceilDiv (imgS g) 2 + ceilDiv code.length 16
      s.updTile e.tile (fun y => { y.loadImem code with table := e.slots, origin := s.afterLoad e.tile l, loads := true })) s
    .next (((s.startSlice f s.tick.count []).updFlight f (fun y => { y with blob := g })).workDone f 0 (0xFFFF * 2 ^ 48 + imgBuild g % 2 ^ 32))

/-- The RUNs of partition `p` in flight touch the stage segments that the schedule now loaded makes them need (R212, R228). -/
def State.touchRuns (s : State) (p : Nat) : State :=
  { s with work := { s.work with flights := s.work.flights.map (fun y =>
      if y.part = p ∧ dKey y.desc = 0x40002 ∧ ¬ y.failed then { y with segs := nub (y.segs ++ s.stageSegs p (s.stageNeed p y.desc)) } else y) } }

/-- The schedule becomes loaded in step 2 of the LOAD's completion Settle phase (R193, step 4). -/
def State.commitLoad (s : State) (x : Flight) : State :=
  if x.status ≠ 0 then s
  else
    let g := x.blob
    let s := s.countClocks.updSched x.part (fun c => { c with
      state := 2, frames := imgR g, frameLen := imgS g, offset := imgOffset g, seam := imgSeam g,
      tiles := (imgTiles g).map (fun e => (e.tile, e.program)),
      programs := (imgPrograms g).map (fun q => (q.index, q.entry)),
      reductions := (imgReductions g).map (fun r => r.2), barriers := (imgBarriers g).map (fun b => b.2), run := none })
    s.touchRuns x.part

/-- RUN (R194): at eligibility it completes with status 0x06 if the partition has no loaded schedule, or one that its stage area does not
hold (R228); else its per-tile images are staged. [DEDUCED, log 109] -/
def execRun (f : Nat) (s : State) : Host.Outcome State Fault Refusal :=
  match s.staging f 0x40002 with
  | none => .next s
  | some x =>
    if (s.sched x.part).state < 2 || !s.stageFits x.part (s.needOf x) then .next (s.endFlight f 6 0)
    else if uPLen x.desc = 0 then .next ((s.unpin f).staged f [])
    else .next (s.stage x (fun s bs => (s.movedFor x).staged f bs))

/-- RUN_START (R194, steps 1 to 4): in a Run phase, with the images staged and every schedule tile idle, the programs start. -/
def execRunStart (f : Nat) (s : State) : Host.Outcome State Fault Refusal :=
  match s.canStart f 0x40002 (fun x => (s.sched x.part).tiles.map (fun e => e.1)) with
  | none => .next s
  | some x =>
    let d := x.desc
    let p := x.part
    let c := s.sched p
    if c.state < 2 then .next (s.endFlight f 6 0)
    else if c.state ≠ 2 then .next s
    else
      let l := 64 + ceilDiv (uPLen d) 16
      let progs := c.tiles.filter (fun e => e.2 != 0xFFFF)
      let bead (t : Nat) : Nat := (s.beadOfTile t).getD 0xFFFF
      let s := (progs.mapIdx (fun i e => (i, e))).foldl (fun s e =>
        let entry := ((c.programs.find? (fun q => q.1 == e.2.2)).map (fun q => q.2)).getD 0
        s.updTile e.2.1 (fun y =>
          (y.loadDmem (bit (uFlags d) 0) [(uPDmem d, slice x.blob (e.1 * uPLen d) (uPLen d))]).start f s.tick.count p (s.afterLoad e.2.1 l)
            true entry (bead e.2.1) (uArg d) e.1)) s
      let half := (c.tiles.headD (0, 0)).1 % 72 / 36
      let run : RunState := {
        flight := f, startTick := s.tick.count, ticks := uTicks d, frameTick := s.tick.count, half := half
        phases := [(s.tick.count, if half = 0 then s.mesh.runWest else s.mesh.runEast)]
        barriers := c.barriers.map (fun b => { index := b.1, members := b.2 }) }
      let s := s.updSched p (fun c => { c with state := 3, run := some run })
      .next (s.startSlice f (s.tick.count + uTicks d - 1) (progs.map (fun e => (e.1, bead e.1))))

/-- UNLOAD (R197): status 0x06 while a RUN of its partition is in flight. -/
def execUnload (f : Nat) (s : State) : Host.Outcome State Fault Refusal :=
  match s.controlReady f 0x40003 with
  | none => .next s
  | some x =>
    .next (s.endFlight f (if s.work.flights.any (fun y => y.part == x.part && dKey y.desc == 0x40002 && !y.failed) then 6 else 0) 0)

/-- The schedule of partition `p` goes, and its tiles' slot tables are cleared (R197). -/
def State.unload (s : State) (p : Nat) : State :=
  let s := (s.sched p).tiles.foldl (fun s e => s.updTile e.1 (fun y => { y with table := [] })) s.countClocks
  s.updSched p (fun c => { misses := c.misses, drops := c.drops, overflows := c.overflows, other := c.other, faultTick := c.faultTick })

/-- Step 2 of the completion Settle phase of an UNLOAD. -/
def State.commitUnload (s : State) (x : Flight) : State := if x.status = 0 then s.unload x.part else s

/-- The writeback of a LAUNCH or RUN (R152, R196): the DMEM range of each bead that ended by ECALL goes to its destination.  An
uncorrectable word in one of the ranges is an error of the partition, and the descriptor completes with status 0x04 (R156). -/
def State.commitWriteback (s : State) (x : Flight) (tiles : List Nat) (off len : Nat) : State :=
  match s.writebackOpnds x.part x.desc with
  | o :: _ =>
    let ended (t : Nat) : Bool := x.beads.any (fun b => b.1 == t && (match b.2.2 with
      | some (.exit _) => true
      | _ => false))
    let outs := (tiles.mapIdx (fun i t => (i, t))).filter (fun e => ended e.2)
    match outs.find? (fun e => poisoned ((s.tile e.2).readDmem off len)) with
    | some e =>
      let at_ := 0x10000 + off + (firstPoison ((s.tile e.2).readDmem off len)).getD 0
      (s.beadFault x.part e.2 1 at_).updFlight x.id (fun y => { y with status := 4, detail := s.detailOf x 0 })
    | none =>
      outs.foldl (fun s e =>
        match s.placesOf x.part (o.base + e.1 * o.stride) len false true with
        | some ps => (s.updTile e.2 (fun y => y.heedDmem off len)).writePlaces ps ((s.tile e.2).readDmem off len) x.part
        | none => s) s
  | [] => s

/-- Step 2 of the completion Settle phase of a LAUNCH or RUN that was not aborted. -/
def State.commitProgram (s : State) (x : Flight) : State :=
  if x.status = 5 ∨ x.status = 4 then s
  else if dClass x.desc = 3 then s.commitWriteback x (s.setTiles x.part x.desc) (lWDmem x.desc) (lWLen x.desc)
  else s.commitWriteback x (s.sched x.part).programTiles (uWDmem x.desc) (uWLen x.desc)

/-! ### Records offered to reductions (R198, R199) -/

/-- An out_mode 2 ATTEND's reduction is declared as R198 asks, and is free. -/
def State.reductionFree (s : State) (p : Nat) (d : Bytes) : Bool :=
  let r := (s.slot (dSlot d)).record
  match (s.sched p).reductions.find? (fun x => x.id == aReduction d) with
  | none => false
  | some x =>
    decide (2 ≤ (s.sched p).state) && x.headDim == recD r && x.records == aHeads d * aQ d && x.destTile == aDest d &&
    x.inputTiles == (List.range (recG r)).map (fun j => sailPort (recGroup r j)) &&
    !s.work.flights.any (fun y => y.part == p && dKey y.desc == 0x20002 && aMode y.desc == 2 && aReduction y.desc == aReduction d && !y.failed) &&
    !s.mesh.offers.any (fun o => o.part == p && o.reduction == aReduction d)

/-- An out_mode 2 ATTEND completes: its records are offered in the next tick (R199). -/
def State.offerRecords (s : State) (x : Flight) (discarded : List Nat) : State :=
  let d := x.desc
  let r := (s.slot (dSlot d)).record
  if dKey d = 0x20002 ∧ aMode d = 2 ∧ (x.status = 0 ∨ x.status = 1 ∨ discarded ≠ []) then
    let per := aHeads d * aQ d * recBytes r
    { s with mesh := { s.mesh with offers := s.mesh.offers ++ [⟨x.part, dTag d, x.unitId 0, aReduction d, s.tick.count,
        (List.range (recG r)).map (fun j => slice x.blob (j * per) per), discarded, false⟩] } }
  else s

/-- MESH_OFFER_DROP (R199): at T_(n+2) the records of partition `p` that were offered in tick n + 1 are dropped; if no frame took
them, MESH_OFFER_UNTAKEN is posted. -/
def execMeshOfferDrop (p : Nat) (s : State) : Host.Outcome State Fault Refusal :=
  guarded "MESH_OFFER_DROP" (decide (p < 16)) (
    let old := s.mesh.offers.filter (fun o => o.part == p && decide (o.tick + 2 ≤ s.tick.count))
    let s := old.foldl (fun s o =>
      if o.taken then s else s.post 0x2055 1 p o.engine (detail [(8, o.tag), (2, o.reduction)])) s
    { s with mesh := { s.mesh with offers := s.mesh.offers.filter (fun o => !(o.part == p && decide (o.tick + 2 ≤ s.tick.count))) } })

end Sys2Proof.Machine
end

