-- ==== Sys2Proof/Machine/Crypto.lean ====
section
/-! DEFINITION. AES-256 (FIPS 197), AES-256-GCM (NIST SP 800-38D) and AES-256-XTS (IEEE 1619), as R420, R423 and R426 use
them. -/

namespace Sys2Proof.Machine

/-- ASCII text as bytes. -/
def ascii (t : String) : Bytes := t.toList.map (fun c => BitVec.ofNat 8 c.toNat)

/-! ### AES-256 -/

/-- The S-box of FIPS 197, 64 bytes at a time, the first in the low byte. -/
def sboxPart : Nat → Nat
  | 0 => 0x75B227EBE28012079A059618C323C7041531D871F1E5A534CCF73F362693FDB7C072A49CAFA2D4ADF04759FA7DC982CA76ABD7FE2B670130C56F6BF27B777C63
  | 1 => 0xD2F3FF1021DAB6BCF5389D928F40A351A89F3C507F02F94585334D43FBAAEFD0CF584C4A39BECB6A5BB1FC20ED00D153842FE329B3D63B52A05A6E1B1A2C8309
  | 2 => 0x08AE7A65EAF4566CA94ED58D6D37C8E779E4959162ACD3C25C2406490A3A32E0DB0B5EDE14B8EE4688902A22DC4F816073195D643D7EA7C41744975FEC130CCD
  | _ => 0x16BB54B00F2D99416842E6BF0D89A18CDF2855CEE9871E9B948ED9691198F8E19E1DC186B95735610EF6034866B53E708A8BBD4B1F74DDE8C6B4A61C2E2578BA

/-- The inverse S-box of FIPS 197, 64 bytes at a time, the first in the low byte. -/
def invSboxPart : Nat → Nat
  | 0 => 0x25D18B6D49A25B76B224D92866A12E084EC3FA420B954CEE3D23C2A632947B54CBE9DEC444438E3487FF2F9B8239E37CFBD7F3819EA340BF38A53630D56A0952
  | 1 => 0x6B8A130103BDAFC1020F3FCA8F1E2CD00645B3B80558E4F70AD3BC8C00ABD890849D8DA75746155EDAB9EDFD5048706C92B6655DCC5CA4D41698688664F6F872
  | 2 => 0xF45ACD78FEC0DB9A2079D2C64B3E56FC1BBE18AA0E62B76F89C5291D711AF1476EDF751CE837F9E28535ADE72274AC9673E6B4F0CECFF297EADC674F4111913A
  | _ => 0x7D0C2155631469E126D677BA7E042B17619953833CBBEBC8B0F52AAE4D3BE0A0EF9CC9939F7AE52D0D4AB519A97F51605FEC8027591012B131C7078833A8DD1F

/-- S-box look-up. -/
def sbox (b : Byte) : Byte := BitVec.ofNat 8 (sboxPart (b.toNat / 64) / 256 ^ (b.toNat % 64))

/-- Inverse S-box look-up. -/
def invSbox (b : Byte) : Byte := BitVec.ofNat 8 (invSboxPart (b.toNat / 64) / 256 ^ (b.toNat % 64))

/-- Multiplication by x in GF(2^8). -/
def xtime (b : Byte) : Byte := (b <<< 1) ^^^ (if b.getLsbD 7 then 0x1B else 0)

/-- Multiplication in GF(2^8) by a small constant. -/
def gmul (k : Nat) (b : Byte) : Byte :=
  (if bit k 0 then b else 0) ^^^ (if bit k 1 then xtime b else 0) ^^^ (if bit k 2 then xtime (xtime b) else 0) ^^^
  (if bit k 3 then xtime (xtime (xtime b)) else 0)

/-- One column through a circulant matrix. -/
def mixCol (a b c d : Nat) (w : Bytes) : Bytes :=
  let g (k i : Nat) : Byte := gmul k (w.getD i 0)
  [g a 0 ^^^ g b 1 ^^^ g c 2 ^^^ g d 3, g d 0 ^^^ g a 1 ^^^ g b 2 ^^^ g c 3,
   g c 0 ^^^ g d 1 ^^^ g a 2 ^^^ g b 3, g b 0 ^^^ g c 1 ^^^ g d 2 ^^^ g a 3]

/-- Bytes picked by index. -/
def pickBytes (w : Bytes) (is : List Nat) : Bytes := is.map (fun i => w.getD i 0)

/-- ShiftRows and its inverse as index lists. -/
def shiftIdx : List Nat := [0, 5, 10, 15, 4, 9, 14, 3, 8, 13, 2, 7, 12, 1, 6, 11]
def invShiftIdx : List Nat := [0, 13, 10, 7, 4, 1, 14, 11, 8, 5, 2, 15, 12, 9, 6, 3]

/-- The four columns of a state, each through `f`. -/
def onCols (f : Bytes → Bytes) (w : Bytes) : Bytes :=
  f (slice w 0 4) ++ f (slice w 4 4) ++ f (slice w 8 4) ++ f (slice w 12 4)

/-- Key expansion: the words after the first eight, newest first; `n` more. -/
def expandKey : Nat → Nat → List Bytes → List Bytes
  | 0, _, ws => ws
  | n + 1, i, ws =>
    let last := ws.headD []
    let old := ws.getD 7 []
    let t := if i % 8 = 0 then
        xorBytes ((pickBytes last [1, 2, 3, 0]).map sbox) [BitVec.ofNat 8 (2 ^ (i / 8 - 1)), 0, 0, 0]
      else if i % 8 = 4 then last.map sbox
      else last
    expandKey n (i + 1) (xorBytes old t :: ws)

/-- The 15 round keys of a 32 B key, in order. -/
def roundKeys (key : Bytes) : List Bytes :=
  let ws := (expandKey 52 8 (chunks 4 8 key).reverse).reverse
  (chunks 4 15 ws).map List.flatten

/-- The middle rounds and the last round of encryption. -/
def aesRounds : List Bytes → Bytes → Bytes
  | [], w => w
  | [k], w => xorBytes (pickBytes (w.map sbox) shiftIdx) k
  | k :: ks, w => aesRounds ks (xorBytes (onCols (mixCol 2 3 1 1) (pickBytes (w.map sbox) shiftIdx)) k)

/-- AES-256 encryption of one 16 B block. [PRESUMED, log 74] -/
def aesEncrypt (rk : List Bytes) (w : Bytes) : Bytes := aesRounds (rk.drop 1) (xorBytes w (rk.headD []))

/-- The rounds of decryption. -/
def aesInvRounds : List Bytes → Bytes → Bytes
  | [], w => w
  | [k], w => xorBytes ((pickBytes w invShiftIdx).map invSbox) k
  | k :: ks, w => aesInvRounds ks (onCols (mixCol 14 11 13 9) (xorBytes ((pickBytes w invShiftIdx).map invSbox) k))

/-- AES-256 decryption of one 16 B block. -/
def aesDecrypt (rk : List Bytes) (w : Bytes) : Bytes :=
  let ks := rk.reverse
  aesInvRounds (ks.drop 1) (xorBytes w (ks.headD []))

/-! ### GCM -/

/-- Multiplication in GF(2^128), bit 0 of SP 800-38D being the most significant: `n` bits of x left, from the top. -/
def ghashMulGo : Nat → Nat → Nat → Nat → Nat
  | 0, _, _, z => z
  | n + 1, x, v, z =>
    let z := if bit x n then z ^^^ v else z
    let v := if bit v 0 then (v / 2) ^^^ (0xE1 * 2 ^ 120) else v / 2
    ghashMulGo n x v z

/-- x · y in GF(2^128). -/
def ghashMul (x y : Nat) : Nat := ghashMulGo 128 x y 0

/-- A byte string padded with zeros to whole 16 B blocks, as big-endian numbers. -/
def blocks16 (bs : Bytes) : List Nat :=
  (chunks 16 (bs.length / 16 + 1) bs).map (fun b => beNat (b ++ zeros (16 - b.length)))

/-- GHASH of the AAD and the ciphertext. -/
def ghash (h : Nat) (aad ct : Bytes) : Nat :=
  (blocks16 aad ++ blocks16 ct ++ [8 * aad.length * 2 ^ 64 + 8 * ct.length]).foldl (fun y b => ghashMul (y ^^^ b) h) 0

/-- The counter-mode key stream applied from counter value `c` on. -/
def ctrXor (rk : List Bytes) (iv : Bytes) : Nat → List Bytes → Bytes
  | _, [] => []
  | c, b :: bs => xorBytes b (aesEncrypt rk (iv ++ natBe 4 (c % 2 ^ 32))) ++ ctrXor rk iv (c + 1) bs

/-- GCM counter encryption (and decryption) with a 96-bit IV. [PRESUMED, log 74] -/
def gcmCrypt (rk : List Bytes) (iv bs : Bytes) : Bytes := ctrXor rk iv 2 (chunks 16 (bs.length / 16 + 1) bs)

/-- The 16 B GCM tag of a ciphertext. -/
def gcmTag (rk : List Bytes) (iv aad ct : Bytes) : Bytes :=
  let h := beNat (aesEncrypt rk (zeros 16))
  xorBytes (natBe 16 (ghash h aad ct)) (aesEncrypt rk (iv ++ natBe 4 1))

/-! ### XTS -/

/-- Multiplication of a tweak by α in GF(2^128), little-endian. -/
def xtsAlpha (t : Nat) : Nat := (2 * t % 2 ^ 128) ^^^ (if bit t 127 then 0x87 else 0)

/-- Whole blocks under rising tweaks. -/
def xtsRun (f : Bytes → Bytes) : Nat → List Bytes → Bytes
  | _, [] => []
  | t, b :: bs => xorBytes (f (xorBytes b (natLe 16 t))) (natLe 16 t) ++ xtsRun f (xtsAlpha t) bs

/-- One data unit of whole 16 B blocks: Key1 in bytes 0 to 31 of the key, Key2 in bytes 32 to 63 (Table 13.2). [PRESUMED, log 74] -/
def xtsUnit (decrypt : Bool) (key : Bytes) (n : Nat) (bs : Bytes) : Bytes :=
  let k1 := roundKeys (slice key 0 32)
  let t := leNat (aesEncrypt (roundKeys (slice key 32 32)) (natLe 16 n))
  xtsRun (if decrypt then aesDecrypt k1 else aesEncrypt k1) t (chunks 16 (bs.length / 16) bs)

end Sys2Proof.Machine
end

