-- ==== Sys2Proof/Machine/Locket.lean ====
section
/-! DEFINITION. The Locket and the life cycle (13_locket_lifecycle.md): class 0x5 descriptors, key slots and import, sealed
regions, device keys, SPDM, attestation of site dies, life-cycle transitions, entropy. -/

namespace Sys2Proof.Machine

/-! ### Keys -/

/-- Key slot `k`. -/
def State.keySlot (s : State) (k : Nat) : Option KeySlot := SMap.get none s.locket.keys k

/-- The label byte ℓ of key derivation (R431). -/
def State.keyLabel (s : State) : Byte := if s.locket.lc = 4 then 2 else 1

/-- The ξ of the device key: none where no seed exists (R431). -/
def State.deviceXi (s : State) : Option Bytes :=
  if s.locket.lc = 2 ∨ s.locket.lc = 3 ∨ s.locket.lc = 4 then
    s.locket.seed.map (fun seed => shake256 (seed ++ ascii "KYORI-DSA" ++ [s.keyLabel]) 32)
  else none

/-- The d ‖ z of the KEM key (R431). -/
def State.kemSeed (s : State) : Option Bytes :=
  if s.locket.lc = 2 ∨ s.locket.lc = 3 ∨ s.locket.lc = 4 then
    s.locket.seed.map (fun seed => shake256 (seed ++ ascii "KYORI-KEM" ++ [s.keyLabel]) 64)
  else none

/-- `n` bytes from the DRBG (R429): a free value. [DESIGN CHOICE, log 79] -/
def State.drbg (s : State) (n : Nat) : Bytes := (List.range n).map (Config.freeByte s.free)

/-- One generate request has been answered; the 2^16-th reseeds the DRBG (R429). [DESIGN CHOICE, log 79] -/
def State.generated (s : State) : State :=
  { s with
    free := s.free + 1
    locket := { s.locket with generates := (s.locket.generates + 1) % 2 ^ 16 } }

/-! ### Class 0x5 descriptors (R424, Table 13.4) -/

def kSrcSpace (d : Bytes) : Nat := byteAt d 32
def kDstSpace (d : Bytes) : Nat := byteAt d 33
def kKind (d : Bytes) : Nat := byteAt d 34
def kUnit (d : Bytes) : Nat := byteAt d 35
def kSlot (d : Bytes) : Nat := fieldLe d 36 2
def kOutLen (d : Bytes) : Nat := fieldLe d 38 2
def kLen (d : Bytes) : Nat := fieldLe d 40 8
def kFrom (d : Bytes) : Nat := fieldLe d 48 8
def kTo (d : Bytes) : Nat := fieldLe d 56 8
def kTags (d : Bytes) : Nat := fieldLe d 64 8
def kIv (d : Bytes) : Bytes := slice d 72 8
def kIndex (d : Bytes) : Nat := fieldLe d 80 8
def kAad (d : Bytes) : Bytes := slice d 88 8

/-- Bytes of a chunk or data unit. -/
def kChunk (d : Bytes) : Nat := 2 ^ kUnit d

/-- The chunks of a descriptor. -/
def kChunks (d : Bytes) : Nat := ceilDiv (kLen d) (kChunk d)

/-- Output bytes of one chunk of a HASH (R426). -/
def kDigest (d : Bytes) : Nat := if kKind d = 1 then kOutLen d else 32

def isGcm (op : Nat) : Bool := op == 1 || op == 2
def isXts (op : Nat) : Bool := op == 3 || op == 4

/-- Bytes of the destination. -/
def kOut (d : Bytes) : Nat := if dOpcode d = 5 then kDigest d * kChunks d else kLen d

/-- The destination is exempt from R416 (Table 13.3): the encryptions and RELEASE. -/
def sealExempt (d : Bytes) : Bool := dClass d == 5 && (dOpcode d == 2 || dOpcode d == 4 || dOpcode d == 6)

/-- Reserved and unused fields are zero (R8, R424). -/
def locketReserved (d : Bytes) : Bool :=
  let op := dOpcode d
  allZero (slice d 96 32) && !dSpeculative d && !dPencil d &&
  (op == 5 || kKind d == 0) && ((op == 5 && kKind d == 1) || kOutLen d == 0) &&
  (isGcm op || (kTags d == 0 && allZero (kIv d) && allZero (kAad d))) &&
  (isGcm op || isXts op || kIndex d == 0)

/-- The fields are in range, and the slot's algorithm is the opcode's (R425, status 0x06). -/
def State.locketFields (s : State) (d : Bytes) : Bool :=
  let op := dOpcode d
  let space (x : Nat) : Bool := x == 0 || x == 1 || x == 3
  space (kSrcSpace d) && space (kDstSpace d) && decide (9 ≤ kUnit d) && decide (kUnit d ≤ 20) &&
  decide (1 ≤ kLen d) && decide (kLen d ≤ 2 ^ 40) &&
  (if op = 5 then kSlot d == 0xFFFF else decide (kSlot d < 4096)) &&
  (op != 5 || decide (kKind d ≤ 1)) &&
  (!(op == 5 && kKind d == 1) || (decide (1 ≤ kOutLen d) && decide (kOutLen d ≤ 256))) &&
  (!isXts op || kLen d % kChunk d == 0) &&
  (!isGcm op || decide (kIndex d + kChunks d ≤ 2 ^ 32)) &&
  endpointOk (kSrcSpace d) (kFrom d) 1 (kLen d) 0 && endpointOk (kDstSpace d) (kTo d) 1 (kOut d) 0 &&
  (!isGcm op || decide (kTags d < 2 ^ 56)) &&
  (match s.keySlot (kSlot d) with
    | some k => if isGcm op then k.alg == 1 else if isXts op then k.alg == 2 else true
    | none => true)

/-- The right an opcode needs (Tables 13.1, 13.3). -/
def rightBit (op : Nat) : Nat := if op = 1 ∨ op = 3 then 0 else if op = 2 ∨ op = 4 then 1 else 3

/-- The slot is occupied, belongs to the partition and has the right (R425, status 0x03). -/
def State.locketRight (s : State) (p : Nat) (d : Bytes) : Bool :=
  dOpcode d == 5 ||
  (match s.keySlot (kSlot d) with
    | some k => k.partition == p && bit k.rights (rightBit (dOpcode d))
    | none => false)

/-- The ranges a Locket descriptor touches (R334). -/
def locketRanges (d : Bytes) : List Range :=
  ⟨kSrcSpace d, kFrom d, kLen d, true, false, false⟩ :: ⟨kDstSpace d, kTo d, kOut d, false, true, false⟩ ::
  (if dOpcode d = 1 then [⟨0, kTags d, 16 * kChunks d, true, false, false⟩]
   else if dOpcode d = 2 then [⟨0, kTags d, 16 * kChunks d, false, true, false⟩] else [])

/-- The checks of R425 that need no translation, after those of R222. -/
def State.locketStatic (s : State) (p : Nat) (d : Bytes) : Nat :=
  firstStatus [(!s.locketFields d, 6), (!s.locketRight p d, 3)]

/-- A place lies in the sealed places of partition `p` (R414). -/
def State.inSealedPlaces (s : State) (p : Nat) (x : Place × Nat) : Bool :=
  s.sealedPart p &&
  (match x.1 with
    | .dev a => s.meetsKvr p a x.2 || (slabsOf a x.2).all (fun i =>
        match s.regionOfSlab i with
        | some r => r.state == 1 && r.partition == p
        | none => false)
    | .casket _ => true
    | .tile _ _ => true
    | _ => false)

/-- The places of an endpoint of a Locket descriptor. -/
def State.lockPlaces (s : State) (p space a n : Nat) (read write : Bool) : Option (List (Place × Nat)) :=
  s.endPlaces p space (a, n) read write

/-- The destination and source rules of Table 13.3 (R425, status 0x0A), once the ranges are translated. -/
def State.locketPlaced (s : State) (p : Nat) (d : Bytes) : Nat :=
  let op := dOpcode d
  let anywhere := match s.keySlot (kSlot d) with
    | some k => bit k.rights 4
    | none => false
  let dstBad := (op == 1 || op == 3) && !anywhere &&
    (match s.lockPlaces p (kDstSpace d) (kTo d) (kOut d) false false with
      | some ps => !(ps.all (fun x => s.inSealedPlaces p x))
      | none => false)
  let srcBad := op == 6 &&
    (match s.lockPlaces p (kSrcSpace d) (kFrom d) (kLen d) false false, s.keySlot (kSlot d) with
      | some ps, some k => !((List.range 64).any (fun r =>
          let x := s.region r
          x.state == 1 && x.partition == p && bit k.mask r && ps.all (fun y =>
            match y.1 with
            | .dev a => (slabsOf a y.2).all (fun i => x.slabs.contains i)
            | _ => false)))
      | _, _ => false)
  if dstBad || srcBad then 0xA else 0

/-- Chunk `k` in the source and in the destination: (offset, bytes) (R426). -/
def chunkFrom (d : Bytes) (k : Nat) : Nat × Nat := (k * kChunk d, min (kChunk d) (kLen d - k * kChunk d))
def chunkTo (d : Bytes) (k : Nat) : Nat × Nat := if dOpcode d = 5 then (k * kDigest d, kDigest d) else chunkFrom d k

/-- The ranges of chunk `k`: one piece of a Locket descriptor (R336, R428). -/
def locketPiece (d : Bytes) (k : Nat) : List Range :=
  ⟨kSrcSpace d, kFrom d + (chunkFrom d k).1, (chunkFrom d k).2, true, false, false⟩ ::
  ⟨kDstSpace d, kTo d + (chunkTo d k).1, (chunkTo d k).2, false, true, false⟩ ::
  (if dOpcode d = 1 then [⟨0, kTags d + 16 * k, 16, true, false, false⟩]
   else if dOpcode d = 2 then [⟨0, kTags d + 16 * k, 16, false, true, false⟩] else [])

/-! ### The work of a Locket descriptor -/

/-- The IV and the AAD of chunk index `x` (R426). -/
def chunkIv (d : Bytes) (x : Nat) : Bytes := kIv d ++ natBe 4 x
def chunkAad (d : Bytes) (x : Nat) : Bytes := kAad d ++ natLe 8 x

/-- What one chunk gives: its output bytes, its tag, and whether the tag it was to carry differs. -/
structure ChunkOut where
  data : Bytes
  tag : Bytes
  fails : Bool

/-- Process chunk `k` of descriptor `d` with the key given: source bytes and stored tag in (R426). -/
def chunkOut (d key : Bytes) (k : Nat) (src tag : Bytes) : ChunkOut :=
  let x := kIndex d + k
  match dOpcode d with
  | 1 =>
    let rk := roundKeys key
    ⟨gcmCrypt rk (chunkIv d x) src, [], gcmTag rk (chunkIv d x) (chunkAad d x) src != tag⟩
  | 2 =>
    let rk := roundKeys key
    let ct := gcmCrypt rk (chunkIv d x) src
    ⟨ct, gcmTag rk (chunkIv d x) (chunkAad d x) ct, false⟩
  | 3 => ⟨xtsUnit true key x src, [], false⟩
  | 4 => ⟨xtsUnit false key x src, [], false⟩
  | 5 => ⟨if kKind d = 1 then shake256 src (kOutLen d) else sha3_256 src, [], false⟩
  | _ => ⟨src, [], false⟩

/-- The poison of a chunk's output: byte for byte as its source, and the whole digest of a HASH (R224, R427). -/
def chunkPoison (d : Bytes) (src : List (Byte × Bool)) (out : Bytes) : List (Byte × Bool) :=
  if dOpcode d = 5 then out.map (fun b => (b, poisoned src))
  else List.zipWith (fun b (x : Byte × Bool) => (b, x.2)) out src

/-- Chunk `k` of flight `x` with the key given: it is read, processed and committed, or its tag fails and the descriptor stops; the
detail counts the bytes committed (R426 to R428). -/
def State.doChunk (s : State) (x : Flight) (key : Bytes) : State :=
  let d := x.desc
  let p := x.part
  let k := (x.strand 0).piece
  let fr := chunkFrom d k
  let tw := chunkTo d k
  let places (on : Bool) (space a n : Nat) (r : Bool) : Option (List (Place × Nat)) :=
    if on then s.endPlaces p space (a, n) r (!r) else some []
  match places true (kSrcSpace d) (kFrom d + fr.1) fr.2 true, places true (kDstSpace d) (kTo d + tw.1) tw.2 false,
        places (dOpcode d == 1) 0 (kTags d + 16 * k) 16 true, places (dOpcode d == 2) 0 (kTags d + 16 * k) 16 false with
  | some src, some dst, some tagIn, some tagOut =>
    match s.access x 0 (src ++ tagIn) (dst ++ tagOut) with
    | .wait s' => s'
    | .go s0 =>
      let siteSt := s0.siteStatus src
      let bs := s0.readLinesOf src
      let o := chunkOut d key k (plain bs) (plain (s0.readLinesOf tagIn))
      let last := k + 1 == kChunks d
      let pois := x.detail % 2 == 1 || poisoned bs
      let done := x.detail / 2 ^ 24
      let s1 := (s0.reportBad p (dTag d) (s0.badReads (src ++ tagIn))).took (src ++ tagIn)
      if siteSt ≠ 0 then s1.workDone x.id siteSt x.detail
      else if o.fails then
        (s1.post 0x7002 2 p 0x7000 (detail [(8, dTag d), (8, kIndex d + k)])).workDone x.id 9 (done * 2 ^ 24 + 2 + flag pois)
      else
        let s2 := (s1.moverWrite x.id p dst (chunkPoison d bs o.data)).moverWrite x.id p tagOut (clean o.tag)
        let s3 := if dOpcode d = 6 then
            { s2 with locket := { s2.locket with
                released := SMap.upd 0 s2.locket.released p (fun c => (c + o.data.length) % 2 ^ 64) } } else s2
        s3.endPiece x last (if last && pois then 1 else 0) ((done + o.data.length) * 2 ^ 24 + flag pois)
  | _, _, _, _ => s

/-- The work of a Locket descriptor: its next chunk, with the key of its slot (R425, R426). -/
def State.doLocket (s : State) (x : Flight) : State :=
  match dOpcode x.desc == 5, s.keySlot (kSlot x.desc) with
  | true, _ => s.doChunk x []
  | false, some k => s.doChunk x k.key
  | false, none => s.workDone x.id 8 x.detail

/-- The work of an AES descriptor with what the Locket meets: a block on which the datapaths differ is not written, and the device
enters the safe state (R474); a key slot whose parity fails is zeroised, and the descriptor ends with status 0x08 (R481). [DESIGN CHOICE, log 78] -/
def State.aesWork (s : State) (x : Flight) (e : AesFault) : State :=
  match e with
  | .none => s.doLocket x
  | .datapath => s.enterSafe 10 0x7000
  | .keyParity =>
    let k := kSlot x.desc
    let s := { s with locket := { s.locket with keys := SMap.set none s.locket.keys k none } }
    (s.degraded 2 0x7000 k).workDone x.id 8 x.detail

/-- GCM_DECRYPT (R427). -/
def execGcmDecrypt (f : Nat) (e : AesFault) (s : State) : Host.Outcome State Fault Refusal :=
  match s.working f 0 0x50001 with
  | some x => .next (s.aesWork x e)
  | none => .next s

/-- GCM_ENCRYPT (R426). -/
def execGcmEncrypt (f : Nat) (e : AesFault) (s : State) : Host.Outcome State Fault Refusal :=
  match s.working f 0 0x50002 with
  | some x => .next (s.aesWork x e)
  | none => .next s

/-- XTS_DECRYPT (R426). -/
def execXtsDecrypt (f : Nat) (e : AesFault) (s : State) : Host.Outcome State Fault Refusal :=
  match s.working f 0 0x50003 with
  | some x => .next (s.aesWork x e)
  | none => .next s

/-- XTS_ENCRYPT (R426). -/
def execXtsEncrypt (f : Nat) (e : AesFault) (s : State) : Host.Outcome State Fault Refusal :=
  match s.working f 0 0x50004 with
  | some x => .next (s.aesWork x e)
  | none => .next s

/-- HASH (R426). -/
def execHash (f : Nat) (s : State) : Host.Outcome State Fault Refusal :=
  match s.working f 0 0x50005 with
  | some x => .next (s.doLocket x)
  | none => .next s

/-- RELEASE (R425). -/
def execReleaseDescriptor (f : Nat) (s : State) : Host.Outcome State Fault Refusal :=
  match s.working f 0 0x50006 with
  | some x => .next (s.doLocket x)
  | none => .next s

/-! ### Key slots (R420 to R423, Table 13.11) -/

/-- Result 0x05 of a command whose kind the specification does not give: the kind is a free value. [DEDUCED, log 77] -/
def State.mboxConflictFree (s : State) (index : Nat) : State :=
  (s.mboxConflict (Config.freeNat s.free) index).useFree

/-- LOCKET_OWNER_LOAD (R421). -/
def execLocketOwnerLoad (s : State) : Host.Outcome State Fault Refusal :=
  .next (s.mailboxLc 0x700 (fun n => n == 1312) [3] (fun _ => []) (fun b =>
    let h := s.ctl.cfg.ownerKeyHash
    if allZero h || sha3_256 b != h then s.mboxRange 0
    else if s.locket.owner.isSome then s.mboxEnd 4 []
    else ({ s with locket := { s.locket with owner := some b } }).mboxOk []))

/-- LOCKET_IMPORT_NONCE (R423, R429): 32 fresh random bytes. -/
def execLocketImportNonce (s : State) : Host.Outcome State Fault Refusal :=
  .next (s.mailboxLc 0x701 (fun n => n == 0) [3] (fun _ => []) (fun _ =>
    if !s.locket.drbgOk then s.mboxEnd 4 []
    else
      let n := s.drbg 32
      (({ s with locket := { s.locket with nonce := some n } } : State).generated).mboxOk n))

/-- Steps 1 to 6 of R423 on an import blob: the offset of the first that fails.  The nonce is judged at step 5. -/
def State.importFail (s : State) (b : Bytes) : Option Nat :=
  firstFail ([
      (0, byteAt b 0 == 1), (1, byteAt b 1 == 1 || byteAt b 1 == 2), (2, decide (fieldLe b 2 2 < 4096)),
      (4, decide (byteAt b 4 < 32)), (5, decide (byteAt b 5 < 16))] ++ reservedChecks b 6 8 ++ [
      (1232, s.locket.owner.isSome),
      (1232, match s.locket.owner with
        | some k => Config.mlDsaVerify k (ascii "KYORI-IMPORT") (b.take 1232) (b.drop 1232)
        | none => false),
      (48, fieldLe b 48 16 == s.locket.uid),
      (16, s.locket.nonce == some (slice b 16 32))])

/-- The wrapped key of a blob, if its tag verifies and it is a valid key (step 6 of R423). -/
def State.unwrap (s : State) (b : Bytes) : Option Bytes :=
  match s.kemSeed with
  | none => none
  | some dz =>
    let ss := Config.kemDecaps dz (slice b 64 1088)
    let rk := roundKeys (shake256 (ss ++ slice b 0 64) 32)
    let iv := zeros 12
    let wrapped := slice b 1152 64
    if gcmTag rk iv (slice b 0 64) wrapped != slice b 1216 16 then none
    else
      let key := gcmCrypt rk iv wrapped
      if byteAt b 1 = 1 then some (key.take 32)
      else if slice key 0 32 == slice key 32 32 then none
      else some key

/-- The import is refused at an offset: result 0x03 and LOCKET_IMPORT_REFUSED (R423). -/
def State.importRefused (s : State) (slot off : Nat) : State :=
  (s.post 0x7003 1 0xFF 0x7000 (detail [(2, slot), (2, off)])).mboxRange off

/-- LOCKET_KEY_IMPORT (R423).  The nonce is consumed once steps 1 to 4 pass. -/
def execLocketKeyImport (s : State) : Host.Outcome State Fault Refusal :=
  .next (s.mailboxLc 0x702 (fun n => n == 3652) [3] (fun _ => []) (fun b =>
    let slot := fieldLe b 2 2
    let used : State := { s with locket := { s.locket with nonce := none } }
    match s.importFail b with
    | some off => (if off = 16 then used else s).importRefused slot off
    | none =>
      match s.unwrap b with
      | none => used.importRefused slot 1216
      | some key =>
        if (s.keySlot slot).isSome then
          (used.post 0x7003 1 0xFF 0x7000 (detail [(2, slot), (2, 2)])).mboxConflictFree slot
        else
          ({ used with locket := { used.locket with
              keys := SMap.set none s.locket.keys slot
                (some ⟨byteAt b 1, byteAt b 5, fieldLe b 8 8, byteAt b 4, key⟩) } }).mboxOk []))

/-- LOCKET_KEY_ERASE (R420): one slot, or all of them. -/
def execLocketKeyErase (s : State) : Host.Outcome State Fault Refusal :=
  .next (s.mailboxLc 0x703 (fun n => n == 8) [0, 1, 2, 3, 4]
    (fun b => (0, decide (fieldLe b 0 2 < 4096) || fieldLe b 0 2 == 0xFFFF) :: reservedChecks b 2 8) (fun b =>
      if fieldLe b 0 2 = 0xFFFF then
        (({ s with locket := { s.locket with keys := [] } }).post 0x7008 1 0xFF 0x7000 (detail [(1, 4)])).mboxOk []
      else
        ({ s with locket := { s.locket with keys := SMap.set none s.locket.keys (fieldLe b 0 2) none } }).mboxOk []))

/-- LOCKET_KEM_PUBLIC (R431). -/
def execLocketKemPublic (s : State) : Host.Outcome State Fault Refusal :=
  .next (s.mailboxLc 0x704 (fun n => n == 0) [2, 3, 4] (fun _ => []) (fun _ =>
    match s.kemSeed with
    | none => s.mboxEnd 7 []
    | some dz => s.mboxOk (Config.kemPublic dz)))

/-! ### Sealed regions (R413 to R419) -/

/-- The slabs a LOCKET_SEAL payload names. -/
def sealSlabs (b : Bytes) : List Nat := maskList 768 (fieldLe b 8 96)

/-- The field checks of R417 in ascending offset order. -/
def State.sealChecks (s : State) (b : Bytes) : List (Nat × Bool) :=
  let r := byteAt b 0
  let p := byteAt b 1
  let k := s.keySlot (fieldLe b 2 2)
  let slotOk (f : KeySlot → Bool) : Bool := match k with
    | some x => f x
    | none => true
  [(0, decide (r < 64) && slotOk (fun x => bit x.mask r)),
   (1, decide (p < 16) && slotOk (fun x => x.partition == p)),
   (2, decide (fieldLe b 2 2 < 4096) && k.isSome && slotOk (fun x => bit x.rights 2))] ++ reservedChecks b 4 8 ++
  [(8, match (s.region r).state with
    | 0 => !(sealSlabs b).isEmpty
    | 2 => (sealSlabs b).isEmpty
    | _ => true)]

/-- A named slab is already sealed, donated, or in a mapped-out group (R417). -/
def State.sealTaken (s : State) (i : Nat) : Bool :=
  (s.regionOfSlab i).isSome || s.locket.sealDue.any (fun q => q.slabs.contains i) || (s.slab i).hole ||
  (s.group (i / 24)).state == 5

/-- LOCKET_SEAL (R417): a seal that passes its checks waits for its boundary, and the mailbox stays busy until the Settle phase
that precedes it. -/
def execLocketSeal (s : State) : Host.Outcome State Fault Refusal :=
  if (s.mbox.busy.map (fun b => b.opcode)) = some 0x705 ∧ ¬ s.locket.sealDue.isEmpty then .next s
  else .next (s.mailboxLc 0x705 (fun n => n == 104) [3] s.sealChecks (fun b =>
    let r := byteAt b 0
    let st := (s.region r).state
    match (sealSlabs b).find? (fun i => s.sealTaken i) with
    | some i => s.mboxConflictFree i
    | none =>
      if st = 1 ∨ st = 3 then s.mboxConflictFree r
      else
        let slabs := if st = 2 then (s.region r).slabs else sealSlabs b
        { s with locket := { s.locket with
            sealDue := s.locket.sealDue ++ [⟨r, byteAt b 1, fieldLe b 2 2, slabs⟩] } }))

/-- The seal may take effect: no other partition's flight touches its slabs, and a partition not yet sealed has no flight
(R417). [DEDUCED, log 77] -/
def State.sealReady (s : State) (q : SealReq) : Bool :=
  !(s.work.flights.any (fun x => !x.failed && (
    (x.part != q.partition && x.slabs.any (fun i => q.slabs.contains i)) ||
    (x.part == q.partition && !s.sealedPart q.partition))))

/-- SEAL_TAKE_EFFECT (R417). -/
def execSealTakeEffect (r : Nat) (s : State) : Host.Outcome State Fault Refusal :=
  guarded "SEAL_TAKE_EFFECT" (decide (r < 64))
    (match s.locket.sealDue.find? (fun q => q.region == r) with
      | none => s
      | some q =>
        if (s.mbox.busy.map (fun b => b.opcode)) = some 0x705 ∨ ¬ s.sealReady q then s
        else
          let s1 : State := { s with locket := { s.locket with
              sealDue := s.locket.sealDue.filter (fun y => y.region != r) } }
          (s1.setRegion r ⟨1, q.partition, q.keySlot, q.slabs, false⟩ q.partition).syncKeel)

/-- LOCKET_UNSEAL (R418): the region goes to state 3 at the next tick boundary. -/
def execLocketUnseal (s : State) : Host.Outcome State Fault Refusal :=
  .next (s.mailboxLc 0x706 (fun n => n == 8) [0, 1, 2, 3, 4]
    (fun b => (0, decide (byteAt b 0 < 64)) :: reservedChecks b 1 8) (fun b =>
      let r := byteAt b 0
      if (s.region r).state = 0 then s.mboxEnd 4 []
      else if (s.region r).state = 3 then s.mboxOk []
      else
        ({ s with locket := { s.locket with unsealDue := s.locket.unsealDue ++ [r] } }).mboxOk []))

/-- At a tick boundary the regions that are due go to state 3, and the buffer lines of their slabs are written back (R418,
steps 1 and 2). -/
def State.beginUnseals (s : State) : State :=
  let due := s.locket.unsealDue
  let s : State := { s with locket := { s.locket with unsealDue := [] } }
  due.foldl (fun s r =>
    let x := s.region r
    if x.state = 1 ∨ x.state = 2 then
      let s := s.setRegion r { x with state := 3, wasBound := x.state == 1 } (if x.state = 1 then x.partition else 0xFF)
      (s.writebackAll (fun l => x.slabs.any (fun i => s.redirect (slabBase i) / 2 ^ 30 == l.setting / 2 ^ 20))).syncKeel
    else s) s

/-- Zero a range of storage, with the checks of zeros; valid bits are unchanged (R418). -/
def State.zeroStorage (s : State) (k n : Nat) : State :=
  { s with mem := { s.mem with
      bytes := SMap.clear s.mem.bytes k (k + n)
      checks := SMap.clear s.mem.checks (k / 64) ((k + n) / 64) } }

/-- Zero the sealed places of partition `p` other than its regions: its Casket segments, the DMEM and registers of its
tiles, its KV region (R414, R418). -/
def State.zeroSealedPlaces (s : State) (p : Nat) : State :=
  let s := (List.range 4608).foldl (fun s g =>
    if (segOwner (s.casketOwn (g / 8)).current (g % 8)).map (·.1) = some p then s.zeroCasket (g * 65536) 65536 else s) s
  let s : State := { s with tiles := s.tiles.map (fun e =>
    if e.2.partition = some p then
      (e.1, { e.2 with
        dmem := [], dmemBad := [], weak := e.2.weak.filter (fun w => decide (w.1 < 4096)), regs := [], vregs := [] }) else e) }
  let b := SMap.get 0 s.sail.kvrBase p
  let l := SMap.get 0 s.sail.kvrLimit p
  if b < l then
    (runsOf b (l - b)).foldl (fun s r => match storageOf r.1 with
      | some k =>
        (s.writebackAll (fun w => w.setting == s.redirect k / 1024)).zeroStorage (s.redirect k) r.2
      | none => s) s
  else s

/-- UNSEAL_ZERO_DONE (R418, steps 3 and 4): the region's slabs hold zeros and the region is free; when it was the last of its
partition, the rest of that partition's sealed places is zeroed and it ceases to be sealed. -/
def execUnsealZeroDone (r : Nat) (s : State) : Host.Outcome State Fault Refusal :=
  guarded "UNSEAL_ZERO_DONE" (decide (r < 64))
    (let x := s.region r
     if x.state ≠ 3 ∨ s.memoryRests then s
     else
       let s1 := x.slabs.foldl (fun s i => s.zeroStorage (s.redirect (slabBase i)) (2 ^ 30)) s
       let s2 := s1.setRegion r {} 0xFF
       (if x.wasBound && !s2.sealedPart x.partition then s2.zeroSealedPlaces x.partition else s2).syncKeel)

/-! ### Entropy (R429) -/

/-- ENTROPY_HEALTH_FAIL (R429): test 1 repetition count, 2 adaptive proportion. -/
def execEntropyHealthFail (test : Nat) (s : State) : Host.Outcome State Fault Refusal :=
  guarded "ENTROPY_HEALTH_FAIL" (test == 1 || test == 2)
    (({ s with locket := { s.locket with drbgOk := false, entropyOk := false } }).post 0x7007 2 0xFF 0x7000
      (detail [(1, test)]))

/-! ### Attestation of site dies (R435) -/

/-- The Locket begins to attest the die of site `q`: it writes its request and a new sequence number to the die's message
area. -/
def State.startAttest (s : State) (q : Nat) : State :=
  let seq := s.locket.attestSeq + 1
  let s : State := { s with locket := { s.locket with attestSeq := seq } }
  let s := s.updSite q (fun x => { x with attest := some ⟨s.tick.time, seq⟩ })
  let s := (s.sitePut q 0xFFFFFFFFFFFF 0 (clean (s.drbg 64))).generated
  s.sitePut q 0xFFFFFFFFFFFF 0xC00 (clean (natLe 8 64 ++ natLe 8 seq ++ zeros 48))

/-- An attestation fails for a reason of Table 13.12. -/
def State.attestFail (s : State) (q reason : Nat) : State :=
  (s.updSite q (fun x => { x with attest := none, attested := false })).post 0x7005 1 0xFF (0x6000 + q)
    (detail [(1, reason)])

/-- LOCKET_ATTEST_SITE (R435). -/
def execLocketAttestSite (s : State) : Host.Outcome State Fault Refusal :=
  .next (s.mailboxLc 0x707 (fun n => n == 8) [3]
    (fun b => (0, decide (byteAt b 0 < 6)) :: reservedChecks b 1 8) (fun b =>
      if (s.site (byteAt b 0)).state ≠ 3 then s.mboxEnd 4 []
      else (s.startAttest (byteAt b 0)).mboxOk []))

/-- SITE_ATTEST_POLL (R435): an answer with the sequence number asked for is judged. -/
def execSiteAttestPoll (q : Nat) (r : Option AttestAnswer) (s : State) : Host.Outcome State Fault Refusal :=
  guarded "SITE_ATTEST_POLL" (decide (q < 6))
    (match (s.site q).attest, r with
      | some a, some b =>
        if b.seq ≠ a.seq then s
        else if !b.algorithms then (s.attestFail q 5).syncKeel
        else if !s.ctl.cfg.roots.contains (sha3_256 b.root) then (s.attestFail q 2).syncKeel
        else if !(Config.mlDsaVerify b.key [] b.challenge b.challengeSig &&
            Config.mlDsaVerify b.key [] b.measured b.measuredSig) then (s.attestFail q 3).syncKeel
        else if !s.ctl.cfg.measurements.contains (sha3_256 b.record) then (s.attestFail q 4).syncKeel
        else
          let dg := sha3_256 b.record
          ((s.updSite q (fun x => { x with attest := none, attested := true, digest := dg })).post 0x7004 0 0xFF
            (0x6000 + q) (detail [(8, leNat (dg.take 8))])).syncKeel
      | _, _ => s)

/-- SITE_ATTEST_TIMEOUT (R435): not finished within 200 ms. -/
def execSiteAttestTimeout (q : Nat) (s : State) : Host.Outcome State Fault Refusal :=
  guarded "SITE_ATTEST_TIMEOUT" (decide (q < 6))
    (match (s.site q).attest with
      | some _ => (s.attestFail q 1).syncKeel
      | none => s)

/-! ### Life cycle (R436 to R438) -/

/-- The life cycle moves on: the word is burned, LC_TRANSITION is posted, and a cold restart follows (R436). -/
def State.lcMove (s : State) (goal : Nat) : State :=
  (({ s with locket := { s.locket with lc := goal } }).post 0x7006 1 0xFF 0x7000
    (detail [(1, s.locket.lc), (1, goal)])).restartDue

/-- LC_FIELD (R436). -/
def execLcField (s : State) : Host.Outcome State Fault Refusal :=
  .next (s.mailboxLc 0x710 (fun n => n == 0) [2] (fun _ => []) (fun _ =>
    let s1 : State := { s with locket := { s.locket with imageKeyHash := s.ctl.imageKeyHash } }
    (s1.lcMove 3).mboxOk []))

/-- LC_RETURN (R438, step 1): the token is verified, and the procedure runs from the next tick boundary. [DEDUCED, log 76] -/
def execLcReturn (s : State) : Host.Outcome State Fault Refusal :=
  if s.locket.returning then .next s
  else .next (s.mailboxLc 0x711 (fun n => n == 2468) [2, 3]
    (fun b => [(0, fieldLe b 0 16 == s.locket.uid), (16, s.locket.nonce == some (slice b 16 32)),
      (48, Config.returnTokenOk (b.take 48) (b.drop 48))])
    (fun _ => { s with locket := { s.locket with returning := true } }))

/-- Steps 2 to 6 of Table 13.10, from the tick boundary on. [DEDUCED, log 76] -/
def State.runReturn (s : State) : State :=
  if !s.locket.returning || !(s.locket.lc == 2 || s.locket.lc == 3) then s
  else
    let s := (List.range 16).foldl (fun s p => s.updPart p (fun x => { x with enabled := false, scanned := false })) s
    let s := s.zeroise 3
    let s := s.writebackAll (fun _ => true)
    let s : State := { s with
      mem := { s.mem with bytes := [], checks := [] }
      casket := { s.casket with bytes := [], bad := [], errs := [], side := [], pending := [] }
      tiles := s.tiles.map (fun e => (e.1, { e.2 with
        dmem := [], dmemBad := [], weak := e.2.weak.filter (fun w => decide (w.1 < 4096)) }))
      locket := { s.locket with returning := false } }
    (s.lcMove 4).mboxOk []

/-- LC_SCRAP (R436). -/
def execLcScrap (s : State) : Host.Outcome State Fault Refusal :=
  .next (s.mailboxLc 0x712 (fun n => n == 8) [0, 1, 2, 3, 4]
    (fun b => [(0, fieldLe b 0 8 == s.locket.uid % 2 ^ 64)]) (fun _ => (s.lcMove 5).mboxOk []))

/-- INSTRUMENT_LC_TRANSITION (R436): RAW to TEST under a test token; TEST to FIELD_BLANK with healthy entropy, which draws the
seed and takes the certificate chain; RAW or TEST to SCRAP. -/
def execInstrumentLcTransition (goal : Nat) (token : Bytes) (s : State) : Host.Outcome State Fault Refusal :=
  guarded "INSTRUMENT_LC_TRANSITION" (goal == 1 || goal == 2 || goal == 5)
    (let l := s.locket.lc
     if l = 0 ∧ goal = 1 ∧ Config.testTokenOk token then s.lcMove 1
     else if l = 1 ∧ goal = 2 ∧ s.locket.entropyOk ∧ s.locket.drbgOk then
       (({ s with locket := { s.locket with seed := some (s.drbg 32), chain := token } } : State).generated).lcMove 2
     else if (l = 0 ∨ l = 1) ∧ goal = 5 ∧ fieldLe token 0 8 = s.locket.uid % 2 ^ 64 then s.lcMove 5
     else s)

/-! ### SPDM (R433, R434) -/

/-- The SPDM responder can answer: the host port's link is up, and outside the safe state (R477). -/
def State.spdmUp (s : State) : Bool := s.host.linkUp && !s.keel.safe

/-- Answer an SPDM request. [DESIGN CHOICE, log 75] -/
def State.spdmAnswer (s : State) (r : SpdmRsp) : State := s.emit (.spdm r)

/-- SPDM_GET_VERSION (R433): also in the safe state (R477). -/
def execSpdmGetVersion (s : State) : Host.Outcome State Fault Refusal :=
  .next (if s.host.linkUp then s.spdmAnswer (.version 0x12) else s)

/-- SPDM_GET_CAPABILITIES (R433). -/
def execSpdmGetCapabilities (s : State) : Host.Outcome State Fault Refusal :=
  .next (if s.spdmUp then s.spdmAnswer .capabilities else s)

/-- SPDM_NEGOTIATE_ALGORITHMS (R433): the selection of Table 13.6, or ERROR. -/
def execSpdmNegotiateAlgorithms (o : SpdmOffer) (s : State) : Host.Outcome State Fault Refusal :=
  .next (if !s.spdmUp then s
    else if o.asym && o.hash && o.dhe && o.aead && o.schedule then
      ({ s with locket := { s.locket with negotiated := true } }).spdmAnswer (.algorithms 0x1F3A 1 0x0100 2)
    else s.spdmAnswer .error)

/-- SPDM_GET_DIGESTS (R433): slot 0 only. -/
def execSpdmGetDigests (s : State) : Host.Outcome State Fault Refusal :=
  .next (if !s.spdmUp then s
    else if !s.locket.negotiated then s.spdmAnswer .error
    else s.spdmAnswer (.digests (sha3_256 s.locket.chain)))

/-- SPDM_GET_CERTIFICATE (R433): a portion of the chain of slot 0. -/
def execSpdmGetCertificate (slot off len : Nat) (s : State) : Host.Outcome State Fault Refusal :=
  .next (if !s.spdmUp then s
    else if !s.locket.negotiated || slot != 0 || decide (s.locket.chain.length ≤ off) then s.spdmAnswer .error
    else s.spdmAnswer (.certificate (slice s.locket.chain off len) (s.locket.chain.length - off - len)))

/-- The measurement block of an index (Table 13.7). -/
def State.measurement (s : State) (i : Nat) : Bytes :=
  match i with
  | 1 => Config.firmwareDigest
  | 2 => if s.ctl.recovery then zeros 32 else s.ctl.imageDigest
  | 3 => sha3_256 ([BitVec.ofNat 8 s.locket.lc, 0xA1] ++ Config.fuseRepairs)
  | 4 => sha3_256 ((if s.ctl.cfg.ownerKeyHash.isEmpty then zeros 32 else s.ctl.cfg.ownerKeyHash) ++
      (match s.kemSeed with
        | some dz => Config.kemPublic dz
        | none => zeros 32))
  | _ => sha3_256 (((List.range 6).map (fun q =>
      let x := s.site q
      if x.attested then 1 :: x.digest else 0 :: zeros 32)).flatten)

/-- An exchange that needs the device key and random bits: the signature is over what the response carries (R431, R429). [DESIGN CHOICE, log 75] -/
def State.spdmSigned (s : State) (rsp : Bytes → Bytes → SpdmRsp) (transcript : Bytes) : State :=
  if !s.spdmUp then s
  else match s.deviceXi with
    | none => s.spdmAnswer .error
    | some xi =>
      if !s.locket.negotiated || !s.locket.drbgOk then s.spdmAnswer .error
      else
        let n := s.drbg 32
        s.generated.spdmAnswer (rsp n (Config.mlDsaSign xi (transcript ++ n)))

/-- The digests of all measurement blocks, one after another. -/
def State.allMeasurements (s : State) : Bytes := ((List.range 5).map (fun i => s.measurement (i + 1))).flatten

/-- SPDM_CHALLENGE (R433). -/
def execSpdmChallenge (slot : Nat) (nonce : Bytes) (s : State) : Host.Outcome State Fault Refusal :=
  let cd := sha3_256 s.locket.chain
  let sm := sha3_256 s.allMeasurements
  .next (if slot ≠ 0 then (if s.spdmUp then s.spdmAnswer .error else s)
    else s.spdmSigned (fun n sig => .challengeAuth cd sm n sig) (nonce ++ cd ++ sm))

/-- SPDM_GET_MEASUREMENTS (R434): index 0 asks their number, 0xFF all of them. -/
def execSpdmGetMeasurements (index : Nat) (nonce : Bytes) (s : State) : Host.Outcome State Fault Refusal :=
  let is := if index = 0xFF then [1, 2, 3, 4, 5] else if 1 ≤ index ∧ index ≤ 5 then [index] else []
  let blocks := is.map (fun i => (i, s.measurement i))
  .next (if is.isEmpty && index != 0 then (if s.spdmUp then s.spdmAnswer .error else s)
    else s.spdmSigned (fun n sig => .measurements blocks n sig) (nonce ++ (blocks.map (fun b => b.2)).flatten))

/-- SPDM_KEY_EXCHANGE (R433): a session by ML-KEM, at most four. -/
def execSpdmKeyExchange (ek : Bytes) (s : State) : Host.Outcome State Fault Refusal :=
  .next (if !s.spdmUp then s
    else if 4 ≤ s.locket.sessions.length ∨ ek.length ≠ 1184 then s.spdmAnswer .error
    else
      let kc := Config.kemEncaps ek s.free
      let sid := s.locket.nextSession
      if s.deviceXi.isNone || !s.locket.negotiated || !s.locket.drbgOk then s.spdmAnswer .error
      else
        ({ s with locket := { s.locket with
            sessions := s.locket.sessions ++ [(⟨sid, kc.1, false, 0⟩ : Session)]
            nextSession := (sid + 1) % 65536 } }).spdmSigned (fun _ sig => .keyExchange sid kc.2 sig) (ek ++ kc.2))

/-- An SPDM session. -/
def State.session (s : State) (sid : Nat) : Option Session := s.locket.sessions.find? (fun x => x.id == sid)

/-- Change an SPDM session. -/
def State.updSession (s : State) (sid : Nat) (f : Session → Session) : State :=
  { s with locket := { s.locket with sessions := s.locket.sessions.map (fun x => if x.id == sid then f x else x) } }

/-- SPDM_FINISH (R433): session establishment is complete. [DESIGN CHOICE, log 75] -/
def execSpdmFinish (sid : Nat) (mac : Bytes) (s : State) : Host.Outcome State Fault Refusal :=
  .next (if !s.spdmUp then s
    else match s.session sid with
      | some x =>
        if x.established || mac != Config.finishMac x.secret then s.spdmAnswer .error
        else (s.updSession sid (fun x => { x with established := true })).spdmAnswer .finish
      | none => s.spdmAnswer .error)

/-- A request within an established session. -/
def State.inSession (s : State) (sid : Nat) (k : State) : State :=
  if !s.spdmUp then s
  else match s.session sid with
    | some x => if x.established then k else s.spdmAnswer .error
    | none => s.spdmAnswer .error

/-- SPDM_END_SESSION (R433). -/
def execSpdmEndSession (sid : Nat) (s : State) : Host.Outcome State Fault Refusal :=
  .next (s.inSession sid
    (({ s with locket := { s.locket with
        sessions := s.locket.sessions.filter (fun x => x.id != sid) } }).spdmAnswer .endSession))

/-- SPDM_KEY_UPDATE (R433): operation 1 or 2 updates keys, 3 verifies the new key. -/
def execSpdmKeyUpdate (sid op : Nat) (s : State) : Host.Outcome State Fault Refusal :=
  .next (s.inSession sid
    (if op = 1 ∨ op = 2 then (s.updSession sid (fun x => { x with updates := x.updates + 1 })).spdmAnswer .keyUpdate
     else if op = 3 then s.spdmAnswer .keyUpdate
     else s.spdmAnswer .error))

/-- SPDM_HEARTBEAT (R433). -/
def execSpdmHeartbeat (sid : Nat) (s : State) : Host.Outcome State Fault Refusal :=
  .next (s.inSession sid (s.spdmAnswer .heartbeat))

/-- SPDM_VENDOR_DEFINED_REQUEST (R303, R433): IDE key management in a secure session. -/
def execSpdmVendorDefinedRequest (sid : Nat) (m : IdeKm) (s : State) : Host.Outcome State Fault Refusal :=
  .next (s.inSession sid
    (match m.op with
      | 0 => s.spdmAnswer (.vendorDefined 0)
      | 1 => s.spdmAnswer (.vendorDefined 1)
      | 2 => ({ s with host := { s.host with ide := true } }).spdmAnswer (.vendorDefined 2)
      | 3 => ({ s with host := { s.host with ide := false } }).spdmAnswer (.vendorDefined 3)
      | _ => s.spdmAnswer .error))

end Sys2Proof.Machine
end

