-- ==== Sys2Proof/Machine/Sites.lean ====
section
/-! DEFINITION. Crown and beside sites (R392 to R410): discovery and training, frames, the Bezel, inbound and outbound requests,
the site mailbox commands. -/

namespace Sys2Proof.Machine

/-! ### Discovery messages (Table 12.4) -/

/-- CRC-32 (IEEE 802.3), reflected: one byte. -/
def crc32Bits : Nat → Nat → Nat
  | 0, c => c
  | n + 1, c => crc32Bits n (if c % 2 = 1 then c / 2 ^^^ 0xEDB88320 else c / 2)

/-- CRC-32 with initial value and final exclusive-or 0xFFFFFFFF. -/
def crc32 (bs : Bytes) : Nat := bs.foldl (fun c b => crc32Bits 8 (c ^^^ b.toNat)) 0xFFFFFFFF ^^^ 0xFFFFFFFF

/-- A discovery message of the base die (R397). -/
def discMsg (kind attempt flags : Nat) (mask : Nat) (lanes : Bytes) : Bytes :=
  let b := natLe 1 1 ++ natLe 1 kind ++ natLe 1 1 ++ natLe 1 0xA1 ++ natLe 1 1 ++ natLe 1 1 ++ natLe 1 0 ++ natLe 1 7 ++
    natLe 2 0x1F3A ++ natLe 2 0x0B68 ++ natLe 1 0 ++ natLe 1 attempt ++ natLe 1 flags ++ natLe 1 0 ++ natLe 2 mask ++
    lanes.take 9 ++ zeros (9 - lanes.length) ++ natLe 1 0
  b ++ natLe 4 (crc32 b)

/-- A received discovery message has a good CRC. -/
def discCrcOk (m : Bytes) : Bool := m.length == 32 && crc32 (m.take 28) == fieldLe m 28 4

/-- A message with a good CRC but another version or a kind outside 1 to 4 is ignored and counted (R397). -/
def State.discIn (s : State) (q : Nat) (m : Bytes) (kind : Nat) (k : State) : State :=
  if !discCrcOk m then s
  else if byteAt m 0 ≠ 1 ∨ byteAt m 1 = 0 ∨ 4 < byteAt m 1 then
    s.updSite q (fun x => { x with crcBad := satAdd 0xFFFF x.crcBad 1 })
  else if byteAt m 1 ≠ kind then s
  else k

/-- Channels or modules of a site (Table 12.12). -/
def siteWays (q : Nat) : Nat := if q < 4 then 16 else 4

/-! ### Full retrains, fences and failures (R394, R402, R406) -/

/-- The site loses its attestation, if it had it (R407). -/
def State.loseAttest (s : State) (q cause : Nat) : State :=
  let x := s.site q
  let s := if x.attest.isSome then s.attestFail q 6 else s
  let s := s.updSite q (fun x => { x with attested := false })
  if x.attested then s.post 0x6007 1 0xFF (0x6000 + q) (detail [(1, cause)]) else s

/-- Training starts over with the next attempt: the link's state is gone; what was sent to the die and not answered waits. -/
def Site.restart (x : Site) : Site :=
  { x with
    state := 2, step := 0, attempt := 0, fallback := false, chanMask := 0, mine := [], theirs := [], tested := 0,
    reported := 0, aligned := 0, chans := [], asked := [] }

/-- A partial reset forces a full retrain (R394). -/
def State.partialReset (s : State) (q cause ch : Nat) : State :=
  let s := s.updSite q (fun x => { x.restart with
    sealedOk := false, grantDue := x.grantDue.map (fun g => (g.1, false)), retrains := satAdd 0xFFFF x.retrains 1 })
  let s := s.post 0x6003 1 0xFF (0x6000 + q) (detail [(1, cause), (1, ch)])
  (s.loseAttest q cause).syncKeel

/-- The site is fenced (R402, R406): every waiting or outstanding piece to it ends with status 0x08. -/
def State.fenceSite (s : State) (q cause : Nat) : State :=
  let x := s.site q
  let s := x.writing.foldl (fun s w => s.siteStatusFor w.flight 8) s
  let s := s.updSite q (fun x => { x.restart with
    state := 4, fenceCause := cause, resetLow := true, writing := []
    answers := x.asked.foldl (fun m a => SMap.set none m a.2 (some (8, []))) x.answers })
  let s := (s.post 0x6002 2 0xFF (0x6000 + q) (detail [(1, cause), (1, x.failures)])).emit (.siteReset q true)
  (s.loseAttest q 6).syncKeel

/-- A training attempt fails (R402): the third failure in a row fences the site; any other starts the next attempt. -/
def State.siteFail (s : State) (q : Nat) : State :=
  let s := s.updSite q (fun x => { x with failures := x.failures + 1 })
  if 3 ≤ (s.site q).failures then s.fenceSite q 3
  else s.updSite q (fun x => { x.restart with attempt := x.attempt })

/-! ### Training (Table 12.5) -/

/-- SITE_TRAINING_ATTEMPT (step 1): x_RST_N goes low. [DEDUCED, log 70] -/
def execSiteTrainingAttempt (q : Nat) (s : State) : Host.Outcome State Fault Refusal :=
  guarded "SITE_TRAINING_ATTEMPT" (decide (q < 6)) (
    let x := s.site q
    if x.state = 2 ∧ x.step = 0 ∧ !(SMap.get {} s.pwr.domains 18 : Domain).off then
      (s.updSite q (fun x => { x with step := 1, resetLow := true, attempt := min 3 (x.attempt + 1) })).emit (.siteReset q true)
    else s)

/-- X_RST_N_RELEASE (step 2): x_RST_N is released and ADVERT goes out. -/
def execXRstNRelease (q : Nat) (s : State) : Host.Outcome State Fault Refusal :=
  guarded "X_RST_N_RELEASE" (decide (q < 6)) (
    let x := s.site q
    if x.state = 2 ∧ x.step = 1 then
      ((s.updSite q (fun x => { x with step := 2, resetLow := false })).emit (.siteReset q false)).emit
        (.siteMessage q (discMsg 1 x.attempt 0 0 []))
    else s)

/-- ADVERT (R398, step 3): a common level, or the site is fenced with cause 1; the running generation is 1 at most, and the running
capabilities are those of both sides. [DEDUCED, log 70] -/
def execAdvert (q : Nat) (m : Bytes) (s : State) : Host.Outcome State Fault Refusal :=
  guarded "ADVERT" (decide (q < 6)) (s.discIn q m 1 (
    let x := s.site q
    if x.state ≠ 2 ∨ x.step ≠ 2 then s
    else
      let gen := byteAt m 2
      let w := byteAt m 12
      let peer : Peer := {
        vendor := fieldLe m 8 2, part := fieldLe m 10 2, revision := byteAt m 3
        windowLog2 := if 12 ≤ w ∧ w ≤ 48 then w else 0
        gen := min 0xF gen, runGen := min 1 gen, minLevel := min 0xF (byteAt m 4), maxLevel := min 0xF (byteAt m 5)
        caps := byteAt m 7 &&& 7 }
      let s := s.updSite q (fun x => { x with peer := peer })
      let s := if 1 < gen ∨ 1 < byteAt m 5 ∨ 1 < byteAt m 4 then
          s.post 0x6005 0 0xFF (0x6000 + q) (detail [(1, gen), (1, min 1 gen), (1, byteAt m 5)]) else s
      if 1 < byteAt m 4 ∨ byteAt m 5 < 1 then s.fenceSite q 1
      else s.updSite q (fun x => { x with step := 4 })))

/-- ADVERT_TIMEOUT (step 2). -/
def execAdvertTimeout (q : Nat) (s : State) : Host.Outcome State Fault Refusal :=
  guarded "ADVERT_TIMEOUT" (decide (q < 6))
    (if (s.site q).state = 2 ∧ (s.site q).step = 2 then s.siteFail q else s)

/-- Nine-bit lane indices packed from bit 0, unused entries 0x1FF (Table 12.4). -/
def packLanes (ls : List Nat) : Bytes :=
  natLe 9 (((List.range 8).map (fun i => ls.getD i 0x1FF % 512 * 512 ^ i)).sum)

/-- The indices of a LANES message. -/
def unpackLanes (b : Bytes) (n : Nat) : List Nat := (List.range n).map (fun i => leNat b / 512 ^ i % 512)

/-- Channels usable in both directions: the record mask (R396). -/
def Site.recordMask (x : Site) (q : Nat) : Nat :=
  maskOf ((List.range (siteWays q)).filter (fun c => (SMap.get none x.mine c).isSome && (SMap.get none x.theirs c).isSome))

/-- With every channel's lane test taken in both directions the record is written (step 5): WIDTH goes out if it is wide enough,
else the attempt fails. -/
def State.siteRecord (s : State) (q : Nat) : State :=
  let x := s.site q
  let all := 2 ^ siteWays q - 1
  if x.tested ≠ all ∨ x.reported ≠ all then s
  else
    let mask := x.recordMask q
    if (maskList 16 mask).length < (if q < 4 then 4 else 1) then s.siteFail q
    else
      (s.updSite q (fun x => { x with step := 5, chanMask := mask })).emit (.siteMessage q (discMsg 3 x.attempt 0 mask []))

/-- LANE_TEST_END (R396, R399): the failing lanes of the base die's own receivers, by channel; on a beside site, a module with any is
one whose repair failed.  One LANES message per channel reports them. [DEDUCED, log 70] -/
def execLaneTestEnd (q : Nat) (failing : List (List Nat)) (s : State) : Host.Outcome State Fault Refusal :=
  guarded "LANE_TEST_END" (decide (q < 6) && failing.length == siteWays q) (
    let x := s.site q
    if x.state ≠ 2 ∨ x.step ≠ 4 then s
    else
      let limit := if q < 4 then 8 else 0
      let s := (List.range (siteWays q)).foldl (fun s c =>
        let ls := failing.getD c []
        let ok := decide (ls.length ≤ limit)
        let s := s.updSite q (fun x => { x with mine := SMap.set none x.mine c (if ok then some ls else none) })
        s.emit (.siteMessage q (discMsg 2 x.attempt 0 (c + 256 * (if ok then ls.length else 0xFF))
          (if q < 4 then packLanes (if ok then ls else []) else [])))) s
      (s.updSite q (fun x => { x with tested := 2 ^ siteWays q - 1 })).siteRecord q)

/-- LANES (R396): the failing lanes of the die's receiver of one channel. -/
def execLanes (q : Nat) (m : Bytes) (s : State) : Host.Outcome State Fault Refusal :=
  guarded "LANES" (decide (q < 6)) (s.discIn q m 2 (
    let x := s.site q
    let c := byteAt m 16
    let n := byteAt m 17
    if x.state ≠ 2 ∨ x.step ≠ 4 ∨ siteWays q ≤ c then s
    else
      (s.updSite q (fun x => { x with
        theirs := SMap.set none x.theirs c (if n ≤ 8 then some (unpackLanes (slice m 18 9) n) else none)
        reported := x.reported ||| 2 ^ c })).siteRecord q))

/-- A width mismatch (R401, R402): counted; the third failure fences the site, otherwise WIDTH goes out again with the fallback
flag. -/
def State.widthMismatch (s : State) (q echoed kind : Nat) : State :=
  let s := s.updSite q (fun x => { x with failures := x.failures + 1, fallback := true })
  let x := s.site q
  let s := s.post 0x6004 1 0xFF (0x6000 + q) (detail [(2, x.chanMask), (2, echoed), (1, x.failures), (1, kind)])
  if 3 ≤ x.failures then s.fenceSite q 2 else s.emit (.siteMessage q (discMsg 3 x.attempt 1 x.chanMask []))

/-- An idle frame on channel `ch`, with the channel's ack and credit returns (Table 12.6). -/
def State.siteIdle (s : State) (q ch : Nat) (nak : Bool) : State :=
  let c := (s.site q).chan ch
  let mark := bit (s.site q).peer.caps 0 && c.marked != s.tick.count + 1
  (s.updSite q (fun x => x.updChan ch (fun c => { c with freed := [0, 0, 0], marked := s.tick.count + 1 }))).emit
    (.siteFrame q ch (siteFrameOf [] 1 nak mark c.txSeq c.ack c.freed))

/-- ECHO (R401): the width is agreed, and idle frames go out on every channel of the mask (step 6). -/
def execEcho (q : Nat) (m : Bytes) (s : State) : Host.Outcome State Fault Refusal :=
  guarded "ECHO" (decide (q < 6)) (
    let x := s.site q
    if x.state ≠ 2 ∨ x.step ≠ 5 then s
    else if !discCrcOk m then s.widthMismatch q (fieldLe m 16 2) 2
    else s.discIn q m 4 (
      if fieldLe m 16 2 ≠ x.chanMask then s.widthMismatch q (fieldLe m 16 2) 1
      else x.channels.foldl (fun s ch => s.siteIdle q ch false) (s.updSite q (fun x => { x with step := 6, aligned := 0 }))))

/-- ECHO_TIMEOUT (R401). -/
def execEchoTimeout (q : Nat) (s : State) : Host.Outcome State Fault Refusal :=
  guarded "ECHO_TIMEOUT" (decide (q < 6))
    (if (s.site q).state = 2 ∧ (s.site q).step = 5 then s.widthMismatch q 0xFFFF 3 else s)

/-- FRAME_ALIGN_TIMEOUT (step 6). -/
def execFrameAlignTimeout (q : Nat) (s : State) : Host.Outcome State Fault Refusal :=
  guarded "FRAME_ALIGN_TIMEOUT" (decide (q < 6))
    (if (s.site q).state = 2 ∧ (s.site q).step = 6 then s.siteFail q else s)

/-- SITE_TRAINING_TIMEOUT (R400): the attempt has not reached step 7 within 10 ms of step 2. [DESIGN CHOICE, log 3] -/
def execSiteTrainingTimeout (q : Nat) (s : State) : Host.Outcome State Fault Refusal :=
  guarded "SITE_TRAINING_TIMEOUT" (decide (q < 6))
    (if (s.site q).state = 2 ∧ 2 ≤ (s.site q).step then s.siteFail q else s)

/-- SITE_ALERT (R393): the die has reset itself. -/
def execSiteAlert (q : Nat) (s : State) : Host.Outcome State Fault Refusal :=
  guarded "SITE_ALERT" (decide (q < 6))
    (if (s.site q).state = 2 ∨ (s.site q).state = 3 then s.partialReset q 1 0 else s)

/-- Step 7: the site is linked; waiting writes go out again, words drain, and the Locket attests a die that can be. [DESIGN CHOICE, log 71] -/
def State.siteUp (s : State) (q : Nat) : State :=
  let x := s.site q
  let s := s.updSite q (fun x => { x with state := 3, step := 0, failures := 0, fenceCause := 0 })
  let s := s.post 0x6001 0 0xFF (0x6000 + q) (detail [(2, x.chanMask), (1, x.peer.runGen), (1, x.peer.revision), (1, x.attempt)])
  let s := x.writing.foldl (fun s w => s.siteSend q ((s.site q).pickChan (w.msg.addr / 64 % 64)) w.msg) s
  let s := s.siteDrain q portIndex
  if bit x.peer.caps 2 then s.startAttest q else s

/-! ### Frames (R403 to R406) -/

/-- What the units of a good frame make of the message being received. -/
structure UnitAcc where
  partialMsg : Bytes
  got : List SiteMsg
  ended : Bool

/-- One unit: padding where a header is due ends the frame's messages; a header opens a message; data completes it (R403). [DESIGN CHOICE, log 71] -/
def unitStep (a : UnitAcc) (u : Bytes) : UnitAcc :=
  if a.ended then a
  else if a.partialMsg.isEmpty then
    if allZero u then { a with ended := true }
    else if siteDataUnits u = 0 then { a with got := a.got ++ [⟨u, []⟩] }
    else { a with partialMsg := u }
  else
    let m := a.partialMsg ++ u
    if m.length = 16 * (1 + siteDataUnits (m.take 16)) then
      { a with partialMsg := [], got := a.got ++ [⟨m.take 16, m.drop 16⟩] }
    else { a with partialMsg := m }

/-- Resend every unacknowledged frame of a channel (R405); the sixteenth time in a row without ack progress is a partial reset
(R406). -/
def State.siteReplay (s : State) (q ch : Nat) : State :=
  let c := (s.site q).chan ch
  if c.replay.isEmpty then s
  else
    let s := s.updSite q (fun x => { x.updChan ch (fun c => { c with stuck := c.stuck + 1 }) with
      replays := satAdd 0xFFFF x.replays 1 })
    if c.stuck + 1 = 16 then s.partialReset q 2 ch
    else s.emitAll (c.replay.map (fun f => .siteFrame q ch f.2))

/-- A good frame's ack and credits. -/
def State.frameAck (s : State) (q ch : Nat) (b : Bytes) : State :=
  let t := fieldLe b 256 4
  let u := fieldLe b 260 4
  let c := (s.site q).chan ch
  let acked := c.replay.findIdx? (fun f => f.1 == bits t 9 0)
  let s := s.updSite q (fun x => x.updChan ch (fun c => { c with
    replay := match acked with
      | some i => c.replay.drop (i + 1)
      | none => c.replay
    stuck := if acked.isSome then 0 else c.stuck
    credits := [c.credits.getD 0 0 + bits u 9 0, c.credits.getD 1 0 + bits u 19 10, c.credits.getD 2 0 + bits u 29 20] }))
  if bit t 29 then s.siteReplay q ch else s

/-- Freed units of a virtual channel. -/
def freeUnits (c : SiteChan) (vc n : Nat) : SiteChan := { c with freed := c.freed.set vc (c.freed.getD vc 0 + n) }

/-- The frame on a linked channel is bad, out of order, idle, or taken; inbound STREAM is no message of a die, and is refused
(R167, Table 12.8). -/
def State.frameIn (s : State) (q ch : Nat) (b : Bytes) (good : Bool) : State :=
  let t := fieldLe b 256 4
  let kind := bits t 31 30
  let c := (s.site q).chan ch
  if !good then
    let s := s.updSite q (fun x => { x with crcBad := satAdd 0xFFFF x.crcBad 1 })
    if c.nakking then s
    else (s.updSite q (fun x => x.updChan ch (fun c => { c with nakking := true }))).siteIdle q ch true
  else if kind = 1 then ((s.frameAck q ch b).sitePump q ch).siteDrain q portIndex
  else if bits t 19 10 ≠ c.rxSeq then
    if c.nakking then s
    else (s.updSite q (fun x => x.updChan ch (fun c => { c with nakking := true }))).siteIdle q ch true
  else
    let a := (chunks 16 16 (b.take 256)).foldl unitStep ⟨c.partialMsg, [], false⟩
    let kept := a.got.filter (fun m => m.op != siteStreamOp)
    let refused := a.got.filter (fun m => m.op == siteStreamOp)
    let s := s.updSite q (fun x => { x.updChan ch (fun c =>
        let c := { c with rxSeq := (c.rxSeq + 1) % 1024, nakking := false, partialMsg := a.partialMsg, rx := c.rx ++ kept }
        refused.foldl (fun c m => freeUnits c 2 m.units) c) with
      bezelRefused := satAdd 0xFFFF x.bezelRefused refused.length })
    let s := s.frameAck q ch b
    if (s.site q).state = 3 then ((s.siteIdle q ch false).sitePump q ch).siteDrain q portIndex else s

/-- SITE_FRAME (R405): a frame arrives on a channel of the mask; in step 6 of training it shows the channel aligned. -/
def execSiteFrame (q ch : Nat) (b : Bytes) (s : State) : Host.Outcome State Fault Refusal :=
  guarded "SITE_FRAME" (decide (q < 6) && decide (ch < siteWays q) && b.length == 272) (
    let x := s.site q
    let good := crc64 (b.take 264) == fieldLe b 264 8 && decide (bits (fieldLe b 256 4) 31 30 < 2)
    if !bit x.chanMask ch then s
    else if x.state = 2 ∧ x.step = 6 then
      if good then
        let s := s.updSite q (fun x => { x with aligned := x.aligned ||| 2 ^ ch })
        let s := if (s.site q).aligned = x.chanMask then s.siteUp q else s
        if (s.site q).state = 3 then s.frameIn q ch b good else s
      else s.updSite q (fun x => { x with crcBad := satAdd 0xFFFF x.crcBad 1 })
    else if x.state = 3 then s.frameIn q ch b good
    else s)

/-- SITE_REPLAY_TIMEOUT (R405): 1 µs without ack progress. -/
def execSiteReplayTimeout (q ch : Nat) (s : State) : Host.Outcome State Fault Refusal :=
  guarded "SITE_REPLAY_TIMEOUT" (decide (q < 6) && decide (ch < siteWays q))
    (if (s.site q).state = 3 then s.siteReplay q ch else s)

/-- The message at the head of a virtual channel of a site channel. -/
def State.siteHeadMsg (s : State) (q ch vc : Nat) : Option SiteMsg :=
  ((s.site q).chan ch).rx.find? (fun m => siteVc m.op == vc)

/-- Remove the first message of a virtual channel. -/
def dropSiteHead (vc : Nat) : List SiteMsg → List SiteMsg
  | [] => []
  | m :: ms => if siteVc m.op = vc then ms else m :: dropSiteHead vc ms

/-- The message at the head of a virtual channel has been handled: its units go back to the die. -/
def State.siteTake (s : State) (q ch vc : Nat) : State :=
  match s.siteHeadMsg q ch vc with
  | none => s
  | some m =>
    let s := s.updSite q (fun x => x.updChan ch (fun c => freeUnits { c with rx := dropSiteHead vc c.rx } vc m.units))
    if (s.site q).state = 3 then s.siteIdle q ch false else s

/-! ### Inbound requests (R408) -/

/-- SITE_BEZEL_REFUSED, at most once per site per tick. -/
def State.bezelEvent (s : State) (q cause op part addr : Nat) : State :=
  s.postOnce (fun e => e.unit == 0x6000 + q) 0x6006 1 part (0x6000 + q) (detail [(1, cause), (1, op), (1, part), (8, addr)])

/-- The first enabled entry that covers the range with the right (Table 12.8, row 2). -/
def Site.entryFor (x : Site) (a n : Nat) (write : Bool) : Option Bezel :=
  ((List.range 16).map (fun e => (SMap.get {} x.entries e : Bezel))).find? (fun e =>
    e.enable && (if write then e.write else e.read) && decide (e.base ≤ a) && decide (a + n ≤ e.limit))

/-- The checks of Table 12.8: the status and the state with its event, and the matching entry. -/
def State.bezelCheck (s : State) (q : Nat) (m : SiteMsg) (write : Bool) : Nat × State × Bezel :=
  let x := s.site q
  let a := m.addr
  let n := 64 * m.count
  let op := m.op
  if byteAt m.head 0 ≠ 1 ∨ op ≠ (if write then siteWriteOp else siteReadOp) ∨ m.count = 0 ∨ 4 < m.count ∨ a % 64 ≠ 0 ∨
      m.status ≠ 0 ∨ byteAt m.head 6 / 2 ≠ 0 ∨ byteAt m.head 7 ≠ 0 ∨ !backed a n then (6, s, {})
  else match x.entryFor a n write with
    | none => (3, s.bezelEvent q 1 op 0xFF a, {})
    | some e =>
      let region := s.locket.regions.find? (fun r => r.2.state != 0 && (slabsOf a n).any (fun i => r.2.slabs.contains i))
      match region with
      | some r =>
        if !(e.sealedBit && x.grantedSealed) then (0xA, s.postAccess 0x7001 e.partition 0x7000 a 5 [(1, r.1)], e)
        else if (s.kvrOf a n).isSome then (3, s.bezelEvent q 2 op e.partition a, e)
        else if s.meetsHole a n then (8, s.bezelEvent q 3 op e.partition a, e)
        else (0, s, e)
      | none =>
        if (s.kvrOf a n).isSome then (3, s.bezelEvent q 2 op e.partition a, e)
        else if s.meetsHole a n then (8, s.bezelEvent q 3 op e.partition a, e)
        else (0, s, e)

/-- The response to an inbound request, on the channel it came on. -/
def State.siteAnswer (s : State) (q ch : Nat) (m : SiteMsg) (op status : Nat) (data : Bytes) (poison : Bool) : State :=
  s.siteSend q ch ⟨siteHead op m.tag (data.length / 64) status (flag poison) 0 0, data⟩

/-- A refused request: counted, and answered with its status. -/
def State.siteRefuse (s : State) (q ch : Nat) (m : SiteMsg) (op status : Nat) : State :=
  ((s.updSite q (fun x => { x with bezelRefused := satAdd 0xFFFF x.bezelRefused 1 })).siteTake q ch 0).siteAnswer q ch m op status
    [] false

/-- SITE_READ (R408): also every message at the head of VC 0 whose op is none of Table 12.7, which is malformed. -/
def execSiteRead (q ch : Nat) (s : State) : Host.Outcome State Fault Refusal :=
  guarded "SITE_READ" (decide (q < 6) && decide (ch < siteWays q)) (
    match s.siteHeadMsg q ch 0 with
    | none => s
    | some m =>
      if m.op = siteWriteOp then s
      else
        let c := s.bezelCheck q m false
        if c.1 ≠ 0 then c.2.1.siteRefuse q ch m siteReadDataOp c.1
        else
          let p := c.2.2.partition
          let n := 64 * m.count
          let cost := s.readCost m.addr n
          if bit s.pwr.idle 2 then s.wakeMemory
          else if s.readHeld m.addr n then s.holdBeats m.addr n
          else if cost ≠ 0 ∧ !s.mayIssue p then s.bucketWait p
          else
            let bs := s.readDev m.addr n
            (((s.charge p cost).heed m.addr n).siteTake q ch 0).siteAnswer q ch m siteReadDataOp 0 (plain bs) (poisoned bs))

/-- SITE_WRITE (R408). -/
def execSiteWrite (q ch : Nat) (s : State) : Host.Outcome State Fault Refusal :=
  guarded "SITE_WRITE" (decide (q < 6) && decide (ch < siteWays q)) (
    match s.siteHeadMsg q ch 0 with
    | none => s
    | some m =>
      if m.op ≠ siteWriteOp then s
      else
        let c := s.bezelCheck q m true
        if c.1 ≠ 0 then c.2.1.siteRefuse q ch m siteDoneOp c.1
        else
          let p := c.2.2.partition
          let n := 64 * m.count
          if bit s.pwr.idle 2 then s.wakeMemory
          else if s.repairHeld m.addr n then s
          else if !s.mayIssue p then s.bucketWait p
          else
            (((s.charge p (writeCost n)).writeDev m.addr (m.data.map (fun b => (b, m.poison))) p).siteTake q ch 0).siteAnswer q ch m
              siteDoneOp 0 [] false)

/-! ### Responses to outbound requests (R409) -/

/-- SITE_READ_DATA (R409): the line is there for the piece that asked for it; a status other than 0x00 stops the mover with it. -/
def execSiteReadData (q ch : Nat) (s : State) : Host.Outcome State Fault Refusal :=
  guarded "SITE_READ_DATA" (decide (q < 6) && decide (ch < siteWays q)) (
    match s.siteHeadMsg q ch 1 with
    | none => s
    | some m =>
      if m.op ≠ siteReadDataOp then s
      else
        let s := s.siteTake q ch 1
        match (s.site q).asked.find? (fun a => a.1 == m.tag) with
        | none => s
        | some a => s.updSite q (fun x => { x with
            asked := x.asked.filter (fun y => y.1 != m.tag)
            answers := SMap.set none x.answers a.2 (some (m.status, (m.data.take 64).map (fun b => (b, m.poison)))) }))

/-- SITE_DONE (R409): a line written to the die has been taken; a status other than 0x00 stops the mover with it. -/
def execSiteDone (q ch : Nat) (s : State) : Host.Outcome State Fault Refusal :=
  guarded "SITE_DONE" (decide (q < 6) && decide (ch < siteWays q)) (
    match s.siteHeadMsg q ch 1 with
    | none => s
    | some m =>
      if m.op ≠ siteDoneOp then s
      else
        let s := s.siteTake q ch 1
        match (s.site q).writing.find? (fun w => w.tag == m.tag) with
        | none => s
        | some w =>
          let s := s.updSite q (fun x => { x with writing := x.writing.filter (fun y => y.tag != m.tag) })
          if m.status = 0 then s else s.siteStatusFor w.flight m.status)

/-! ### Mailbox commands (R410) -/

/-- SITE_CTL with the action given: its checks, then `k` on the site. -/
def State.siteCtl (s : State) (action : Nat) (k : Nat → State) : State :=
  s.mailbox 0x600 8
    (fun b => [(0, decide (byteAt b 0 < 6)), (1, decide (byteAt b 1 ≤ 3))] ++ reservedChecks b 2 8)
    (fun b =>
      if byteAt b 1 ≠ action then s
      else if (s.site (byteAt b 0)).strap = 0 ∨ (action = 2 ∧ (s.site (byteAt b 0)).state ≠ 3) then s.mboxEnd 4 []
      else (k (byteAt b 0)).mboxOk [])

/-- SITE_DISABLE (R410, action 0): the link ends and x_RST_N is held low. -/
def execSiteDisable (s : State) : Host.Outcome State Fault Refusal :=
  .next (s.siteCtl 0 (fun q =>
    ((s.updSite q (fun x => { x.restart with
      state := 1, resetLow := true, attested := false, sealedOk := false, attest := none, failures := 0, fenceCause := 0
      grantDue := x.grantDue.map (fun g => (g.1, false)) })).emit
      (.siteReset q true)).syncKeel))

/-- SITE_ENABLE (R410, action 1): a disabled site starts training. -/
def execSiteEnable (s : State) : Host.Outcome State Fault Refusal :=
  .next (s.siteCtl 1 (fun q =>
    if (s.site q).state = 1 then s.updSite q (fun x => { x.restart with failures := 0 }) else s))

/-- SITE_RETRAIN (R394, action 2). -/
def execSiteRetrain (s : State) : Host.Outcome State Fault Refusal :=
  .next (s.siteCtl 2 (fun q => s.partialReset q 3 0))

/-- SITE_UNFENCE (R402, action 3): a fenced site is unfenced and retrained; a linked one is retrained. -/
def execSiteUnfence (s : State) : Host.Outcome State Fault Refusal :=
  .next (s.siteCtl 3 (fun q =>
    if (s.site q).state = 4 then
      (s.updSite q (fun x => { x with failures := 0, fenceCause := 0 })).partialReset q 3 0
    else if (s.site q).state = 3 then s.partialReset q 3 0 else s))

/-- Entry `e` of a site as last set: the one due, or the one in force. -/
def Site.entrySet (x : Site) (e : Nat) : Bezel := (SMap.get none x.entriesDue e).getD (SMap.get {} x.entries e)

/-- The grant mask as last set. -/
def Site.maskSet (x : Site) : Nat := match x.grantDue with
  | some g => g.1
  | none => x.mask

/-- SITE_GRANT (R407). -/
def execSiteGrant (s : State) : Host.Outcome State Fault Refusal :=
  .next (s.mailbox 0x601 8
    (fun b => [(0, decide (byteAt b 0 < 6)), (1, decide (byteAt b 1 ≤ 1))] ++ reservedChecks b 4 8)
    (fun b =>
      let q := byteAt b 0
      let x := s.site q
      let ok := byteAt b 1 == 1
      let mask := fieldLe b 2 2
      if ok ∧ (!x.attested ∨ x.strap = 3) then s.mboxEnd 4 []
      else match (List.range 16).find? (fun e => (x.entrySet e).enable && !bit mask (x.entrySet e).partition) with
        | some e => s.mboxConflict 2 e
        | none => (s.updSite q (fun x => { x with grantDue := some (mask, ok) })).mboxOk []))

/-- SITE_BEZEL_SET (R407). -/
def execSiteBezelSet (s : State) : Host.Outcome State Fault Refusal :=
  .next (s.mailbox 0x602 32
    (fun b =>
      let base := fieldLe b 8 8
      let limit := fieldLe b 16 8
      [(0, decide (byteAt b 0 < 6)), (1, decide (byteAt b 1 < 16)), (2, decide (byteAt b 2 < 16)),
        (3, decide (byteAt b 3 < 16) && bit (s.site (byteAt b 0)).maskSet (byteAt b 3))] ++ reservedChecks b 4 8 ++
      [(8, base % 4096 == 0 && backed base 1), (16, limit % 4096 == 0 && decide (base ≤ limit) && (limit == base || backed base (limit - base)))] ++
      reservedChecks b 24 32)
    (fun b =>
      let f := byteAt b 2
      let e : Bezel := ⟨bit f 0, bit f 1, bit f 2, bit f 3, byteAt b 3, fieldLe b 8 8, fieldLe b 16 8⟩
      (s.updSite (byteAt b 0) (fun x => { x with
        entriesDue := SMap.set none x.entriesDue (byteAt b 1) (some e) })).mboxOk []))

/-- An entry in the layout of SITE_BEZEL_SET. -/
def Bezel.bytes (e : Bezel) (q i : Nat) : Bytes :=
  natLe 1 q ++ natLe 1 i ++ natLe 1 (flag e.enable + 2 * flag e.read + 4 * flag e.write + 8 * flag e.sealedBit) ++
  natLe 1 e.partition ++ zeros 4 ++ natLe 8 e.base ++ natLe 8 e.limit ++ zeros 8

/-- SITE_BEZEL_READ (R410). -/
def execSiteBezelRead (s : State) : Host.Outcome State Fault Refusal :=
  .next (s.mailbox 0x603 8
    (fun b => (0, decide (byteAt b 0 < 6)) :: reservedChecks b 1 8)
    (fun b => s.mboxOk (((List.range 16).map (fun e => ((s.site (byteAt b 0)).entrySet e).bytes (byteAt b 0) e)).flatten)))

/-- Grants and Bezel entries apply from a tick boundary (R407). -/
def State.siteBoundary (s : State) : State :=
  ((List.range 6).foldl (fun s q => s.updSite q (fun x => { x with
    entries := x.entriesDue.foldl (fun (m : SMap Bezel) (e : Nat × Option Bezel) => SMap.set {} m e.1 (e.2.getD {})) x.entries
    entriesDue := []
    mask := x.maskSet
    sealedOk := match x.grantDue with
      | some g => g.2
      | none => x.sealedOk
    grantDue := none })) s).syncKeel

end Sys2Proof.Machine
end

