-- ==== Sys2Proof/Machine/Rings.lean ====
section
/-! DEFINITION. Submission rings, completion rings and the event ring: their registers and controls, the control plane's reads of
their cells and storage, completion slots and records (R313 to R320, R324, R535, R536). -/

namespace Sys2Proof.Machine

/-! ### The rings -/

/-- Submission ring `i`, completion ring `c`. -/
def State.ring (s : State) (i : Nat) : Ring := SMap.get {} s.work.rings i
def State.cring (s : State) (c : Nat) : CRing := SMap.get {} s.work.crings c

/-- Change submission ring `i`. -/
def State.updRing (s : State) (i : Nat) (f : Ring → Ring) : State :=
  { s with work := { s.work with rings := SMap.upd {} s.work.rings i f } }

/-- Change completion ring `c`. -/
def State.updCRing (s : State) (c : Nat) (f : CRing → CRing) : State :=
  { s with work := { s.work with crings := SMap.upd {} s.work.crings c f } }

/-- Entries of a ring. -/
def Ring.size (r : Ring) : Nat := 2 ^ r.sizeLog2
def CRing.size (r : CRing) : Nat := 2 ^ r.sizeLog2
def EvtLog.size (r : EvtLog) : Nat := 2 ^ r.sizeLog2

/-- A pointer less another, modulo 2^32. -/
def ptrSub (a b : Nat) : Nat := (a + (2 ^ 32 - b % 2 ^ 32)) % 2 ^ 32

/-- Bits 56:6 of a storage address, and bits 56:7 of a cell address (Table 9.13). -/
def baseField (w : Nat) : Nat := w % 2 ^ 57 / 64 * 64
def cellField (w : Nat) : Nat := w % 2 ^ 57 / 128 * 128

/-- A size field, clamped (Table 9.12). -/
def sizeField (w : Nat) : Nat := clampNat 6 16 (bits w 20 16)

/-! ### Control registers -/

/-- A write of RING.CTL (R318). -/
def State.writeRingCtl (s : State) (i w : Nat) : State :=
  s.updRing i (fun r =>
    if r.enable then (if bit w 0 then r else { r with enable := false, fresh := false })
    else { r with enable := bit w 0, fresh := bit w 0, partition := bits w 11 8, sizeLog2 := sizeField w, cring := bits w 31 24 })

/-- A write of RING.BASE or RING.CELL: dropped while the ring is enabled (R318). -/
def State.writeRingBase (s : State) (i w : Nat) : State :=
  s.updRing i (fun r => if r.enable then r else { r with base := baseField w })
def State.writeRingCell (s : State) (i w : Nat) : State :=
  s.updRing i (fun r => if r.enable then r else { r with cell := cellField w })

/-- The word of RING.CTL. -/
def Ring.ctl (r : Ring) : Nat := r.cring * 2 ^ 24 + r.sizeLog2 * 2 ^ 16 + r.partition * 2 ^ 8 + flag r.enable

/-- The word of RING.CCTL. -/
def CRing.ctl (r : CRing) : Nat := r.sizeLog2 * 2 ^ 16 + r.partition * 2 ^ 8 + flag r.enable

/-- The word of EVT.CTL. -/
def EvtLog.ctl (r : EvtLog) : Nat := r.pasid * 2 ^ 32 + r.sizeLog2 * 2 ^ 16 + flag r.enable

/-- A write of RING.CCTL (R319, R536): in state 0 it sets the fields, and enable starts the ring afresh; enable returns a draining
ring to state 1 and is dropped on a stopped one; clearing it starts the drain. -/
def State.writeCRingCtl (s : State) (c w : Nat) : State :=
  let r := s.cring c
  match r.state with
  | 0 =>
    let s := s.updCRing c (fun r => { r with partition := bits w 11 8, sizeLog2 := sizeField w, enable := bit w 0 })
    if bit w 0 then
      let r := s.cring c
      (s.updCRing c (fun r => { r with state := 1, written := 0, held := 0, head := 0, sampled := false })).queueWrite
        (.byVa (s.part r.partition).pasid (r.cell + 64) (natLe 4 0) (.completionRing c))
    else s
  | 1 => if bit w 0 then s else s.updCRing c (fun r => { r with enable := false, state := 2 })
  | 2 => if bit w 0 then s.updCRing c (fun r => { r with enable := true, state := 1 }) else s
  | _ => if bit w 0 then s else s.updCRing c (fun r => { r with enable := false, state := 2 })

/-- A write of RING.CBASE or RING.CCELL: dropped in any state but 0 (R319). -/
def State.writeCRingBase (s : State) (c w : Nat) : State :=
  s.updCRing c (fun r => if r.state = 0 then { r with base := baseField w } else r)
def State.writeCRingCell (s : State) (c w : Nat) : State :=
  s.updCRing c (fun r => if r.state = 0 then { r with cell := cellField w } else r)

/-- A write of EVT.CTL (R324, R318). -/
def State.writeEvtCtl (s : State) (w : Nat) : State :=
  let e := s.evt
  { s with evt :=
      if e.enable then (if bit w 0 then e else { e with enable := false })
      else { e with enable := bit w 0, running := e.running && !bit w 0, pasid := bits w 51 32, sizeLog2 := sizeField w } }

/-- A write of EVT.BASE or EVT.CELL: dropped while the ring is enabled. -/
def State.writeEvtBase (s : State) (w : Nat) : State :=
  if s.evt.enable then s else { s with evt := { s.evt with base := baseField w } }
def State.writeEvtCell (s : State) (w : Nat) : State :=
  if s.evt.enable then s else { s with evt := { s.evt with cell := cellField w } }

/-- RING_ENABLE (R318): a write of RING.CTL that sets enable; the ring starts afresh at the next Admit. -/
def execRingEnable (r : Nat) (v : W64) (s : State) : Host.Outcome State Fault Refusal :=
  guarded "RING_ENABLE" (decide (r < 256)) (s.regWrite fun s => s.writeRingCtl r (v.toNat ||| 1))

/-- RING_DISABLE (R318): enable is cleared; the ring is not scanned from the next Admit. -/
def execRingDisable (r : Nat) (s : State) : Host.Outcome State Fault Refusal :=
  guarded "RING_DISABLE" (decide (r < 256))
    (s.regWrite fun s => s.updRing r (fun x => { x with enable := false, fresh := false }))

/-- CRING_ENABLE (R319). -/
def execCringEnable (c : Nat) (v : W64) (s : State) : Host.Outcome State Fault Refusal :=
  guarded "CRING_ENABLE" (decide (c < 256)) (s.regWrite fun s => s.writeCRingCtl c (v.toNat ||| 1))

/-- CRING_DISABLE (R319): the ring drains. -/
def execCringDisable (c : Nat) (s : State) : Host.Outcome State Fault Refusal :=
  guarded "CRING_DISABLE" (decide (c < 256))
    (s.regWrite fun s => s.updCRing c (fun r => if r.state = 0 then { r with enable := false } else { r with enable := false, state := 2 }))

/-- CRING_DRAINED (R319): no enabled submission ring names the draining ring and no reservation remains. -/
def execCringDrained (c : Nat) (s : State) : Host.Outcome State Fault Refusal :=
  guarded "CRING_DRAINED" (decide (c < 256)) (
    let r := s.cring c
    let named := s.work.rings.any (fun e => e.2.cring == c && (e.2.enable || e.2.state != 0))
    if r.state = 2 ∧ r.held = 0 ∧ ¬ named then s.updCRing c (fun r => { r with state := 0 }) else s)

/-- EVT_RING_ENABLE (R324, R318). -/
def execEvtRingEnable (v : W64) (s : State) : Host.Outcome State Fault Refusal :=
  .next (s.regWrite fun s => s.writeEvtCtl (v.toNat ||| 1))

/-- EVT_RING_DISABLE (R324): event writes stop at the next Admit, and events wait in the queue. -/
def execEvtRingDisable (s : State) : Host.Outcome State Fault Refusal :=
  .next (s.regWrite fun s => { s with evt := { s.evt with enable := false } })

/-! ### The control plane's reads (R317, R535, R536) -/

/-- What a read of the control plane by virtual address gives: it waits, the place cannot be reached, it is poison, or data. -/
inductive CtlRead where
  | wait (s : State)
  | bad
  | poison
  | data (bs : Bytes)

/-- Read `n` bytes, within one 64 B line, for a ring (R535). [DEDUCED, log 16; DEDUCED, log 29] -/
def State.ctlRead (s : State) (part pasid va n : Nat) (who : Waiter) : CtlRead :=
  if !s.xlatOn || decide (2 ^ 56 ≤ va) then .bad
  else
    match s.liveOfVa pasid va true false with
    | none => .wait (s.askPage pasid va ⟨who, true, false, 0, part, false⟩)
    | some (.dev a) =>
      if s.devStatus part a n false ≠ 0 then .bad
      else if s.readHeld a n then .wait s
      else
        let bs := s.readDev a n
        if poisoned bs then .poison else .data (plain bs)
    | some (.host a) =>
      match SMap.get none s.host.ctlLines (a / 64) with
      | none => .wait (s.askCtl (a / 64))
      | some l => if l.poison then .poison else .data (slice l.data (a % 64) n)
    | some _ => .bad

/-- The lines of host memory that a ring's cell and its slots from the head to the last sampled tail lie in. -/
def State.ringLines (s : State) (pasid cell base : Nat) (idx : List Nat) (width : Nat) : List Nat :=
  ((cell :: idx.map (fun k => base + width * k)).filterMap (fun va =>
    match s.placeOfVa pasid va true false with
    | some (.host a) => some (a / 64)
    | _ => none))

/-! ### Completion slots and records (R319, R320) -/

/-- A completion slot of ring `c` can be reserved (R319); a stopped ring discards what is due to it. -/
def State.slotFree (s : State) (c : Nat) : Bool :=
  let r := s.cring c
  (r.state == 1 || r.state == 2) && decide (ptrSub (r.written + r.held) r.head < r.size)

/-- The completion record (Table 9.20). -/
def completionRecord (d : Bytes) (status tick dt : Nat) : Bytes :=
  natLe 1 1 ++ natLe 1 status ++ natLe 1 (dClass d) ++ natLe 1 (dPartition d) ++ natLe 2 (dOpcode d) ++ zeros 2 ++
    natLe 8 tick ++ natLe 8 (dTag d) ++ natLe 8 dt

/-- Write the completion record of flight `x`, or discard it if the ring has stopped; its reservation is released (R319, R320,
R536). -/
def State.putRecord (s : State) (x : Flight) : State :=
  let r := s.cring x.cring
  let s := s.updCRing x.cring (fun r => { r with held := r.held - 1 })
  if r.state = 1 ∨ r.state = 2 then
    let s := s.queueWrite (.byVa (s.part r.partition).pasid (r.base + 32 * (r.written % r.size))
      (completionRecord x.desc x.status s.tick.count x.detail) (.completionRing x.cring))
    s.updCRing x.cring (fun r => { r with written := (r.written + 1) % 2 ^ 32 })
  else s

/-- Write the tail of completion ring `c` to its cell. [DESIGN CHOICE, log 38] -/
def State.putTail (s : State) (c : Nat) : State :=
  let r := s.cring c
  if r.state = 1 ∨ r.state = 2 then
    s.queueWrite (.byVa (s.part r.partition).pasid (r.cell + 64) (natLe 4 r.written) (.completionRing c))
  else s

/-- Write the head of submission ring `i` to its cell (R317). [DESIGN CHOICE, log 38] -/
def State.putHead (s : State) (i : Nat) : State :=
  let r := s.ring i
  if r.headDue then
    (s.queueWrite (.byVa (s.part r.partition).pasid (r.cell + 64) (natLe 4 r.head) (.ringHead i))).updRing i
      (fun r => { r with headDue := false })
  else s

/-! ### A head that ends without being admitted (R316, R338) -/

/-- The slots a descriptor occupies (R314). -/
def dSlots (d : Bytes) : Nat := if dSize d ≤ 2 then 2 ^ dSize d else 1

/-- A flight for descriptor `d` of ring `i` at position `pos`, as admission makes it. -/
def State.newFlight (s : State) (i : Nat) (d : Bytes) (id pos : Nat) (segs slabs : List Nat) : Flight :=
  let r := s.ring i
  { id := id, desc := d, ring := i, pos := pos, cring := r.cring, part := r.partition, admTick := s.tick.count, state := .queued
    strands := [], stage := [], beads := [], eligTick := 0, worked := false, status := 0, detail := 0, settleAt := none
    held := [], blob := [], snapL := 0, snapP := 0, confirmed := false, endTick := 0, consumer := none
    staged := false, segs := segs, slabs := slabs, windows := s.chkWindows r.partition, events := [], failed := false, cleared := false }

/-- The head of ring `i` waits for no page any more. -/
def State.dropRingWaits (s : State) (i : Nat) : State :=
  let keep (ws : List Wait) : List Wait := ws.filter (fun w => w.who != .admission i)
  { s with xlat := { s.xlat with
      reqs := s.xlat.reqs.map (fun r => { r with waits := keep r.waits })
      faults := s.xlat.faults.map (fun r => { r with waits := keep r.waits })
      verdicts := s.xlat.verdicts.filter (fun v => v.wait.who != .admission i) } }

/-- The head of ring `i`, which fails with this status and detail, completes without running in the Settle phase that R338 gives; its
completion slot is reserved and the head moves on. [DESIGN CHOICE, log 15] -/
def State.failHead (s : State) (i status dt : Nat) : State :=
  let r := s.ring i
  match r.read.getLast? with
  | none => s
  | some d =>
    let n := (r.read.map dSlots).sum
    let x := s.newFlight i d s.work.nextId r.head [] []
    let x := { x with failed := true, worked := true, status := status, detail := tileDetail d dt, state := .ended, settleAt := some s.settleTick }
    let s := { s with work := { s.work with nextId := s.work.nextId + 1, flights := s.work.flights ++ [x] } }
    let s := s.updCRing r.cring (fun c => { c with held := c.held + 1 })
    (s.dropRingWaits i).updRing i (fun r =>
      { r with head := (r.head + n) % 2 ^ 32, headDue := true, read := [], seen := 0, fail := 0 })

/-- The head of ring `i` ends with the status a resolved fault gives it: at once if a completion slot is free, else when one is. [DESIGN CHOICE, log 15] -/
def State.faultHead (s : State) (i status : Nat) : State :=
  let r := s.ring i
  if r.state ≠ 1 ∨ r.read.isEmpty then s
  else if s.slotFree r.cring then s.failHead i status 0
  else s.updRing i (fun r => { r with fail := status })

end Sys2Proof.Machine
end

