-- ==== Sys2Proof/Machine/LineCode.lean ====
section
/-! DEFINITION. The line coding of a Tether lane (R352 to R356): PAM4 by Gray code, the scrambler, the 256-to-257 block code, the
RS(544,514) code and the order of its symbols, comma blocks; both ways.  A run of bits is a number, whose bit k is the bit sent k-th. -/

namespace Sys2Proof.Machine

/-- A number of `n` bits, all one. -/
def ones (n : Nat) : Nat := 2 ^ n - 1

/-- The `n` low bits of `x` in the opposite order: the most significant one is sent first. -/
def flipBits : Nat → Nat → Nat
  | 0, _ => 0
  | n + 1, x => x % 2 * 2 ^ n + flipBits n (x / 2)

/-! ### PAM4 (R352) -/

/-- A number with a one in the lower bit of each of `n` pairs. -/
def pairMask (n : Nat) : Nat := ones (2 * n) / 3

/-- The levels of `n` pairs of bits: the first bit of a pair is b1; 00 is level 0, 01 level 1, 11 level 2 and 10 level 3.  Level k stands
in bits 2k + 1 and 2k. -/
def grayLevels (n x : Nat) : Nat :=
  let b1 := x &&& pairMask n
  let b0 := x / 2 &&& pairMask n
  2 * b1 + (b1 ^^^ b0)

/-- The bits of `n` levels. -/
def grayBits (n x : Nat) : Nat :=
  let hi := x / 2 &&& pairMask n
  let lo := x &&& pairMask n
  hi + 2 * (hi ^^^ lo)

/-- `n` levels of a channel that inverts the polarity, put right: level v is 3 - v (R351). -/
def flipLevels (n x : Nat) : Nat := x ^^^ ones (2 * n)

/-! ### The scrambler x^58 + x^39 + 1 (R353) -/

/-- Up to 39 payload bits scrambled, after the 58 bits of the lane's history, the oldest lowest. -/
def scramblePart (hist x n : Nat) : Nat := (x ^^^ (hist / 2 ^ 19) ^^^ hist) % 2 ^ n

/-- The history after `n` more bits. -/
def pushBits (hist y n : Nat) : Nat := (hist + y * 2 ^ 58) / 2 ^ n % 2 ^ 58

/-- `n` payload bits scrambled, 39 at a time; and the history after them. -/
def scramble : Nat → Nat → Nat → Nat → Nat × Nat
  | 0, hist, _, _ => (0, hist)
  | fuel + 1, hist, x, n =>
    let m := min 39 n
    let y := scramblePart hist x m
    let r := scramble fuel (pushBits hist y m) (x / 2 ^ m) (n - m)
    (y + r.1 * 2 ^ m, r.2)

/-- The 256 bits of a slice scrambled. -/
def scrambleSlice (hist x : Nat) : Nat × Nat := scramble 7 hist x 256

/-- 256 received bits descrambled; and the history after them. -/
def unscrambleSlice (hist y : Nat) : Nat × Nat :=
  let all := hist + y * 2 ^ 58
  ((y ^^^ (all / 2 ^ 19) ^^^ all) % 2 ^ 256, pushBits hist y 256)

/-! ### The block code (R354) -/

/-- Bit p is one where a run of at least 32 zero bits of `d`, `n` bits long, begins at p. -/
def zeroRuns (d n : Nat) : Nat :=
  [1, 2, 4, 8, 16].foldl (fun z k => z &&& (z / 2 ^ k)) (d ^^^ ones n)

/-- The place of the lowest one of `x`. -/
def lowestOne : Nat → Nat → Nat
  | 0, _ => 0
  | fuel + 1, x => if x % 2 = 1 then 0 else 1 + lowestOne fuel (x / 2)

/-- The word of a run removed at `p`: p in 8 bits, most significant first, whether a word follows, and 23 ones. -/
def runWord (p : Nat) (more : Bool) : Nat := flipBits 8 p + flag more * 2 ^ 8 + ones 23 * 2 ^ 9

/-- The words, each in front of those before it, and what is left of `d`. -/
def takeRuns : Nat → Nat → Nat → Nat → Nat → Nat × Nat × Nat
  | 0, d, _, ws, k => (ws, k, d)
  | fuel + 1, d, n, ws, k =>
    let z := zeroRuns d n
    if z = 0 then (ws, k, d)
    else
      let p := lowestOne n z
      takeRuns fuel (d % 2 ^ p + d / 2 ^ (p + 32) * 2 ^ p) (n - 32) (runWord p (k != 0) + ws * 2 ^ 32) (k + 1)

/-- The 257 bits of a block: the flag, the words, what is left of the slice. -/
def encodeBlock (x : Nat) : Nat :=
  let r := takeRuns 8 x 256 0 0
  flag (r.2.1 == 0) + 2 * (r.1 + r.2.2 * 2 ^ (32 * r.2.1))

/-- The places of the words at the front of a block's body, in order. -/
def readWords : Nat → Nat → List Nat
  | 0, _ => []
  | fuel + 1, d => flipBits 8 (d % 256) :: if bit d 8 then readWords fuel (d / 2 ^ 32) else []

/-- The scrambled slice of a block. -/
def decodeBlock (b : Nat) : Nat :=
  let d := b / 2
  if b % 2 = 1 then d % 2 ^ 256
  else
    let ps := readWords 8 d
    (ps.foldl (fun (d : Nat) p => d % 2 ^ p + d / 2 ^ p * 2 ^ (p + 32)) (d / 2 ^ (32 * ps.length))) % 2 ^ 256

/-! ### The RS(544,514) code of IEEE 802.3 Clause 91 (R355) -/

/-- Multiplication by α = 2 in GF(2^10) with x^10 + x^3 + 1. [PRESUMED, log 115] -/
def gf10Double (a : Nat) : Nat := if 512 ≤ a then (2 * a) % 1024 ^^^ 0x9 else 2 * a

/-- Product, over the bits of `b` from bit 0 up. -/
def gf10MulAux : Nat → Nat → Nat → Nat → Nat
  | 0, _, _, acc => acc
  | n + 1, a, b, acc => gf10MulAux n (gf10Double a) (b / 2) (if b % 2 = 1 then acc ^^^ a else acc)

/-- Product in GF(2^10). -/
def gf10Mul (a b : Nat) : Nat := gf10MulAux 10 a b 0

/-- α^i. -/
def gf10Alpha : Nat → Nat
  | 0 => 1
  | i + 1 => gf10Double (gf10Alpha i)

/-- a^(2^n - 1). -/
def gf10Ones (a : Nat) : Nat → Nat
  | 0 => 1
  | n + 1 => let b := gf10Ones a n; gf10Mul a (gf10Mul b b)

/-- The field; the inverse of a nonzero element is a^1022, the square of a^511. -/
def gf10 : CodeField := ⟨gf10Mul, fun a => let b := gf10Ones a 9; gf10Mul b b, gf10Alpha, 1023⟩

/-- The generator polynomial without its leading 1, lowest coefficient first: the product of (x + α^i), i from 0 to 29. [PRESUMED, log 115] -/
def lineGenerator : List Nat :=
  ((List.range 30).foldl (fun (g : List Nat) i =>
    let c := gf10Alpha i
    (List.range (g.length + 1)).map (fun j => (if j = 0 then 0 else g.getD (j - 1) 0) ^^^ gf10Mul c (g.getD j 0))) [1]).take 30

/-- Symbols packed in ten bits each, the first one lowest. -/
def packSymbols (xs : List Nat) : Nat := xs.foldr (fun x a => x % 1024 + 1024 * a) 0

/-- The `n` symbols of a number. -/
def symbolsOf (n x : Nat) : List Nat := (List.range n).map (fun i => x / 2 ^ (10 * i) % 1024)

/-- The generator times α^k, packed, k from 0 to 9. -/
def generatorRows : List Nat := (List.range 10).map (fun k => packSymbols (lineGenerator.map (gf10Mul (gf10Alpha k))))

/-- The packed remainder of the division by the generator after one more symbol. -/
def divideStep (rows : List Nat) (r x : Nat) : Nat :=
  let f := x ^^^ r / 2 ^ 290
  (rows.zipIdx.foldl (fun a e => if bit f e.2 then a ^^^ e.1 else a) (r % 2 ^ 290 * 1024))

/-- The remainder of message symbols times x^30, the first symbol the highest coefficient. -/
def remainder (rows : List Nat) (ms : List Nat) : Nat := ms.foldl (divideStep rows) 0

/-- The 30 parity symbols of 514 message symbols, the highest coefficient first. -/
def parityOf (rows : List Nat) (ms : List Nat) : List Nat := (symbolsOf 30 (remainder rows ms)).reverse

/-- The order in which a codeword's symbols are sent: after each 17 message symbols one parity symbol, then the last four. -/
def sendOrder (ms ps : List Nat) : List Nat :=
  (ps.zipIdx.map (fun e => (ms.drop (17 * e.2)).take 17 ++ [e.1])).flatten ++ ms.drop 510

/-- The message symbols and the parity symbols of a codeword as it was sent. -/
def unorder (xs : List Nat) : List Nat × List Nat :=
  ((List.range 30).flatMap (fun i => (xs.drop (18 * i)).take 17) ++ xs.drop 540, (List.range 30).map (fun i => xs.getD (18 * i + 17) 0))

/-- The 30 syndromes of received message and parity symbols, from the remainder that the received codeword leaves. -/
def lineSyndromes (r : Nat) : List Nat :=
  let cs := symbolsOf 30 r
  (List.range 30).map (fun i => gf10.eval cs (gf10Alpha i))

/-- What a decoder makes of a codeword: its message symbols, how many symbols it has corrected, and whether it is good. -/
structure LineDecoded where
  symbols : List Nat
  corrected : Nat
  good : Bool
  deriving DecidableEq, Repr

/-- Bounded-distance decoding: up to 15 symbol errors corrected, any other pattern uncorrectable. -/
def decodeLine (rows : List Nat) (ms ps : List Nat) : LineDecoded :=
  let r := remainder rows ms ^^^ packSymbols ps.reverse
  if r = 0 then ⟨ms, 0, true⟩
  else match gf10.errors 15 544 (lineSyndromes r) with
    | none => ⟨ms, 0, false⟩
    | some es =>
      let ys := takeErrors ((ms ++ ps).reverse) es
      let ms' := (ys.drop 30).reverse
      if remainder rows ms' ^^^ packSymbols (ys.take 30) = 0 then ⟨ms', es.length, true⟩ else ⟨ms, 0, false⟩

/-! ### A lane's codewords (R353) -/

/-- A slice of 32 bytes as its 256 bits, bit 0 of byte 0 first. -/
def sliceBits (b : Bytes) : Nat := leNat b

/-- Twenty slices become the 2,720 levels of a codeword; and the scrambler's history after them. -/
def encodeLane (hist : Nat) (slices : List Bytes) : Nat × Nat :=
  let r := slices.foldl (fun (a : List Nat × Nat) b =>
    let e := scrambleSlice a.2 (sliceBits b)
    (encodeBlock e.1 :: a.1, e.2)) ([], hist)
  let ms := symbolsOf 514 (r.1.foldl (fun a b => b + a * 2 ^ 257) 0)
  (grayLevels 2720 (packSymbols (sendOrder ms (parityOf generatorRows ms))), r.2)

/-- The twenty slices of a codeword's received levels, the descrambler's history after them, and what the FEC made of it. -/
def decodeLane (hist levels : Nat) : List Bytes × Nat × LineDecoded :=
  let d := unorder (symbolsOf 544 (grayBits 2720 levels))
  let g := decodeLine generatorRows d.1 d.2
  let msg := packSymbols g.symbols
  let r := (List.range 20).foldl (fun (a : List Bytes × Nat) i =>
    let e := unscrambleSlice a.2 (decodeBlock (msg / 2 ^ (257 * i) % 2 ^ 257))
    (a.1 ++ [natLe 32 e.1], e.2)) ([], hist)
  (r.1, r.2, g)

/-! ### Training frames and comma blocks (R356, R362) -/

/-- CRC-8 with x^8 + x^2 + x + 1 and initial value 0 over `n` bits of `x`, most significant first (Table 11.2). -/
def crc8 : Nat → Nat → Nat → Nat
  | 0, _, c => c
  | n + 1, x, c =>
    let top := (c / 128 + x / 2 ^ n) % 2
    crc8 n x (if top = 1 then (2 * c % 256) ^^^ 7 else 2 * c % 256)

/-- The 64 UI of a training frame before its PRBS13: 16 at level 3, 16 at level 0, and the control word, its most significant bit
first. [DEDUCED, log 116] -/
def trainingLevels (w : Nat) : Nat := ones 32 + grayLevels 32 (flipBits 64 w) * 2 ^ 64

/-- The channel inverts the polarity of a training frame: its marker stands in it upside down (R351, R362). -/
def markerFlipped (x : Nat) : Bool := x % 2 ^ 64 == ones 32 * 2 ^ 32

/-- The control word of the 64 UI of a training frame, which begin with the marker, of either polarity. -/
def trainingWordOf (x : Nat) : Option Nat :=
  let x := if markerFlipped x then flipLevels 64 x else x
  if x % 2 ^ 64 = ones 32 then some (flipBits 64 (grayBits 32 (x / 2 ^ 64 % 2 ^ 64))) else none

/-- The 64 UI of a comma block with this trailer field (Table 11.2): 40 at level 0, then level 3 in even UI and two bits of the field in
odd ones, the most significant first. -/
def commaLevels (field : Nat) : Nat :=
  let ls := grayLevels 12 (flipBits 24 field)
  (((List.range 12).map (fun i => (3 + ls / 4 ^ i % 4 * 4) * 16 ^ i)).sum) * 4 ^ 40

/-- The trailer field of 64 UI that are a core and a trailer. -/
def commaFieldOf (x : Nat) : Option Nat :=
  let t := x / 4 ^ 40
  if x % 4 ^ 40 = 0 ∧ (List.range 12).all (fun i => t / 16 ^ i % 4 == 3) then
    some (flipBits 24 (grayBits 12 ((List.range 12).map (fun i => t / 16 ^ i / 4 % 4 * 4 ^ i)).sum))
  else none

end Sys2Proof.Machine
end

