-- ==== Sys2Proof/Machine/TetherLink.lean ====
section
/-! DEFINITION. The link layer of a Tether port (R367 to R374): messages, flits, credits, replay, retrains, routes; and the
bring-up state a port keeps (R360 to R364). -/

namespace Sys2Proof.Machine

/-- Port `p`. -/
def State.port (s : State) (p : Nat) : Port := SMap.get {} s.tether.ports p

/-- Change port `p`. -/
def State.updPort (s : State) (p : Nat) (f : Port → Port) : State :=
  { s with tether := { s.tether with ports := SMap.upd {} s.tether.ports p f } }

/-- Lane `l`. -/
def State.lane (s : State) (l : Nat) : TetherLane := SMap.get {} s.tether.lanes l

/-- Change lane `l`. -/
def State.updLane (s : State) (l : Nat) (f : TetherLane → TetherLane) : State :=
  { s with tether := { s.tether with lanes := SMap.upd {} s.tether.lanes l f } }

/-- Lanes of port `p` (R351). -/
def lanesOf (p : Nat) : List Nat := (List.range 8).map (fun n => 8 * p + n)

/-- The power domain of port `p` (R351). -/
def portDomain (p : Nat) : Nat := if p < 4 then 15 else if p < 8 then 16 else 17

/-- Ports with a member link, in ascending order. -/
def State.memberPorts (s : State) : List Nat := (List.range 9).filter (fun p => (s.port p).state == 3)

/-- TICK.ALIGN.member and TICK.ALIGN.reference follow the links and the ids (Table 1.8); a device that is no member any more agrees with
itself from this tick on (Tables 1.4 and 1.9). -/
def State.syncMember (s : State) : State :=
  let m := !s.memberPorts.isEmpty
  let leaves := s.tick.member && !m
  { s with tick := { s.tick with
      member := m
      agreedP := if leaves then s.tick.localP else s.tick.agreedP
      freqAt := if leaves && s.tick.agreedP != s.tick.localP then s.tick.count else s.tick.freqAt
      reference := m && s.tether.ownId == s.tether.refId && s.tether.ownId != 0xFFFF } }

/-! ### Messages (Tables 11.7 to 11.9) -/

def TetherMsg.op (m : TetherMsg) : Nat := byteAt m.head 1
def TetherMsg.dest (m : TetherMsg) : Nat := fieldLe m.head 2 2
def TetherMsg.src (m : TetherMsg) : Nat := fieldLe m.head 4 2
def TetherMsg.tag (m : TetherMsg) : Nat := fieldLe m.head 6 2
def TetherMsg.lines (m : TetherMsg) : Nat := byteAt m.head 8
def TetherMsg.hops (m : TetherMsg) : Nat := byteAt m.head 9
def TetherMsg.status (m : TetherMsg) : Nat := byteAt m.head 10
def TetherMsg.flags (m : TetherMsg) : Nat := byteAt m.head 11
def TetherMsg.object (m : TetherMsg) : Nat := fieldLe m.head 12 4
def TetherMsg.addr (m : TetherMsg) : Nat := fieldLe m.head 16 8
def TetherMsg.value (m : TetherMsg) : Nat := fieldLe m.head 24 8

/-- The virtual channel of an op (Table 11.8); none: the op is not in the table. -/
def tetherVc (op : Nat) : Option Nat :=
  if op = 2 ∨ op = 7 then some 1
  else if 1 ≤ op ∧ op ≤ 6 then some 0
  else if 0x10 ≤ op ∧ op ≤ 0x16 then some 2
  else none

/-- The virtual channel of a message. -/
def TetherMsg.vc (m : TetherMsg) : Nat := (tetherVc m.op).getD 3

/-- Slots a message occupies. -/
def TetherMsg.slots (m : TetherMsg) : Nat := 1 + m.data.length / 32

/-- Data slots that follow a header (Table 11.7). -/
def tetherDataSlots (head : Bytes) : Nat := if byteAt head 1 < 0x10 then 2 * byteAt head 8 else 0

/-- A header slot (Table 11.7). -/
def tetherHead (op dest src tag lines hops status flags object addr value : Nat) : Bytes :=
  natLe 1 1 ++ natLe 1 op ++ natLe 2 dest ++ natLe 2 src ++ natLe 2 tag ++ natLe 1 lines ++ natLe 1 hops ++ natLe 1 status ++
  natLe 1 flags ++ natLe 4 object ++ natLe 8 addr ++ natLe 8 value

/-- A link-local message with the body of bytes 8 to 31 (Table 11.9). -/
def State.linkLocal (s : State) (op : Nat) (body : Bytes) : TetherMsg :=
  ⟨natLe 1 1 ++ natLe 1 op ++ natLe 2 0xFFFF ++ natLe 2 s.tether.ownId ++ natLe 2 s.tether.nextTag ++ body ++
    zeros (24 - body.length), []⟩

/-! ### Flits (R367) -/

/-- A flit: its link header word, credit returns, slots, and its CRC. -/
def tetherFlitOf (slots : List (Nat × Bytes)) (kind : Nat) (nak : Bool) (seq ack : Nat) (freed : List Nat) : Bytes :=
  let map := (slots.zipIdx.map (fun e => e.1.1 * 4 ^ e.2)).sum
  let word := 2 ^ 60 + kind * 2 ^ 58 + flag nak * 2 ^ 57 + seq % 4096 * 2 ^ 44 + ack % 4096 * 2 ^ 32 + map * 2 ^ 18
  let data := (slots.map (fun e => e.2)).flatten
  let body := natLe 8 word ++ (freed.map (natLe 2)).flatten ++ natLe 2 0 ++ zeros 8 ++ data ++ zeros (224 - data.length)
  body ++ natLe 8 (crc64 body)

/-- The ack a port sends: the last data flit received in order and good. -/
def Port.ack (x : Port) : Nat := (x.rxSeq + 4095) % 4096

/-! ### What the lanes carry (R353, R356) -/

/-- The lanes that port `p` uses, in ascending order. -/
def State.usedLanes (s : State) (p : Nat) : List Nat := (lanesOf p).filter (fun l => bit (s.port p).lanes (l % 8))

/-- The slices of a flit that the `j`-th of `k` lanes carries, in order (R353, R364). -/
def slicesOf (j k : Nat) (b : Bytes) : List Bytes :=
  ((chunks 32 8 b).zipIdx.filter (fun e => e.2 % k == j)).map (fun e => e.1)

/-- A lane sends a codeword of these slices. -/
def State.sendCodeword (s : State) (l : Nat) (slices : List Bytes) : State :=
  let e := encodeLane (s.lane l).txHist slices
  (s.updLane l (fun y => { y with txHist := e.2 })).emit (.codeword l e.1)

/-- Every lane in use sends a comma block (Table 11.2). -/
def State.sendComma (s : State) (p : Nat) : State :=
  let n := (s.port p).commas
  (s.updPort p (fun x => { x with codewords := 0, commas := x.commas + 1 })).emitAll ((s.usedLanes p).map (fun l =>
    let v := l * 2 ^ 9 + n % 256
    .comma l (commaLevels (v * 2 ^ 8 + crc8 16 v 0))))

/-- Groups of flits, each a codeword on every lane in use; after 16,384 codewords comes a comma block. [DESIGN CHOICE, log 117] -/
def State.sendGroups (s : State) (p : Nat) : List (List Bytes) → State
  | [] => s
  | g :: gs =>
    let ls := s.usedLanes p
    let s := ls.zipIdx.foldl (fun s e => s.sendCodeword e.1 (g.flatMap (slicesOf e.2 ls.length))) s
    let s := s.updPort p (fun x => { x with codewords := x.codewords + 1 })
    (if (s.port p).codewords = 16384 then s.sendComma p else s).sendGroups p gs

/-- Port `p` sends these flits, and idle flits until the codewords they lie in are full (R353, R370). [DESIGN CHOICE, log 117] -/
def State.sendFlits (s : State) (p : Nat) (fs : List Bytes) : State :=
  let x := s.port p
  let per := 20 * (s.usedLanes p).length / 8
  let idle := tetherFlitOf [] 1 false 0 x.ack [0, 0, 0]
  let s := s.emitAll (fs.map (fun b => .flit p b))
  if per = 0 then s
  else
    let n := max 1 (ceilDiv fs.length per)
    s.sendGroups p (chunks per n (fs ++ List.replicate (n * per - fs.length) idle))

/-- An idle flit with the port's ack and its credit returns. -/
def State.portIdle (s : State) (p : Nat) (nak : Bool) : State :=
  let x := s.port p
  (s.updPort p (fun x => { x with freed := [0, 0, 0] })).sendFlits p [tetherFlitOf [] 1 nak 0 x.ack x.freed]

/-- The slots of a message, with their map codes. -/
def TetherMsg.slotList (m : TetherMsg) : List (Nat × Bytes) :=
  (1, m.head) :: (chunks 32 (m.data.length / 32 + 1) m.data).map (fun b => (2, b))

/-- The messages that credits and the replay limit let go now, and those that wait; a virtual channel whose first message must wait
lets none of its messages go (R369). -/
def takeFlits : List TetherMsg → List Nat → List Nat → Nat → List TetherMsg × List TetherMsg × List Nat
  | [], cr, _, _ => ([], [], cr)
  | m :: ms, cr, blocked, room =>
    if blocked.contains m.vc || cr.getD m.vc 0 < m.slots || room < m.slots then
      let r := takeFlits ms cr (m.vc :: blocked) room
      (r.1, m :: r.2.1, r.2.2)
    else
      let r := takeFlits ms (cr.set m.vc (cr.getD m.vc 0 - m.slots)) blocked (room - m.slots)
      (m :: r.1, r.2.1, r.2.2)

/-- The port carries flits: linked, a member, or exchanging HELLO (Table 11.4). -/
def Port.carries (x : Port) : Bool := x.state == 2 || x.state == 3 || (x.state == 1 && x.step == 6)

/-- Send what port `p` can send: VC 2 before VC 1 before VC 0; link-local messages only in the safe state (R369, R370,
Table 15.3). -/
def State.portPump (s : State) (p : Nat) : State :=
  let x := s.port p
  if !x.carries then s
  else
    let r := takeFlits (sortBy (fun m => 2 - m.vc) x.tx) x.credits (if s.keel.safe then [0, 1] else [])
      (7 * (1024 - x.replay.length))
    if r.1.isEmpty then s
    else
      let raw := (r.1.map TetherMsg.slotList).flatten
      let runs := chunks 7 (raw.length / 7 + 1) raw
      let flits := runs.zipIdx.map (fun e =>
        ((x.txSeq + e.2) % 4096, tetherFlitOf e.1 0 false (x.txSeq + e.2) x.ack (if e.2 = 0 then x.freed else [0, 0, 0])))
      (s.updPort p (fun x => { x with
        tx := r.2.1
        credits := r.2.2
        freed := [0, 0, 0]
        txSeq := (x.txSeq + runs.length) % 4096
        replay := x.replay ++ flits })).sendFlits p (flits.map (fun f => f.2))

/-- Put a message on port `p`. -/
def State.portSend (s : State) (p : Nat) (m : TetherMsg) : State :=
  (s.updPort p (fun x => { x with tx := x.tx ++ [m] })).portPump p

/-- Send a link-local message on port `p`, with the next sequence number. -/
def State.sendLocal (s : State) (p op : Nat) (body : Bytes) : State :=
  let m := s.linkLocal op body
  ({ s with tether := { s.tether with nextTag := (s.tether.nextTag + 1) % 65536 } }).portSend p m

/-- Send a link-local message on several ports. -/
def State.sendLocals (s : State) (ps : List Nat) (op : Nat) (body : Bytes) : State :=
  ps.foldl (fun s p => s.sendLocal p op body) s

/-! ### Routes (R373, R389) -/

/-- The port toward device `i`, if one of the nine (Table 11.24). -/
def State.route (s : State) (i : Nat) : Option Nat :=
  let r := SMap.get 0xF s.tether.routes i
  if i < 4096 ∧ r < 9 then some r else none

/-- The port toward device `i`, if it is a member port. -/
def State.routeUp (s : State) (i : Nat) : Option Nat :=
  match s.route i with
  | some r => if (s.port r).state = 3 then some r else none
  | none => none

/-- A message to another device leaves by its route; without one it is dropped (R373). -/
def State.tetherOut (s : State) (m : TetherMsg) : State :=
  match s.routeUp m.dest with
  | some r => s.portSend r m
  | none => s

/-- The response to a request: READ_DATA for a READ, else DONE. -/
def State.tetherAnswer (s : State) (m : TetherMsg) (status : Nat) (data : Bytes) (poison : Bool) : State :=
  s.tetherOut ⟨tetherHead (if m.op = 1 then 2 else 7) m.src s.tether.ownId m.tag (data.length / 64) 63 status (flag poison) 0 0 0,
    data⟩

/-! ### Bring-up (R360 to R364) -/

/-- A training control word (Table 11.3). -/
def controlWord (n good : Nat) (ready : Bool) (loop sel req resp eqn : Nat) : Nat :=
  let w := 2 ^ 60 + n * 2 ^ 57 + good * 2 ^ 44 + flag ready * 2 ^ 43 + loop * 2 ^ 41 + sel * 2 ^ 39 + req * 2 ^ 37 +
    resp * 2 ^ 35 + eqn % 256 * 2 ^ 27
  w + crc8 56 (w / 256) 0

/-- The width both sides compute from their good masks (R364). -/
def tetherWidth (a b : Nat) : Option Nat :=
  if a = 0xFF ∧ b = 0xFF then some 0
  else if a % 16 = 0xF ∧ b % 16 = 0xF then some 1
  else if a / 16 % 16 = 0xF ∧ b / 16 % 16 = 0xF then some 2
  else none

/-- The lanes of a width code. -/
def widthMask (w : Nat) : Nat := if w = 0 then 0xFF else if w = 1 then 0x0F else 0xF0

/-- An attempt begins at step 1 (Table 11.4): the lanes train, with tap preset, and the link layer keeps its replay buffer.  A
lane that R361 has retired does not count as good in it. -/
def State.startAttempt (s : State) (p : Nat) : State :=
  let s := s.updPort p (fun x => { x with
    state := 1, step := 1, startTime := s.tick.time, goodMine := 0, goodTheirs := 0, readyMine := 0, readyTheirs := 0,
    width := none, locked := false, helloSent := false, helloTaken := false, level := 0, lanes := 0, loopKind := 0,
    loopMask := 0 })
  let s := (lanesOf p).foldl (fun s l =>
    let s := s.updLane l (fun y => { y with
      state := if y.retired then 4 else 1
      eqnMin := 0xFF, commaUi := 0, commas := 0, comma := false, low := 0, marginal := false, fruitless := 0, lastEqn := 0
      rxReady := y.retired, taps := [0, 0, -8], tapResp := 0, farLoop := false, fecLock := false, slices := [] })
    let r := (s.lane l).retired
    (s.updPort p (fun x => if r then { x with readyMine := x.readyMine ||| 2 ^ (l % 8) } else x)).emit
      (.trainingFrame l (trainingLevels (controlWord (l % 8) 0 r 0 3 3 0 0)))) s
  s.syncMember

/-- Every request outstanding through port `p` as first hop has ended with status 0x08 (R378). -/
def State.failRequests (s : State) (p : Nat) : State :=
  let gone := s.tether.requests.filter (fun r => r.port == p)
  let s := s.unpinIf (fun y => gone.any (fun r => y == (r.flight, r.index + 1)))
  { s with tether := { s.tether with
      requests := s.tether.requests.filter (fun r => r.port != p)
      remotes := s.tether.remotes.map (fun m => { m with
        answers := m.answers ++ (gone.filter (fun r => r.flight == m.flight)).map (fun r => (r.index, 8, 0)) }) } }

/-- The port goes to a state without a link: 0 disabled or 5 down; its unacknowledged flits are lost (R363, R371, R378). [DESIGN CHOICE, log 67] -/
def State.portGone (s : State) (p st cause : Nat) : State :=
  let x := s.port p
  let s := s.updPort p (fun x => { x with
    state := st, step := 0, width := none, level := 0, lanes := 0, txSeq := 0, rxSeq := 0, replay := [], stuck := 0,
    nakking := false, credits := [2048, 2048, 64], freed := [0, 0, 0], partialMsg := [], wants := 0, rx := [], tx := [],
    locked := false, helloSent := false, helloTaken := false, downCause := 0, t1 := none, distance := 0xFF, offset := 0 })
  let s := (lanesOf p).foldl (fun s l => s.updLane l (fun y => { y with
    state := if y.retired then 4 else 0, comma := false, commas := 0 })) s
  ((s.failRequests p).syncMember).post 0x5002 2 0xFF (0x5000 + p) (detail [(1, cause), (1, x.failures)])

/-- An attempt fails (R363): the third in a row takes the port down; a port that was down stays down. [DESIGN CHOICE, log 67] -/
def State.attemptFail (s : State) (p cause : Nat) : State :=
  let s := s.updPort p (fun x => { x with failures := x.failures + 1 })
  let x := s.port p
  if x.failures < 3 then s.startAttempt p
  else if x.failures = 3 then
    let s := (lanesOf p).foldl (fun s l => s.updLane l (fun y => { y with retired := y.bad })) s
    s.portGone p 5 (if x.downCause = 0 then cause else x.downCause)
  else
    (lanesOf p).foldl (fun s l => s.updLane l (fun y => { y with retired := y.bad, state := 0 }))
      (s.updPort p (fun x => { x with state := 5, step := 0 }))

/-- A retrain in service (R363, R371): counted, and a new attempt from step 1. -/
def State.retrain (s : State) (p cause : Nat) : State :=
  (s.updPort p (fun x => { x with
    retrains := satAdd 0xFFFF x.retrains 1, stuck := 0, nakking := false, downCause := cause, failures := 0 })).startAttempt p

/-- Resend every unacknowledged flit (R370); the sixteenth time in a row without ack progress forces a retrain (R371). -/
def State.portReplay (s : State) (p : Nat) : State :=
  let x := s.port p
  if x.replay.isEmpty then s
  else
    let s := s.updPort p (fun x => { x with replays := satAdd 0xFFFF x.replays 1, stuck := x.stuck + 1 })
    if x.stuck + 1 = 16 then s.retrain p 3
    else s.sendFlits p (x.replay.map (fun f => f.2))

/-! ### Receiving -/

/-- What the slots of a good flit make of the message being received. -/
structure SlotAcc where
  partialMsg : Bytes
  wants : Nat
  got : List TetherMsg
  dropped : Nat
  freed : List Nat

/-- Count freed slots of a virtual channel. -/
def addFreed (fr : List Nat) (vc n : Nat) : List Nat := if vc < 3 then fr.set vc (fr.getD vc 0 + n) else fr

/-- One slot: empty, a header, or data (R368, R372). -/
def slotStep (a : SlotAcc) (code : Nat) (b : Bytes) : SlotAcc :=
  if code = 1 then
    match tetherVc (byteAt b 1) with
    | none => { a with partialMsg := [], wants := 0, dropped := a.dropped + 1 }
    | some vc =>
      if byteAt b 0 ≠ 1 then
        { a with partialMsg := [], wants := 0, dropped := a.dropped + 1, freed := addFreed a.freed vc (1 + tetherDataSlots b) }
      else if tetherDataSlots b = 0 then { a with partialMsg := [], wants := 0, got := a.got ++ [⟨b, []⟩] }
      else { a with partialMsg := b, wants := tetherDataSlots b }
  else if code = 2 then
    if a.wants = 0 then a
    else if a.wants = 1 then
      let m := a.partialMsg ++ b
      { a with partialMsg := [], wants := 0, got := a.got ++ [⟨m.take 32, m.drop 32⟩] }
    else { a with partialMsg := a.partialMsg ++ b, wants := a.wants - 1 }
  else a

/-- The slots of a flit with their map codes. -/
def flitSlots (b : Bytes) : List (Nat × Bytes) :=
  let w := fieldLe b 0 8
  (List.range 7).map (fun i => (bits w (19 + 2 * i) (18 + 2 * i), slice b (24 + 32 * i) 32))

/-- A good flit's ack and credits (R369, R370): acknowledged flits leave the replay buffer; a nak replays the rest. -/
def State.flitAck (s : State) (p : Nat) (b : Bytes) : State :=
  let w := fieldLe b 0 8
  let x := s.port p
  let acked := x.replay.findIdx? (fun f => f.1 == bits w 43 32)
  let s := s.updPort p (fun x => { x with
    replay := match acked with
      | some i => x.replay.drop (i + 1)
      | none => x.replay
    stuck := if acked.isSome then 0 else x.stuck
    credits := (List.range 3).map (fun v => x.credits.getD v 0 + fieldLe b (8 + 2 * v) 2) })
  if bit w 57 then s.portReplay p else s

/-- A received flit (R370): a bad or out-of-order data flit is nakked once and data flits are dropped until the next one in sequence
arrives; a good one is taken and acknowledged; messages of VC 0 and 1 are dropped on a port that is no member (R382). -/
def State.flitIn (s : State) (p : Nat) (fecOk : Bool) (b : Bytes) : State :=
  let w := fieldLe b 0 8
  let kind := bits w 59 58
  let crcOk := crc64 (b.take 248) == fieldLe b 248 8
  let bad := !crcOk || decide (2 ≤ kind) || (kind == 0 && (!fecOk || (flitSlots b).any (fun e => e.1 == 3)))
  let x := s.port p
  if !x.carries then s
  else if bad then
    let s := s.updPort p (fun x => { x with crcBad := satAdd 0xFFFF x.crcBad 1 })
    if x.nakking then s else (s.updPort p (fun x => { x with nakking := true })).portIdle p true
  else if kind = 1 then (s.flitAck p b).portPump p
  else if bits w 55 44 ≠ x.rxSeq then
    if x.nakking then s else (s.updPort p (fun x => { x with nakking := true })).portIdle p true
  else
    let a := (flitSlots b).foldl (fun a e => slotStep a e.1 e.2) ⟨x.partialMsg, x.wants, [], 0, x.freed⟩
    let kept := a.got.filter (fun m => m.vc == 2 || x.state == 3)
    let freed := (a.got.filter (fun m => m.vc != 2 && x.state != 3)).foldl (fun fr m => addFreed fr m.vc m.slots) a.freed
    let s := s.updPort p (fun x => { x with
      rxSeq := (x.rxSeq + 1) % 4096, nakking := false, partialMsg := a.partialMsg, wants := a.wants,
      crcBad := satAdd 0xFFFF x.crcBad a.dropped, freed := freed, rx := x.rx ++ kept })
    let s := s.flitAck p b
    if (s.port p).carries then (s.portIdle p false).portPump p else s

/-- The message at the head of virtual channel `vc` of port `p`. -/
def State.vcHead (s : State) (p vc : Nat) : Option TetherMsg := (s.port p).rx.find? (fun m => m.vc == vc)

/-- Remove the first message of a virtual channel. -/
def dropHead (vc : Nat) : List TetherMsg → List TetherMsg
  | [] => []
  | m :: ms => if m.vc = vc then ms else m :: dropHead vc ms

/-- The message at the head of virtual channel `vc` has been handled: its slots are free, and the credits go back in an idle
flit. -/
def State.takeMsg (s : State) (p vc : Nat) : State :=
  match s.vcHead p vc with
  | none => s
  | some m =>
    let s := s.updPort p (fun x => { x with rx := dropHead vc x.rx, freed := addFreed x.freed vc m.slots })
    if (s.port p).carries then s.portIdle p false else s

/-- A link-local message with this op at the head of VC 2 of port `p`. -/
def State.localMsg (s : State) (p op : Nat) : Option TetherMsg :=
  match s.vcHead p 2 with
  | some m => if m.op = op then some m else none
  | none => none

/-- A message for this device with this op at the head of its virtual channel on port `p`. -/
def State.ownMsg (s : State) (p vc op : Nat) : Option TetherMsg :=
  match s.vcHead p vc with
  | some m => if m.op = op ∧ m.dest = s.tether.ownId then some m else none
  | none => none

end Sys2Proof.Machine
end

