-- ==== Sys2Proof/Machine/TetherOps.lean ====
section
/-! DEFINITION. Remote operations (R375 to R381): class 0x7 descriptors, and the requests and responses of other devices. -/

namespace Sys2Proof.Machine

/-! ### The descriptor (Table 11.10) -/

def rDest (d : Bytes) : Nat := fieldLe d 32 2
def remFlags (d : Bytes) : Nat := byteAt d 34
def rSignalAfter (d : Bytes) : Bool := bit (remFlags d) 0
def rSrcCheck (d : Bytes) : Bool := bit (remFlags d) 1
def rIntSat (d : Bytes) : Bool := bit (remFlags d) 2
def rFmt (d : Bytes) : Nat := remFlags d / 16
def rClasp (d : Bytes) : Nat := fieldLe d 36 4
def rLocal (d : Bytes) : Nat := fieldLe d 40 8
def rRemote (d : Bytes) : Nat := fieldLe d 48 8
def rLength (d : Bytes) : Nat := fieldLe d 56 8

/-- The value of a SIGNAL message: the increment, 0 meaning 1, and the error flag. -/
def rSignalValue (d : Bytes) : Nat :=
  let v := fieldLe d 64 8
  (if v % 2 ^ 63 = 0 then 1 else v % 2 ^ 63) + v / 2 ^ 63 * 2 ^ 63

/-- Reserved fields of a remote descriptor are zero; flags that belong to other opcodes are reserved. -/
def remoteReserved (d : Bytes) : Bool :=
  let op := dOpcode d
  dFlags d % 8 == 0 && byteAt d 35 == 0 && allZero (slice d 72 56) && !bit (remFlags d) 3 &&
  (match op with
    | 1 => remFlags d &&& 0xF4 == 0
    | 2 => remFlags d == 0
    | 3 => true
    | _ => remFlags d == 0) &&
  (op == 4 || rSignalAfter d || (rClasp d == 0 && fieldLe d 64 8 == 0))

/-- The source of an RWRITE or RADD as an operand. -/
def remoteSource (d : Bytes) : Opnd := ⟨rLocal d, 1, rLength d, rLength d, rSrcCheck d, false⟩

/-- The checks of R376 that need no translation. -/
def State.remoteStatic (s : State) (p : Nat) (d : Bytes) : Nat :=
  let op := dOpcode d
  firstStatus [
    (s.tether.ownId == 0xFFFF || decide (4095 < rDest d) || rDest d == s.tether.ownId, 6),
    (op == 3 && decide (3 < rFmt d), 6),
    ((op == 4 || rSignalAfter d) && decide (16383 < rClasp d), 6),
    (if op = 4 then rLocal d != 0 || rRemote d != 0 || rLength d != 0
      else rRemote d % 64 != 0 || decide (2 ^ 57 ≤ rRemote d) || rLength d % 64 != 0 || rLength d == 0 || decide (2 ^ 40 < rLength d) ||
        decide (2 ^ 56 ≤ rLocal d), 6),
    ((op == 1 || op == 3) && rSrcCheck d && !opndCovered (s.chkWindows p) (remoteSource d), 6),
    ((s.routeUp (rDest d)).isNone, 8)]

/-- The ranges of a remote descriptor (R376): its local source or destination. -/
def remoteRanges (ws : List ChkWindow) (d : Bytes) : List Range :=
  match dOpcode d with
  | 2 => [⟨0, rLocal d, rLength d, false, true, false⟩]
  | 4 => []
  | _ => ⟨0, rLocal d, rLength d, true, false, false⟩ ::
      (if rSrcCheck d then checkRanges ws 0 [(rLocal d, rLength d)] false else [])

/-- Status 0x0A: the source lies in a sealed region (R376). -/
def State.remotePlaced (s : State) (p : Nat) (d : Bytes) : Nat :=
  if dOpcode d = 1 ∨ dOpcode d = 3 then
    if (s.slabsTouched p [⟨0, rLocal d, rLength d, true, false, false⟩]).any (fun i => (s.regionOfSlab i).isSome) then 0xA else 0
  else 0

/-- How many requests a descriptor makes (R377): its range cut at 1 KiB boundaries of the remote address, and a SIGNAL. -/
def remoteData (d : Bytes) : Nat :=
  if rLength d = 0 then 0 else (rRemote d + rLength d - 1) / 1024 - rRemote d / 1024 + 1
def remoteCount (d : Bytes) : Nat := remoteData d + (if dOpcode d = 4 ∨ rSignalAfter d then 1 else 0)

/-- The i-th data request: remote address, offset, bytes. -/
def remoteCut (d : Bytes) (i : Nat) : Nat × Nat × Nat :=
  let a := if i = 0 then rRemote d else (rRemote d / 1024 + i) * 1024
  (a, a - rRemote d, min (rRemote d + rLength d) ((a / 1024 + 1) * 1024) - a)

/-- What request `i` touches of the local range: one piece (R336, R377). -/
def remotePiece (ws : List ChkWindow) (d : Bytes) (i : Nat) : List Range :=
  if remoteData d ≤ i then []
  else
    let c := remoteCut d i
    if dOpcode d = 2 then [⟨0, rLocal d + c.2.1, c.2.2, false, true, false⟩]
    else ⟨0, rLocal d + c.2.1, c.2.2, true, false, false⟩ ::
      (if rSrcCheck d then checkRanges ws 0 [(rLocal d + c.2.1, c.2.2)] false else [])

/-! ### Running (R377) -/

/-- The progress of a flight's requests. -/
def State.remote (s : State) (f : Nat) : Remote := (s.tether.remotes.find? (fun r => r.flight == f)).getD ⟨f, 0, []⟩

/-- Keep the progress of a flight. -/
def State.setRemote (s : State) (r : Remote) : State :=
  { s with tether := { s.tether with remotes := s.tether.remotes.filter (fun x => x.flight != r.flight) ++ [r] } }

/-- The flight's requests and its progress are forgotten: late responses are dropped (R378). -/
def State.dropRemote (s : State) (f : Nat) : State :=
  { s with tether := { s.tether with
      remotes := s.tether.remotes.filter (fun x => x.flight != f)
      requests := s.tether.requests.filter (fun x => x.flight != f) } }

/-- The detail word of a remote descriptor (R377). -/
def remoteDetail (r : Remote) (port : Nat) : Nat × Nat :=
  let sorted := sortBy (fun a => a.1) r.answers
  let status := ((sorted.map (fun a => a.2.1)).find? (fun st => st != 0)).getD 0
  let bytes := ((sorted.filter (fun a => a.2.1 == 0)).map (fun a => a.2.2)).sum
  (status, bytes % 2 ^ 40 * 2 ^ 24 + status * 2 ^ 16 + port * 2 ^ 12)

/-- The port of the first hop of a descriptor. -/
def State.firstHop (s : State) (d : Bytes) : Nat := (s.route (rDest d)).getD 0xF

/-- A flight whose requests have all been answered has done its work. -/
def State.remoteCheckDone (s : State) (f : Nat) : State :=
  match s.flight f with
  | none => s
  | some x =>
    let r := s.remote f
    if x.worked ∨ r.answers.length < remoteCount x.desc then s
    else
      let o := remoteDetail r (s.firstHop x.desc)
      (s.dropRemote f).workDone f o.1 o.2

/-- Send the next request of a flight: a piece of the slice that runs now. [DEDUCED, log 68] -/
def State.sendRemote (s : State) (x : Flight) (op lines flags object addr value bytes : Nat) (data : Bytes) : State :=
  let d := x.desc
  let r := s.remote x.id
  let tag := s.tether.nextTag
  let n := s.settleTick
  let s := (s.setRemote { r with issued := r.issued + 1 }).updStrand x.id 0 (fun y => { y.enter n with
    piece := r.issued + 1, issued := 0 })
  match s.routeUp (rDest d) with
  | none =>
    -- the first hop has gone down since admission (R378)
    let r := s.remote x.id
    s.setRemote { r with answers := r.answers ++ [(r.issued - 1, 8, 0)] }
  | some p =>
    let s := { s with tether := { s.tether with
      nextTag := (tag + 1) % 65536
      requests := s.tether.requests ++ [(⟨tag, x.id, r.issued, p, bytes, n⟩ : RemoteReq)] } }
    s.portSend p ⟨tetherHead op (rDest d) s.tether.ownId tag lines 63 0 flags object addr value, data⟩

/-- The requests of flight `f` that are outstanding. -/
def State.remoteOut (s : State) (f : Nat) : List RemoteReq := s.tether.requests.filter (fun q => q.flight == f)

/-- What comes of a flight's next request: it has gone out or ended the flight, or it waits. -/
inductive RemoteStep where
  | sent (s : State)
  | wait (s : State)

/-- The pages of the next request are not all there: they are asked for; a flight with no other request outstanding is parked (R336). -/
def State.remotePages (s : State) (x : Flight) (ns : List PageNeed) : State :=
  let s := s.askPages (s.part x.part).pasid x.part ns (.piece x.id (0x5000 + s.firstHop x.desc)) false
  if (s.remoteOut x.id).isEmpty then s.updStrand x.id 0 (fun y => { y with state := .parked, pinned := false }) else s

/-- The data of the next RWRITE or RADD request: read as a mover reads, its blocks verified first if asked (R74, R217, R224). -/
def State.remoteSend (s : State) (x : Flight) (c : Nat × Nat × Nat) : RemoteStep :=
  let d := x.desc
  let p := x.part
  let o : Opnd := ⟨rLocal d + c.2.1, 1, c.2.2, c.2.2, rSrcCheck d, false⟩
  match s.opndPlaces p o with
  | none => .wait s
  | some ps =>
    let blocks := if rSrcCheck d then runBlocks o.spaceRuns else []
    let chk := s.checkPlaces x.windows p 0 blocks
    match s.access x 0 (ps ++ chk) [] with
    | .wait s' => .wait s'
    | .go s0 =>
      let s1 := (s0.reportBad p (dTag d) (s0.badReads (ps ++ chk))).took (ps ++ chk)
      match blocks.find? (fun b => s0.blockFails x.windows p 0 b) with
      | some b =>
        let det := remoteDetail (s.remote x.id) (s.firstHop d)
        let s2 := s1.post 0x3001 2 p 0xFFFF (detail [(8, dTag d), (8, b), (8, (s0.storedCrc x.windows p 0 b).getD 0)])
        .sent ((s2.dropRemote x.id).workDone x.id 9 (det.2 / 2 ^ 24 * 2 ^ 24 + 9 * 2 ^ 16 + s.firstHop d * 2 ^ 12))
      | none =>
        let bs := s0.readLinesOf ps
        let flags := flag (poisoned bs) + (if dOpcode d = 3 then 2 * flag (rIntSat d) + 16 * rFmt d else 0)
        .sent (s1.sendRemote x (if dOpcode d = 3 then 5 else 3) (c.2.2 / 64) flags 0 c.1 0 c.2.2 (plain bs))

/-- The next request of a flight, if one may go out now: at most 64 outstanding for it and 4,096 in all (R377); its pages are pinned from
its start to its response (R336). -/
def State.nextRemote (s : State) (x : Flight) : RemoteStep :=
  let d := x.desc
  let i := (s.remote x.id).issued
  if remoteCount d ≤ i ∨ 64 ≤ (s.remoteOut x.id).length ∨ 4096 ≤ s.tether.requests.length then .wait s
  else if remoteData d ≤ i then .sent (s.sendRemote x 6 0 0 (rClasp d) 0 (rSignalValue d) 0 [])
  else
    let pasid := (s.part x.part).pasid
    let rs := remotePiece x.windows d i
    let ns := needsOf rs
    if !ns.all (s.pageReady 48 pasid) then .wait (s.remotePages x ns)
    else
      let s := s.pinNeeds (x.id, i + 1) 48 pasid ns
      let st := worst (rs.map (s.rangePlaced x.part))
      let c := remoteCut d i
      if st ≠ 0 then .sent ((s.dropRemote x.id).endFlight x.id st (remoteDetail (s.remote x.id) (s.firstHop d)).2)
      else if dOpcode d = 2 then .sent (s.sendRemote x 1 0 0 0 c.1 (c.2.2 / 64) c.2.2 [])
      else s.remoteSend x c

/-- Issue what may be issued. -/
def State.issueRemote (s : State) (f : Nat) : Nat → State
  | 0 => s
  | n + 1 =>
    match s.flight f with
    | none => s
    | some x =>
      if x.worked || x.state == .ended then s
      else match s.nextRemote x with
        | .sent s' => State.issueRemote s' f n
        | .wait s' => s'

/-- The flight goes on issuing, and is done when every response is there. -/
def State.goRemote (s : State) (f : Nat) : State := (s.issueRemote f 66).remoteCheckDone f

/-- RWRITE (R377). -/
def execRwrite (f : Nat) (s : State) : Host.Outcome State Fault Refusal :=
  match s.working f 0 0x70001 with
  | some x => .next (s.goRemote x.id)
  | none => .next s

/-- RREAD (R377). -/
def execRread (f : Nat) (s : State) : Host.Outcome State Fault Refusal :=
  match s.working f 0 0x70002 with
  | some x => .next (s.goRemote x.id)
  | none => .next s

/-- RADD (R377). -/
def execRadd (f : Nat) (s : State) : Host.Outcome State Fault Refusal :=
  match s.working f 0 0x70003 with
  | some x => .next (s.goRemote x.id)
  | none => .next s

/-- RSIGNAL (R377). -/
def execRsignal (f : Nat) (s : State) : Host.Outcome State Fault Refusal :=
  match s.working f 0 0x70004 with
  | some x => .next (s.goRemote x.id)
  | none => .next s

/-! ### Requests of other devices (R379 to R381) -/

def winFirst (c : Nat) : Nat := bits c 51 40
def winLast (c : Nat) : Nat := bits c 63 52
def winClaspFirst (c : Nat) : Nat := bits c 25 12
def winClaspLast (c : Nat) : Nat := bits c 39 26
def winPart (c : Nat) : Nat := bits c 11 8

/-- The bit of a window that grants an op (Table 11.23). -/
def winRight (op : Nat) : Nat := if op = 1 then 1 else if op = 5 then 3 else if op = 6 then 4 else 2

/-- Window `w` matches a request (R380). -/
def State.windowMatches (s : State) (m : TetherMsg) (n : Nat) (w : Window) : Bool :=
  let c := w.ctl
  bit c 0 && decide (winFirst c ≤ m.src) && decide (m.src ≤ winLast c) && bit c (winRight m.op) &&
  (if m.op = 6 then
    decide (winClaspFirst c ≤ m.object) && decide (m.object ≤ winClaspLast c) && s.ownsClasp (winPart c) m.object
  else within m.addr n w.base (w.limit - w.base) && decide (w.base ≤ w.limit))

/-- The partition whose window a SIGNAL passes: the first that matches. -/
def State.windowFor (s : State) (m : TetherMsg) (n : Nat) : Option Window :=
  ((List.range 64).map (fun w => (SMap.get {} s.tether.windowsNow w : Window))).find? (fun w => s.windowMatches m n w)

/-- A request is malformed (Table 11.11, row 1). [DEDUCED, log 68] -/
def tetherMalformed (m : TetherMsg) : Bool :=
  let n := if m.op = 1 then m.value else m.lines
  let memory := m.op != 6
  (m.flags / 4 % 4 != 0) || m.status != 0 || (m.op != 5 && m.flags / 2 != 0) || (m.op == 5 && decide (3 < m.flags / 16)) ||
  (match m.op with
    | 1 => m.lines != 0
    | 4 => m.lines != 1
    | 6 => m.lines != 0
    | _ => m.value != 0) ||
  (memory && (m.object != 0 || n == 0 || decide (16 < n) || m.addr % 64 != 0 || !backed m.addr (64 * n))) ||
  (!memory && (decide (16383 < m.object) || m.addr != 0))

/-- The status of the checks of Table 11.11, with their events; 0: the request is performed. -/
def State.remoteCheck (s : State) (p : Nat) (m : TetherMsg) (n : Nat) : Nat × State :=
  if tetherMalformed m then (6, s)
  else
    let stop := if m.op = 6 then none else s.accessStop m.addr n 3 0xFF
    match stop with
    | some s' =>
      let slabs := slabsOf m.addr n
      let st := if slabs.any (fun i => (s.regionOfSlab i).isSome) then 0xA
        else if (s.kvrOf m.addr n).isSome then 3 else 8
      (st, s')
    | none =>
      match s.windowFor m n with
      | some _ => (0, s)
      | none =>
        (3, s.postOnce (fun e => e.detail % 65536 == m.src) 0x5008 1 0xFF (0x5000 + p)
          (detail [(2, m.src), (1, m.op), (8, if m.op = 6 then m.object else m.addr)]))

/-- A request with this op at the head of VC 0 of port `p`: `perform` does it once its checks have passed; none from it: the access
waits, and the message stays. -/
def State.serve (s : State) (p op : Nat) (perform : State → TetherMsg → Option State) : State :=
  match s.ownMsg p 0 op with
  | none => s
  | some m =>
    let n := 64 * (if op = 1 then m.value else m.lines)
    let c := s.remoteCheck p m n
    if c.1 ≠ 0 then (c.2.takeMsg p 0).tetherAnswer m c.1 [] false
    else if op ≠ 6 ∧ bit s.pwr.idle 2 then s.wakeMemory
    else match perform s m with
      | some s' => s'.takeMsg p 0
      | none => if s.mayIssue 17 then s.holdBeats m.addr n else s.bucketWait 17

/-- TETHER_READ (R381): uncorrectable data goes back with poison, and no partition is reset. [DEDUCED, log 68] -/
def execTetherRead (p : Nat) (s : State) : Host.Outcome State Fault Refusal :=
  guarded "TETHER_READ" (decide (p < 9)) (s.serve p 1 (fun s m =>
    let n := 64 * m.value
    let cost := s.readCost m.addr n
    if s.readHeld m.addr n || (cost != 0 && !s.mayIssue 17) then none
    else
      let bs := s.readDev m.addr n
      let s := (s.charge 17 cost).heed m.addr n
      let s := if poisoned bs then s.postUncorrectable m.addr bs 0xFF 3 0 else s
      some (s.tetherAnswer m 0 (plain bs) (poisoned bs))))

/-- A write of device memory from another device, charged to bucket 17; DONE follows. -/
def State.remoteWrite (s : State) (m : TetherMsg) (bs : List (Nat × Byte)) (n : Nat) : Option State :=
  if s.repairHeld m.addr n || !s.mayIssue 17 then none
  else
    let bad := bit m.flags 0
    let s := s.charge 17 (writeCost n)
    let s := if bs.length = n then s.writeDev m.addr (bs.map (fun b => (b.2, bad))) 17
      else bs.foldl (fun s b => s.writeDev (m.addr + b.1) [(b.2, bad)] 17) s
    some (s.tetherAnswer m 0 [] false)

/-- TETHER_WRITE (R381). -/
def execTetherWrite (p : Nat) (s : State) : Host.Outcome State Fault Refusal :=
  guarded "TETHER_WRITE" (decide (p < 9)) (s.serve p 3 (fun s m =>
    s.remoteWrite m (m.data.zipIdx.map (fun e => (e.2, e.1))) (64 * m.lines)))

/-- TETHER_WRITE_PARTIAL (R381): the bytes the mask names. -/
def execTetherWritePartial (p : Nat) (s : State) : Host.Outcome State Fault Refusal :=
  guarded "TETHER_WRITE_PARTIAL" (decide (p < 9)) (s.serve p 4 (fun s m =>
    s.remoteWrite m (maskedBytes (BitVec.ofNat 64 m.value) m.data) 64))

/-- The element code and size of an ADD's fmt (Table 11.7). -/
def addFmt (f : Nat) : Nat × Nat :=
  match f with
  | 0 => (0, 4)
  | 1 => (1, 2)
  | 2 => (0x10, 4)
  | _ => (0x11, 8)

/-- TETHER_ADD (R381): the elements in ascending order, by the arithmetic of R257; an element whose line is uncorrectable, and every
element of a poisoned message, is not updated, and the status is 0x01. -/
def execTetherAdd (p : Nat) (s : State) : Host.Outcome State Fault Refusal :=
  guarded "TETHER_ADD" (decide (p < 9)) (s.serve p 5 (fun s m =>
    let n := 64 * m.lines
    let cost := s.readCost m.addr n + writeCost n
    if s.readHeld m.addr n || s.repairHeld m.addr n || !s.mayIssue 17 then none
    else
      let f := addFmt (m.flags / 16)
      let s := s.charge 17 cost
      let r := (List.range (n / f.2)).foldl (fun (a : State × Bool) i =>
        let at_ := m.addr + i * f.2
        let old := a.1.readDev at_ f.2
        if poisoned (a.1.readDev (at_ / 64 * 64) 64) || bit m.flags 0 then (a.1, true)
        else
          let v := scatterAdd f.1 (bit m.flags 1) (leNat (plain old)) (fieldLe m.data (i * f.2) f.2)
          (a.1.writeDev at_ (clean (natLe f.2 v.1)) 17, a.2)) (s.heed m.addr n, false)
      let bad := s.readDev m.addr n
      let s := if poisoned bad then r.1.postUncorrectable m.addr bad 0xFF 3 0 else r.1
      some (s.tetherAnswer m (flag r.2) [] false)))

/-- TETHER_SIGNAL (R381): applied to the clasp in its Settle phase (R25); DONE follows step 4 of it. -/
def execTetherSignal (p : Nat) (s : State) : Host.Outcome State Fault Refusal :=
  guarded "TETHER_SIGNAL" (decide (p < 9)) (s.serve p 6 (fun s m =>
    let s := s.signal m.object (m.value % 2 ^ 63) (bit m.value 63)
    some { s with tether := { s.tether with signals := s.tether.signals ++ [⟨p, m⟩] } }))

/-- DONE for each remote SIGNAL applied in this Settle phase (R381). -/
def State.signalsDone (s : State) : State :=
  s.tether.signals.foldl (fun s g => s.tetherAnswer g.msg 0 [] false)
    { s with tether := { s.tether with signals := [] } }

/-! ### Responses (R377, R378) -/

/-- A response at the head of VC 1 of port `p` ends the request with its tag; `k` takes its data.  A response to no request is
dropped. [DEDUCED, log 68] -/
def State.respond (s : State) (p op : Nat) (k : State → Flight → RemoteReq → TetherMsg → Option (State × Nat)) : State :=
  match s.ownMsg p 1 op with
  | none => s
  | some m =>
    match s.tether.requests.find? (fun r => r.tag == m.tag) with
    | none => s.takeMsg p 1
    | some r =>
      match s.flight r.flight with
      | none => ({ s with tether := { s.tether with requests := s.tether.requests.filter (fun y => y.tag != m.tag) } }).takeMsg p 1
      | some x =>
        match k s x r m with
        | none => s
        | some (s', st) =>
          let s' : State := { s' with tether := { s'.tether with requests := s'.tether.requests.filter (fun y => y.tag != m.tag) } }
          let s' := s'.unpinIf (fun y => y == (x.id, r.index + 1))
          let s' := if (s'.remoteOut x.id).any (fun q => q.slice == r.slice) then s' else s'.sliceOver x r.slice
          let rm := s'.remote x.id
          ((s'.setRemote { rm with answers := rm.answers ++ [(r.index, st, r.bytes)] }).takeMsg p 1).goRemote x.id

/-- TETHER_READ_DATA (R377): the data is written to the local destination; poison stays poison, with status 0x01. -/
def execTetherReadData (p : Nat) (s : State) : Host.Outcome State Fault Refusal :=
  guarded "TETHER_READ_DATA" (decide (p < 9)) (s.respond p 2 (fun s x r m =>
    if m.status ≠ 0 then some (s, m.status)
    else
      let c := remoteCut x.desc r.index
      let bad := bit m.flags 0
      match s.placesOfVa (s.part x.part).pasid (rLocal x.desc + c.2.1) c.2.2 false true with
      | none => none
      | some ps =>
        if s.placesRepaired ps || !s.mayIssue x.part then none
        else
          some ((s.charge x.part (s.accessCosts [] ps).sum).writePlaces ps (m.data.map (fun b => (b, bad))) x.part,
            if bad then 1 else 0)))

/-- TETHER_DONE (R377). -/
def execTetherDone (p : Nat) (s : State) : Host.Outcome State Fault Refusal :=
  guarded "TETHER_DONE" (decide (p < 9)) (s.respond p 7 (fun s _ _ m => some (s, m.status)))

end Sys2Proof.Machine
end

