-- ==== Sys2Proof/Machine/TetherFabric.lean ====
section
/-! DEFINITION. The fabric (R382 to R389): ids and routes, membership, adoption of a tick, alignment, frequency agreement, slow
notices, forwarding. -/

namespace Sys2Proof.Machine

/-! ### Mailbox commands (Table 11.12) -/

/-- TETHER_FABRIC_SET (R389). -/
def execTetherFabricSet (s : State) : Host.Outcome State Fault Refusal :=
  .next (s.mailbox 0x500 8
    (fun b => [(0, decide (fieldLe b 0 2 < 4096) || fieldLe b 0 2 == 0xFFFF), (4, decide (byteAt b 4 ≤ 1))] ++ reservedChecks b 5 8)
    (fun b =>
      let id := fieldLe b 0 2
      if id ≠ s.tether.ownId ∧ !s.memberPorts.isEmpty then s.mboxEnd 4 []
      else
        (({ s with tether := { s.tether with
            ownId := id, refId := fieldLe b 2 2, joinEnable := byteAt b 4 == 1 } }).syncMember).mboxOk []))

/-- TETHER_ROUTE_SET (R389): the routes apply together at the next tick boundary. -/
def execTetherRouteSet (s : State) : Host.Outcome State Fault Refusal :=
  let count := match s.mbox.busy with
    | some b => fieldLe b.payload 2 2
    | none => 0
  .next (s.mailboxLc 0x501 (fun n => n == 4 + count && decide (5 ≤ n) && decide (n ≤ 4096)) [0, 1, 2, 3, 4, 5]
    (fun b => [(0, decide (fieldLe b 0 2 < 4096)), (2, decide (fieldLe b 0 2 + count ≤ 4096))] ++
      (List.range count).map (fun i => (4 + i, decide (byteAt b (4 + i) ≤ 8) || byteAt b (4 + i) == 0x0F)))
    (fun b =>
      let due := SMap.setList 0xFF s.tether.routesDue (fieldLe b 0 2) ((b.drop 4).map BitVec.toNat)
      ({ s with tether := { s.tether with routesDue := due } }).mboxOk []))

/-- Every member link returns to state 2 (R384). -/
def State.leaveFabric (s : State) : State :=
  (s.memberPorts.foldl (fun s p => s.updPort p (fun x => { x with state := 2 })) s).syncMember

/-- TETHER_LEAVE (R384). -/
def execTetherLeave (s : State) : Host.Outcome State Fault Refusal :=
  .next (s.mailbox 0x504 0 (fun _ => []) (fun _ => s.leaveFabric.mboxOk []))

/-! ### Membership (R31, R32, R382, R383) -/

/-- No partition holds an admitted descriptor. -/
def State.quiet (s : State) : Bool := s.work.flights.all (fun x => x.failed)

/-- The body of JOIN and ADOPT (Table 11.9): the pair of a tick boundary. -/
def State.joinBody (s : State) : Bytes :=
  natLe 8 s.tick.count ++ natLe 8 s.tick.time ++ natLe 2 s.tick.periodUs ++ natLe 2 s.tether.refId ++ natLe 1 1 ++ natLe 1 1 ++
  natLe 1 (flag s.quiet + 2 * flag (!s.memberPorts.isEmpty)) ++ natLe 1 0

/-- Adopt what the partner on port `p` shows of the tick (R32, R383): `n` and `t` are its pair at its boundary, which reached this
device one link delay ago.  The larger tick number and the larger TICK.TIME hold on both sides; the boundaries take the phase
of the higher pair. [DEDUCED, log 65; DESIGN CHOICE, log 103] -/
def State.adoptTick (s : State) (p n t : Nat) : State :=
  let d := (s.port p).delayNs
  let theirs := decide (s.tick.count < n) || (s.tick.count == n && decide (s.tick.time < t + d))
  let count := max s.tick.count n
  let time := max s.tick.time (t + d)
  let off := if theirs then d else s.tick.time - s.tickStart
  let epoch := time - off - count * s.period
  if count = s.tick.count ∧ time = s.tick.time ∧ epoch = s.tick.epoch then s
  else
    let s' := { s with tick := { s.tick with count := count, time := time, epoch := epoch } }
    s'.post 0x0005 0 0xFF (0x5000 + p) (detail [(8, s.tick.count), (8, count), (8, epoch)])

/-- The partner's boundary with tick number `n` lies within ±1 µs of this device's (R382). -/
def State.sameTick (s : State) (p n : Nat) : Bool :=
  let off := s.tick.time - s.tickStart
  let d := (s.port p).delayNs
  s.tick.count == n && decide (off ≤ d + 1000) && decide (d ≤ off + 1000)

/-- Why a JOIN is refused (R382), in ascending order of reason; 0: it is not. [DEDUCED, log 65] -/
def State.joinReason (s : State) (p : Nat) (m : TetherMsg) : Nat :=
  let flags := byteAt m.head 30
  let member := !s.memberPorts.isEmpty
  let same := s.sameTick p (fieldLe m.head 8 8)
  firstStatus [
    (fieldLe m.head 24 2 != s.tick.periodUs, 1),
    (fieldLe m.head 26 2 != s.tether.refId, 2),
    (decide (1 < byteAt m.head 28) || byteAt m.head 29 == 0, 3),
    (!(s.quiet || (member && same)) || !(bit flags 0 || (bit flags 1 && same)), 4),
    (s.tether.ownId != 0xFFFF && m.src == s.tether.ownId, 5),
    (s.tether.ownId == 0xFFFF || m.src == 0xFFFF || !s.tether.joinEnable, 6)]

/-- TETHER_JOIN_REFUSED, once per port for each new reason. [DEDUCED, log 65] -/
def State.refuseJoin (s : State) (p reason : Nat) : State :=
  if (s.port p).refusal = reason then s
  else
    (s.updPort p (fun x => { x with refusal := reason })).post 0x5005 1 0xFF (0x5000 + p)
      (detail [(1, reason), (2, (s.port p).partnerId)])

/-- JOIN (R382, R383). -/
def execJoin (p : Nat) (s : State) : Host.Outcome State Fault Refusal :=
  guarded "JOIN" (decide (p < 9)) (
    match s.localMsg p 0x14 with
    | none => s
    | some m =>
      let s := s.takeMsg p 2
      if (s.port p).state ≠ 2 then s
      else
        let s := s.updPort p (fun x => { x with partnerId := m.src })
        let reason := s.joinReason p m
        if reason ≠ 0 then s.refuseJoin p reason
        else
          let n := fieldLe m.head 8 8
          let others := s.memberPorts
          let same := s.sameTick p n
          let s1 := if same then s else s.adoptTick p n (fieldLe m.head 16 8)
          let due := if s1.tick = s.tick then [] else others
          let s2 := s1.updPort p (fun x => { x with
            state := 3, refusal := 0, memberSince := s1.tick.count + (if s1.tick.phase = 2 then 1 else 0)
            distance := 0xFF, offset := 0 })
          ({ s2 with tether := { s2.tether with adoptDue := nub (s2.tether.adoptDue ++ due) } }).syncMember)

/-- ADOPT (R383): a higher pair is adopted and passed on, or the device leaves the fabric if it is not quiet. -/
def execAdopt (p : Nat) (s : State) : Host.Outcome State Fault Refusal :=
  guarded "ADOPT" (decide (p < 9)) (
    match s.localMsg p 0x15 with
    | none => s
    | some m =>
      let s := s.takeMsg p 2
      let n := fieldLe m.head 8 8
      let t := fieldLe m.head 16 8
      let higher := decide (s.tick.count < n) || (s.tick.count == n && decide (s.tick.time < t + (s.port p).delayNs))
      if (s.port p).state ≠ 3 ∨ !higher ∨ s.sameTick p n then s
      else if !s.quiet then
        let s := s.leaveFabric
        (s.updPort p (fun x => { x with refusal := 4 })).post 0x5005 1 0xFF (0x5000 + p) (detail [(1, 4), (2, (s.port p).partnerId)])
      else
        let s := s.adoptTick p n t
        { s with tether := { s.tether with
            adoptDue := nub (s.tether.adoptDue ++ s.memberPorts.filter (fun q => q != p)) } })

/-- The parent port and the distance to the reference (R385). -/
def State.chooseParent (s : State) : State :=
  let ps := s.memberPorts.map (fun p => (p, if (s.port p).partnerId = s.tether.refId then 0 else (s.port p).distance))
  let best := (ps.map (fun e => e.2)).foldl min 0xFF
  let t := s.tether
  { s with tether :=
      if t.ownId = t.refId ∧ t.ownId ≠ 0xFFFF then { t with parent := 0xF, distance := 0 }
      else if 0xFE ≤ best then { t with parent := 0xF, distance := 0xFF }
      else { t with
        parent := ((ps.find? (fun e => e.2 == best)).map (fun e => e.1)).getD 0xF
        distance := best + 1 } }

/-- What a tick boundary brings to the fabric: windows and routes in force, the parent, ADOPT and JOIN (R380, R382, R383, R385,
R389).  A child that has had no SYNC_RSP goes without a measurement (R386). -/
def State.tetherBoundary (s : State) : State :=
  let t := s.tether
  let s : State := { s with tether := { t with
    windowsNow := t.windows
    routes := t.routesDue.foldl (fun (m : SMap Nat) (e : Nat × Nat) => SMap.set 0xF m e.1 e.2) t.routes
    routesDue := []
    adoptDue := []
    seen := t.seen.filter (fun e => s.tick.count ≤ e.2 + 16) } }
  let s := (List.range 9).foldl (fun s p => s.updPort p (fun x => { x with t1 := none })) s
  let s := s.chooseParent
  let s := s.sendLocals (t.adoptDue.filter (fun p => (s.port p).state == 3)) 0x15 s.joinBody
  if s.tether.joinEnable ∧ s.tether.ownId ≠ 0xFFFF then
    s.sendLocals ((List.range 9).filter (fun p => (s.port p).state == 2)) 0x14 s.joinBody
  else s

/-! ### Alignment (R33, R386) -/

/-- SYNC_REQ_SEND (R386): at T_n + P/4 a member asks its parent; `phase` stamps t1, in 2^-8 ns. -/
def execSyncReqSend (phase : Nat) (s : State) : Host.Outcome State Fault Refusal :=
  .next (
    let p := s.tether.parent
    if p = 0xF ∨ (s.port p).state ≠ 3 ∨ 2 ^ 32 ≤ phase then s
    else
      let s := s.updPort p (fun x => { x with t1 := some (s.tick.count, phase) })
      s.sendLocal p 0x10 (natLe 8 s.tick.count ++ natLe 4 phase ++ zeros 4 ++ natLe 2 s.tether.distance))

/-- SYNC_REQ (R386): answered at once, with the stamp of its arrival and the turnaround. -/
def execSyncReq (p t2tick t2phase turn : Nat) (s : State) : Host.Outcome State Fault Refusal :=
  guarded "SYNC_REQ" (decide (p < 9)) (
    match s.localMsg p 0x10 with
    | none => s
    | some m =>
      let s := s.takeMsg p 2
      if (s.port p).state ≠ 3 then s
      else
        let s := s.updPort p (fun x => { x with distance := fieldLe m.head 24 2 % 256 })
        s.sendLocal p 0x11 (natLe 8 t2tick ++ natLe 4 t2phase ++ natLe 4 turn ++ natLe 2 s.tether.distance ++
          natLe 2 (fromSigned 16 s.tick.offsetNs)))

/-- x ÷ d to the nearest integer, halves away from zero. -/
def roundDiv (x : Int) (d : Nat) : Int :=
  if 0 ≤ x then (x + d / 2) / d else -((-x + d / 2) / d)

/-- A measured offset to the reference (R33): reported, counted, and the trim corrected.  The gains of the correction are not
stated: the trim is a free value within its limits. [DESIGN CHOICE, log 66; DESIGN CHOICE, log 102] -/
def State.measured (s : State) (off : Int) : State :=
  let off := clampInt (-32767) 32767 off
  let good := decide (-25 ≤ off) && decide (off ≤ 25)
  let out := if good then 0 else min 16 (s.tick.outside + 1)
  let ins := if good then min 16 (s.tick.inside + 1) else 0
  let unit := 0x5000 + s.tether.parent
  let trim : Int := clampInt (-21474836) 21474836 ((Config.freeNat s.free % 42949673 : Nat) - 21474836)
  let s := ({ s with tick := { s.tick with
    offsetNs := off, aligned := good, outside := out, inside := ins, trim := trim } }).useFree
  let dt := detail [(2, fromSigned 16 off)]
  if out = 16 ∧ !s.tick.lost then
    ({ s with tick := { s.tick with lost := true } }).post 0x0003 1 0xFF unit dt
  else if ins = 16 ∧ s.tick.lost then
    ({ s with tick := { s.tick with lost := false } }).post 0x0004 0 0xFF unit dt
  else s

/-- SYNC_RSP (R386): the offset to the parent from the four stamps, and to the reference with the parent's own. -/
def execSyncRsp (p t4tick t4phase : Nat) (s : State) : Host.Outcome State Fault Refusal :=
  guarded "SYNC_RSP" (decide (p < 9)) (
    match s.localMsg p 0x11 with
    | none => s
    | some m =>
      let s := s.takeMsg p 2
      match (s.port p).t1 with
      | none => s
      | some (n, ph) =>
        if (s.port p).state ≠ 3 ∨ p ≠ s.tether.parent then s
        else
          -- stamps in 2^-8 ns
          let stamp (tick phase : Nat) : Int := (tick * s.period * 256 + phase : Nat)
          let t1 := stamp n ph
          let t2 := stamp (fieldLe m.head 8 8) (fieldLe m.head 16 4)
          let turn : Int := (fieldLe m.head 20 4 : Nat)
          let t4 := stamp t4tick t4phase
          let delay := (t4 - t1) - turn
          let theta := 2 * t2 + turn - t1 - t4
          let parentOff := toSigned 16 (fieldLe m.head 26 2)
          let s := s.updPort p (fun x => { x with
            t1 := none
            distance := fieldLe m.head 24 2 % 256
            offset := parentOff
            delayNs := min 4095 (roundDiv delay 512).toNat })
          s.measured (roundDiv (theta + 512 * parentOff) 512))

/-! ### Frequency agreement (R34, R387, R388) -/

/-- What the member knows of tick `n`'s agreement. -/
def State.voteOf (s : State) (n : Nat) : Vote := (s.tether.votes.find? (fun v => v.tick == n)).getD ⟨n, 0, [], []⟩

/-- Keep what the member knows of a tick's agreement. -/
def State.setVote (s : State) (v : Vote) : State :=
  { s with tether := { s.tether with votes := s.tether.votes.filter (fun x => x.tick != v.tick) ++ [v] } }

/-- The body of VOTE. -/
def voteBody (n st : Nat) : Bytes := natLe 8 n ++ natLe 1 st

/-- At S_n a member sets M_n to its own contribution and sends it on every member link (R387, step 1). -/
def State.openVote (s : State) : State :=
  let ps := s.memberPorts
  if ps.isEmpty then s
  else
    let n := s.tick.count
    let v := s.voteOf n
    let m := max v.state s.tick.localP
    (s.setVote { v with state := m, links := ps }).sendLocals ps 0x12 (voteBody n m)

/-- A state heard of for tick `n` on port `p`: if it raises M_n, the new M_n goes out on the other member links (R387, step 2).
Before S_n, M_n goes out with the member's own contribution. -/
def State.raiseVote (s : State) (p n st : Nat) : State :=
  let v := s.voteOf n
  if st ≤ v.state then s
  else
    let s := s.setVote { v with state := st }
    if v.links.isEmpty then s else s.sendLocals (s.memberPorts.filter (fun q => q != p)) 0x12 (voteBody n st)

/-- The agreement of tick `n` is fixed already. -/
def State.voteClosed (s : State) (n : Nat) : Bool :=
  decide (n + 3 < s.tick.count) || (n + 3 == s.tick.count && decide (n + 4 ≤ s.tick.freqAt))

/-- VOTE (R387). -/
def execVote (p : Nat) (s : State) : Host.Outcome State Fault Refusal :=
  guarded "VOTE" (decide (p < 9)) (
    match s.localMsg p 0x12 with
    | none => s
    | some m =>
      let s := s.takeMsg p 2
      let n := fieldLe m.head 8 8
      if (s.port p).state ≠ 3 then s
      else if s.voteClosed n then
        { s with tether := { s.tether with late := satAdd 0xFFFF s.tether.late 1 } }
      else
        let v := s.voteOf n
        (s.setVote { v with got := nub (v.got ++ [p]) }).raiseVote p n (min 7 (byteAt m.head 16)))

/-- VOTE_DEADLINE (R387, step 3): at T_(n+3) the state for T_(n+4) is fixed; a link that was a member link throughout and gave no
vote makes it P7. -/
def execVoteDeadline (s : State) : Host.Outcome State Fault Refusal :=
  .next (
    let now := s.tick.count
    if s.memberPorts.isEmpty ∨ now < 3 ∨ s.voteClosed (now - 3) then s
    else
      let n := now - 3
      let v := s.voteOf n
      let miss := (v.links.filter (fun p => (s.port p).state == 3 && decide ((s.port p).memberSince ≤ n))).filter
        (fun p => !v.got.contains p)
      let agreed := if miss.isEmpty then max v.state (if v.links.isEmpty then s.tick.localP else 0) else 7
      let s := { s with
        tick := { s.tick with agreedP := agreed, freqAt := n + 4 }
        tether := { s.tether with votes := s.tether.votes.filter (fun x => n < x.tick) } }
      if miss.isEmpty then s
      else
        ({ s with tether := { s.tether with lost := satAdd max32 s.tether.lost 1 } }).post 0x5006 1 0xFF
          (0x5000 + miss.headD 0) (detail [(8, n), (2, maskOf miss)]))

/-- TETHER_SLOW_NOTICE, at most once per tick. -/
def State.postSlow (s : State) (unit m st stack origin : Nat) : State :=
  s.postOnce (fun _ => true) 0x5007 1 0xFF unit (detail [(8, m), (1, st), (1, stack), (2, origin)])

/-- The device slows the job for a hot stack (R388): SLOW_NOTICE goes out at once on every member link. -/
def State.sendSlow (s : State) (st stack : Nat) : State :=
  if s.memberPorts.isEmpty then s
  else
    let m := s.tick.count
    let s := { s with tether := { s.tether with seen := s.tether.seen ++ [(s.tether.ownId, m)] } }
    let s := (s.raiseVote 0xF m st).postSlow 0xFFFF m st stack s.tether.ownId
    s.sendLocals s.memberPorts 0x13 (natLe 8 m ++ natLe 1 st ++ natLe 1 stack ++ natLe 2 s.tether.ownId)

/-- SLOW_NOTICE (R388): counted, folded into M_m in time, and forwarded once. -/
def execSlowNotice (p : Nat) (s : State) : Host.Outcome State Fault Refusal :=
  guarded "SLOW_NOTICE" (decide (p < 9)) (
    match s.localMsg p 0x13 with
    | none => s
    | some msg =>
      let s := s.takeMsg p 2
      if (s.port p).state ≠ 3 then s
      else
        let m := fieldLe msg.head 8 8
        let st := min 7 (byteAt msg.head 16)
        let stack := byteAt msg.head 17
        let origin := fieldLe msg.head 18 2
        let s := { s with tether := { s.tether with notices := satAdd 0xFFFF s.tether.notices 1 } }
        let s := if s.voteClosed m then s else s.raiseVote p m st
        let s := s.postSlow (0x5000 + p) m st stack origin
        if s.tether.seen.contains (origin, m) then s
        else
          let s := { s with tether := { s.tether with seen := s.tether.seen ++ [(origin, m)] } }
          s.sendLocals (s.memberPorts.filter (fun q => q != p)) 0x13
            (natLe 8 m ++ natLe 1 st ++ natLe 1 stack ++ natLe 2 origin))

/-! ### Forwarding (R373) -/

/-- The first message at the head of VC 1 or VC 0 that is for another device. -/
def State.foreign (s : State) (p : Nat) : Option TetherMsg :=
  ([1, 0].filterMap (fun vc => s.vcHead p vc)).find? (fun m => m.dest != s.tether.ownId)

/-- MESSAGE_FORWARD (R373): a message for another device goes on by its route with one hop fewer, or is dropped; a dropped request is
answered with status 0x08. -/
def execMessageForward (p : Nat) (s : State) : Host.Outcome State Fault Refusal :=
  guarded "MESSAGE_FORWARD" (decide (p < 9)) (
    match s.foreign p with
    | none => s
    | some m =>
      let s := s.takeMsg p m.vc
      if m.hops = 0 then
        s.postOnce (fun _ => true) 0x5009 1 0xFF (0x5000 + p) (detail [(2, m.src), (2, m.dest)])
      else match s.routeUp m.dest with
        | some r => s.portSend r { m with head := splice m.head 9 (natLe 1 (m.hops - 1)) }
        | none => if m.vc = 0 then s.tetherAnswer m 8 [] false else s)

end Sys2Proof.Machine
end

