-- ==== Sys2Proof/Machine/TetherPorts.lean ====
section
/-! DEFINITION. Tether ports: port control, bring-up, training, lanes in service, loopbacks, received flits (R356 to R371,
R389). -/

namespace Sys2Proof.Machine

/-! ### Port control (Table 11.12) -/

/-- TETHER_PORT_CTL with the action given: the checks of its payload, then `k` on the port. -/
def State.portCtl (s : State) (action : Nat) (k : Bytes → Nat → State) : State :=
  s.mailbox 0x502 8
    (fun b => [(0, decide (byteAt b 0 < 9)), (1, decide (byteAt b 1 ≤ 3)),
      (2, if byteAt b 1 = 3 then decide (byteAt b 2 ≤ 1) else byteAt b 2 == 0)] ++ reservedChecks b 3 8)
    (fun b => if byteAt b 1 = action then k b (byteAt b 0) else s)

/-- The domain of the port is on (Table 11.4, step 1). -/
def State.portOn (s : State) (p : Nat) : Bool := !(SMap.get {} s.pwr.domains (portDomain p) : Domain).off

/-- A port that is enabled begins its bring-up if its domain is on. -/
def State.bringUp (s : State) (p : Nat) : State :=
  let s := s.updPort p (fun x => { x with enabled := true, failures := 0, downCause := 0 })
  let s := (lanesOf p).foldl (fun s l => s.updLane l (fun y => { y with retired := y.bad })) s
  if s.portOn p then s.startAttempt p else s

/-- TETHER_PORT_DISABLE (R389, action 0). -/
def execTetherPortDisable (s : State) : Host.Outcome State Fault Refusal :=
  .next (s.portCtl 0 (fun _ p =>
    let on := (s.port p).state != 0
    let s := s.updPort p (fun x => { x with enabled := false })
    let s := if on then s.portGone p 0 5 else s
    ((lanesOf p).foldl (fun s l => s.updLane l (fun y => { y with retired := y.bad, state := 0 })) s).mboxOk []))

/-- TETHER_PORT_ENABLE (R389, action 1): a port that is not up begins its bring-up. -/
def execTetherPortEnable (s : State) : Host.Outcome State Fault Refusal :=
  .next (s.portCtl 1 (fun _ p =>
    (if (s.port p).enabled && (s.port p).state != 0 then s else s.bringUp p).mboxOk []))

/-- TETHER_PORT_RETRAIN (R389, action 2). -/
def execTetherPortRetrain (s : State) : Host.Outcome State Fault Refusal :=
  .next (s.portCtl 2 (fun _ p =>
    (if (s.port p).state = 2 ∨ (s.port p).state = 3 then s.retrain p 0 else s).mboxOk []))

/-- TETHER_PORT_SET_FAR_LOOP (R389, action 3). -/
def execTetherPortSetFarLoop (s : State) : Host.Outcome State Fault Refusal :=
  .next (s.portCtl 3 (fun b p => (s.updPort p (fun x => { x with allowFarLoop := byteAt b 2 == 1 })).mboxOk []))

/-! ### Training (R360 to R364) -/

/-- A transmit tap after a request (Table 11.3): 1 increment, 2 decrement, 3 preset; and the answer.  The taps' magnitudes stay
within full swing, since the main tap makes up their sum (R360). [DESIGN CHOICE, log 66] -/
def tapRequest (taps : List Int) (sel req : Nat) : List Int × Nat :=
  let fits (t : List Int) : Bool := decide ((t.map Int.natAbs).sum ≤ 64)
  let move (d : Int) : List Int × Nat :=
    let t := taps.set sel (taps.getD sel 0 + d)
    if sel = 3 then (taps, 0) else if fits t then (t, 1) else (taps, 2)
  match req with
  | 1 => move 1
  | 2 => move (-1)
  | 3 => ([0, 0, -8], 1)
  | _ => (taps, 0)

/-- The receiver of lane `l` stops adapting: its EQN decides its bit of the good mask (R360, Table 11.4). [DESIGN CHOICE, log 66] -/
def State.rxStop (s : State) (l : Nat) : State :=
  let y := s.lane l
  if y.rxReady then s
  else
    let s := s.updLane l (fun y => { y with rxReady := true })
    s.updPort (l / 8) (fun x => { x with
      step := 3
      readyMine := x.readyMine ||| 2 ^ (l % 8)
      goodMine := if 96 ≤ y.eqn then x.goodMine ||| 2 ^ (l % 8) else x.goodMine })

/-- Step 4 of Table 11.4: with every receiver ready on both sides, the width is computed and its lanes go to payload, which begins with
idle flits.  What a scrambler and a descrambler hold then is a free value (R353). [DESIGN CHOICE, log 117] -/
def State.chooseWidth (s : State) (p : Nat) : State :=
  let x := s.port p
  if x.readyMine ≠ 0xFF ∨ x.readyTheirs ≠ 0xFF then s
  else match tetherWidth x.goodMine x.goodTheirs with
    | none => s.attemptFail p 2
    | some w =>
      let use := widthMask w
      let s := s.updPort p (fun x => { x with step := 5, width := some w, lanes := use, codewords := 0 })
      ((lanesOf p).foldl (fun s l => (s.updLane l (fun y => { y with
        state := if bit use (l % 8) then 2 else if bit x.goodMine (l % 8) then 3 else 4
        txHist := Config.freeNat s.free % 2 ^ 58, rxHist := Config.freeNat (s.free + 1) % 2 ^ 58 })).useFree.useFree) s).sendFlits p []

/-- The control word lane `l` sends now.  Which tap its receiver asks to move is not stated: a free value while it adapts. -/
def State.sendControl (s : State) (l loop : Nat) : State :=
  let y := s.lane l
  let x := s.port (l / 8)
  let frame (w : Nat) : Out := .trainingFrame l (trainingLevels w)
  if y.rxReady then s.emit (frame (controlWord (l % 8) x.goodMine true loop 3 0 y.tapResp y.eqn))
  else (s.emit (frame (controlWord (l % 8) x.goodMine false loop (Config.freeNat s.free % 3)
    (1 + Config.freeNat (s.free + 1) % 2) y.tapResp y.eqn))).useFree.useFree

/-- A loopback of port `p` ends: its lanes are done, and then retrained if the port is enabled (R366). [DESIGN CHOICE, log 67] -/
def State.endLoop (s : State) (p : Nat) : State :=
  let s := (lanesOf p).foldl (fun s l => s.updLane l (fun y =>
    if y.loopBusy then { y with loopBusy := false, loopDone := true } else y)) s
  if (s.port p).enabled && s.portOn p then s.startAttempt p
  else
    let s := (lanesOf p).foldl (fun s l => s.updLane l (fun y => { y with state := 0 })) s
    s.updPort p (fun x => { x with state := 0, step := 0, loopKind := 0, loopMask := 0 })

/-- The eye quality number (R359): `height` is the smallest inner eye height, `spacing` the nominal distance of adjacent levels. -/
def eqnOf (height spacing : Nat) : Nat := min 255 (256 * height / spacing)

/-- The receiver of lane `l` adapts its CTLE and its equaliser taps; what the adaptation makes of them is not stated: free values (R360). [DESIGN CHOICE, log 66] -/
def State.adaptRx (s : State) (l : Nat) : State :=
  (s.updLane l (fun y => { y with
    ctle := (Config.freeByte s.free 24).toNat % 16
    ffe := (List.range 24).map (fun i => toSigned 8 (Config.freeByte s.free i).toNat) })).useFree

/-- TRAINING_FRAME (R352, R360, R362): the levels received on lane `l` before a frame's PRBS13, and the lane's own eye.  Without the
frame's marker there is no word; a word with a bad CRC is ignored.  The partner's tap request is answered; its loop field asks for, grants or refuses a far-end loopback (Table 11.5); its
ready bit and good mask are taken; the receiver goes on adapting or stops. -/
def execTrainingFrame (l levels height spacing : Nat) (s : State) : Host.Outcome State Fault Refusal :=
  guarded "TRAINING_FRAME" (decide (l < 72) && decide (0 < spacing) && decide (levels < 4 ^ 64)) (
    let eqn := eqnOf height spacing
    let p := l / 8
    let n := l % 8
    let w := trainingWordOf levels
    let v := w.getD 0
    let x := s.port p
    let y := s.lane l
    let loop := bits v 42 41
    if w.isNone ∨ crc8 56 (v / 256) 0 ≠ v % 256 then s
    else if x.state = 4 then
      if x.loopKind = 3 ∧ loop = 3 ∧ bit x.loopMask n then
        (s.updLane l (fun y => { y with loopLock := false })).endLoop p
      else s
    else if x.state ≠ 1 ∨ 3 < x.step then s
    else if loop = 1 then
      let grant := x.allowFarLoop
      (s.updLane l (fun y => { y with farLoop := grant, state := if grant then 5 else y.state })).sendControl l
        (if grant then 2 else 3)
    else
      let t := if bit x.readyTheirs n then (y.taps, 0) else tapRequest y.taps (bits v 40 39) (bits v 38 37)
      let fruitless := if y.lastEqn + 2 ≤ eqn then 0 else y.fruitless + 1
      let s := (s.adaptRx l).updLane l (fun y => { y with
        inverted := markerFlipped levels
        state := if y.retired then 4 else 1, farLoop := false, eqn := eqn, eqnMin := min y.eqnMin eqn, taps := t.1,
        tapResp := t.2, fruitless := fruitless, lastEqn := eqn })
      let s := s.updPort p (fun x => { x with
        step := max 2 x.step
        goodTheirs := bits v 51 44
        readyTheirs := if bit v 43 then x.readyTheirs ||| 2 ^ n else x.readyTheirs })
      let s := if 8 ≤ fruitless then s.rxStop l else s
      (s.sendControl l 0).chooseWidth p)

/-- ADAPTATION_TIMEOUT (R360): 40 ms after training began, every receiver of the port that still adapts stops. -/
def execAdaptationTimeout (p : Nat) (s : State) : Host.Outcome State Fault Refusal :=
  guarded "ADAPTATION_TIMEOUT" (decide (p < 9)) (
    let x := s.port p
    if x.state ≠ 1 ∨ 3 < x.step then s
    else
      let ls := (lanesOf p).filter (fun l => !(s.lane l).rxReady)
      (ls.foldl (fun s l => (s.rxStop l).sendControl l 0) s).chooseWidth p)

/-- COMMA_BLOCK (R352, R356, R357): the 64 levels received from symbol `ui` on: two cores with trailers of a good CRC exactly one
interval apart give comma lock. -/
def execCommaBlock (l ui levels : Nat) (s : State) : Host.Outcome State Fault Refusal :=
  guarded "COMMA_BLOCK" (decide (l < 72) && decide (levels < 4 ^ 64)) (
    let v := (commaFieldOf (if (s.lane l).inverted then flipLevels 64 levels else levels)).getD 1
    if crc8 16 (v / 256) 0 ≠ v % 256 then s
    else s.updLane l (fun y =>
      let follows := y.commas != 0 && ui == y.commaUi + 44564544
      { y with commaUi := ui, commas := if follows then min 2 (y.commas + 1) else 1, comma := y.comma || follows }))

/-- COMMA_LOCK_LOSS (R357): a lane in use loses comma lock, and its port retrains. -/
def execCommaLockLoss (l : Nat) (s : State) : Host.Outcome State Fault Refusal :=
  guarded "COMMA_LOCK_LOSS" (decide (l < 72)) (
    let p := l / 8
    let y := s.lane l
    let x := s.port p
    if !y.comma then s
    else
      let s := s.updLane l (fun y => { y with comma := false, commas := 0 })
      if y.state = 2 ∧ (x.state = 2 ∨ x.state = 3) then s.retrain p 4 else s)

/-- LANES_LOCKED (Table 11.4, steps 5 and 6): with comma and FEC lock on every lane in use, at most 512 UI apart, the side sends
HELLO. -/
def execLanesLocked (p : Nat) (s : State) : Host.Outcome State Fault Refusal :=
  guarded "LANES_LOCKED" (decide (p < 9)) (
    let x := s.port p
    let ls := s.usedLanes p
    let uis := ls.map (fun l => (s.lane l).commaUi)
    if x.state = 1 ∧ x.step = 5 ∧ ls.all (fun l => (s.lane l).comma && (s.lane l).fecLock) ∧ uis.foldl max 0 - uis.foldl min (uis.headD 0) ≤ 512 then
      let s := s.updPort p (fun x => { x with step := 6, locked := true, helloSent := true })
      s.sendLocal p 0x16 (natLe 1 (x.width.getD 0) ++ natLe 1 1 ++ natLe 1 1 ++ natLe 1 p ++ natLe 2 s.tether.ownId)
    else s)

/-- HELLO (R364, R365): the width codes must agree and a common level exist; then the port is linked. -/
def execHello (p : Nat) (s : State) : Host.Outcome State Fault Refusal :=
  guarded "HELLO" (decide (p < 9)) (
    match s.localMsg p 0x16 with
    | none => s
    | some m =>
      let s := s.takeMsg p 2
      let x := s.port p
      if x.state ≠ 1 ∨ x.step ≠ 6 then s
      else if x.width ≠ some (byteAt m.head 8) then s.attemptFail p 2
      else
        let id := fieldLe m.head 12 2
        let level := max 1 (byteAt m.head 9)
        if 1 < level ∨ byteAt m.head 10 < level then
          (s.post 0x5005 1 0xFF (0x5000 + p) (detail [(1, 3), (2, id)])).attemptFail p 1
        else
          let s := s.updPort p (fun x => { x with
            state := 2, step := 7, failures := 0, downCause := 0, helloTaken := true, level := level, partnerId := id,
            partnerPort := byteAt m.head 11 % 16, refusal := 0 })
          let s := (lanesOf p).foldl (fun s l => s.updLane l (fun y => { y with retired := y.bad })) s
          (s.post 0x5001 0 0xFF (0x5000 + p)
            (detail [(1, byteAt m.head 8), (1, level), (2, id), (1, byteAt m.head 11)])).portPump p)

/-- PORT_BRINGUP_TIMEOUT (R363): an attempt that has not reached step 7 within 100 ms fails. [DESIGN CHOICE, log 3] -/
def execPortBringupTimeout (p : Nat) (s : State) : Host.Outcome State Fault Refusal :=
  guarded "PORT_BRINGUP_TIMEOUT" (decide (p < 9)) (if (s.port p).state = 1 then s.attemptFail p 1 else s)

/-- PORT_RETRY_TIMER (R363): a port that is down makes a new attempt. -/
def execPortRetryTimer (p : Nat) (s : State) : Host.Outcome State Fault Refusal :=
  guarded "PORT_RETRY_TIMER" (decide (p < 9))
    (if (s.port p).state = 5 && (s.port p).enabled && s.portOn p then s.startAttempt p else s)

/-! ### Lanes in service (R359, R361) -/

/-- Lane `l` is retired: its port retrains, and the lane counts as not good. -/
def State.retireLane (s : State) (l cause : Nat) : State :=
  let y := s.lane l
  let s := s.updLane l (fun y => { y with retired := true, state := 4, low := 0, badTimes := [] })
  (s.post 0x5003 1 0xFF (0x5100 + l) (detail [(1, y.eqn), (1, cause)])).retrain (l / 8) 0

/-- EQN_MEASUREMENT (R359, R361): from 64 to 95 the lane is marginal, once per training; below 64 sixteen times in a row it is
retired. -/
def execEqnMeasurement (l height spacing : Nat) (s : State) : Host.Outcome State Fault Refusal :=
  guarded "EQN_MEASUREMENT" (decide (l < 72) && decide (0 < spacing)) (
    let eqn := eqnOf height spacing
    let s := if (s.lane l).state = 2 then s.adaptRx l else s
    let y := s.lane l
    let x := s.port (l / 8)
    let s := s.updLane l (fun y => { y with eqn := eqn, eqnMin := min y.eqnMin eqn })
    if y.state ≠ 2 ∨ ¬ (x.state = 2 ∨ x.state = 3) then s
    else if 96 ≤ eqn then s.updLane l (fun y => { y with low := 0 })
    else if 64 ≤ eqn then
      let s' := s.updLane l (fun y => { y with low := 0, marginal := true })
      if y.marginal then s' else s'.post 0x5004 1 0xFF (0x5100 + l) (detail [(1, eqn)])
    else if y.low + 1 = 16 then s.retireLane l 1
    else s.updLane l (fun y => { y with low := y.low + 1 }))

/-- A codeword has ended on lane `l` of port `p` (R355, R361): counted, and four uncorrectable ones within 1,000 ms retire the lane. -/
def State.fecCount (s : State) (p l : Nat) (g : LineDecoded) : State :=
  let now := s.tick.time
  let bad := flag (!g.good)
  let s := s.updLane l (fun y => { y with
    corrected := satAdd max32 y.corrected g.corrected
    uncorrectable := satAdd 0xFF y.uncorrectable bad
    badTimes := y.badTimes.filter (fun t => now < t + 1000000000) ++ List.replicate bad now })
  let s := s.updPort p (fun x => { x with uncorrectable := satAdd 0xFFFF x.uncorrectable bad })
  if (s.lane l).state = 2 ∧ 4 ≤ (s.lane l).badTimes.length ∧ ((s.port p).state = 2 ∨ (s.port p).state = 3) then
    s.retireLane l 2
  else s

/-- Port `p` receives payload: it carries flits, or locks onto them (Table 11.4). -/
def Port.receives (x : Port) : Bool := x.carries || (x.state == 1 && x.step == 5)

/-- A codeword arrives on a lane: the FEC decodes it, and its slices wait for their flits; a lane not in use takes none (R353). -/
def State.takeCodeword (s : State) (p : Nat) (w : LaneWord) : State :=
  let l := 8 * p + w.lane % 8
  if !(s.port p).receives || !bit (s.port p).lanes (l % 8) then s
  else
    let y := s.lane l
    let r := decodeLane y.rxHist (if y.inverted then flipLevels 2720 w.levels else w.levels)
    (s.updLane l (fun y => { y with
      rxHist := r.2.1, fecLock := y.fecLock || r.2.2.good, slices := y.slices ++ r.1.map (fun b => (b, r.2.2.good)) })).fecCount p l r.2.2

/-- The next flit that the lanes in use hold in full, and whether every codeword it lay in was good (R370). -/
def State.nextFlit (s : State) (p : Nat) : Option (Bytes × Bool) :=
  let ls := s.usedLanes p
  let k := ls.length
  let each := if k = 0 then 0 else 8 / k
  if k = 0 ∨ ls.any (fun l => (s.lane l).slices.length < each) then none
  else
    let part (i : Nat) : Bytes × Bool := (s.lane (ls.getD (i % k) 0)).slices.getD (i / k) ([], false)
    some ((List.range 8).flatMap (fun i => (part i).1), (List.range 8).all (fun i => (part i).2))

/-- The slices of the next flit are taken. -/
def State.dropFlit (s : State) (p : Nat) : State :=
  let ls := s.usedLanes p
  ls.foldl (fun s l => s.updLane l (fun y => { y with slices := y.slices.drop (8 / ls.length) })) s

/-- TETHER_FLIT (R353 to R355, R370): the codewords that have arrived since the last flit are decoded, and the next flit is received; while
the port locks onto its payload the flit, an idle one, is not taken up. [DESIGN CHOICE, log 117] -/
def execTetherFlit (p : Nat) (words : List LaneWord) (s : State) : Host.Outcome State Fault Refusal :=
  guarded "TETHER_FLIT" (decide (p < 9) && words.all (fun w => decide (w.lane < 8) && decide (w.levels < 4 ^ 2720))) (
    let s := words.foldl (fun s w => s.takeCodeword p w) s
    if !(s.port p).receives then s
    else match s.nextFlit p with
      | none => s
      | some (b, ok) => (s.dropFlit p).flitIn p ok b)

/-- TETHER_REPLAY_TIMEOUT (R370): the oldest unacknowledged flit has gone 2 µs without ack progress. -/
def execTetherReplayTimeout (p : Nat) (s : State) : Host.Outcome State Fault Refusal :=
  guarded "TETHER_REPLAY_TIMEOUT" (decide (p < 9)) (if (s.port p).carries then s.portReplay p else s)

/-! ### Loopbacks (R366) -/

/-- TETHER_LOOPBACK (R366): the chosen lanes of a port that is not a member go to loopback. -/
def execTetherLoopback (s : State) : Host.Outcome State Fault Refusal :=
  .next (s.mailbox 0x503 8
    (fun b => [(0, decide (byteAt b 0 < 9)), (1, decide (1 ≤ byteAt b 1) && decide (byteAt b 1 ≤ 3)), (3, byteAt b 3 == 0),
      (4, decide (1 ≤ fieldLe b 4 4) && decide (fieldLe b 4 4 ≤ 60000))])
    (fun b =>
      let p := byteAt b 0
      let kind := byteAt b 1
      let mask := byteAt b 2
      if (s.port p).state = 3 then s.mboxEnd 4 []
      else
        let s := s.updPort p (fun x => { x with state := 4, step := 0, loopKind := kind, loopMask := mask, loopMs := fieldLe b 4 4 })
        let ls := (lanesOf p).filter (fun l => bit mask (l % 8))
        (ls.foldl (fun s l =>
          let s := s.updLane l (fun y => { y with
            state := 5, loopErrors := 0, loopMs := 0, loopLock := false, loopDone := false, loopBusy := true })
          if kind = 3 then s.emit (.trainingFrame l (trainingLevels (controlWord (l % 8) 0 false 1 3 0 0 (s.lane l).eqn))) else s) s).mboxOk []))

/-- LOOPBACK_END (R366): the duration is over: each lane's checker reports, and the lanes are retrained. -/
def execLoopbackEnd (p : Nat) (r : List LoopResult) (s : State) : Host.Outcome State Fault Refusal :=
  guarded "LOOPBACK_END" (decide (p < 9) && r.length == 8) (
    let x := s.port p
    if x.state ≠ 4 then s
    else
      let s := (lanesOf p).foldl (fun s l =>
        let g := r.getD (l % 8) ⟨false, 0⟩
        if (s.lane l).loopBusy then
          s.updLane l (fun y => { y with loopErrors := min max32 g.errors, loopMs := x.loopMs, loopLock := g.lock })
        else s) s
      s.endLoop p)

end Sys2Proof.Machine
end

