-- ==== Sys2Proof/Machine/Power.lean ====
section
/-! DEFINITION. Power and clocks (R442 to R455, R463 to R466): P-states, limits, droop, regulator alerts and faults, the activity
model, rail sensors, energy, idle modes. -/

namespace Sys2Proof.Machine

/-! ### States, rails, domains (Tables 14.1, 14.2) -/

/-- Set-point of a P-state in units of 5 mV. -/
def stateSetpoint (p : Nat) : Nat := [172, 156, 148, 140, 132, 124, 114, 110].getD p 110

/-- The rail of a domain: 0 VDD_W, 1 VDD_E, 2 VDD_SOC, 3 VDD_AON. -/
def railOf (d : Nat) : Nat :=
  if d = 0 then 3
  else if d ≤ 4 ∨ d = 9 ∨ d = 11 then 0
  else if d ≤ 8 ∨ d = 10 ∨ d = 12 then 1
  else 2

/-- Rail `r`, and a change of it. -/
def State.rail (s : State) (r : Nat) : Rail := SMap.get {} s.pwr.rails r
def State.updRail (s : State) (r : Nat) (f : Rail → Rail) : State :=
  { s with pwr := { s.pwr with rails := SMap.upd {} s.pwr.rails r f } }

/-- Domain `d`. -/
def State.domain (s : State) (d : Nat) : Domain := SMap.get {} s.pwr.domains d

/-- Voltage of a rail in mV: its set-point, or its nominal value (Table 17.2). -/
def State.railMv (s : State) (r : Nat) : Nat :=
  match r with
  | 2 => 750
  | 3 => 800
  | _ => 5 * (s.rail r).setpoint

/-- A half's cap as a limit. -/
def State.halfCap (s : State) (h : Nat) : Nat :=
  let c := if h = 0 then s.pwr.capWest else s.pwr.capEast
  if c = 0xFF then 0 else c

/-- The state that both halves run but for a cap on one of them. -/
def State.commonP (s : State) : Nat := min s.mesh.westP s.mesh.eastP

/-- A flight's work runs in half `h` (Tables 5.3, 14.1). -/
def State.inHalf (s : State) (x : Flight) (h : Nat) : Bool :=
  (x.onEngines && x.strands.any (fun y => engineHalf y.unit == h)) ||
  (s.progTiles x.id).any (fun e => (if tileCol e.1 < 36 then 0 else 1) == h)

/-- The heavy-phase hint is honoured on classes 0x2, 0x3 and 0x4 (R453). -/
def hinted (d : Bytes) : Bool := bit (dFlags d) 3 && decide (2 ≤ dClass d) && decide (dClass d ≤ 4)

/-- A hinted slice runs in the half. -/
def State.hintRuns (s : State) (h : Nat) : Bool :=
  s.work.flights.any (fun x => hinted x.desc && x.strands.any (fun y => y.isRunning) && s.inHalf x h)

/-- A Sail engine holds records for offering to a reduction whose input port tiles lie in both halves (R166). -/
def State.offerBothHalves (s : State) : Bool :=
  s.mesh.offers.any (fun o => (s.sched o.part).reductions.any (fun r =>
    r.id == o.reduction && r.inputTiles.any (fun t => tileCol t < 36) && r.inputTiles.any (fun t => 36 ≤ tileCol t)))

/-- The halves may not run different states now (R166). -/
def State.coupled (s : State) : Bool := s.crossings || s.offerBothHalves

/-- The state half `h` is due to run when the permitted one is `goal`: no faster than its cap, or than either cap while the halves must
run alike (R166, R446). -/
def State.halfGoal (s : State) (goal h : Nat) : Nat :=
  if s.coupled then max goal (max (s.halfCap 0) (s.halfCap 1)) else max goal (s.halfCap h)

/-- The set-point a half's rail should have: that of its state, or of the faster one it is due to take; 10 mV more under a hint;
P7's in clock rest and compute off (R445, R453, Table 14.7). -/
def State.wantSetpoint (s : State) (h : Nat) : Nat :=
  let cur := s.halfP h
  let due := match s.pwr.target with
    | some t => min cur (s.halfGoal t h)
    | none => cur
  if s.pwr.idle % 4 ≠ 0 then stateSetpoint 7
  else stateSetpoint due + (if s.hintRuns h then 2 else 0)

/-- Write the set-points that have changed over AVSBus (R443, R445). -/
def State.syncSetpoints (s : State) : State :=
  [0, 1].foldl (fun s h =>
    let u := s.wantSetpoint h
    if (s.rail h).setpoint = u then s
    else (s.updRail h (fun r => { r with setpoint := u, reached := false })).emit (.setpoint h u)) s

/-! ### The activity model (R451, R452, R455) -/

/-- The largest m with m^320 at most `x`, searched for between `lo` and `lo + 2^n`. -/
def root320 : Nat → Nat → Nat → Nat
  | 0, lo, _ => lo
  | n + 1, lo, x => root320 n (if (lo + 2 ^ n) ^ 320 ≤ x then lo + 2 ^ n else lo) x

/-- 2^(x ÷ 320), in 2^-16, rounded down: x is a temperature difference of 20 °C in 1/16 °C per doubling. [DESIGN CHOICE, log 81] -/
def exp2Temp (x : Int) : Nat :=
  let q := x / 320
  let r := (x % 320).toNat
  let m := root320 16 65536 (2 ^ (16 * 320 + r))
  if 0 ≤ q then m * 2 ^ q.toNat else m / 2 ^ (-q).toNat

/-- The hottest junction reading in a domain's area, in 1/16 °C: its clock region's for domains 1 to 8. [DEDUCED, log 82] -/
def State.domainTemp (s : State) (d : Nat) : Int :=
  if 1 ≤ d ∧ d ≤ 8 then
    ((List.range 8).map (fun i => (SMap.get {} s.therm.sensors (8 * (d - 1) + i) : Sensor).temp)).foldl max (-640)
  else s.therm.hottest

/-- S_d in µW at the rail's voltage and the domain's temperature. [DESIGN CHOICE, log 81] -/
def State.staticUw (s : State) (d : Nat) : Nat :=
  let mw := (SMap.get none s.ctl.cfg.staticMw d).getD (Config.romStatic d)
  let v := s.railMv (railOf d)
  if (s.domain d).off then 0 else mw * 1000 * v ^ 3 * exp2Temp (s.domainTemp d - 960) / (780 ^ 3 * 65536)

/-- Events of kind `e` in a domain in the running tick. -/
def State.eventsOf (s : State) (d e : Nat) : Nat :=
  ((List.range 17).map (fun p => Config.eventCount s.tick.count d e p)).sum

/-- The dynamic power of a domain in µW. -/
def State.dynamicUw (s : State) (d : Nat) : Nat :=
  if (s.domain d).off then 0
  else ((List.range 8).map (fun e =>
    (SMap.get none s.ctl.cfg.eventFj (8 * d + e)).getD (Config.romEvent d e) * s.eventsOf d e)).sum / s.period

/-- The measured power of a rail in µW; 1.25 times the estimate once its sensor has failed (R454). -/
def State.measuredUw (s : State) (r : Nat) (est : Nat) : Nat :=
  let x := s.rail r
  if x.failed then est * 5 / 4 else x.uv * x.ma / 1000

/-- What the control of a tick goes by: per domain static and dynamic power, per rail estimate and measurement. -/
structure PowerView where
  st : List Nat
  dyn : List Nat
  est : List Nat
  meas : List Nat

/-- The view of the running tick. -/
def State.powerView (s : State) : PowerView :=
  let st := (List.range 20).map s.staticUw
  let dyn := (List.range 20).map s.dynamicUw
  let est := (List.range 4).map (fun r =>
    ((List.range 20).map (fun d => if railOf d = r then st.getD d 0 + dyn.getD d 0 else 0)).sum)
  ⟨st, dyn, est, (List.range 4).map (fun r => s.measuredUw r (est.getD r 0))⟩

/-- The forecast for state `t` of a power that runs at state `c` (R451), with voltages in units of 5 mV. -/
def forecast (st dyn c t : Nat) : Nat :=
  let vs := stateSetpoint t
  let vc := stateSetpoint c
  dyn * (stateMhz t * vs ^ 2) / (stateMhz c * vc ^ 2) + st * vs ^ 3 / vc ^ 3

/-- The fastest state that satisfies a limit, or P7. -/
def fastest (ok : Nat → Bool) : Nat := ((List.range 8).find? ok).getD 7

/-- The share of a power that a part has in a whole. -/
def shareOf (p part whole : Nat) : Nat := if whole = 0 then 0 else p * part / whole

/-- Power of the heavy-phase descriptors that are eligible for the next tick (R451, R453). -/
def State.heavyUw (s : State) : Nat :=
  ((s.work.flights.filter (fun x => hinted x.desc && (match x.state with
    | .queued => decide (dThreshold x.desc ≤ claspCount (s.clasp (dWait x.desc)))
    | .ended => false
    | _ => true))).map (fun x => Config.heavyPower x.desc)).sum

/-- Energy of the tick attributed (R455), in units of 10^-9 µJ: the larger of measurement and estimate for each domain, its dynamic
part by partition in proportion to events. -/
def State.shareOut (s : State) (v : PowerView) : State :=
  (List.range 20).foldl (fun s d =>
    let r := railOf d
    let est := v.st.getD d 0 + v.dyn.getD d 0
    let meas := shareOf (v.meas.getD r 0) est (v.est.getD r 0)
    let uw := max est meas
    let dyn := shareOf uw (v.dyn.getD d 0) est * s.period
    let total := ((List.range 8).map (s.eventsOf d)).sum
    let part (p : Nat) := shareOf dyn ((List.range 8).map (fun e => Config.eventCount s.tick.count d e p)).sum total
    let given := ((List.range 16).map part).sum
    let add (acc rem n : Nat) : Nat × Nat := ((acc + (rem + n) / 10 ^ 9) % 2 ^ 64, (rem + n) % 10 ^ 9)
    let s := (List.range 16).foldl (fun s p =>
      let a := add (SMap.get 0 s.pwr.energy p) (SMap.get 0 s.pwr.energyRem p) (part p)
      { s with pwr := { s.pwr with
          energy := SMap.set 0 s.pwr.energy p a.1, energyRem := SMap.set 0 s.pwr.energyRem p a.2 } }) s
    let b := add s.pwr.energyBase s.pwr.energyBaseRem (uw * s.period - given)
    { s with pwr := { s.pwr with
        energyBase := b.1, energyBaseRem := b.2
        domains := SMap.upd {} s.pwr.domains d (fun x => { x with powerMw := min max32 (uw / 1000) }) } }) s

/-- Divergence of estimate and measurement (R452); failed rails are left out. -/
def State.divergence (s : State) (v : PowerView) : State :=
  let rs := (List.range 4).filter (fun r => !(s.rail r).failed)
  let est := (rs.map (fun r => v.est.getD r 0)).sum
  let meas := (rs.map (fun r => v.meas.getD r 0)).sum
  let gap := max est meas - min est meas
  let n := if max est meas < 4 * gap then min 0x3FF (s.pwr.diverge + 1) else 0
  let s := { s with pwr := { s.pwr with diverge := n, cap90 := s.pwr.cap90 || n == 8 } }
  if n = 8 then s.post 0x8001 1 0xFF 0xFFFF (detail [(4, est / 1000), (4, meas / 1000)]) else s

/-! ### The local permitted state (R447, R448) -/

/-- The limits of Table 14.3 that make up L_n, as (reason, slowest state it forces). [DEDUCED, log 83] -/
def State.limits (s : State) : List (Nat × Nat) :=
  let w := s.pwr
  [(0, if w.fixedFreq || w.coolTicks < 8 then 1 else 0), (1, w.powerLimit % 8), (2, w.junctionLimit), (3, w.stackLimit),
    (4, w.alertLimit), (5, w.powerLimit / 8), (6, w.ratingLimit), (7, if s.therm.emergency then 7 else 0), (8, w.droopLimit),
    (11, if s.keel.safe then 7 else 0), (12, w.faultLimit)]

/-- The power domain that imposed the limit with this reason (Table 1.9): that of the hottest sensor, of the hottest stack that throttles,
of the rail or region concerned; of a limit on the whole device, the control plane's. [DEDUCED, log 83] -/
def State.limitDomain (s : State) (reason : Nat) : Nat :=
  let ofRail (r : Nat) : Nat := [1, 5, 19, 0].getD r 19
  let ofSensor (n : Nat) : Nat := if n < 64 then 1 + n / 8 else if n < 80 then 18 else if (n - 80) / 2 % 4 < 2 then 13 else 14
  match reason with
  | 2 => ofSensor s.therm.hotSensor
  | 7 => ofSensor s.therm.hotSensor
  | 3 =>
    match (List.range 8).find? (fun k => (SMap.get {} s.therm.hbm k : ThermStack).limit == s.pwr.stackLimit) with
    | some k => if k % 4 < 2 then 13 else 14
    | none => 19
  | 6 => ofRail s.pwr.ratingRail
  | 8 => 1 + s.pwr.droopRegion
  | 11 => 0
  | 12 => ofRail s.pwr.faultRail
  | _ => 19

/-- Control at S_n (R447, R448, R451, R452, R455): powers, limits, L_n with its binding reason, the throttle counters, the agreed
state of a device outside a fabric, and the higher set-points of a faster step. [DEDUCED, log 83] -/
def State.powerControl (s : State) : State :=
  let v := s.powerView
  let est := v.est.sum
  let pc := max est v.meas.sum
  let s := (s.shareOut v).divergence v
  let w := s.pwr
  let c := s.commonP
  let lim := w.limitW * 1000000
  let dynPc := shareOf pc v.dyn.sum est
  let dyn := dynPc + s.heavyUw
  let fc := forecast (pc - dynPc) dyn c
  let power := fastest (fun t => decide (fc t ≤ lim))
  let capped := if w.cap90 then fastest (fun t => decide (fc t ≤ lim * 9 / 10)) else 0
  let rated (t r : Nat) : Bool :=
    let p := max (v.est.getD r 0) (v.meas.getD r 0)
    let amps := s.ctl.cfg.ratings.getD r 0
    if r < 2 then
      let d := shareOf p ((List.range 20).map (fun k => if railOf k = r then v.dyn.getD k 0 else 0)).sum (v.est.getD r 0)
      decide (forecast (p - d) d c t ≤ amps * 1000 * (5 * stateSetpoint t))
    else decide (p ≤ amps * 1000 * s.railMv r)
  let rating := fastest (fun t => (List.range 4).all (rated t))
  let cool := decide (pc ≤ lim * 85 / 100) && decide (s.therm.hottest + 160 ≤ 16 * s.ctl.cfg.tjt)
  let s : State := { s with pwr := { s.pwr with
    pcUw := pc, estW := est / 1000000 % 2 ^ 20, measW := v.meas.sum / 1000000 % 2 ^ 20
    powerLimit := power + 8 * capped, ratingLimit := rating
    ratingRail := ((List.range 4).find? (fun r => !rated (rating - 1) r)).getD 0
    coolTicks := if cool then min 8 (w.coolTicks + 1) else 0
    rails := (List.range 4).foldl (fun m r => SMap.upd {} m r (fun (x : Rail) => { x with estUw := v.est.getD r 0 })) s.pwr.rails } }
  let ls := s.limits
  let worstOf := (ls.map (fun e => e.2)).foldl max 0
  let l := max worstOf (c - 1)
  let reason := if worstOf < c - 1 then 0 else ((ls.find? (fun e => e.2 == worstOf)).map (fun e => e.1)).getD 0
  -- the reason that binds the clock of this tick
  let bind := if s.tick.member ∧ l < s.tick.agreedP then 10
    else if l < max (s.halfCap 0) (s.halfCap 1) then 9 else reason
  let was := s.pwr.binding
  let s : State := { s with
    pwr := { s.pwr with
      binding := bind, droopLimit := 0
      throttle := SMap.upd {} s.pwr.throttle bind (fun t => { t with
          onsets := if was = bind then t.onsets else satAdd 0xFFFF t.onsets 1
          timeUs := (t.timeUs + s.tick.periodUs) % 2 ^ 48 }) }
    tick := { s.tick with
      localP := l
      agreedP := if s.tick.member then s.tick.agreedP else l
      freqAt := if s.tick.member ∨ s.tick.agreedP = l then s.tick.freqAt else s.tick.count } }
  let s := if s.tick.member ∧ s.tick.agreedP < l then
      s.post 0x0006 1 0xFF (0x8000 + s.limitDomain reason) (detail [(1, l), (1, s.tick.agreedP), (1, reason)]) else s
  let s := { s with pwr := { s.pwr with target := some (max l (if s.tick.member then s.tick.agreedP else l)) } }
  s.syncSetpoints

/-- The step of each half at a tick boundary (R30, R445): P7 whatever R30 says when R450 forces it; P7 of a regulator fault (R443) and a
slower state at once; a faster one when the rail has reported its set-point; all of these deferred by a droop event detected in
[T_n − 1 µs, T_n).  While R166 holds the halves together they step to the slower of what each may take. -/
def State.stepClock (s : State) : State :=
  let s := s.countClocks
  let droop : Bool := match s.tick.lastDroop with
    | some t => decide (s.tickStart ≤ t + 1000) && decide (t < s.tickStart)
    | none => false
  if s.pwr.forceP7 then
    ({ s with
      mesh := { s.mesh with westP := 7, eastP := 7 }
      tick := { s.tick with currentP := 7, deferred := false }
      pwr := { s.pwr with forceP7 := false, faultP7 := false, target := some 7 } }).syncSetpoints
  else
    let goal := if s.pwr.faultP7 then 7 else max s.tick.localP (if s.tick.member then s.tick.agreedP else s.tick.localP)
    let next (h : Nat) : Nat :=
      let cur := s.halfP h
      let want := max (s.halfGoal goal h) (cur - 1)
      let r := s.rail h
      if want == cur || droop then cur
      else if cur < want then want
      else if r.reached && decide (stateSetpoint want ≤ r.setpoint) then want else cur
    let w := if s.coupled then max (next 0) (next 1) else next 0
    let e := if s.coupled then w else next 1
    ({ s with
      mesh := { s.mesh with westP := w, eastP := e }
      tick := { s.tick with
        currentP := max w e
        deferred := w != s.halfGoal goal 0 || e != s.halfGoal goal 1 }
      pwr := { s.pwr with target := some goal, faultP7 := s.pwr.faultP7 && droop } }).syncSetpoints

/-- The ends that come at a tick boundary (R443, R450, R458): of the alert stretch, of an emergency whose readings have all fallen to
103 °C, and the start of the recovery of a regulator fault. [DESIGN CHOICE, log 85] -/
def State.powerBoundary (s : State) : State :=
  let now := s.tick.time
  let s := s.countClocks
  let s := if s.pwr.alertEnding && !s.pwr.alertLow then
      { s with pwr := { s.pwr with
          alertEnding := false, alertStretch := s.keel.safe || s.therm.emergency, alertNext := now + 1000000 } } else s
  let s := if s.therm.emergency && decide (s.therm.hottest ≤ 1648) then
      { s with
        therm := { s.therm with emergency := false }
        pwr := { s.pwr with alertStretch := s.keel.safe || s.pwr.alertLimit == 7 } } else s
  if s.pwr.faultOver then { s with pwr := { s.pwr with faultOver := false, faultNext := now + 1000000 } } else s

/-! ### Commands of the regulators (R443, R445, R450) -/

/-- VR_ALERT (R450): while PWRGOOD is low no alert is recorded (R517). -/
def execVrAlert (s : State) : Host.Outcome State Fault Refusal :=
  .next (if s.pwr.alertLow ∨ !s.ctl.pwrgood then s
    else
      let s := s.countClocks
      ({ s with pwr := { s.pwr with
          alertLow := true, alertEnding := false, alertStretch := true, forceP7 := true, alertLimit := 7, alertNext := 0 } }).post
        0x8003 1 0xFF 0xFFFF (detail [(1, s.tick.currentP)]))

/-- VR_ALERT_RELEASE (R450): VR_ALERT_N has been high for 1 ms; the stretch ends at the next tick boundary. -/
def execVrAlertRelease (s : State) : Host.Outcome State Fault Refusal :=
  .next (if s.pwr.alertLow then { s with pwr := { s.pwr with alertLow := false, alertEnding := true } } else s)

/-- THROTTLE_RECOVERY_STEP (R443, R450): the next 1 ms of a recovery is over, and the limit allows one state faster. -/
def execThrottleRecoveryStep (s : State) : Host.Outcome State Fault Refusal :=
  .next (
    let w := s.pwr
    let due := (if w.alertLimit ≠ 0 ∧ w.alertNext ≠ 0 then [w.alertNext] else []) ++
      (if w.faultLimit ≠ 0 ∧ w.faultNext ≠ 0 then [w.faultNext] else [])
    match due with
    | [] => s
    | t :: ts =>
      let at_ := ts.foldl min t
      let s := s.arrive at_
      let a := w.alertLimit ≠ 0 ∧ w.alertNext = at_
      let f := w.faultLimit ≠ 0 ∧ w.faultNext = at_
      { s with pwr := { s.pwr with
          alertLimit := if a then w.alertLimit - 1 else w.alertLimit
          alertNext := if a then (if w.alertLimit = 1 then 0 else at_ + 1000000) else w.alertNext
          faultLimit := if f then w.faultLimit - 1 else w.faultLimit
          faultNext := if f then (if w.faultLimit = 1 then 0 else at_ + 1000000) else w.faultNext } })

/-- SETPOINT_REACHED (R443, R445). -/
def execSetpointReached (rail : Nat) (s : State) : Host.Outcome State Fault Refusal :=
  guarded "SETPOINT_REACHED" (decide (rail < 2)) (
    let s := s.updRail rail (fun r => { r with reached := true })
    let left := s.pwr.faultWait.filter (fun r => r != rail)
    { s with pwr := { s.pwr with
        faultWait := left, faultOver := s.pwr.faultOver || (s.pwr.faultWait.contains rail && left.isEmpty) } })

/-- SETPOINT_TIMEOUT (R443): a regulator fault. -/
def execSetpointTimeout (rail : Nat) (s : State) : Host.Outcome State Fault Refusal :=
  guarded "SETPOINT_TIMEOUT" (decide (rail < 2)) (
    if (s.rail rail).reached then s
    else
      ({ s with pwr := { s.pwr with
          faultP7 := true, faultLimit := 7, faultNext := 0, faultOver := false, faultRail := rail
          faultWait := rail :: s.pwr.faultWait.filter (fun r => r != rail) } }).post 0x8005 2 0xFF
        0xFFFF (detail [(1, rail), (1, (s.rail rail).setpoint)]))

/-- The median of three numbers. -/
def median3 (a b c : Nat) : Nat := max (min a b) (min (max a b) c)

/-- A rail's current sensor is declared failed (R454, Table 15.5). -/
def State.railFailed (s : State) (r test : Nat) : State :=
  let before := (List.range 4).any (fun i => (s.rail i).failed)
  let s := s.updRail r (fun x => { x with failed := true })
  let s := ({ s with pwr := { s.pwr with cap90 := true } }).fullCooling
  let s := s.post 0x8002 2 0xFF 0xFFFF (detail [(1, r), (1, test)])
  if before then s.enterSafe 11 0xA000 else s

/-- One sample of one rail: the ratio test, the stuck test and the rating (R454, Table 15.5). -/
def State.railSample (s : State) (old : List Rail) (r : Nat) : State :=
  let x := s.rail r
  let o := old.getD r {}
  let ratio (i : Nat) : Nat :=
    let y := s.rail i
    if y.estUw = 0 then 65536 else y.uv * y.ma / 1000 * 65536 / y.estUw
  let others := (List.range 4).filter (fun i => i != r)
  let med := median3 (ratio (others.getD 0 0)) (ratio (others.getD 1 0)) (ratio (others.getD 2 0))
  let gap := max (ratio r) med - min (ratio r) med
  let badRatio := if med < 2 * gap then x.badRatio + 1 else 0
  let same := x.ma == o.ma
  let stuckEst := if same ∧ x.stuckRun ≠ 0 then x.stuckEst else o.estimate
  let moved := max x.estUw stuckEst - min x.estUw stuckEst
  let stuckRun := if same then x.stuckRun + 1 else 0
  let above := if s.pwr.binding = 6 ∧ s.ctl.cfg.ratings.getD r 0 * 1000 < x.ma then x.above + 1 else 0
  let s := s.updRail r (fun y => { y with
    estimate := x.estUw, badRatio := min 64 badRatio, stuckRun := min 64 stuckRun, stuckEst := stuckEst, above := min 4 above })
  let s := if x.failed then s
    else if 64 ≤ badRatio then s.railFailed r 1
    else if 64 ≤ stuckRun ∧ stuckEst < 10 * moved then s.railFailed r 2
    else s
  if above = 4 then s.enterSafe 5 (0x8000 + (if r = 0 then 9 else if r = 1 then 10 else if r = 2 then 19 else 0)) else s

/-- PMBUS_POLL (R443, R454): the four rails are read, and their sensors checked. -/
def execPmbusPoll (r : List RailReading) (s : State) : Host.Outcome State Fault Refusal :=
  guarded "PMBUS_POLL" (r.length == 4) (
    let old := (List.range 4).map s.rail
    let s := (List.range 4).foldl (fun s i =>
      let g := r.getD i ⟨0, 0, 0⟩
      s.updRail i (fun x => { x with uv := g.uv, ma := g.ma, temp := g.temp })) s
    (List.range 4).foldl (fun s i => s.railSample old i) s)

/-! ### Droop (R449) -/

/-- The stretch of half `h`, and a change of it. -/
def State.stretchOf (s : State) (h : Nat) : Option Stretch := if h = 0 then s.pwr.stretchWest else s.pwr.stretchEast
def State.setStretch (s : State) (h : Nat) (x : Option Stretch) : State :=
  { s with pwr := if h = 0 then { s.pwr with stretchWest := x } else { s.pwr with stretchEast := x } }

/-- A trip of a detector of region `r`: its half's stretch begins, or goes on. -/
def State.tripped (s : State) (r : Nat) : State :=
  let h := r / 4
  let c := s.clockNow h
  s.setStretch h (some (match s.stretchOf h with
    | some x => { x with last := c }
    | none => ⟨s.tick.time, c, c, r, false⟩))

/-- DROOP_TRIP (R449): the arithmetic clock of the half is stretched, and that of the other half while a loaded schedule crosses the seam
(R165). -/
def execDroopTrip (region at_ : Nat) (s : State) : Host.Outcome State Fault Refusal :=
  guarded "DROOP_TRIP" (decide (region < 8)) (
    let s := (s.arrive at_).countClocks
    let t := s.tick.time
    ({ s with
      tick := { s.tick with lastDroop := if s.ctl.released && decide (s.tickEnd ≤ at_) then s.tick.lastDroop else some t }
      pwr := { s.pwr with droopEvents := satAdd 0xFFFF s.pwr.droopEvents 1 } } : State).tripped region)

/-- DROOP_STRETCH_END (R449): the stretch has lasted at least 32 stretched cycles, the last 16 of them without a trip in the half. -/
def execDroopStretchEnd (half at_ : Nat) (s : State) : Host.Outcome State Fault Refusal :=
  guarded "DROOP_STRETCH_END" (decide (half < 2)) (
    match s.stretchOf half with
    | none => s
    | some x =>
      let s' := (s.arrive at_).countClocks
      let c := s'.clockNow half
      if x.count + 32 * clockUnit ≤ c ∧ x.last + 16 * clockUnit ≤ c then s'.setStretch half none else s)

/-- PERSISTENT_DROOP (R449): a stretch has lasted beyond 4 µs. -/
def execPersistentDroop (half at_ : Nat) (s : State) : Host.Outcome State Fault Refusal :=
  guarded "PERSISTENT_DROOP" (decide (half < 2)) (
    match s.stretchOf half with
    | none => s
    | some x =>
      let s' := s.arrive at_
      let ns := s'.tick.time - x.since
      if x.persistent ∨ ns ≤ 4000 then s
      else
        let s1 := s'.setStretch half (some { x with persistent := true })
        ({ s1 with pwr := { s1.pwr with
            droopPersistent := satAdd 0xFFFF s1.pwr.droopPersistent 1
            droopLimit := min 7 (s1.commonP + 1)
            droopRegion := x.region } }).post 0x8004 1 0xFF (0x8001 + x.region) (detail [(4, min max32 ns)]))

/-! ### Mailbox commands (Table 14.8) -/

/-- PWR_LIMIT_SET (R466). [DEDUCED, log 83] -/
def execPwrLimitSet (s : State) : Host.Outcome State Fault Refusal :=
  .next (s.mailbox 0x800 8 (fun b => reservedChecks b 2 8) (fun b =>
    let w := fieldLe b 0 2
    let l := clampNat 100 520 w
    ({ s with pwr := { s.pwr with limitW := l } }).mboxOk (if l = w then [] else natLe 8 1)))

/-- PWR_CAP_CLEAR (R452). -/
def execPwrCapClear (s : State) : Host.Outcome State Fault Refusal :=
  .next (s.mailbox 0x801 0 (fun _ => []) (fun _ => ({ s with pwr := { s.pwr with cap90 := false, diverge := 0 } }).mboxOk []))

/-- PWR_HALF_SET (R446): a cap that R166 refuses is counted and reported. -/
def execPwrHalfSet (s : State) : Host.Outcome State Fault Refusal :=
  .next (s.mailbox 0x802 8
    (fun b => [(0, decide (byteAt b 0 < 2)), (1, decide (byteAt b 1 < 8) || byteAt b 1 == 0xFF)] ++ reservedChecks b 2 8)
    (fun b =>
      let h := byteAt b 0
      let c := byteAt b 1
      let reason := if c = 0xFF then 0 else if s.crossings then 1 else if s.offerBothHalves then 2 else 0
      if reason ≠ 0 then
        let s := { s with mesh := { s.mesh with seamRefusals := satAdd max32 s.mesh.seamRefusals 1, seamReason := reason } }
        (s.post 0x2054 1 0xFF (if h = 0 then 0x8001 else 0x8005) (detail [(1, reason), (1, c)])).mboxEnd 4 []
      else if h = 0 then ({ s with pwr := { s.pwr with capWest := c } }).mboxOk []
      else ({ s with pwr := { s.pwr with capEast := c } }).mboxOk []))

/-- A descriptor in flight whose class is one of a list. -/
def State.flyingClass (s : State) (p : Nat → Bool) : Bool := s.work.flights.any (fun x => !x.failed && p (dClass x.desc))

/-- PWR_IDLE_SET (R464): refused while a mode asked for cannot be had. -/
def execPwrIdleSet (s : State) : Host.Outcome State Fault Refusal :=
  .next (s.mailbox 0x803 8 (fun b => (0, decide (byteAt b 0 < 16)) :: reservedChecks b 1 8) (fun b =>
    let m := byteAt b 0
    let compute := s.flyingClass (fun c => decide (2 ≤ c) && decide (c ≤ 4))
    if (m % 4 ≠ 0 && compute) || (bit m 1 && s.mesh.scheds.any (fun e => e.2.state != 0)) ||
        (bit m 2 && s.flyingClass (fun c => c != 8)) || (bit m 3 && s.memberPorts.any (fun p => decide (p < 8))) then s.mboxEnd 4 []
    else ({ s with pwr := { s.pwr with idleDue := some m } }).mboxOk (natLe 8 m)))

/-- A domain is powered off, or comes back with its epoch bumped (R292, R465). -/
def State.setDomain (s : State) (d : Nat) (off : Bool) : State :=
  { s with pwr := { s.pwr with domains := SMap.upd {} s.pwr.domains d (fun x => { x with
      off := off, epoch := if x.off && !off then (x.epoch + 1) % 65536 else x.epoch }) } }

/-- Domains 1 to 12. -/
def computeDomains : List Nat := (List.range 12).map (fun i => i + 1)

/-- An idle mode takes effect (Table 14.7). -/
def State.enterIdle (s : State) (mode : Nat) : State :=
  match mode with
  | 1 =>
    let s := computeDomains.foldl (fun s d => s.setDomain d true) s
    { s with
      tiles := s.tiles.map (fun e => (e.1, { e.2 with imem := [], table := [] }))
      mesh := { s.mesh with scheds := s.mesh.scheds.map (fun e => (e.1, { misses := e.2.misses, drops := e.2.drops
                                                                          overflows := e.2.overflows, other := e.2.other
                                                                          faultTick := e.2.faultTick })) } }
  | 3 =>
    let s := (s.setDomain 15 true).setDomain 16 true
    (List.range 8).foldl (fun s p =>
      if (s.port p).state = 0 then s
      else
        let s := (s.updPort p (fun x => { x with
          state := 0, step := 0, width := none, level := 0, lanes := 0, txSeq := 0, rxSeq := 0, replay := [], stuck := 0
          nakking := false, credits := [2048, 2048, 64], freed := [0, 0, 0], partialMsg := [], wants := 0, rx := [], tx := [] })).failRequests p
        (lanesOf p).foldl (fun s l => s.updLane l (fun y => { y with state := 0, comma := false, commas := 0 })) s) s
  | _ => s

/-- What a unit returning from power-off or self refresh finds (R292, R293, R348, R363). -/
def State.leaveIdle (s : State) (mode : Nat) : State :=
  match mode with
  | 1 =>
    let s := computeDomains.foldl (fun s d => s.setDomain d false) s
    { s with
      tiles := s.tiles.map (fun e => (e.1, { e.2 with
        imem := [], dmem := [], dmemBad := [], imemBad := [], weak := [], failing := [], regs := [], vregs := [], table := [], tx := []
        rx := [] }))
      casket := { s.casket with
        bytes := [], bad := [], errs := [], late := [], side := [], pending := [], scrubbed := []
        epochs := (List.range 576).foldl (fun m i => SMap.upd 0 m i (fun e => (e + 1) % 65536)) s.casket.epochs }
      xlat := { s.xlat with
        l1 := s.xlat.l1.filter (fun e => decide (32 ≤ e.1))
        epochs := (List.range 32).foldl (fun m i => SMap.upd 0 m i (fun e => (e + 1) % 65536)) s.xlat.epochs } }
  | 2 => (List.range 32).foldl (fun s n => (s.updGroup n (fun g => { g with recal := true })).bumpGroup n) s
  | 3 =>
    let s := (s.setDomain 15 false).setDomain 16 false
    (List.range 8).foldl (fun s p => if (s.port p).enabled then s.startAttempt p else s) s
  | _ => s

/-- PWR_IDLE_CHANGE (Table 14.9). -/
def State.postIdle (s : State) (old new cause : Nat) : State :=
  if old = new then s else s.post 0x8006 0 0xFF 0xFFFF (detail [(1, old), (1, new), (1, cause)])

/-- Idle modes take effect at a tick boundary; those no longer asked for start their exit (R464, R465). -/
def State.idleBoundary (s : State) : State :=
  match s.pwr.idleDue with
  | none => s
  | some m =>
    let old := s.pwr.idle
    let s := s.postIdle old m 1
    let s : State := { s with pwr := { s.pwr with
      idleDue := none
      idle := old ||| m
      waking := s.pwr.waking &&& (15 - m % 16) ||| (old &&& (15 - m % 16))
      leaving := old &&& (15 - m % 16) } }
    ((maskList 4 m).foldl (fun s i => if bit old i then s else s.enterIdle i) s).syncSetpoints

/-- The exit of an idle mode starts (R465). [DESIGN CHOICE, log 25] -/
def State.wake (s : State) (mode : Nat) : State :=
  if bit s.pwr.idle mode ∧ !bit s.pwr.waking mode then
    { s with pwr := { s.pwr with waking := s.pwr.waking ||| 2 ^ mode } }
  else s

/-- IDLE_WAKE (R465): work needs a resting domain. -/
def execIdleWake (mode : Nat) (s : State) : Host.Outcome State Fault Refusal :=
  guarded "IDLE_WAKE" (decide (mode < 4)) (s.wake mode)

/-- IDLE_EXIT_DONE (R465): the mode's bit clears, and its domains are back with their epochs bumped. -/
def execIdleExitDone (mode : Nat) (s : State) : Host.Outcome State Fault Refusal :=
  guarded "IDLE_EXIT_DONE" (decide (mode < 4)) (
    if !bit s.pwr.waking mode then s
    else
      let old := s.pwr.idle
      let new := old - 2 ^ mode
      let cmd := bit s.pwr.leaving mode
      let s : State := { s with pwr := { s.pwr with
        idle := new
        waking := s.pwr.waking - 2 ^ mode
        leaving := if cmd then s.pwr.leaving - 2 ^ mode else s.pwr.leaving } }
      let s := if cmd then s else s.postIdle old new 2
      (s.leaveIdle mode).syncSetpoints)

end Sys2Proof.Machine
end

