-- ==== Sys2Proof/Machine/Thermal.lean ====
section
/-! DEFINITION. Heat (R259, R260, R456 to R462, R482): junction sensors, the Ballast model, COOL_DEMAND and THERM_WARN_N, the stack
throttle, collective hints, the coolant. -/

namespace Sys2Proof.Machine

/-! ### Junction sensors (R456, R482) -/

/-- Sensor `n`. -/
def State.sensor (s : State) (n : Nat) : Sensor := SMap.get {} s.therm.sensors n

/-- What the device keeps of stack `k`'s heat. -/
def State.thermStack (s : State) (k : Nat) : ThermStack := SMap.get {} s.therm.hbm k
def State.updThermStack (s : State) (k : Nat) (f : ThermStack → ThermStack) : State :=
  { s with therm := { s.therm with hbm := SMap.upd {} s.therm.hbm k f } }

/-- The clock region whose first two sensors are taken as the nearest to stack `k` (R482; the pairing is the model's). [DESIGN CHOICE, log 84] -/
def stackRegion (k : Nat) : Nat := [0, 1, 4, 5, 2, 3, 6, 7].getD k 0

/-- Group `g` of R482: 0 to 7 the clock regions, 8 to 11 the crown sites, 12 to 19 the stacks. -/
def sensorGroup (g : Nat) : List Nat :=
  if g < 8 then (List.range 8).map (fun i => 8 * g + i)
  else if g < 12 then (List.range 4).map (fun i => 64 + 4 * (g - 8) + i)
  else [80 + 2 * (g - 12), 81 + 2 * (g - 12), 8 * stackRegion (g - 12), 8 * stackRegion (g - 12) + 1]

/-- The group a sensor is checked in. -/
def groupOfSensor (n : Nat) : Nat :=
  if n < 64 then n / 8 else if n < 80 then 8 + (n - 64) / 4 else 12 + (n - 80) / 2

/-- Sorted insertion, for medians. -/
def insertInt (x : Int) : List Int → List Int
  | [] => [x]
  | y :: r => if x ≤ y then x :: y :: r else y :: insertInt x r

/-- The median; of an even number, the mean of the two in the middle. [DESIGN CHOICE, log 84] -/
def medianInt (l : List Int) : Int :=
  let m := l.foldr insertInt []
  if m.length % 2 = 1 then m.getD (m.length / 2) 0
  else (m.getD (m.length / 2 - 1) 0 + m.getD (m.length / 2) 0) / 2

/-- The valid readings of the other sensors of a sensor's group. -/
def State.validOf (s : State) (n : Nat) : List Int :=
  ((sensorGroup (groupOfSensor n)).filter (fun i => !(s.sensor i).failed)).map (fun i => (s.sensor i).temp)

/-- The reading that stands for sensor `n` in R456 to R460: its own; once it has failed, the hottest valid one of its group plus
5 °C (R482), and with none valid the highest a sensor gives. [DESIGN CHOICE, log 84] -/
def State.reading (s : State) (n : Nat) : Int :=
  let x := s.sensor n
  if x.failed then
    match s.validOf n with
    | [] => 2400
    | t :: ts => ts.foldl max t + 80
  else x.temp

/-- The hottest reading and its sensor, the lowest of equals. -/
def State.hottest (s : State) : Int × Nat :=
  (List.range 96).foldl (fun (m : Int × Nat) n => if m.1 < s.reading n then (s.reading n, n) else m) (-4096, 0)

/-- A reading in a 12-bit field. -/
def tempField (t : Int) : Nat := (t % 4096).toNat

/-- THERM_WARN_N (R459): driven while a reading stands at its throttle point or COOL_DEMAND has been at full duty for 100 ms; let go
once all stand 3 °C below and it has not. -/
def State.warnUpdate (s : State) : State :=
  let c := s.ctl.cfg
  let full := match s.therm.fullSince with
    | some t => decide (t + 100000000 ≤ s.tick.time)
    | none => false
  let hbm := (List.range 8).map (fun k => (SMap.get {} s.mem.hbm k : Stack).tempC)
  let on : Bool := full || decide (16 * c.tjt ≤ s.therm.hottest) || hbm.any (fun t => decide (c.tst ≤ t))
  let off : Bool := !full && decide (s.therm.hottest + 48 ≤ 16 * c.tjt) && hbm.all (fun t => decide (t + 3 ≤ c.tst))
  { s with therm := { s.therm with warn := on || (s.therm.warn && !off) } }

/-- Sensor `n` is declared failed (R482). -/
def State.sensorFailed (s : State) (n : Nat) : State :=
  let s := { s with therm := { s.therm with sensors := SMap.upd {} s.therm.sensors n (fun x => { x with failed := true }) } }
  s.fullCooling.degraded 1 (0x9000 + n) n

/-- The tests of one sensor (R482). -/
def State.sensorTest (s : State) (n : Nat) : State :=
  let x := s.sensor n
  if x.failed then s
  else
    let m := medianInt (s.validOf n)
    let far := if x.temp - m ≤ 160 ∧ m - x.temp ≤ 160 then 0 else x.far + 1
    let s := { s with therm := { s.therm with sensors := SMap.upd {} s.therm.sensors n (fun y => { y with far := min 10 far }) } }
    if x.temp < -640 ∨ 2400 < x.temp ∨ 10 ≤ far then s.sensorFailed n else s

/-- Half or more of some group has failed (R482). -/
def State.coverageLost (s : State) : Bool :=
  (List.range 20).any (fun g =>
    let l := sensorGroup g
    decide (l.length ≤ 2 * (l.filter (fun i => (s.sensor i).failed)).length))

/-- JUNCTION_SENSOR_READ (R456, R458, R459, R482): 96 readings in 1/16 °C. -/
def execJunctionSensorRead (t : List Int) (s : State) : Host.Outcome State Fault Refusal :=
  guarded "JUNCTION_SENSOR_READ" (t.length == 96) (
    if !s.ctl.pwrgood then s
    else
      let s := (List.range 96).foldl (fun s n =>
        { s with therm := { s.therm with sensors := SMap.upd {} s.therm.sensors n (fun x => { x with temp := t.getD n 0 }) } }) s
      let s := (List.range 96).foldl (fun s n => s.sensorTest n) s
      let h := s.hottest
      let s := { s with therm := { s.therm with hottest := h.1.toNat, hotSensor := h.2 } }
      let s := if 1760 < h.1 then s.enterSafe 6 (0x9000 + h.2) else s
      let s := if s.coverageLost then s.enterSafe 12 (0x9000 + h.2) else s
      let s : State := if 1696 ≤ h.1 ∧ !s.therm.emergency then
          let s := s.countClocks
          ({ s with
            therm := { s.therm with emergency := true }
            pwr := { s.pwr with alertStretch := true, forceP7 := true } }).post 0x9001 2 0xFF (0x9000 + h.2)
            (detail [(1, h.1.toNat / 16)])
        else s
      s.warnUpdate)

/-- HARDWIRED_TRIP (R456, R476): the arithmetic clocks stop and FAULT_N is asserted; the safe state is entered, without the alert
stretch and P7 of stopped clocks. [DEDUCED, log 86] -/
def execHardwiredTrip (s : State) : Host.Outcome State Fault Refusal :=
  .next (if !s.ctl.pwrgood then s
    else
      let s := s.countClocks
      let w := s.pwr
      let s := ({ s with keel := { s.keel with trip := true }, therm := { s.therm with fault := true } }).enterSafe 7 0xA000
      { s with pwr := { s.pwr with alertStretch := w.alertStretch, forceP7 := w.forceP7 } })

/-! ### Collective hints (R461) -/

/-- Reserved bytes of a COLLECTIVE_HINT. -/
def hintReserved (d : Bytes) : Bool := (List.range 28).all (fun i => byteAt d (36 + i) == 0)

/-- The field check of a COLLECTIVE_HINT. -/
def hintStatic (d : Bytes) : Nat := if fieldLe d 32 4 ≤ 1000000 then 0 else 6

/-- The hint of a descriptor takes effect (R461): a new one replaces the partition's, 0 withdraws it. -/
def State.applyHint (s : State) (p : Nat) (d : Bytes) : State :=
  let us := fieldLe d 32 4
  { s with therm := { s.therm with
      hints := SMap.set none s.therm.hints p (if us = 0 then none else some (s.tick.time + us * 1000)) } }

/-- COLLECTIVE_HINT (R461): it takes effect and completes in the Settle phase of its tick. -/
def execCollectiveHint (f : Nat) (s : State) : Host.Outcome State Fault Refusal :=
  .next (match s.controlReady f 0x80020 with
    | none => s
    | some _ => s.endFlight f 0 0)

/-- HINT_EXPIRY (R461): the hint of partition `p` has counted down to zero. -/
def execHintExpiry (p : Nat) (s : State) : Host.Outcome State Fault Refusal :=
  guarded "HINT_EXPIRY" (decide (p < 16)) (
    match (SMap.get none s.therm.hints p : Option Nat) with
    | none => s
    | some t =>
      let s := s.arrive t
      { s with therm := { s.therm with hints := SMap.set none s.therm.hints p none } })

/-- The hint acted on: the partition and the remaining ns of the longest one in force, the lowest partition of equals. -/
def State.hintNow (s : State) : Option (Nat × Nat) :=
  (List.range 16).foldl (fun (m : Option (Nat × Nat)) p =>
    match (SMap.get none s.therm.hints p : Option Nat) with
    | none => m
    | some t =>
      let left := t - s.tick.time
      if left = 0 then m
      else match m with
        | none => some (p, left)
        | some b => if b.2 < left then some (p, left) else m) none

/-! ### Ballast (R457, R460) -/

/-- The partial sum of the series of e^(−x), x in 2^-48 between 0 and 1. -/
def expSeries (x : Nat) : Nat → Nat → Int → Int → Int
  | 0, _, _, acc => acc
  | n + 1, k, term, acc => expSeries x n (k + 1) (-(term * x / (2 ^ 48 * (k + 1)))) (acc + term)

/-- e^(−a ÷ b) in 2^-48. [DESIGN CHOICE, log 81] -/
def expNeg (a b : Nat) : Nat :=
  let one (x : Nat) : Nat := (expSeries x 20 0 (2 ^ 48) 0).toNat
  let q := a / b
  if 40 < q then 0
  else (List.range q).foldl (fun r _ => r * one (2 ^ 48) / 2 ^ 48) (one (a % b * 2 ^ 48 / b))

/-- r × P in 2^-16 °C: r in m°C/W, P in µW. -/
def riseOf (r p : Nat) : Int := (r * p * 65536 / 10 ^ 9 : Nat)

/-- The approach of a node at `t` to its steady state over `us` µs with a time constant of `ms` ms (R457). [DESIGN CHOICE, log 81] -/
def approach (t steady : Int) (us ms : Nat) : Int := steady + (t - steady) * expNeg us (ms * 1000) / 2 ^ 48

/-- Tk(Δ) of stack `k` from the temperature `t` (R457), in 2^-16 °C. -/
def State.stackAfter (s : State) (k : Nat) (t : Int) (us : Nat) : Int :=
  approach t (s.therm.plate + riseOf s.ctl.cfg.rk (s.thermStack k).powerUw) us s.ctl.cfg.tauk

/-- A temperature of 2^-16 °C in a field of 12 bits of 1/16 °C. -/
def tempOfNode (t : Int) : Nat := (t / 4096).toNat % 4096

/-- The stack throttle's limit at duty `d`: the fastest state with f ≤ 2,500 MHz × (d + 1) ÷ 16 (Table 14.5). -/
def dutyState (d : Nat) : Nat := fastest (fun p => decide (16 * stateMhz p ≤ 2500 * (d + 1)))

/-- Stack `k` at duty `d`. -/
def State.setDuty (s : State) (k d : Nat) : State :=
  { s with mem := { s.mem with hbm := SMap.upd {} s.mem.hbm k (fun x => { x with duty := d }) } }

/-- The reason-3 limit of stack `k`, with a slow notice at once where it slows the job (R388, R462). [DEDUCED, log 83] -/
def State.setStackLimit (s : State) (k l : Nat) : State :=
  let old := s.pwr.stackLimit
  let s := s.updThermStack k (fun x => { x with limit := l })
  let new := ((List.range 8).map (fun i => (s.thermStack i).limit)).foldl max 0
  let s := { s with pwr := { s.pwr with stackLimit := new } }
  if old < new then s.sendSlow new k else s

/-- The throttling of stack `k` starts at duty 12 (Table 14.5, steps 3 and 7). -/
def State.throttleStack (s : State) (k : Nat) : State :=
  let x := s.thermStack k
  let slow := s.hintNow.isSome
  let s := (s.setDuty k 12).updThermStack k (fun y => { y with
    phase := 2, episodes := if x.phase = 0 then satAdd 0xFF y.episodes 1 else y.episodes })
  let t := (SMap.get {} s.mem.hbm k : Stack).tempC
  let s := s.post 0x9002 1 0xFF (0x3000 + 64 * k) (detail [(1, k), (1, t), (1, 12), (1, if slow then dutyState 12 else 0xFF)])
  if slow then s.setStackLimit k (dutyState 12) else s

/-- Step 1 of Table 14.5: duty 1. -/
def State.stackHard (s : State) (k : Nat) : State :=
  (s.setDuty k 1).updThermStack k (fun y => { y with
    phase := 3, episodes := if y.phase = 0 then satAdd 0xFF y.episodes 1 else y.episodes })

/-- A new reading of stack `k` under Table 14.5, steps 1 to 7; `again`: at the end of a deferral. -/
def State.judgeStack (s : State) (k : Nat) (again : Bool) : State :=
  let t := (SMap.get {} s.mem.hbm k : Stack).tempC
  let x := s.thermStack k
  let c := s.ctl.cfg
  if c.tsh ≤ t then (if x.phase = 3 then s else s.stackHard k)
  else if t < c.tst then
    if again then s.updThermStack k (fun y => { y with phase := 0, deferred := false }) else s
  else if x.phase = 1 ∧ again then s.throttleStack k
  else if x.phase ≠ 0 then s
  else match s.hintNow with
    | none => s.throttleStack k
    | some (p, left) =>
      let now : Int := 65536 * t
      let peak := max now (s.stackAfter k now (left / 1000))
      let s := s.updThermStack k (fun y => { y with predicted := tempOfNode peak })
      if peak ≤ 65536 * c.tsh then
        let s := s.updThermStack k (fun y => { y with
          phase := 1, deferred := true, deferEnd := s.tick.time + min left 2000000, episodes := satAdd 0xFF y.episodes 1 })
        s.post 0x9003 0 p (0x3000 + 64 * k) (detail [(1, k), (1, t), (2, tempOfNode peak), (4, left / 1000)])
      else s.throttleStack k

/-- STACK_TEMP_READ (R259, R260, R462, Table 15.2). -/
def execStackTempRead (k temp : Nat) (s : State) : Host.Outcome State Fault Refusal :=
  guarded "STACK_TEMP_READ" (decide (k < 8) && decide (temp < 256)) (
    if !s.ctl.pwrgood then s
    else
      let s := { s with mem := { s.mem with hbm := SMap.upd {} s.mem.hbm k (fun x => { x with
        tempC := temp, refresh2x := if 86 ≤ temp then true else if temp ≤ 82 then false else x.refresh2x }) } }
      let s := if s.ctl.cfg.tsh < temp then s.enterSafe 15 (0x3000 + 64 * k) else s
      (s.judgeStack k false).warnUpdate)

/-- STACK_DEFERRAL_END (Table 14.5, step 6). -/
def execStackDeferralEnd (k : Nat) (s : State) : Host.Outcome State Fault Refusal :=
  guarded "STACK_DEFERRAL_END" (decide (k < 8)) (
    if (s.thermStack k).phase = 1 then (s.arrive (s.thermStack k).deferEnd).judgeStack k true else s)

/-- CATTRIP (R462, R517): a stack's catastrophic-temperature output has been high for 100 ns. [DEDUCED, log 86] -/
def execCattrip (k : Nat) (s : State) : Host.Outcome State Fault Refusal :=
  guarded "CATTRIP" (decide (k < 8)) (
    if !s.ctl.pwrgood then s
    else
      ({ s with mem := { s.mem with hbm := SMap.upd {} s.mem.hbm k (fun x => { x with cattrip := true }) } }).enterSafe 8
        (0x3000 + 64 * k))

/-- Step 8 of Table 14.5 for stack `k` at a Ballast window. -/
def State.stackWindow (s : State) (k : Nat) : State :=
  let x := s.thermStack k
  if x.phase < 2 then s
  else
    let m : Stack := SMap.get {} s.mem.hbm k
    let d := if s.ctl.cfg.tst ≤ m.tempC then max 1 (m.duty - 2)
      else if m.tempC + 3 ≤ s.ctl.cfg.tst then min 16 (m.duty + 1) else m.duty
    let s := s.setDuty k d
    if d = 16 then (s.updThermStack k (fun y => { y with phase := 0, deferred := false })).setStackLimit k 0
    else
      (s.updThermStack k (fun y => { y with phase := if d = 1 ∧ x.phase = 3 then 3 else 2 })).setStackLimit k
        (if s.hintNow.isSome then dutyState d else 0)

/-- The nodes at the start of a window (R457): the plate has followed its steady state for the window that ends, and is corrected; the
die and the stacks are what is read. [DEDUCED, log 82] -/
def State.ballastCorrect (s : State) : State :=
  let c := s.ctl.cfg
  let s := { s with therm := { s.therm with
    tin := s.therm.tinDue.getD s.therm.tin, tinDue := none, die := 4096 * (s.therm.hottest : Int) } }
  let s := (List.range 8).foldl (fun s k => s.updThermStack k (fun x => { x with
    node := 65536 * ((SMap.get {} s.mem.hbm k : Stack).tempC : Int)
    powerUw := Config.stackBeats (s.tick.time / 1000000) k * c.stackPj / 1000 })) s
  let total := s.pwr.pcUw + ((List.range 8).map (fun k => (s.thermStack k).powerUw)).sum
  let plate := approach s.therm.plate (4096 * (s.therm.tin : Int) + riseOf c.rp total) 1000 c.taup
  { s with therm := { s.therm with plate := plate + (s.therm.die - riseOf c.rd s.pwr.pcUw - plate) / 64 } }

/-- COOL_DEMAND (R460), from Td(Λ) and the stacks' predictions. -/
def State.coolDuty (s : State) (td : Int) : Nat :=
  let c := s.ctl.cfg
  let refs := (List.range 8).map (fun k =>
    let t := (s.thermStack k).node
    max t (s.stackAfter k t (c.lead * 1000)) + 65536 * ((c.tset : Int) - c.tst))
  let top := refs.foldl max td
  (max (c.floor : Int) (min 255 (c.floor + c.gain * (top - 65536 * c.tset) / 65536))).toNat

/-- The stretch and the limit of a junction above its throttle point (R458). [DEDUCED, log 82] -/
def State.junctionWindow (s : State) : State :=
  let c := s.ctl.cfg
  if 16 * c.tjt ≤ s.therm.hottest then { s with pwr := { s.pwr with junctionLimit := min 7 (s.commonP + 1) } }
  else if s.therm.hottest + 48 ≤ 16 * c.tjt then { s with pwr := { s.pwr with junctionLimit := s.pwr.junctionLimit - 1 } }
  else s

/-- BALLAST_WINDOW (R457 to R460, R462): the start of a Ballast window. -/
def execBallastWindow (s : State) : Host.Outcome State Fault Refusal :=
  .next (if !s.ctl.pwrgood then s
    else
      let s := s.ballastCorrect
      let c := s.ctl.cfg
      let td := approach s.therm.die (s.therm.plate + riseOf c.rd s.pwr.pcUw) (c.lead * 1000) c.taud
      let held : Bool := !s.ctl.released || s.keel.safe || (List.range 4).any (fun r => (s.rail r).failed) ||
        (List.range 96).any (fun n => (s.sensor n).failed)
      let u := if held then 255 else s.coolDuty td
      let s := { s with therm := { s.therm with
        predDie := tempOfNode td, duty := u, started := s.therm.started || s.ctl.released
        fullSince := if u = 255 then some (s.therm.fullSince.getD s.tick.time) else none } }
      ((List.range 8).foldl (fun s k => s.stackWindow k) s.junctionWindow).warnUpdate)

/-- THERM_COOLANT_SET (R466). -/
def execThermCoolantSet (s : State) : Host.Outcome State Fault Refusal :=
  .next (s.mailbox 0x900 8 (fun b => (0, decide (fieldLe b 0 2 ≤ 1280)) :: reservedChecks b 2 8) (fun b =>
    ({ s with therm := { s.therm with tinDue := some (fieldLe b 0 2) } }).mboxOk []))

end Sys2Proof.Machine
end

