-- ==== Sys2Proof/Machine/Descs.lean ====
section
/-! DEFINITION. Every descriptor as admission sees it: the header checks of Table 9.7, the checks of its class, its ranges, the pages
they need (R8, R9, R315, R316, R334, R337, R346). -/

namespace Sys2Proof.Machine

/-! ### Opcodes and headers (Table 9.7) -/

/-- The size code of a defined class and opcode. -/
def keySize (key : Nat) : Option Nat :=
  match key with
  | 0x10001 => some 1 | 0x10002 => some 0 | 0x10003 => some 0 | 0x10004 => some 0
  | 0x20001 => some 1 | 0x20002 => some 2 | 0x20003 => some 1 | 0x20004 => some 1 | 0x20005 => some 1
  | 0x20006 => some 0 | 0x20007 => some 0 | 0x20008 => some 1 | 0x20009 => some 0
  | 0x30001 => some 1
  | 0x40001 => some 0 | 0x40002 => some 1 | 0x40003 => some 0
  | 0x50001 => some 1 | 0x50002 => some 1 | 0x50003 => some 1 | 0x50004 => some 1 | 0x50005 => some 1 | 0x50006 => some 1
  | 0x60001 => some 0 | 0x60002 => some 0 | 0x60003 => some 0
  | 0x70001 => some 1 | 0x70002 => some 1 | 0x70003 => some 1 | 0x70004 => some 1
  | 0x80001 => some 0 | 0x80002 => some 0 | 0x80010 => some 0 | 0x80020 => some 0
  | _ => none

/-- INVALIDATE's fields (Table 10.7). -/
def invReserved (d : Bytes) : Bool := byteAt d 32 / 2 == 0 && allZero (slice d 33 7) && allZero (slice d 56 8)

/-- The reserved fields of the body are zero (R8). -/
def bodyReserved (d : Bytes) : Bool :=
  match dClass d with
  | 1 => moverReserved d
  | 2 =>
    match dOpcode d with
    | 2 => attReserved d
    | 6 => openReserved d
    | 7 => closeReserved d
    | 8 => kvwReserved d
    | 9 => settleReserved d
    | _ => sailReserved d
  | 3 => launchReserved d
  | 4 => meshReserved d
  | 5 => locketReserved d
  | 6 => if dOpcode d = 1 then scatterReserved d else maintReserved d
  | 7 => remoteReserved d
  | _ =>
    match dOpcode d with
    | 1 => allZero (slice d 32 32)
    | 2 => allZero (slice d 37 3) && allZero (slice d 48 16)
    | 0x10 => invReserved d
    | _ => hintReserved d

/-- Identifiers are in range (R9, Table 0.5): the clasps of the header, and the slot a class 0x2 descriptor names. -/
def idsOk (d : Bytes) : Bool :=
  decide (dWait d < 16384) && (decide (dSignal d < 16384) || dSignal d == noClasp) && (!namesSlot d || decide (dSlot d < 1024))

/-- Check 6 of Table 9.7 fails: a clasp outside the range of the ring's partition. -/
def State.claspForeign (s : State) (p : Nat) (d : Bytes) : Bool :=
  (dThreshold d != 0 && !s.ownsClasp p (dWait d)) || (dSignal d != noClasp && !s.ownsClasp p (dSignal d))

/-- Checks 1 to 6 of Table 9.7 for a descriptor of a ring of partition `p`. -/
def State.headerStatus (s : State) (p : Nat) (d : Bytes) : Nat :=
  firstStatus [
    (dVersion d != 1, 7),
    (keySize (dKey d) != some (dSize d), 6),
    (decide (16 ≤ dFlags d) || !bodyReserved d || !idsOk d, 6),
    (bit (dThreshold d) 63 || (dThreshold d == 0 && dWait d != 0), 6),
    (dPartition d != p, 3),
    (s.claspForeign p d, 3)]

/-! ### The class's own checks -/

/-- The range an INVALIDATE names (R345, R346). -/
def invRangeOf (d : Bytes) (pasid : Nat) : InvRange := ⟨pasid, bit (byteAt d 32) 0, fieldLe d 40 8, fieldLe d 48 8⟩

/-- A range of an invalidation is in form (R346, Table 10.7). -/
def invOk (r : InvRange) : Bool :=
  if r.whole then r.va == 0 && r.len == 0
  else r.va % 4096 == 0 && decide (r.va < 2 ^ 56) && r.len % 4096 == 0 && decide (r.len ≤ 2 ^ 56 - r.va)

/-- The checks of class 0x8. -/
def State.controlStatic (s : State) (p : Nat) (d : Bytes) : Nat :=
  if dSpeculative d || dPencil d || dStaged d then 6
  else match dOpcode d with
    | 2 => firstStatus [(decide (2 < byteAt d 36) || decide (16384 ≤ fieldLe d 32 4), 6), (!s.ownsClasp p (fieldLe d 32 4), 3)]
    | 0x10 => if invOk (invRangeOf d 0) then 0 else 6
    | 0x20 => hintStatic d
    | _ => 0

/-- The flag bits of the slot and cache opcodes (R78). -/
def slotFlagsOk (d : Bytes) : Bool := !dSpeculative d && (dPencil d == (dOpcode d == 8))

/-- Check 7 of Table 9.7, as far as it needs no translation: status and completion detail. -/
def State.classStatus (s : State) (p : Nat) (d : Bytes) : Nat × Nat :=
  match dClass d with
  | 1 => (s.moverStatic p d, 0)
  | 2 =>
    match dOpcode d with
    | 2 => (s.attStatic p d (fun _ => s.reductionFree p d), 0)
    | 6 => if slotFlagsOk d then s.openStatic p d else (6, 0)
    | 7 => (if slotFlagsOk d then s.closeStatic p d else 6, 0)
    | 8 => (if slotFlagsOk d then s.kvwStatic p d else 6, 0)
    | 9 => (if slotFlagsOk d then s.settleStatic p d else 6, 0)
    | _ => (orStatus (s.sailStatic p d) (s.engineStatus p (sailEngine d)), 0)
  | 3 => (s.launchStatic p d, 0)
  | 4 => (s.meshStatic p d, 0)
  | 5 => (s.locketStatic p d, 0)
  | 6 => (if dOpcode d = 1 then s.scatterStatic p d else s.maintStatic p d, 0)
  | 7 => (s.remoteStatic p d, 0)
  | _ => (s.controlStatic p d, 0)

/-- The ranges of a descriptor of partition `p` (R16, R334). -/
def State.descRanges (s : State) (p : Nat) (d : Bytes) : List Range :=
  let ws := s.chkWindows p
  match dClass d with
  | 1 => moverRanges ws d
  | 2 =>
    match dOpcode d with
    | 2 => ((attOpnds d (s.slot (dSlot d)).record).map (opndRanges ws)).flatten
    | 8 =>
      let r := (s.slot (dSlot d)).record
      opndRanges ws (kvSrc d r false) ++ opndRanges ws (kvSrc d r true)
    | 6 => []
    | 7 => []
    | 9 => []
    | _ => sailRanges ws d
  | 3 => s.meshRanges ws p d
  | 4 => s.meshRanges ws p d
  | 5 => locketRanges d
  | 6 => if dOpcode d = 1 then scatterRanges ws d else []
  | 7 => remoteRanges ws d
  | _ => []

/-- The pieces of a descriptor whose ranges are cut by piece (R61, R223, R258, R377, R428). -/
def piecesOf (ws : List ChkWindow) (d : Bytes) : List (List Range) :=
  match dClass d with
  | 1 => moverPieces ws d
  | 2 => if [1, 3, 4, 5].contains (dOpcode d) then (List.range (sailCount d)).map (sailPiece ws d) else []
  | 5 => (List.range (kChunks d)).map (locketPiece d)
  | 6 => if dOpcode d = 1 then (List.range (scatterPieces d)).map (scatterPiece ws d) else []
  | 7 => (List.range (remoteData d)).map (remotePiece ws d)
  | _ => []

/-- The ranges of piece `k` of flight `x` (R336): every piece of an ATTEND holds its query, output and carry ranges, and a descriptor
that has no piece of R61 is one piece. [DESIGN CHOICE, log 42] -/
def State.pieceRanges (s : State) (x : Flight) (k : Nat) : List Range :=
  match dClass x.desc with
  | 2 => if [1, 3, 4, 5].contains (dOpcode x.desc) then sailPiece x.windows x.desc k else s.descRanges x.part x.desc
  | 3 => s.descRanges x.part x.desc
  | 4 => s.descRanges x.part x.desc
  | _ => (piecesOf x.windows x.desc).getD k []

/-- Ranges as the checks of R416 take them: the destinations of encryptions and of RELEASE are exempt. -/
def exempted (d : Bytes) (rs : List Range) : List Range := if sealExempt d then rs.map (fun r => { r with write := false }) else rs

/-- The ranges of a descriptor as those checks take them. -/
def State.checkedRanges (s : State) (p : Nat) (d : Bytes) : List Range := exempted d (s.descRanges p d)

/-- All the checks that need no translation: status and detail; a range that needs the atomic right needs it granted (R335). -/
def State.staticStatus (s : State) (p : Nat) (d : Bytes) : Nat × Nat :=
  let h := s.headerStatus p d
  if h ≠ 0 then (h, 0)
  else
    let c := s.classStatus p d
    if c.1 ≠ 0 then c
    else
      let r := worst ((s.checkedRanges p d).map (s.rangeStatic p))
      if r ≠ 0 then (r, 0)
      else if (s.descRanges p d).any (fun r => r.atomic) && !(SMap.get {} s.xlat.part p : XlatPart).atomicNow then (3, 0)
      else (0, 0)

/-- What a piece pins that counts against the limit of R337: of a SCATTER_ADD its records, since which target pages it needs follows from
their data. [DESIGN CHOICE, log 42] -/
def countedPins (rs : List Range) : List Range := rs.filter (fun r => !r.atomic)

/-- A piece of the descriptor needs more translations than one piece can pin (R337). -/
def State.tooMany (s : State) (p : Nat) (d : Bytes) : Bool :=
  let rs := s.descRanges p d
  s.tooManyPins p (countedPins rs) && (dKey d == 0x20002 || (piecesOf (s.chkWindows p) d).any (fun rs => s.tooManyPins p (countedPins rs)))

/-- What a class checks of its translated ranges beside R222 (R256, R376, R425). -/
def State.classPlaced (s : State) (p : Nat) (d : Bytes) : Nat :=
  match dClass d with
  | 5 => s.locketPlaced p d
  | 6 => if dOpcode d = 1 then s.scatterPlaced p d else 0
  | 7 => s.remotePlaced p d
  | _ => 0

/-- The checks that go by the translated ranges (R86, R222, R239, R256, R330, R376, R415, R416, R425), and the limit of R337. -/
def State.placedStatus (s : State) (p : Nat) (d : Bytes) : Nat :=
  orStatus (worst [worst ((s.checkedRanges p d).map (s.rangePlaced p)), s.classPlaced p d]) (if s.tooMany p d then 6 else 0)

/-! ### Pages (R334, Table 10.4) -/

/-- The pages a descriptor needs, with their rights. -/
def State.pageNeeds (s : State) (p : Nat) (d : Bytes) : List PageNeed := needsOf (s.descRanges p d)

/-! ### Events of a refused range (Tables 3.9, 7.8, 13.12) -/

/-- The device memory runs of a descriptor's ranges, with whether they are written. -/
def State.devRuns (s : State) (p : Nat) (d : Bytes) : List (Nat × Nat × Bool) :=
  let own := if dKey d = 0x20006 then [(openAddr d, 256, false)] else []
  own ++ ((s.checkedRanges p d).map (fun r =>
    match r.space with
    | 4 => [(r.addr, r.len, r.write)]
    | 0 => ((s.placesOfVa (s.part p).pasid r.addr r.len false false).getD []).filterMap (fun x =>
        match x.1 with
        | .dev a => some (a, x.2, r.write)
        | _ => none)
    | _ => [])).flatten

/-- The event of device memory that a descriptor of partition `p` was refused with status `st`. -/
def State.postRefusedAt (s : State) (p : Nat) (d : Bytes) (st a n : Nat) : State :=
  let tag := [(8, dTag d)]
  match st with
  | 3 => match s.kvrOf a n with
    | some q => s.postAccess 0x3012 q (s.pcOfDev a) a 4 tag
    | none => s
  | 8 => if s.meetsHole a n then s.postAccess 0x1010 p 0xFFFF a 4 tag else s
  | 0xA => match s.locket.regions.find? (fun e => e.2.state != 0 && (slabsOf a n).any (fun i => e.2.slabs.contains i)) with
    | some e => s.postAccess 0x7001 p 0x7000 a 4 ([(1, e.1)] ++ tag)
    | none => s
  | _ => s

/-- The event of a descriptor whose range has been refused with status `st` for a KV region, a donated slab or a sealed region. [DEDUCED, log 61] -/
def State.postRefused (s : State) (p : Nat) (d : Bytes) (st : Nat) : State :=
  match (s.devRuns p d).find? (fun r => s.devStatus p r.1 r.2.1 r.2.2 == st) with
  | none => s
  | some (a, n, _) => s.postRefusedAt p d st a n

/-! ### Resting domains (R465, Table 14.7) -/

/-- The idle modes whose domains a descriptor needs: the mesh, the engines and the Casket (0, 1), memory (2), links T0 to T7 (3). [DESIGN CHOICE, log 25] -/
def State.modesNeeded (s : State) (p : Nat) (d : Bytes) : List Nat :=
  let near := (s.descRanges p d).any (fun r => r.space == 1 || r.space == 2)
  (if (2 ≤ dClass d ∧ dClass d ≤ 4) ∨ near then [0, 1] else []) ++ (if dClass d = 8 then [] else [2]) ++
    (if dClass d = 7 ∧ s.firstHop d < 8 then [3] else [])

/-- The modes in force whose domains the descriptors need. [DESIGN CHOICE, log 25] -/
def State.restingFor (s : State) (p : Nat) (ds : List Bytes) : List Nat :=
  (nub (ds.map (s.modesNeeded p)).flatten).filter (fun m => bit s.pwr.idle m)

/-! ### Work that ends before it is done (R28, R338) -/

/-- The content of what a non-speculative descriptor may have written before it was stopped is not defined: the destinations of its pieces up
to the one that runs take free bytes, as far as they can be reached.  A KV_WRITE and an ATTEND write nothing before they commit, and the
updates of a SCATTER_ADD stay applied (R258). [DESIGN CHOICE, log 20] -/
def State.blur (s : State) (x : Flight) : State :=
  let d := x.desc
  if dSpeculative d ∨ dClass d = 6 then s
  else
    let y := x.strand 0
    s.blurRanges x.part (((piecesOf x.windows d).take (y.piece + flag (y.isRunning && y.pinned))).flatten)

/-- A partition reset stops flight `x`: of the piece that runs, what has been written, and with or without poison, is not defined (R276,
steps 1 and 2). [DESIGN CHOICE, log 56] -/
def State.spoilPiece (s : State) (x : Flight) : State :=
  let d := x.desc
  let y := x.strand 0
  if dSpeculative d ∨ dClass d = 6 ∨ !(y.isRunning && y.pinned && !y.worked) then s
  else s.fillRanges x.part freePoison ((piecesOf x.windows d).getD y.piece [])

end Sys2Proof.Machine
end

