-- ==== Sys2Proof/Machine/Xlat.lean ====
section
/-! DEFINITION. Translation completions, faults and page requests, invalidations, PRI (R332 to R348, 10_translation.md). -/

namespace Sys2Proof.Machine

/-! ### Waiters that end (R338) -/

/-- XLAT_UNRESOLVED (Table 10.8), at most once per partition per tick. -/
def State.postUnresolved (s : State) (p unit tag page cause : Nat) : State :=
  s.postOnce (fun e => e.part == p) 0x4001 1 p unit (detail [(8, tag), (8, page), (1, cause)])

/-- The tag that names a flight in XLAT_UNRESOLVED: an attached move is named by its consumer (R227). -/
def State.tagOf (s : State) (x : Flight) : Nat :=
  match x.consumer with
  | none => dTag x.desc
  | some c => ((s.flight c).map (fun y => dTag y.desc)).getD (dTag x.desc)

/-- The descriptor among those at a ring's head that needs the page: its index. -/
def State.needIndex (s : State) (p : Nat) (ds : List Bytes) (page : Nat) : Nat :=
  (ds.findIdx? (fun d => (s.pageNeeds p d).any (fun n => n.page == page))).getD 0

/-- A waiter on a page ends with a status and a cause (R338, R227, R317, R535). -/
def State.endWait (s : State) (w : Wait) (page status cause : Nat) : State :=
  match w.who with
  | .piece f unit =>
    match s.flight f with
    | none => s
    | some x =>
      (((((s.dropReads f).dropWaits f).blur x).dropRemote f).endFlight f status x.detail).postUnresolved x.part unit (s.tagOf x) page cause
  | .admission i =>
    let r := s.ring i
    match r.read.getLast? with
    | none => s
    | some d =>
      if r.state ≠ 1 then s
      else
        let k := s.needIndex r.partition r.read page
        let s := s.postUnresolved r.partition 0xFFFF (dTag d) page cause
        let s := if k + 1 < r.read.length then
            s.post 0x2062 2 r.partition 0xFFFF (detail [(8, dTag d), (1, k), (1, status)]) else s
        s.faultHead i status
  | .ahead _ _ => s
  | .ring i => (s.stopRing i 2).dropWrites (.ringHead i)
  | .cring c => (s.stopCRing c 2).dropWrites (.completionRing c)
  | .evt => s.dropWrites .eventRing

/-- A waiter that no page request serves: a ring's or the event ring's (R535). [DEDUCED, log 44] -/
def Wait.control (w : Wait) : Bool :=
  match w.who with
  | .ring _ => true
  | .cring _ => true
  | .evt => true
  | _ => false

/-- A waiter joins the fault of a page (R340). -/
def State.joinFault (s : State) (pasid page : Nat) (w : Wait) : State :=
  let fs := if s.xlat.faults.any (fun f => f.pasid == pasid && f.page == page) then s.xlat.faults
    else s.xlat.faults ++ [⟨pasid, page, [], none, false, false⟩]
  { s with xlat := { s.xlat with faults := fs.map (fun f =>
      if f.pasid == pasid && f.page == page then { f with waits := addWait f.waits w } else f) } }

/-- The waiter looks ahead of need: a fault it finds is dropped without trace (R343). -/
def Wait.isAhead (w : Wait) : Bool :=
  match w.who with
  | .ahead _ _ => true
  | _ => false

/-- A page is found faulted for a waiter (R338, R331, R341, R344). -/
def State.foundFault (s : State) (pasid page : Nat) (w : Wait) : State :=
  if w.isAhead then s
  else if w.control then s.endWait w page 2 0
  else if w.held then s.joinFault pasid page w
  else if 3 ≤ w.tries then s.endWait w page 2 4
  else if s.xlat.halted then s.endWait w page 2 2
  else if !s.host.cfg.pri then s.endWait w page 2 1
  else s.joinFault pasid page w

/-! ### The second level (R333, R334) -/

/-- The second-level entry a completion gives for the page it answers: at most 1 GiB (R333). -/
def completionEntry (t : TransCompletion) (page epoch : Nat) : TlbEntry :=
  let k := min t.log2 30
  let va := page / 2 ^ k * 2 ^ k
  ⟨t.pasid, va, k, t.addr / 2 ^ t.log2 * 2 ^ t.log2 + va % 2 ^ t.log2, t.read, t.write, epoch, false, [], false⟩

/-- A look-ahead has its answer: a translation with the rights it needs is held in the unit's TLB alone, and nothing else comes of it
(R343). -/
def State.judgeAhead (s : State) (t : TransCompletion) (page : Nat) (w : Wait) (f j : Nat) : State :=
  match s.flight f with
  | none => s
  | some x =>
    if t.untranslatedOnly || (w.read && !t.read) || (w.write && !t.write) then s
    else s.installL1 (x.tlb j) { completionEntry t page 0 with ahead := true }

/-- One waiter judged by the completion of its page (Table 10.5, R332, R340). -/
def State.judgeWait (s : State) (t : TransCompletion) (noWrite : Bool) (page : Nat) (w : Wait) : State :=
  match w.who with
  | .ahead f j => s.judgeAhead t page w f j
  | _ =>
  if t.untranslatedOnly then (if w.control then s.endWait w page 2 0 else s.endWait w page 2 5)
  else if !t.read && !t.write then s.foundFault t.pasid page w
  else if (w.read && !t.read) || (w.write && !t.write && !noWrite) then
    if !w.control && w.tries != 0 && !w.held then s.endWait w page 3 7 else s.foundFault t.pasid page w
  else if w.write && !t.write then s.askPage t.pasid page w
  else s

/-- The waiters of one request are judged; unadmitted descriptors take the outcome of a re-translation at the next Admit
(Table 10.5, R340). -/
def State.judgeReq (s : State) (t : TransCompletion) (r : XlatReq) : State :=
  r.waits.foldl (fun s w =>
    if r.hold && w.unadmitted then { s with xlat := { s.xlat with verdicts := s.xlat.verdicts ++ [⟨t, r.noWrite, r.page, w⟩] } }
    else s.judgeWait t r.noWrite r.page w) s

/-- The outcomes that waited for this Admit (Table 10.5). [DEDUCED, log 41] -/
def State.giveVerdicts (s : State) : State :=
  let vs := s.xlat.verdicts
  vs.foldl (fun s v => s.judgeWait v.answer v.noWrite v.page v.wait) { s with xlat := { s.xlat with verdicts := [] } }

/-- A Translation Completion is taken (R334, R342, R348). -/
def State.takeCompletion (s : State) (t : TransCompletion) : State :=
  match s.xlat.reqs.find? (fun q => q.sent && q.pasid == t.pasid && q.page == pageBase t.va) with
  | none => s
  | some q =>
    let isQ (r : XlatReq) : Bool := r.pasid == q.pasid && r.page == q.page
    if q.discard then
      let reqs := s.xlat.reqs.map (fun r => if isQ r then { r with discard := false, sent := false } else r)
      let s : State := { s with xlat := { s.xlat with reqs := reqs } }
      s.sendReqs
    else if q.epoch ≠ SMap.get 0 s.xlat.epochs 49 then
      let s : State := { s with xlat := { s.xlat with reqs := s.xlat.reqs.filter (fun r => !isQ r) } }
      (s.postOnce (fun _ => true) 0x4003 0 0xFF 0xFFFF (detail [(4, t.pasid), (2, 0), (1, 2)])).sendReqs
    else
      let present := (t.read || t.write) && !t.untranslatedOnly
      let real (r : XlatReq) : Bool := r.waits.isEmpty || r.waits.any (fun w => !w.isAhead)
      let e := completionEntry t q.page q.epoch
      let covered (r : XlatReq) : Bool := isQ r ||
        (present && real q && r.pasid == t.pasid && decide (e.va ≤ r.page) && decide (r.page < e.va + 2 ^ e.log2) && !r.discard)
      let done := s.xlat.reqs.filter covered
      let s : State := { s with xlat := { s.xlat with reqs := s.xlat.reqs.filter (fun r => !covered r) } }
      let s := if present && done.any real then s.installL2 e else s
      let s := done.foldl (fun s r => s.judgeReq t r) s
      s.sendReqs

/-! ### Page requests (R338 to R341) -/

/-- Every waiter that is not held privately on the faults that satisfy `p` ends with status 0x02 and a cause; the held ones stay. -/
def State.endFaults (s : State) (p : PageFault → Bool) (cause : Nat) : State :=
  let hit := s.xlat.faults.filter p
  let keep := s.xlat.faults.filterMap (fun f =>
    if p f then
      (let ws := f.waits.filter (fun w => w.held)
       if ws.isEmpty then none else some { f with waits := ws, group := none, askedRead := false, askedWrite := false })
    else some f)
  let s : State := { s with xlat := { s.xlat with faults := keep } }
  hit.foldl (fun s f => (f.waits.filter (fun w => !w.held)).foldl (fun s w => s.endWait w f.page 2 cause) s) s

/-- A group is outstanding no more. -/
def State.dropGroup (s : State) (g : Nat) : State :=
  { s with xlat := { s.xlat with groups := s.xlat.groups.filter (fun x => x.index != g) } }

/-- The faults of a group that has been answered Success go to re-translation, each page once (R338, R340). [DEDUCED, log 41] -/
def State.retranslate (s : State) (g : Nat) : State :=
  let hit := s.xlat.faults.filter (fun f => f.group == some g)
  let reqs := hit.map (fun f =>
    (⟨f.pasid, f.page, false, SMap.get 0 s.xlat.epochs 49, false, false,
      f.waits.map (fun w => if w.held || (w.read && !f.askedRead) || (w.write && !f.askedWrite) then w
        else { w with tries := w.tries + 1 }), true⟩ : XlatReq))
  let s : State := { s with xlat := { s.xlat with
      faults := s.xlat.faults.filter (fun f => f.group != some g), reqs := s.xlat.reqs ++ reqs } }
  s.sendReqs

/-- PRI halts after a Response Failure (R341). -/
def State.haltPri (s : State) (pasid g : Nat) : State :=
  let s : State := { s with xlat := { s.xlat with halted := true, groups := [] } }
  (s.post 0x4002 2 0xFF 0xFFFF (detail [(4, pasid), (2, g)])).endFaults (fun _ => true) 2

/-- PAGE_REQUEST_RESPONSE (R338, R341). -/
def execPageRequestResponse (pasid group : Nat) (code : PrgCode) (s : State) : Host.Outcome State Fault Refusal :=
  .next (
    match s.xlat.groups.find? (fun x => x.index == group && x.pasid == pasid) with
    | none => s.postOnce (fun _ => true) 0x4003 0 0xFF 0xFFFF (detail [(4, pasid), (2, group), (1, 1)])
    | some _ =>
      let s := s.dropGroup group
      match code with
      | .success => s.retranslate group
      | .invalid => s.endFaults (fun f => f.group == some group) 1
      | .failure => s.haltPri pasid group)

/-- PAGE_REQUEST_TIMEOUT (R339): a group unanswered at S of its last tick; its waiters' status is decided in the next. [DESIGN CHOICE, log 3] -/
def execPageRequestTimeout (group : Nat) (s : State) : Host.Outcome State Fault Refusal :=
  .next (
    match s.xlat.groups.find? (fun x => x.index == group) with
    | none => s
    | some g =>
      if g.dueTick < s.tick.count ∨ (g.dueTick = s.tick.count ∧ s.tick.phase = 2) then
        (s.dropGroup group).endFaults (fun f => f.group == some group) 3
      else s)

/-- The faults the next batch may carry: found, with a waiter that is not held, and not requested; oldest first, as far as the host's
allocation goes (R339, R340). -/
def State.batchFaults (s : State) : List PageFault :=
  let out := (s.xlat.groups.map (fun g => g.requests)).sum
  (s.xlat.faults.filter (fun f => f.group.isNone && f.waits.any (fun w => !w.held))).take (s.host.cfg.allocation - out)

/-- The next group index from `i` on that is not outstanding. -/
def State.nextGroup (s : State) (i : Nat) : Option Nat :=
  ((List.range 512).map (fun k => (i + k) % 512)).find? (fun k => !s.xlat.groups.any (fun g => g.index == k))

/-- One page request counted for the partitions that wait on it (Tables 10.14, 10.15). -/
def State.countFault (s : State) (f : PageFault) (read write : Bool) : State :=
  (List.range 16).foldl (fun s p =>
    match f.waits.find? (fun w => !w.held && w.part == p) with
    | none => s
    | some w =>
      let unit := match w.who with
        | .piece _ u => u
        | _ => 0xFFFF
      { s with xlat := { s.xlat with part := SMap.upd {} s.xlat.part p (fun y => { y with
          faults := satAdd max32 y.faults 1, lastUnit := unit, lastValid := true, lastWrite := write, lastRead := read
          lastPage := f.page / 4096 }) } }) s

/-- One page request group of the batch (R339). -/
def State.sendGroup (s : State) (pasid : Nat) (fs : List PageFault) : State :=
  match s.nextGroup s.xlat.nextPrg with
  | none => s
  | some g =>
    let fs := sortBy (fun f => f.page) (fs.filter (fun f => f.pasid == pasid))
    let rights (f : PageFault) : Bool × Bool :=
      ((f.waits.filter (fun w => !w.held)).any (fun w => w.read), (f.waits.filter (fun w => !w.held)).any (fun w => w.write))
    let s : State := { s with
      out := s.out ++ fs.mapIdx (fun i f => Out.pageRequest g pasid f.page (rights f).1 (rights f).2 (i + 1 == fs.length))
      xlat := { s.xlat with
        nextPrg := (g + 1) % 512
        groups := s.xlat.groups ++ [⟨g, pasid, fs.length, s.tick.count + s.xlat.priTimeout⟩]
        faults := s.xlat.faults.map (fun f =>
          if fs.any (fun y => y.pasid == f.pasid && y.page == f.page) then
            { f with group := some g, askedRead := (rights f).1, askedWrite := (rights f).2 } else f) } }
    fs.foldl (fun s f => s.countFault f (rights f).1 (rights f).2) s

/-- The fault batch of a Settle phase (R339): one group for each PASID, in ascending PASID. [DEDUCED, log 44] -/
def State.faultBatch (s : State) : State :=
  let fs := s.batchFaults
  (sortBy id (nub (fs.map (fun f => f.pasid)))).foldl (fun s p => s.sendGroup p fs) s

/-! ### Invalidation (R345 to R347) -/

/-- The page [va, va + 2^log2) of a PASID matches an invalidation. -/
def invMatches (r : InvRange) (pasid va log2 : Nat) : Bool :=
  r.pasid == pasid && (r.whole || meets r.va r.len va (2 ^ log2))

/-- Invalidations of one kind that run: from the host, or others. [DEDUCED, log 43] -/
def State.invCount (s : State) (ats : Bool) : Nat :=
  (s.xlat.invs.filter (fun i => match i.source with
    | .ats _ => ats
    | _ => !ats)).length

/-- An invalidation starts (Table 10.6, step 1). -/
def State.invalidate (s : State) (src : InvSource) (r : InvRange) : State :=
  let hit (e : TlbEntry) : Bool := invMatches r e.pasid e.va e.log2 && !e.doomed
  let removed := (s.xlat.l2.filter hit).length + (s.xlat.l1.filter (fun e => hit e.2)).length
  let holders := ((s.xlat.l2.filter (fun e => invMatches r e.pasid e.va e.log2)).map (fun e => e.pins)).flatten.eraseDups
  let mark (e : TlbEntry) : TlbEntry := if hit e then { e with doomed := true } else e
  { s with xlat := { s.xlat with
      l2 := (s.xlat.l2.map mark).filter (fun e => !(e.doomed && e.pins.isEmpty))
      l1 := (s.xlat.l1.map (fun e => (e.1, mark e.2))).filter (fun e => !(e.2.doomed && e.2.pins.isEmpty))
      reqs := s.xlat.reqs.map (fun q => if q.sent && invMatches r q.pasid q.page 12 then { q with discard := true } else q)
      invs := s.xlat.invs ++ [⟨src, r, removed, holders.length, holders⟩] } }

/-- ATS_INVALIDATE_REQUEST (R345): at most 32 from the host run at once (R331). -/
def execAtsInvalidateRequest (itag : Nat) (r : InvRange) (s : State) : Host.Outcome State Fault Refusal :=
  .next (if s.host.linkUp ∧ s.invCount true < 32 then s.invalidate (.ats itag) r else s)

/-- INVALIDATE (R345): it starts at the start of the Run phase after its eligibility, under its partition's PASID. -/
def execInvalidate (f : Nat) (s : State) : Host.Outcome State Fault Refusal :=
  .next (
    match s.controlReady f 0x80010 with
    | none => s
    | some x =>
      if s.invCount false < 32 then
        (s.updFlight f (fun y => { y with state := .running s.tick.count })).invalidate (.descriptor f)
          (invRangeOf x.desc (s.part x.part).pasid)
      else s)

/-- XLAT_INVALIDATE (R345, R346): it starts when the command is accepted; the result follows the drain. -/
def execXlatInvalidate (s : State) : Host.Outcome State Fault Refusal :=
  .next (
    if s.xlat.invs.any (fun i => i.source == .mailbox) then s
    else s.mailbox 0x400 24
      (fun b =>
        let w := bit (byteAt b 4) 0
        let va := fieldLe b 8 8
        let n := fieldLe b 16 8
        [(0, decide (fieldLe b 0 4 < 2 ^ 20)), (4, byteAt b 4 / 2 == 0)] ++ reservedChecks b 5 8 ++
        [(8, if w then va == 0 else va % 4096 == 0 && decide (va < 2 ^ 56)),
         (16, if w then n == 0 else n % 4096 == 0 && decide (n ≤ 2 ^ 56 - va))])
      (fun b => if s.invCount false < 32 then
          s.invalidate .mailbox ⟨fieldLe b 0 4, bit (byteAt b 4) 0, fieldLe b 8 8, fieldLe b 16 8⟩ else s))

/-- Writes to host memory that have been issued or wait (R305). [DEDUCED, log 43] -/
def State.hostWritesOut (s : State) : Bool :=
  s.host.writes.any (fun w => match w with
    | .toHost _ _ _ _ _ => true
    | _ => false)

/-- INVALIDATION_DRAINED (R345, Table 10.6, steps 4 and 5): the invalidation in the `id`-th place has drained; a host request is
answered at once, a descriptor and the mailbox in their Settle phase. [DEDUCED, log 43] -/
def execInvalidationDrained (id : Nat) (s : State) : Host.Outcome State Fault Refusal :=
  .next (
    match s.xlat.invs[id]? with
    | none => s
    | some i =>
      if !i.waits.isEmpty || s.hostWritesOut then s
      else
        let s : State := { s with xlat := { s.xlat with invs := s.xlat.invs.eraseIdx id } }
        match i.source with
        | .ats itag => s.emit (.invalidateCompletion itag)
        | .descriptor f => s.endFlight f 0 (i.removed % 2 ^ 32 * 2 ^ 32 + i.pieces)
        | .mailbox => if s.mbox.busy.any (fun b => b.opcode == 0x400) then s.mboxOk (natLe 8 i.removed) else s)

/-- PRI_RESTART (R341, R346): the halt is cleared from the next Admit; result 0x04 if PRI is not halted. -/
def execPriRestart (s : State) : Host.Outcome State Fault Refusal :=
  .next (s.mailbox 0x401 0 (fun _ => []) (fun _ =>
    if s.xlat.halted then ({ s with xlat := { s.xlat with restart := true } }).mboxOk [] else s.mboxEnd 4 []))

end Sys2Proof.Machine
end

