-- ==== Sys2Proof/Machine/Admit.lean ====
section
/-! DEFINITION. Admission: samples of the rings' cells, the reading of descriptors, attached moves, the checks, the limits and the
queueing (R16 to R18, R226, R227, R312 to R319, R535, R536), and the arrivals that let it go on. -/

namespace Sys2Proof.Machine

/-! ### When the control plane scans -/

/-- Admission runs: the device is released, outside the safe state, the recovery state, a warm reset and D3hot, and a level has
been agreed (R10, R298, R309, R476, R478, R504). -/
def State.admitting (s : State) : Bool :=
  s.ctl.pwrgood && s.ctl.released && !s.keel.safe && s.ctl.warm.isNone && (s.ctl.warmDue.isNone || s.ctl.warmDue == some 1) &&
    !s.ctl.recovery && s.ctl.level != 0 && !s.host.d3hot

/-- Ring `i` is scanned in this tick (R311, R317, R276). -/
def State.scans (s : State) (i : Nat) : Bool :=
  let r := s.ring i
  r.state == 1 && (s.part r.partition).scanned && (SMap.get none s.care.resets r.partition : Option PartReset).isNone

/-! ### Samples of cells (R16, R317, R319, R536) -/

/-- A read at this address has been made: what was corrected is counted, and its host lines are kept no longer (R242, R273, R305). -/
def State.usedVa (s : State) (pasid va n : Nat) : State :=
  match s.liveOf pasid va n true false with
  | some ps => (s.heedPlaces ps).useCtl (hostLinesOf ps)
  | none => s

/-- Sample the head of completion ring `c`. -/
def State.sampleCRing (s : State) (c : Nat) : State :=
  let r := s.cring c
  if r.sampled || !(r.state == 1 || r.state == 2) then s
  else
    let pasid := (s.part r.partition).pasid
    match s.ctlRead r.partition pasid r.cell 4 (.cring c) with
    | .wait s' => s'
    | .bad => s.stopCRing c 2
    | .poison => s.stopCRing c 3
    | .data bs =>
      let s := (s.usedVa pasid r.cell 4).updCRing c (fun r => { r with head := leNat bs, sampled := true })
      if r.size < ptrSub r.written (leNat bs) then s.stopCRing c 1 else s

/-- Sample the head of the event ring: a read that fails leaves it as a full ring (R536). [DESIGN CHOICE, log 30] -/
def State.sampleEvt (s : State) : State :=
  if s.evt.sampled || !s.evt.running then s
  else
    match s.ctlRead 0xFF s.evt.pasid s.evt.cell 4 .evt with
    | .wait s' => s'
    | .data bs =>
      let s := s.usedVa s.evt.pasid s.evt.cell 4
      { s with evt := { s.evt with head := leNat bs, sampled := true } }
    | _ => s

/-- Sample the tail of submission ring `i`. -/
def State.sampleTail (s : State) (i : Nat) : State :=
  let r := s.ring i
  if r.tail.isSome || !s.scans i then s
  else
    let pasid := (s.part r.partition).pasid
    match s.ctlRead r.partition pasid r.cell 4 (.ring i) with
    | .wait s' => s'
    | .bad => s.stopRing i 2
    | .poison => s.stopRing i 3
    | .data bs =>
      let s := s.usedVa pasid r.cell 4
      if r.size < ptrSub (leNat bs) r.head then s.stopRing i 1
      else s.updRing i (fun r => { r with tail := some (leNat bs) })

/-! ### Reading descriptors (R314) -/

/-- What a read of the next descriptor gives: the state after what it has asked for or stopped, or the descriptor. -/
inductive DescRead where
  | wait (s : State)
  | notYet
  | desc (d : Bytes)

/-- Read `n` slots of ring `i` from position `pos` on, the first bytes already read being `acc`. -/
def State.readSlots (s : State) (i pos : Nat) : Nat → Bytes → DescRead
  | 0, acc => .desc acc
  | n + 1, acc =>
    let r := s.ring i
    match s.ctlRead r.partition (s.part r.partition).pasid (r.base + 64 * (pos % r.size)) 64 (.ring i) with
    | .wait s' => .wait s'
    | .bad => .wait (s.stopRing i 2)
    | .poison => .wait (s.stopRing i 3)
    | .data bs => State.readSlots s i (pos + 1) n (acc ++ bs)

/-- Read the descriptor of ring `i` at position `pos`: one that extends past the sampled tail is not yet submitted. -/
def State.readDesc (s : State) (i pos tail : Nat) : DescRead :=
  let left := ptrSub tail pos
  if left = 0 then .notYet
  else
    match s.readSlots i pos 1 [] with
    | .desc d => if left < dSlots d then .notYet else s.readSlots i (pos + 1) (dSlots d - 1) d
    | x => x

/-- The host lines of a descriptor that has been read are used. -/
def State.usedSlots (s : State) (i pos n : Nat) : State :=
  let r := s.ring i
  (List.range n).foldl (fun s k => s.usedVa (s.part r.partition).pasid (r.base + 64 * ((pos + k) % r.size)) 64) s

/-- A descriptor that may be an attached move: a mover with the staged flag (R226). [DEDUCED, log 17] -/
def isMove (d : Bytes) : Bool := dClass d == 1 && dStaged d

/-- The descriptors read are whole: their last is no attached move. -/
def groupWhole (ds : List Bytes) : Bool :=
  match ds.getLast? with
  | none => false
  | some d => !isMove d

/-- Charge the examination of `n` descriptors (R18). [DESIGN CHOICE, log 12] -/
def State.examined (s : State) (i n : Nat) : State :=
  let s : State := { s with work := { s.work with budget := s.work.budget - n } }
  s.updRing i (fun r => { r with seen := r.seen + n })

/-- A slot's descriptor is read and joins the ring's read ones: its slots are used and one descriptor is examined (R212). -/
def State.tookDesc (s : State) (i pos : Nat) (d : Bytes) : State :=
  ((s.usedSlots i pos (dSlots d)).examined i 1).updRing i (fun r => { r with read := r.read ++ [d] })

/-- Read on at the head of ring `i` until its group is whole; the Bool says that it is. -/
def State.readGroup (s : State) (i tail : Nat) : Nat → State × Bool
  | 0 => (s, false)
  | fuel + 1 =>
    let r := s.ring i
    if groupWhole r.read then (s, true)
    else if s.work.budget = 0 then (s, false)
    else
      let pos := r.head + (r.read.map dSlots).sum
      match s.readDesc i pos tail with
      | .wait s' => (s', false)
      | .notYet => (s, false)
      | .desc d => State.readGroup (s.tookDesc i pos d) i tail fuel

/-! ### Attached moves (R226) -/

/-- The destination runs of a move lie in the Casket, in normal segments of the partition. -/
def State.moveLands (s : State) (p : Nat) (m : Bytes) : Bool :=
  match dOpcode m with
  | 1 => copyDstSpace m == 1 && (copyDstRuns m).all (fun r => s.casketAllowed p r.1 r.2)
  | 2 => linSpace m == 1 && s.casketAllowed p (linAddr m) (linLen m)
  | _ => false

/-- The group keeps the rules of R226. [DEDUCED, log 17] -/
def State.groupOk (s : State) (p : Nat) (ms : List Bytes) (d : Bytes) : Bool :=
  dClass d != 1 && dStaged d && decide (ms.length ≤ 16) && decide (1 + ms.length ≤ (s.part p).maxInflight) &&
  ms.all (fun m => dWait m == 0 && dThreshold m == 0 && dSignal m == noClasp && dPartition m == dPartition d && !dSpeculative m &&
    s.moveLands p m)

/-- MOVER_STAGE_FAILED (Table 6.5). -/
def State.postStageFailed (s : State) (p : Nat) (d : Bytes) (k st : Nat) : State :=
  s.post 0x2062 2 p 0xFFFF (detail [(8, dTag d), (1, k), (1, st)])

/-! ### Admission of a group -/

/-- A speculative ATTEND or prefetch is admitted whatever the state of its translations (R344). -/
def isSpeculative (d : Bytes) : Bool := dSpeculative d && (dKey d == 0x10001 || dKey d == 0x20002)

/-- Descriptors in flight in all (R18). -/
def State.inflightAll (s : State) : Nat := (s.work.flights.filter (fun x => !x.failed)).length

/-- What is known of the bytes that the implicit staging of a descriptor needs (R228). -/
inductive StageSize where
  | wait (s : State)
  | need (s : State) (n : List (Nat × Nat))

/-- The bytes a descriptor's implicit staging needs; those of a LOAD follow from its image, which admission reads, unless attached moves are
yet to bring it.  An image that is not in form needs none: it is refused when it is staged. [DEDUCED, log 109] -/
def State.stageSize (s : State) (p : Nat) (moves : Bool) (d : Bytes) : StageSize :=
  if dKey d = 0x30001 ∨ dKey d = 0x40002 then .need s (s.stageNeed p d)
  else if dKey d ≠ 0x40001 ∨ moves then .need s []
  else
    match (s.imageOpnds p d).mapM (s.opndPlaces p) with
    | none => .need s []
    | some pss =>
      let ps := pss.flatten
      let lines := hostLinesOf ps
      let miss := lines.filter (fun l => (SMap.get none s.host.ctlLines l).isNone)
      if !miss.isEmpty then .wait (miss.foldl (fun s l => s.askCtl l) s)
      else if s.placesHeld ps then .wait s
      else
        let g := plain (({ s with host := { s.host with lines := s.host.ctlLines } } : State).readPlaces ps)
        .need (s.useCtl lines) (if (imgHeaderBad g (oLen d)).isSome then [] else loadNeed g)

/-- One descriptor of a group becomes a flight (R16, R314); `need`: the bytes its staging needs. -/
def State.queueFlight (s : State) (i : Nat) (d : Bytes) (pos : Nat) (consumer : Option Nat) (need : List (Nat × Nat)) : State :=
  let p := (s.ring i).partition
  let rs := s.descRanges p d
  let x := s.newFlight i d s.work.nextId pos (nub (segsOf rs ++ s.stageSegs p need)) (s.slabsTouched p rs)
  let s : State := { s with work := { s.work with
    nextId := s.work.nextId + 1
    flights := s.work.flights ++ [{ x with consumer := consumer, stage := need }] } }
  s.updPart p (fun y => { y with admitted := (y.admitted + 1) % 2 ^ 32 })

/-- What the admission of a consumer changes at once: the slot of a SLOT_CLOSE is closing (R84). -/
def State.atAdmission (s : State) (d : Bytes) : State :=
  if dKey d = 0x20007 then s.updSlot (dSlot d) (fun y => { y with state := 2 }) else s

/-- The group at the head of ring `i` is admitted: attached moves and their consumer together. -/
def State.admitGroup (s : State) (i : Nat) (ms : List Bytes) (d : Bytes) (need : List (Nat × Nat)) : State :=
  let r := s.ring i
  let cid := s.work.nextId + ms.length
  let s := (ms.foldl (fun (a : State × Nat) m => (a.1.queueFlight i m a.2 (some cid) [], a.2 + dSlots m)) (s, r.head)).1
  let pos := r.head + (ms.map dSlots).sum
  let s := (s.queueFlight i d pos none need).atAdmission d
  let s := s.updCRing r.cring (fun c => { c with held := c.held + 1 })
  (s.dropRingWaits i).updRing i (fun r =>
    { r with head := (pos + dSlots d) % 2 ^ 32, headDue := true, read := [], seen := 0, fail := 0 })

/-- What the checks of one descriptor of a group come to: a status and detail, a page that is not translated, or nothing against it. -/
inductive Check where
  | fails (status dt : Nat)
  | missing
  | ok

/-- Check one descriptor of partition `p` (R316, R334). -/
def State.checkOne (s : State) (p : Nat) (d : Bytes) : Check :=
  let c := s.staticStatus p d
  if c.1 ≠ 0 then .fails c.1 c.2
  else if !isSpeculative d && (s.pageNeeds p d).any (fun n => !s.pageLive (s.part p).pasid n) then .missing
  else
    let st := s.placedStatus p d
    if st ≠ 0 then .fails st 0 else .ok

/-- The checks of the descriptors of a group, the lowest index first: the first that is not passed, with its index (R227). [DEDUCED, log 17] -/
def State.firstCheck (s : State) (p : Nat) (ds : List Bytes) : Option (Nat × Check) :=
  (ds.mapIdx (fun k d => (k, s.checkOne p d))).find? (fun e => match e.2 with
    | .ok => false
    | _ => true)

/-- The events of the descriptor with index `k` of a group that has failed with status `st` (Tables 3.9, 6.5, 7.8, 13.12). -/
def State.postFailed (s : State) (p k : Nat) (ms : List Bytes) (d : Bytes) (st : Nat) : State :=
  let m := ms.getD k d
  let s := if s.headerStatus p m = 0 then s.postRefused p m st else s
  if k < ms.length then s.postStageFailed p d k st else s

/-- The fate of a whole group: it waits, its head ends with a status and detail, or it is admitted; the state carries the events
and the pages asked for. -/
inductive Fate where
  | wait (s : State)
  | fails (s : State) (status dt : Nat)
  | enter (s : State) (need : List (Nat × Nat))

/-- Judge the group at the head of ring `i` (R16, R17, R222, R226 to R228, R312, R316, R334, R465). [DEDUCED, log 17] -/
def State.judge (s : State) (i : Nat) (ms : List Bytes) (d : Bytes) : Fate :=
  let p := (s.ring i).partition
  let all := ms ++ [d]
  let rest := s.restingFor p all
  if !ms.isEmpty && !s.groupOk p ms d then .fails s 6 0
  else match s.firstCheck p all with
    | some (k, .fails st dt) => .fails (s.postFailed p k ms d st) st dt
    | some _ =>
      let needs := ((all.filter (fun m => !isSpeculative m && (s.staticStatus p m).1 == 0)).map (s.pageNeeds p)).flatten.foldl addNeed []
      .wait (rest.foldl (fun s m => s.wake m) (s.askPages (s.part p).pasid p needs (.admission i) false))
    | none =>
      if !rest.isEmpty then .wait (rest.foldl (fun s m => s.wake m) s)
      else match s.stageSize p (!ms.isEmpty) d with
        | .wait s' => .wait s'
        | .need s' need =>
          if !s'.stageFits p need then .fails s' 6 0
          else if s'.inflight p + all.length ≤ (s'.part p).maxInflight ∧ s'.inflightAll + all.length ≤ 4096 then .enter s' need
          else .wait s'

/-- Examine the head of ring `i`; the Bool says that the head has moved. [DESIGN CHOICE, log 12] -/
def State.admitHead (s : State) (i : Nat) : State × Bool :=
  let r := s.ring i
  match r.tail with
  | none => (s, false)
  | some tail =>
    if !s.scans i then (s, false)
    else
      let g := s.readGroup i tail (r.size + 2)
      let s := g.1
      let r := s.ring i
      let due := min r.read.length 17 - r.seen
      if !g.2 || decide (s.work.budget < due) then (s, false)
      else
        let s := s.examined i due
        if !s.slotFree r.cring then (s, false)
        else if r.fail ≠ 0 then (s.failHead i r.fail 0, true)
        else
          match s.judge i r.read.dropLast (r.read.getLastD []) with
          | .wait s' => (s', false)
          | .fails s' st dt => (s'.failHead i st dt, true)
          | .enter s' need => (s'.admitGroup i r.read.dropLast (r.read.getLastD []) need, true)

/-- Admission of ring `i` goes on until its head is blocked (R17). [DESIGN CHOICE, log 13] -/
def State.admitRing (s : State) (i : Nat) : Nat → State
  | 0 => s
  | fuel + 1 =>
    let a := s.admitHead i
    if a.2 then State.admitRing a.1 i fuel else a.1

/-- The rings are examined in order (R16), and one whose head cannot be admitted now blocks no other ring (R17). [DESIGN CHOICE, log 13] -/
def State.admitRings (order : List Nat) (s : State) : State :=
  order.foldl (fun s i => s.admitRing i (s.work.budget + 1)) s

/-- The Admit phase as far as it goes now: samples, then the rings from n mod 256 on (R16). [DESIGN CHOICE, log 13] -/
def State.admitProgress (s : State) : State :=
  if s.tick.phase ≠ 0 then s
  else
    let s := if s.ctl.released then s.sampleEvt else s
    if !s.admitting then s
    else
      let s := (s.work.crings.map (fun e => e.1)).foldl (fun s c => s.sampleCRing c) s
      let order := (List.range 256).map (fun k => (s.tick.count + k) % 256)
      let s := order.foldl (fun s i => s.sampleTail i) s
      State.admitRings order s

/-! ### Arrivals -/

/-- TRANSLATION_COMPLETION (R334): installed, discarded or found faulted; what waited goes on. -/
def execTranslationCompletion (t : TransCompletion) (s : State) : Host.Outcome State Fault Refusal :=
  .next ((s.takeCompletion t).drain.admitProgress)

/-- CXL_CACHE_READ_DATA (R305): the line is there for what asked for it. [DEDUCED, log 29] -/
def execCxlCacheReadData (line : Nat) (data : Bytes) (poison : Bool) (s : State) : Host.Outcome State Fault Refusal :=
  guarded "CXL_CACHE_READ_DATA" (data.length == 64) (
    let s : State := if s.host.asked.contains line then
        { s with host := { s.host with
          asked := s.host.asked.filter (fun l => l != line)
          lines := SMap.set none s.host.lines line (some ⟨data, poison⟩) } }
      else s
    if s.host.ctlAsked.contains line then
      let s : State := { s with host := { s.host with
        ctlAsked := s.host.ctlAsked.filter (fun l => l != line)
        ctlLines := SMap.set none s.host.ctlLines line (some ⟨data, poison⟩) } }
      s.admitProgress
    else s)

/-- GLOBAL_OBSERVATION (R305, R321): the write that was issued has been observed, and the next one goes out. [DEDUCED, log 28] -/
def execGlobalObservation (s : State) : Host.Outcome State Fault Refusal :=
  .next (
    match s.host.writes with
    | .toHost _ _ _ _ true :: rest => (({ s with host := { s.host with writes := rest } } : State).drain).admitProgress
    | _ => s)

end Sys2Proof.Machine
end

