-- ==== Sys2Proof/Machine/Slices.lean ====
section
/-! DEFINITION. The Run phase and the slices: eligibility and the choice of engines, the start of pieces with their pages pinned, the
ends of slices, overruns, and speculation that is not confirmed (R19, R20, R27 to R29, R41, R61, R92, R97, R102, R229, R336, R344). -/

namespace Sys2Proof.Machine

/-! ### Engines (R41, R92, R102) -/

/-- Descriptors and parts queued on engine `n`, those it runs included; `extra` are engines already chosen for further parts. -/
def State.engineQueue (s : State) (n : Nat) (extra : List Nat) : Nat :=
  (s.work.flights.map (fun x => if x.onEngines then (x.strands.filter (fun y => y.state != .ended && y.unit == n)).length else 0)).sum +
    extra.count n

/-- The engine in service of partition `p` with the fewest queued descriptors, the lowest of equals. -/
def State.pickEngine (s : State) (p : Nat) (extra : List Nat) : Option Nat :=
  ((List.range 32).filter (fun n => s.inService n && s.ownsEngine p n)).foldl (fun (best : Option Nat) n =>
    match best with
    | none => some n
    | some b => if s.engineQueue n extra < s.engineQueue b extra then some n else some b) none

/-- The engine of one part: the home engine of its group, or another one if that is not in service or the group has been mapped
out since the slot opened (R92, R102). -/
def State.partEngine (s : State) (p : Nat) (sl : Slot) (extra : List Nat) (j : Nat) : Option Nat :=
  let home := recGroup sl.record j
  if s.inService home && !s.groupMoved sl j then some home else s.pickEngine p extra

/-- The engines of several parts, chosen one after another. [DESIGN CHOICE, log 24] -/
def State.partEngines (s : State) (p : Nat) (sl : Slot) : List Nat → List Nat → Option (List Nat)
  | _, [] => some []
  | extra, j :: js =>
    match s.partEngine p sl extra j with
    | none => none
    | some e => (State.partEngines s p sl (extra ++ [e]) js).map (fun es => e :: es)

/-- The list position whose group a KV_WRITE's page lies in (R88). -/
def kvPart (r d : Bytes) : Nat := partOf r (kPos d / recT r) (kLayer d)

/-- The engines of the strands of a class 0x2 descriptor, or the status that the choice gives it: (status, engines). [DESIGN CHOICE, log 24] -/
def State.chooseEngines (s : State) (x : Flight) : Nat × List Nat :=
  let d := x.desc
  let sl := s.slot (dSlot d)
  let pick (r : Option (List Nat)) : Nat × List Nat :=
    match r with
    | none => (8, [])
    | some es => (0, es)
  match dOpcode d with
  | 2 => pick (s.partEngines x.part sl [] (List.range (recG sl.record)))
  | 8 => pick (s.partEngines x.part sl [] [kvPart sl.record d])
  | _ =>
    let e := sailEngine d
    if e = 0xFF then pick ((s.pickEngine x.part []).map (fun n => [n]))
    else
      let st := s.engineStatus x.part e
      if st = 0 then (0, [e]) else (st, [])

/-- The strands a descriptor begins with: one for each part or engine of class 0x2, one for any other descriptor served in slices. -/
def State.chooseStrands (s : State) (x : Flight) : Nat × List Strand :=
  if x.onEngines then
    let c := s.chooseEngines x
    (c.1, c.2.map (fun e => { unit := e }))
  else (0, if x.sliced then [{}] else [])

/-! ### Eligibility (R19, R26, R97, R194, R229, R322) -/

/-- The wait clasp of a descriptor has reached its threshold, with bit 63 clear. -/
def State.claspMet (s : State) (d : Bytes) : Bool :=
  dThreshold d == 0 || (!claspError (s.clasp (dWait d)) && decide (dThreshold d ≤ claspCount (s.clasp (dWait d))))

/-- The wait clasp of a descriptor carries the error flag. -/
def State.claspBad (s : State) (d : Bytes) : Bool := dThreshold d != 0 && claspError (s.clasp (dWait d))

/-- A queued descriptor is eligible now: it gets its strands, and its attached moves are issued; a status ends it without running. -/
def State.eligible (s : State) (x : Flight) : State :=
  let c := s.chooseStrands x
  let c := if dKey x.desc = 0x40002 ∧ (s.sched x.part).state < 2 then (6, []) else c
  if c.1 ≠ 0 then (s.endFlight x.id c.1 0).updFlight x.id (fun y => { y with confirmed := true })
  else
    let n := s.tick.count
    { s with work := { s.work with flights := s.work.flights.map (fun y =>
        if y.id = x.id then { y with state := .eligible, eligTick := n, strands := c.2 }
        else if y.consumer = some x.id then { y with state := .eligible, eligTick := n, strands := [{}] } else y) } }

/-- The eligibility of one descriptor at the start of a Run phase.  A SLOT_CLOSE whose wait clasp carries the error flag ends with status
0x01 and leaves its slot closing. [DESIGN CHOICE, log 111] -/
def State.judgeQueued (s : State) (f : Nat) : State :=
  match s.flight f with
  | none => s
  | some x =>
    if x.state ≠ .queued ∨ x.consumer.isSome then s
    else if isSpeculative x.desc then s.eligible x
    else if s.claspBad x.desc then s.endFlight f 1 0
    else if s.claspMet x.desc then s.eligible x
    else s

/-- The Run phase begins: it is counted on the clocks of the mesh (R194), and queued descriptors become eligible in admission order (R19). -/
def State.startRun (s : State) (edge : Nat) : State :=
  let s := s.atEdge edge
  let s := ({ s with tick := { s.tick with phase := 1 } }).meshRunPhase
  (s.work.flights.map (fun x => x.id)).foldl (fun s f => s.judgeQueued f) s

/-- RUN_PHASE_START (R15, R19): at the first REFCLK edge at or after T_n + P/20. [DESIGN CHOICE, log 11] -/
def execRunPhaseStart (at_ : Nat) (s : State) : Host.Outcome State Fault Refusal :=
  .next (if s.ctl.released && s.tick.phase == 0 && s.firstEdge s.runStart at_ then s.startRun at_ else s)

/-! ### The units of pieces (R41, R97, R223, R428) -/

/-- Class 0x3 and 0x4 descriptors with staging of their own: their pages are pinned for it, and they start by commands of their
own. -/
def stagesItself (d : Bytes) : Bool := dKey d == 0x30001 || dKey d == 0x40001 || dKey d == 0x40002

/-- Descriptors whose work is a series of pieces that PIECE_START starts. -/
def startsHere (d : Bytes) : Bool :=
  dClass d == 1 || dClass d == 5 || dClass d == 7 || dKey d == 0x60001 || (dClass d == 2 && [1, 2, 3, 4, 5, 8].contains (dOpcode d))

/-- A piece of strand `y` of flight `x` may start now as far as the tick goes: its first in a Run phase, once its staging is done; one that
waits for its pages, or that follows on another, at any time (R20, R26, R29, R61, R336). -/
def State.mayStart (s : State) (x : Flight) (y : Strand) : Bool :=
  !x.worked && !y.worked && !y.pinned && startsHere x.desc && s.stagingDone x &&
  (match y.state with
   | .eligible => s.tick.phase == 1
   | .parked => true
   | .running _ => true
   | _ => false)

/-- A strand that has begun and has not ended. -/
def Strand.begun (y : Strand) : Bool := y.slices != 0 && y.state != .ended

/-- A part of a speculative ATTEND is passed over while its engine holds, or works on, the result of another one (R97). -/
def State.passedOver (s : State) (x : Flight) (j : Nat) : Bool :=
  isSpeculative x.desc && dKey x.desc == 0x20002 && !(x.strand j).begun && s.work.flights.any (fun y =>
    y.id != x.id && isSpeculative y.desc && dKey y.desc == 0x20002 && !y.failed && y.status != 0xB &&
    y.strands.any (fun z => z.slices != 0 && z.unit == (x.strand j).unit))

/-- The engine of strand `j` is free for it: it runs no other strand, and no earlier one waits for it (R41). [DESIGN CHOICE, log 19] -/
def State.engineFree (s : State) (x : Flight) (j : Nat) : Bool :=
  !s.passedOver x j && s.work.flights.all (fun y => !y.onEngines || (y.strands.mapIdx (fun k z => (k, z))).all (fun e =>
    (y.id == x.id && e.1 == j) || e.2.unit != (x.strand j).unit ||
    !(e.2.begun || ((x.strand j).slices == 0 && e.2.waits && s.stagingDone y && !s.passedOver y e.1 &&
      (decide (y.eligTick < x.eligTick) || (y.eligTick == x.eligTick &&
        (decide (y.id < x.id) || (y.id == x.id && decide (e.1 < j)))))))))

/-- Units that serve the pieces of a class: 64 mover units, 16 pipelines of the Locket (R223, R428). -/
def unitsOf (c : Nat) : Nat := if c = 1 then 64 else 16

/-- The pages of the next piece of a strand are all there. -/
def State.piecePages (s : State) (x : Flight) (j : Nat) : Bool :=
  (needsOf (s.pieceRanges x (x.strand j).piece)).all (s.pageReady (x.tlb j) (s.part x.part).pasid)

/-- The unit that the next piece of a mover or of a Locket descriptor is dealt to: the lowest free one, if fewer of the descriptors whose
turn comes earlier have a piece ready than units are free (R223, R428). [DESIGN CHOICE, log 42] -/
def State.dealtUnit (s : State) (x : Flight) : Option Nat :=
  let c := dClass x.desc
  let all := s.work.flights.filter (fun y => dClass y.desc == c)
  let busy := (all.filter (fun y => (y.strand 0).pinned && (y.strand 0).isRunning)).map (fun y => (y.strand 0).unit)
  let free := (List.range (unitsOf c)).filter (fun u => !busy.contains u)
  let ahead := all.filter (fun y => y.id != x.id && s.mayStart y (y.strand 0) &&
    (decide ((y.strand 0).dealt < (x.strand 0).dealt) || ((y.strand 0).dealt == (x.strand 0).dealt && decide (y.id < x.id))) && s.piecePages y 0)
  if ahead.length < free.length then free.head? else none

/-- The group controller whose adder and TLB serve a SCATTER_ADD: that of its first target byte (Table 10.3). [DESIGN CHOICE, log 106] -/
def State.adderOf (s : State) (x : Flight) : Nat :=
  match s.placesOf x.part (xDst x.desc) 1 true true with
  | some ((.dev d, _) :: _) => ((storageOf d).map groupOf).getD 0
  | _ => 0

/-- The unit of a piece of strand `j` that may start, or none while it must wait for one. -/
def State.pieceUnit (s : State) (x : Flight) (j : Nat) : Option Nat :=
  match dClass x.desc with
  | 1 => s.dealtUnit x
  | 2 => if s.engineFree x j then some (x.strand j).unit else none
  | 5 => s.dealtUnit x
  | 6 => some (s.adderOf x)
  | _ => some 0

/-- The unit id of strand `j` of a flight (Table 1.3, R532): its engine, the lowest of its tiles, the Locket, the pseudo-channel of a
SCATTER_ADD's first target byte, the port towards a remote device; movers have no unit id. [DESIGN CHOICE, log 101] -/
def State.unitOf (s : State) (x : Flight) (j : Nat) : Nat :=
  match dClass x.desc with
  | 2 => x.unitId j
  | 3 => (x.beads.map (fun e => e.1)).foldl min 0xFFFF
  | 4 => (x.beads.map (fun e => e.1)).foldl min 0xFFFF
  | 5 => 0x7000
  | 6 =>
    match s.placesOf x.part (xDst x.desc) 1 true true with
    | some ((.dev d, _) :: _) => s.pcOfDev d
    | _ => 0xFFFF
  | 7 => if s.firstHop x.desc < 9 then 0x5000 + s.firstHop x.desc else 0xFFFF
  | _ => 0xFFFF

/-! ### The start of a piece (R20, R29, R61, R104, R336, R337, R343, R453) -/

/-- What a unit asks for of its next piece ahead of need (R343): every page that is not there and that it has not translated yet. [DESIGN CHOICE, log 112] -/
def State.lookAhead (s : State) (x : Flight) (j : Nat) : State :=
  let pasid := (s.part x.part).pasid
  let ns := (needsOf (s.pieceRanges x ((x.strand j).piece + 1))).filter (fun n => !s.pageReady (x.tlb j) pasid n)
  if dSpeculative x.desc then s else s.askPages pasid x.part ns (.ahead x.id j) false

/-- The piece of strand `j` waits whole for the pages that are not there: they are asked for, and its slice has ended (R336). -/
def State.parkPiece (s : State) (x : Flight) (j : Nat) (ns : List PageNeed) : State :=
  let pasid := (s.part x.part).pasid
  let held := isSpeculative x.desc && !x.confirmed && !s.claspMet x.desc
  let ns := ns.filter (fun n => !s.pageReady (x.tlb j) pasid n)
  ((s.accrue x j).askPages pasid x.part ns (.piece x.id (s.unitOf x j)) held).updStrand x.id j (fun y => { y with state := .parked })

/-- The piece of strand `j` starts on unit `u`, with its pages pinned; the first of a descriptor takes the slot's values as its snapshot
(R61, R104, R223, R336, R343). -/
def State.startPiece (s : State) (x : Flight) (j u : Nat) (ns : List PageNeed) : State :=
  let sl := s.slot (dSlot x.desc)
  let first := x.strands.all (fun y => y.slices == 0)
  let n := s.settleTick
  let deal := s.work.deals + 1
  let s : State := { s with work := { s.work with deals := deal } }
  let s := s.updStrand x.id j (fun y => { y.enter n with
    unit := u, pinned := true, issued := 0, dealt := deal
    since := if y.isRunning then y.since else s.clockNow (engineHalf u) })
  let s := if first && dKey x.desc == 0x20002 then s.updFlight x.id (fun y => { y with snapL := sl.len, snapP := sl.pencil }) else s
  let s := match s.flight x.id with
    | some x' => (s.pinNeeds (x.id, j) (x'.tlb j) (s.part x.part).pasid ns).lookAhead x' j
    | none => s
  s.syncSetpoints

/-- A piece that would pin more than 120 translations stops its descriptor (R337). -/
def State.tooManyNow (s : State) (x : Flight) (j : Nat) (ns : List PageNeed) : State :=
  (((s.dropReads x.id).blur x).endFlight x.id 2 x.detail).postUnresolved x.part (s.unitOf x j) (s.tagOf x)
    ((ns.map (fun n => n.page)).headD 0) 6

/-- The checks that the ranges of a piece must still pass where they lie now (R86, R222, R239, R330, R415, R416). -/
def State.pieceStatus (s : State) (x : Flight) (rs : List Range) (first : Bool) : Nat :=
  orStatus (worst ((exempted x.desc rs).map (s.rangePlaced x.part))) (if first then s.classPlaced x.part x.desc else 0)

/-- The next piece of strand `j` on unit `u`: it starts, or waits for its pages, or the descriptor ends. -/
def State.tryPiece (s : State) (x : Flight) (j u : Nat) : State :=
  let y := x.strand j
  let rs := s.pieceRanges x y.piece
  let ns := needsOf rs
  if !ns.all (s.pageReady (x.tlb j) (s.part x.part).pasid) then s.parkPiece x j ns
  else if startsHere x.desc && dKey x.desc != 0x20008 && s.tooManyPins x.part (countedPins rs) then s.tooManyNow x j ns
  else
    let st := s.pieceStatus x rs (y.piece == 0)
    if st ≠ 0 then (((s.postRefused x.part x.desc st).dropReads x.id).blur x).endFlight x.id st x.detail else s.startPiece x j u ns

/-- A remote descriptor runs from now on: its requests go out, each with its own pages (R377). -/
def State.startRemote (s : State) (x : Flight) : State :=
  ((s.updStrand x.id 0 (fun y => { y with state := .running s.settleTick, pinned := true })).goRemote x.id).syncSetpoints

/-- The engine of strand `j`, chosen anew if it is out of service: one that has begun ends its descriptor with status 0x08 (R41, R75). -/
def State.strandEngine (s : State) (x : Flight) (j : Nat) : Option Nat :=
  let y := x.strand j
  if !x.onEngines || s.inService y.unit then some y.unit
  else if y.slices ≠ 0 then none
  else
    let sl := s.slot (dSlot x.desc)
    match dOpcode x.desc with
    | 2 => s.partEngine x.part sl [] j
    | 8 => s.partEngine x.part sl [] (kvPart sl.record x.desc)
    | _ => if sailEngine x.desc = 0xFF then s.pickEngine x.part [] else none

/-- PIECE_START (R336): the next piece of strand `j` of flight `f` starts once its unit is free and every page it needs is translated;
class 0x3 and 0x4 pages are pinned for staging. -/
def execPieceStart (f j : Nat) (s : State) : Host.Outcome State Fault Refusal :=
  .next (
    match s.flight f with
    | none => s
    | some x =>
      let y := x.strand j
      if x.state ≠ .eligible ∨ x.strands.length ≤ j ∨ (SMap.get none s.care.resets x.part : Option PartReset).isSome then s
      else if stagesItself x.desc then
        let ns := needsOf (s.pieceRanges x 0)
        let pasid := (s.part x.part).pasid
        if x.staged || y.pinned || x.worked || y.state != .eligible then s
        else if !ns.all (s.pageReady 48 pasid) then s.askPages pasid x.part ns (.piece x.id (s.unitOf x 0)) false
        else (s.pinNeeds (f, 0) 48 pasid ns).updStrand f 0 (fun y => { y with pinned := true })
      else if !s.mayStart x y then s
      else match s.strandEngine x j with
        | none => (((s.dropReads f).blur x).endFlight f 8 x.detail).updFlight f (fun z => { z with confirmed := true })
        | some e =>
          let s := s.updStrand f j (fun z => { z with unit := e })
          match s.flight f with
          | none => s
          | some x =>
            match s.pieceUnit x j with
            | none => s
            | some u => if dClass x.desc = 7 then s.startRemote x else s.tryPiece x j u)

/-! ### The end of a slice (R27, R61, R62) -/

/-- The tick in whose Settle phase a slice of tick `n` that ends now completes. -/
def State.completesIn (s : State) (x : Flight) (n : Nat) : Nat :=
  if x.classified then (s.sliceOutcome n s.tick.time).1
  else if s.tick.phase = 2 ∨ s.settleStart ≤ s.tick.time then s.tick.count + 1 else s.tick.count

/-- The instant by which a running slice must have ended: T_(n+1) + A, or that of the tick whose frames a RUN still runs (R196), or that of
the oldest request that a remote descriptor waits for (R378). -/
def State.sliceDeadline (s : State) (x : Flight) (n : Nat) : Nat :=
  if dClass x.desc = 7 then s.deadline (((s.remoteOut x.id).map (fun q => q.slice)).foldl min n)
  else match (s.sched x.part).run with
    | some r => if r.flight = x.id ∧ r.fault.isNone ∧ r.frameTick < n then s.deadline r.frameTick else s.deadline n
    | none => s.deadline n

/-- Strand `j` ends with its slice of tick `n`; the flight ends with its last strand. -/
def State.endStrand (s : State) (x : Flight) (j n : Nat) : State :=
  let k := s.completesIn x n
  let s := s.accrue x j
  let s := if dClass x.desc = 7 then s else s.sliceOver x n
  let s := (s.unpinPiece x.id j).updStrand x.id j (fun y => { y with state := .ended })
  match s.flight x.id with
  | none => s
  | some x' =>
    if x'.worked && x'.strands.all (fun y => y.state == .ended) then
      s.updFlight x.id (fun y => { y with
        state := .ended, settleAt := some k, endTick := k, detail := s.detailOf x' x'.detail })
    else s

/-- SLICE_END (R27, R61): the last piece of strand `j` of flight `f` ends, and its slice with it; one whose lines a die has not answered
yet has not ended. [DEDUCED, log 22; DESIGN CHOICE, log 97; DESIGN CHOICE, log 100] -/
def execSliceEnd (f j at_ : Nat) (s : State) : Host.Outcome State Fault Refusal :=
  .next (
    match s.flight f with
    | none => s
    | some x =>
      let y := x.strand j
      match y.state with
      | .running n =>
        if !x.sliced || !y.worked || (x.classified && decide (s.sliceDeadline x n < at_)) || decide (s.phaseEnd ≤ at_) ||
            (List.range 6).any (fun q => (s.site q).writing.any (fun w => w.flight == f)) then s
        else (((s.arrive at_).endStrand x j n).syncSetpoints)
      | _ => s)

/-- The first strand of a flight whose slice still runs at `at_`, beyond its deadline: its place and the slice's tick. -/
def State.overdue (s : State) (x : Flight) (at_ : Nat) : Option (Nat × Nat) :=
  (x.strands.mapIdx (fun j y => (j, y))).findSome? (fun e =>
    match e.2.state with
    | .running n => if x.classified && (e.2.pinned || stagesItself x.desc) && decide (s.sliceDeadline x n ≤ at_) then some (e.1, n) else none
    | _ => none)

/-- The detail word of a flight that is stopped while it runs. -/
def State.stoppedDetail (s : State) (x : Flight) : Nat :=
  if dClass x.desc = 7 then (remoteDetail (s.remote x.id) (s.firstHop x.desc)).2
  else if dClass x.desc = 3 ∨ dClass x.desc = 4 then 0 else x.detail

/-- The lines that flight `f` has in the pending store are freed (R229). -/
def State.dropPrefetch (s : State) (f : Nat) : State :=
  { s with casket := { s.casket with pending := s.casket.pending.filter (fun l => l.flight != f) } }

/-- The run of flight `f` is closed, if it runs one. -/
def State.closeRunOf (s : State) (x : Flight) : State :=
  if (s.sched x.part).run.any (fun r => r.flight == x.id) then s.closeRun x.part else s

/-- OVERRUN_DEADLINE (R27, R28): a slice that has not ended by T_(n+1) + A is stopped and completes with status 0x05. [DESIGN CHOICE, log 20] -/
def execOverrunDeadline (f at_ : Nat) (s : State) : Host.Outcome State Fault Refusal :=
  .next (
    match s.flight f with
    | none => s
    | some x =>
      match s.overdue x at_ with
      | none => s
      | some (j, n) =>
        if s.phaseEnd ≤ at_ then s
        else
          let s := (s.arrive at_).blur x
          let dt := s.stoppedDetail x
          let unit := s.unitOf x j
          let s := (((((s.dropReads f).dropWaits f).dropRemote f).stopProgs f).countAbort x.part).closeRunOf x
          let s := (s.post 0x0001 2 x.part unit (detail [(8, dTag x.desc), (8, n), (2, x.ring)])).dropPrefetch f
          ((s.endFlight f 5 dt).updFlight f (fun y => { y with held := [], blob := [], events := [], confirmed := true })).syncSetpoints)

/-! ### Speculation that is not confirmed (R97, R229, R344) -/

/-- Flight `f` is discarded: its lines are freed, its results, events and faults dropped; it completes with status 0x0B in the Settle phase
of tick `n`, and only the accounting of its work stays (R96). -/
def State.discardSpec (s : State) (f n : Nat) : State :=
  match s.flight f with
  | none => s
  | some x =>
    let s := ((((s.dropReads f).dropWaits f).accrueFlight x).unpin f).dropPrefetch f
    s.updFlight f (fun y => { (y.finish 0xB (s.detailOf x 0) n) with held := [], blob := [], events := [] })

/-- A speculative flight that is not confirmed, and whose clasp does not confirm it now. -/
def State.unconfirmed (s : State) (f : Nat) : Option Flight :=
  match s.flight f with
  | none => none
  | some x => if isSpeculative x.desc && !x.confirmed && !s.claspMet x.desc && x.status != 0xB then some x else none

/-- The flight's work ended, and the third Settle phase after it is this tick's. -/
def State.confirmDue (s : State) (x : Flight) : Bool := x.state == .ended && decide (x.endTick + 3 ≤ s.tick.count)

/-- The flight still holds a fault that is not confirmed, and the third Settle phase after its admission is this tick's. -/
def State.faultDue (s : State) (x : Flight) : Bool :=
  decide (x.admTick + 3 ≤ s.tick.count) && s.xlat.faults.any (fun r => r.waits.any (fun w => w.held &&
    (match w.who with
     | .piece g _ => g == x.id
     | _ => false)))

/-- SPEC_CONFIRM_TIMEOUT (R97): a speculative ATTEND not confirmed by Settle n + 3. -/
def execSpecConfirmTimeout (f : Nat) (s : State) : Host.Outcome State Fault Refusal :=
  .next (
    match s.unconfirmed f with
    | none => s
    | some x => if dKey x.desc = 0x20002 ∧ s.confirmDue x then s.discardSpec f s.settleTick else s)

/-- PREFETCH_CONFIRM_TIMEOUT (R229): a prefetch not confirmed by Settle n + 3 frees its lines. -/
def execPrefetchConfirmTimeout (f : Nat) (s : State) : Host.Outcome State Fault Refusal :=
  .next (
    match s.unconfirmed f with
    | none => s
    | some x => if dKey x.desc = 0x10001 ∧ s.confirmDue x then s.discardSpec f s.settleTick else s)

/-- SPEC_FAULT_TIMEOUT (R344): a speculative descriptor that still holds an unconfirmed fault at Settle a + 3. -/
def execSpecFaultTimeout (f : Nat) (s : State) : Host.Outcome State Fault Refusal :=
  .next (
    match s.unconfirmed f with
    | none => s
    | some x => if s.faultDue x then s.discardSpec f s.settleTick else s)

end Sys2Proof.Machine
end

