-- ==== Sys2Proof/Machine/Resets.lean ====
section
/-! DEFINITION. The consumption of uncorrectable data (R275), partition resets (R276), and the Keel's detections: lockstep, REFCLK,
oscillators, supplies, egress gates, latent tests, the watchdog, FAULT_N (R470 to R475, R478, R481, R518). -/

namespace Sys2Proof.Machine

/-! ### Partition resets (R276) -/

/-- A descriptor in flight is stopped by a partition reset: it completes with status 0x04, or 0x0B for discarded speculation, and its held
results and events are discarded (R85, R96). -/
def State.resetFlight (s : State) (x : Flight) : State :=
  let dt := s.stoppedDetail x
  let s := ((((s.spoilPiece x).dropReads x.id).dropWaits x.id).dropRemote x.id).dropPrefetch x.id
  let s := s.stopProgs x.id
  let s := if s.care.repairHold.any (fun h => h.2 == x.id) then s.repairEnd x false else s
  (s.endFlight x.id (if isSpeculative x.desc && !x.confirmed then 0x0B else 4) dt).updFlight x.id (fun y =>
    { y with held := [], blob := [], events := [] })

/-- The slots of a partition at its reset (R85). -/
def State.resetSlots (s : State) (p : Nat) : State :=
  s.sail.slots.foldl (fun s e =>
    if e.2.partition ≠ p ∨ e.2.state = 0 then s
    else
      let s := s.updSlot e.1 (fun y => { y with state := 1, pencil := 0 })
      if e.2.pencil = 0 then s
      else s.post 0x3013 1 p (0x2000 + recGroup e.2.record 0) (detail [(2, e.1), (2, e.2.pencil)])) s

/-- The Casket segments of a partition at its reset (R213). -/
def State.resetCasket (s : State) (p : Nat) : State :=
  s.casket.own.foldl (fun s e => (List.range 8).foldl (fun s g =>
    match segOwner e.2.current g with
    | some o => if o.1 = p then s.zeroCasket (e.1 * 0x80000 + g * 0x10000) 0x10000 else s
    | none => s) s) s

/-- A tile whose DMEM and registers are zeroed, with its core idle (R276, step 3). -/
def Tile.cleared (x : Tile) : Tile :=
  { x with
    dmem := [], dmemBad := [], weak := x.weak.filter (fun e => decide (e.1 < 4096)), state := 0, loads := false, prog := none, regs := []
    vregs := [], pc := 0, mtvec := 0, mscratch := 0, mepc := 0, mcause := 0, mtval := 0, lseCfg := 0, lseSmooth := 0, claspId := 0
    cycle := 0, instret := 0, trapActive := false, stall := .none, tx := [], rx := [] }

/-- The words that have failed in a tile are rewritten (R156): those of IMEM, whose content is lost, take free bytes; those of DMEM and the
registers have been zeroed. [DESIGN CHOICE, log 56] -/
def Tile.rewritten (x : Tile) (k : Nat) : Tile :=
  let ws := (x.failing.filter (fun e => e.1 == 0)).map (fun e => e.2 / 4)
  { x with
    imem := ws.foldl (fun m w => SMap.setList 0 m (4 * w) ((List.range 4).map (fun i => Config.freeByte k (4 * w + i)))) x.imem
    imemBad := ws.foldl (fun m w => SMap.set false m w false) x.imemBad
    weak := ws.foldl (fun m w => SMap.set false m w false) x.weak
    failing := [] }

/-- Steps 2 and 3 of Table 8.3 for partition `p`; a claim of a tile of it that stands halted is cleared (R532). [DESIGN CHOICE, log 56; DEDUCED, log 87] -/
def State.resetStop (s : State) (p : Nat) : State :=
  let mine := s.work.flights.filter (fun x => x.part == p && !x.failed)
  let halted := (s.tile s.dbg.tile).state == 3
  let s := (((mine.foldl (fun s x => s.resetFlight x) s).closeRun p).resetSlots p).resetCasket p
  let tiles := (s.tiles.filter (fun e => e.2.partition == some p)).map (fun e => e.1)
  let s := tiles.foldl (fun s t => s.updTile t Tile.cleared) s
  { s with
    mesh := { s.mesh with offers := s.mesh.offers.filter (fun o => o.part != p) }
    therm := { s.therm with hints := SMap.set none s.therm.hints p none }
    dbg := { s.dbg with claim := s.dbg.claim && !(halted && tiles.contains s.dbg.tile) } }

/-- The rewrite of what has failed in the tiles of partition `p`, and the read-back, which fails in the tiles `again`: their cores are
fenced (R156). -/
def State.rewriteTiles (s : State) (p : Nat) (again : List Nat) : State :=
  let tiles := (s.tiles.filter (fun e => e.2.partition == some p && !e.2.failing.isEmpty)).map (fun e => e.1)
  tiles.foldl (fun s t =>
    let s := (s.updTile t (fun x => x.rewritten s.free)).useFree
    if again.contains t then s.fenceCore t 1 else s) s

/-- PARTITION_RESET (R156, R276): the reset of partition `p` that has started stops and zeroes its work (steps 2 and 3 of Table 8.3) and
rewrites what has failed in its tiles, which fails again in the tiles `again`; step 4 follows in the Settle phase. [DEDUCED, log 87] -/
def execPartitionReset (p : Nat) (again : List Nat) (s : State) : Host.Outcome State Fault Refusal :=
  guarded "PARTITION_RESET" (decide (p < 16)) (
    match (SMap.get none s.care.resets p : Option PartReset) with
    | none => s
    | some r =>
      if r.stopped then s
      else
        let s := (s.resetStop p).rewriteTiles p again
        { s with care := { s.care with resets := SMap.set none s.care.resets p (some { r with stopped := true }) } })

/-- The flight that runs on engine `n`. -/
def State.engineFlight (s : State) (n : Nat) : Option Flight :=
  s.work.flights.find? (fun x => x.onEngines && x.strands.any (fun y => y.isRunning && y.unit == n))

/-- The setting or the beat of storage byte `k` does not decode any more (R242, R243). [DESIGN CHOICE, log 55] -/
def State.spoilStack (s : State) (k : Nat) : State :=
  let beats := if (s.group (groupOf k)).wide then (List.range 16).map (fun b => k / 1024 * 16 + b) else [k / 64]
  { s with mem := s.mem.storeStack k [] beats [] }

/-- Data at device memory address `addr` that the group's decoder reports as uncorrectable has been consumed (R275, R287, Table 8.9). [DESIGN
CHOICE, log 55] -/
def State.stackConsumed (s : State) (addr part consumer tag : Nat) : State :=
  match storageOf addr with
  | none => s
  | some k0 =>
    let k := s.redirect k0
    let at_ := if (s.group (groupOf k)).wide then k / 1024 * 1024 else k / 64 * 64
    let s := (s.spoilStack k).post 0x1021 2 part (pcUnit k) (detail [(8, localAddr at_), (1, consumer), (8, tag)])
    (if part < 16 then s.startReset part 1 (pcUnit k) else s).secondFault (groupOf k)

/-- The Casket byte at `a` is uncorrectable (R209). [DESIGN CHOICE, log 55] -/
def State.spoilCasket (s : State) (a : Nat) : State :=
  { s with casket := { s.casket with bad := SMap.set false s.casket.bad a true } }

/-- A byte of the pending store as its cells return it: a single upset bit is corrected and charged to the Casket's bucket of that half, and
an uncorrectable byte is committed as poison (R229, R247). -/
def State.pendingByte (s : State) (f addr : Nat) (cells : BitVec 12) : State :=
  let hit (l : PendingLine) : Bool := l.flight == f && decide (l.addr ≤ addr) && decide (addr < l.addr + l.data.length)
  let put (b : Byte) (bad lost : Bool) : State := { s with casket := { s.casket with
      pending := s.casket.pending.map (fun l => if hit l then { l with data := l.data.set (addr - l.addr) (b, bad), upset := l.upset || lost } else l) } }
  match s.casket.pending.find? hit with
  | none => s
  | some l =>
    let old := l.data.getD (addr - l.addr) (0, false)
    match hammingDecode cells.toNat with
    | none => put old.1 true true
    | some (v, fixed) =>
      let s' := put (BitVec.ofNat 8 v) old.2 false
      if fixed then s'.chargeCe (32 + halfOfSlice (addr / 0x80000)) 1 (0x4000 + addr / 0x80000) else s'

/-- UNCORRECTABLE_CONSUMED (R275, Table 8.2). [DESIGN CHOICE, log 55] -/
def execUncorrectableConsumed (c : Consumer) (s : State) : Host.Outcome State Fault Refusal :=
  match c with
  | .stack f addr =>
    match s.flight f with
    | some x => .next (s.stackConsumed addr x.part 1 (dTag x.desc))
    | none => .next s
  | .host addr => .next (s.stackConsumed addr 0xFF 2 0)
  | .tether addr => .next (s.stackConsumed addr 0xFF 3 0)
  | .engineBuffer n word =>
    guarded "UNCORRECTABLE_CONSUMED" (decide (n < 32)) (
      match s.engineFlight n with
      | none => s
      | some x =>
        (s.post 0x3004 2 x.part (0x2000 + n) (detail [(4, word), (8, dTag x.desc)])).startReset x.part 1 (0x2000 + n))
  | .beadMemory t memory addr =>
    guarded "UNCORRECTABLE_CONSUMED" (decide (t < 4608) && decide (memory < 3)) (
      if 2 ≤ (s.tile t).state then s.beadFault (s.tile t).progPart t memory addr else s)
  | .meshWord t chan =>
    guarded "UNCORRECTABLE_CONSUMED" (decide (t < 4608) && decide (chan < 4)) (
      if 2 ≤ (s.tile t).state then s.beadFault (s.tile t).progPart t 1 (0x20100 + 0x40 * chan) else s)
  | .pendingStore f addr cells => .next (s.pendingByte f addr cells)
  | .casket p addr reader =>
    guarded "UNCORRECTABLE_CONSUMED" (decide (p < 16) && decide (addr < casketSize)) (
      let s := (s.spoilCasket addr).casketBadRead addr reader p
      if 1 ≤ reader ∧ reader ≤ 3 then s.startReset p 1 (0x4000 + addr / 0x80000) else s)

/-! ### Writebacks (R249, R250) -/

/-- WCB_WRITEBACK (R249, R250): the line of setting `st` of group `n` is written back, as it then stands. -/
def execWcbWriteback (n st : Nat) (e : MemErrors) (s : State) : Host.Outcome State Fault Refusal :=
  guarded "WCB_WRITEBACK" (decide (n < 32) && decide (st < settingsPerGroup)) (
    let setting := settingsPerGroup * n + st
    if s.mem.wcb.any (fun l => l.setting == setting && s.lineHeld l) then s
    else
      let s := s.meetErrors setting e
      match s.mem.wcb.find? (fun l => l.setting == setting) with
      | none => s
      | some l => s.writeback l)

/-! ### The Keel (R470, R471, R473, R475, R481, R518) -/

/-- LOCKSTEP_MISMATCH (R470): safe state, cause 1. -/
def execLockstepMismatch (s : State) : Host.Outcome State Fault Refusal :=
  .next (if !s.ctl.pwrgood then s
    else ({ s with keel := { s.keel with lockstepOk := false } }).enterSafe 1 0xA000)

/-- REFCLK_LOSS (R481, R521): safe state, cause 2. -/
def execRefclkLoss (s : State) : Host.Outcome State Fault Refusal := .next (s.enterSafe 2 0xA000)

/-- OSCILLATOR_CHECK (R481): both oscillators more than 5% from calibration is REFCLK off frequency, cause 2; a difference of
more than 5% between them is cause 3.  The operands are in units of 10 ppm. [DESIGN CHOICE, log 89] -/
def execOscillatorCheck (a b : Int) (s : State) : Host.Outcome State Fault Refusal :=
  guarded "OSCILLATOR_CHECK" (decide (-32768 ≤ a) && decide (a < 32768) && decide (-32768 ≤ b) && decide (b < 32768)) (
    if !s.ctl.pwrgood then s
    else
      let s := { s with keel := { s.keel with oscA := a, oscB := b } }
      let s := if 5000 < a.natAbs ∧ 5000 < b.natAbs then s.enterSafe 2 0xA000 else s
      if 5000 < (a - b).natAbs then s.enterSafe 3 0xA000 else s)

/-- SUPPLY_COMPARATOR (R481, Table 15.5): a rail stands at `mv` for `us`. -/
def execSupplyComparator (rail mv us : Nat) (s : State) : Host.Outcome State Fault Refusal :=
  guarded "SUPPLY_COMPARATOR" (decide (rail < 4)) (
    let set := s.railMv rail
    let bad : Bool := match rail with
      | 2 => decide (1 ≤ us) && (decide (2 * mv < 1425) || decide (1575 < 2 * mv))
      | 3 => decide (1 ≤ us) && (decide (mv < 760) || decide (840 < mv))
      | _ => (decide (1 ≤ us) && (decide (920 < mv) || decide (set + 60 < mv))) || (decide (10 ≤ us) && decide (mv + 100 < set))
    if bad then s.enterSafe 4 0xA000 else s)

/-- A checker's decision on a transfer, from the copy of the sealing state it goes by (R472). [DESIGN CHOICE, log 90] -/
def transferPasses (x : Transfer) (m : SealMap) : Bool :=
  let granted := match x.gate with
    | .site q => m.sites.contains q
    | _ => false
  x.record || granted || (if x.read then !m.slabs.contains x.slab else x.encrypted || !m.parts.contains x.part)

/-- The unit id of a gate (Table 15.7). [DESIGN CHOICE, log 89] -/
def gateUnit : Gate → Nat
  | .tether p => 0x5000 + p
  | .site q => 0x6000 + q
  | _ => 0xA000

/-- The source of a refused access at a gate (Table 13.12). -/
def gateSource : Gate → Nat
  | .cxlMemRead => 1
  | .cxlCacheWrite => 2
  | .jtag => 6
  | .tether _ => 3
  | .site _ => 5

/-- EGRESS_TRANSFER (R472, R473, R476): the gate passes a transfer only when both checkers pass it; in the safe state it refuses every
data transfer. [DESIGN CHOICE, log 90] -/
def execEgressTransfer (x : Transfer) (s : State) : Host.Outcome State Fault Refusal :=
  guarded "EGRESS_TRANSFER" (decide (x.slab < 768) && decide (x.part < 16) && (match x.gate with
      | .tether p => decide (p < 9)
      | .site q => decide (q < 6)
      | _ => true)) (
    if s.keel.safe && !x.record then s.emit (.gate false)
    else if !x.parityOk then (s.enterSafe 9 (gateUnit x.gate)).emit (.gate false)
    else
      let a := x.stuckA.getD (transferPasses x s.sealMap)
      let b := x.stuckB.getD (transferPasses x s.keel.copy)
      if a && b then s.emit (.gate true)
      else if a || b then (s.enterSafe 9 (gateUnit x.gate)).emit (.gate false)
      else
        let region := match s.locket.regions.find? (fun e => e.2.state != 0 &&
            (if x.read then e.2.slabs.contains x.slab else e.2.partition == x.part)) with
          | some e => e.1
          | none => 0
        (s.postOnce (fun e => e.detail / 2 ^ 64 % 256 == gateSource x.gate) 0x7001 1 (if x.read then 0xFF else x.part) 0x7000
          (detail [(8, if x.read then slabBase x.slab else 0), (1, gateSource x.gate), (1, region)])).emit (.gate false))

/-- COPY_COMPARE (R473): the Keel's copies against those of domain 17. -/
def execCopyCompare (s : State) : Host.Outcome State Fault Refusal :=
  .next (
    let same := s.keel.copy == s.sealMap
    let s := { s with keel := { s.keel with copiesEqual := same } }
    if same then s else s.enterSafe 9 0xA000)

/-- LATENT_TEST (R471): test 0 lockstep comparator, 1 supply comparators, 2 egress checkers, 3 trip comparators; 4 + i: trip sensor i
against its nearest junction sensor, whose failure leaves the device degraded (Table 15.7). [DESIGN CHOICE, log 89] -/
def execLatentTest (test : Nat) (pass : Bool) (s : State) : Host.Outcome State Fault Refusal :=
  guarded "LATENT_TEST" (decide (test < 12)) (
    if !s.ctl.pwrgood then s
    else if 4 ≤ test then (if pass then s else s.degraded 3 (0x9000 + 8 * (test - 4)) (test - 4))
    else
      let k := s.keel
      let s := { s with keel := { k with
        gateTests := if test = 2 ∧ pass then (k.gateTests + 1) % 65536 else k.gateTests
        supplyOk := if test = 1 then pass else k.supplyOk
        gateOk := if test = 2 then pass else k.gateOk } }
      if pass then s else s.enterSafe 14 0xA000)

/-- FAULT_N_READBACK (R481, R518): the pad differs from its driven level. -/
def execFaultNReadback (low : Bool) (s : State) : Host.Outcome State Fault Refusal :=
  .next (if low == s.therm.fault then s else s.enterSafe 16 0xA000)

/-- WATCHDOG_EXPIRY (R478): no tick boundary within 2 × P + 10 µs starts a warm reset. -/
def execWatchdogExpiry (s : State) : Host.Outcome State Fault Refusal := .next (s.warmDue 4)

/-- CONTROL_PLANE_UNCORRECTABLE (R278, R478): an immediate warm reset. -/
def execControlPlaneUncorrectable (s : State) : Host.Outcome State Fault Refusal := .next (s.warmDue 3)

end Sys2Proof.Machine
end

