-- ==== Sys2Proof/Machine/Settle.lean ====
section
/-! DEFINITION. The Settle phase: speculation, commits, staging, completion records, clasp signals, page requests, events, the mailbox
(R21, R22, R25, R26, R83, R84, R93 to R99, R226, R227, R229, R276, R306, R310, R319 to R325, R344, R536). -/

namespace Sys2Proof.Machine

/-! ### Step 1: speculation (R97, R229, R344) -/

/-- The waits of flight `f` are confirmed: its faults are found for the page requests of this phase. [DESIGN CHOICE, log 27] -/
def State.confirmFaults (s : State) (f : Nat) : State :=
  let mine (w : Wait) : Bool := w.held && (match w.who with
    | .piece g _ => g == f
    | _ => false)
  let hit := s.xlat.faults.filter (fun r => r.waits.any mine)
  let clear (ws : List Wait) : List Wait := ws.map (fun w => if mine w then { w with held := false } else w)
  let s : State := { s with xlat := { s.xlat with
      reqs := s.xlat.reqs.map (fun r => { r with waits := clear r.waits })
      faults := (s.xlat.faults.map (fun r => { r with waits := r.waits.filter (fun w => !mine w) })).filter (fun r => !r.waits.isEmpty) } }
  hit.foldl (fun s r => (r.waits.filter mine).foldl (fun s w => s.foundFault r.pasid r.page { w with held := false }) s) s

/-- Flight `x` is confirmed: the events that it has held are posted (R96, R229). -/
def State.confirmed (s : State) (x : Flight) : State :=
  let s := x.events.foldl (fun s e => s.post e.code e.severity e.part e.unit e.detail) s
  s.updFlight x.id (fun y => { y with confirmed := true, events := [] })

/-- Speculation of one flight in step 1. [DESIGN CHOICE, log 27] -/
def State.settleSpec (s : State) (f : Nat) : State :=
  match s.flight f with
  | none => s
  | some x =>
    let m := s.tick.count
    if !isSpeculative x.desc || x.confirmed || x.failed || x.status == 0xB then s
    else if s.claspBad x.desc then s.discardSpec f m
    else if s.claspMet x.desc then
      if x.state == .ended && decide (x.endTick ≤ m) then s.confirmed x else s.confirmFaults f
    else if s.confirmDue x || s.faultDue x then s.discardSpec f m
    else s

/-! ### What completes -/

/-- The flight completes in this Settle phase. -/
def State.dueNow (s : State) (x : Flight) : Bool :=
  x.consumer.isNone && x.state == .ended &&
  (match x.settleAt with
   | some k => decide (k ≤ s.tick.count)
   | none => false) &&
  (!isSpeculative x.desc || x.confirmed || x.failed || x.status == 0xB)

/-- Flights in the order of their completion records (R21). [DESIGN CHOICE, log 38] -/
def recordOrder (xs : List Flight) : List Flight := sortBy (fun x => (x.cring * 16 + x.part) * 256 + x.ring) xs

/-- What completes now, in record order. -/
def State.dueList (s : State) : List Flight := recordOrder (s.work.flights.filter s.dueNow)

/-- A launch or run whose writeback has a page that is not translated completes one tick later (R152, R336). [DEDUCED, log 60] -/
def State.awaitWriteback (s : State) (x : Flight) : State :=
  let ns := needsOf ((s.writebackOpnds x.part x.desc).map (opndRanges x.windows)).flatten
  let pasid := (s.part x.part).pasid
  if (dClass x.desc = 3 ∨ dKey x.desc = 0x40002) ∧ x.status ≠ 4 ∧ x.status ≠ 5 ∧ ¬ x.failed ∧ ns.any (fun n => !s.pageLive pasid n) then
    (s.askPages pasid x.part ns (.piece x.id (s.unitOf x 0)) false).updFlight x.id (fun y => { y with settleAt := some (s.tick.count + 1) })
  else s

/-! ### Pencilled ATTENDs that stop (R99) -/

/-- Pencilled ATTENDs of a slot that are not among those that complete now, whose horizon holds position `pos`, of layer `l` if one is
given, stop with status 0x0B; an out_mode 2 one offers empty records. [DESIGN CHOICE, log 50] -/
def State.stopPencils (s : State) (slot pos : Nat) (l : Option Nat) (due : List Nat) : State :=
  (s.work.flights.filter (fun y => dKey y.desc == 0x20002 && dPencil y.desc && dSlot y.desc == slot && !due.contains y.id && !y.failed &&
    y.strands.any (fun z => z.slices != 0) && decide (pos < attHorizon y) && l.all (fun k => k == aLayer y.desc))).foldl (fun s y =>
      (s.offerRecords { y with blob := [] } (List.range (recG (s.slot slot).record))).discardSpec y.id s.tick.count) s

/-- Step 1 for one completing flight: SLOT_OPEN and KV_SETTLE (R83, R94). -/
def State.settleStep1 (s : State) (due : List Nat) (f : Nat) : State :=
  match s.flight f with
  | none => s
  | some x =>
    if x.failed ∨ x.status ≠ 0 then s
    else if dKey x.desc = 0x20006 then s.commitOpen x
    else if dKey x.desc = 0x20009 then
      let i := dSlot x.desc
      let a := fieldLe x.desc 36 4
      let old := s.slot i
      let s := s.commitSettle x
      if a < old.pencil then s.stopPencils i (old.len + a) none due else s
    else s

/-! ### Step 2: results (R21, R93, R152, R193, R197, R229) -/

/-- A confirmed prefetch: its lines go to their destinations, and what was met is reported (R224, R229); a byte that has become uncorrectable
in the pending store is an uncorrectable error of its partition (Table 15.5). [DESIGN CHOICE, log 27; DEDUCED, log 46] -/
def State.commitPrefetch (s : State) (x : Flight) : State :=
  let d := x.desc
  let lines := s.casket.pending.filter (fun l => l.flight == x.id)
  let s := (s.reportBad x.part (dTag d) x.held).dropPrefetch x.id
  if x.status = 9 then
    let at_ := (dstOf ((copyPieces d).getD (x.strand 0).piece [])).headD (copyDst d, 0)
    s.postCrcMismatch x.windows x.part (dTag d) (copySrcSpace d) (leNat x.blob) (0x4000 + at_.1 / 0x80000)
  else if 2 ≤ x.status then s
  else
    let s := lines.foldl (fun s l => s.writeCasket l.addr l.data) s
    let s := if copyDstGen d then
        (runBlocks (copyDstRuns d)).foldl (fun s b => s.genCrc x.windows x.part (copyDstSpace d) b) s else s
    let s := s.countMoved x.part (lines.map (fun l => l.data.length)).sum
    let s := match lines.find? (fun l => l.upset) with
      | some l => s.startReset x.part 1 (0x4000 + l.addr / 0x80000)
      | none => s
    if lines.any (fun l => poisoned l.data) then s.updFlight x.id (fun y => { y with status := 1, detail := y.detail ||| 1 }) else s

/-- Results that a flight has held are written, if its status lets them stand. -/
def State.commitHeld (s : State) (x : Flight) : State :=
  if x.status = 0 ∨ x.status = 1 then x.held.foldl (fun s h => s.writePlace h.1 h.2 x.part) s else s

/-- Step 2 for one completing flight. -/
def State.settleStep2 (s : State) (due : List Nat) (f : Nat) : State :=
  match s.flight f with
  | none => s
  | some x =>
    if x.failed then s
    else match dKey x.desc with
      | 0x10001 => if dSpeculative x.desc ∧ x.status ≠ 0xB then s.commitPrefetch x else s
      | 0x20002 => (s.commitHeld x).offerRecords x []
      | 0x20008 =>
        let s := s.commitKvWrite x
        if (s.flight f).any (fun y => y.status == 0) then s.stopPencils (dSlot x.desc) (kPos x.desc) (some (kLayer x.desc)) due else s
      | 0x30001 => s.commitProgram x
      | 0x40002 => s.commitProgram x
      | 0x40001 => s.commitLoad x
      | 0x40003 => s.commitUnload x
      | _ => s.commitHeld x

/-- SLOT_CLOSEs that nothing keeps open complete, and their slots are closed (R84). [DESIGN CHOICE, log 50] -/
def State.settleCloses (s : State) (due : List Nat) : State :=
  let rest : State := { s with work := { s.work with flights := s.work.flights.filter (fun y => !due.contains y.id) } }
  (s.work.flights.filter (fun x => dKey x.desc == 0x20007 && x.worked && x.state != .ended && rest.closeDue x)).foldl (fun s x =>
    (s.updSlot (dSlot x.desc) (fun y => { y with state := 0, moved := [] })).updFlight x.id (fun y =>
      y.finish 0 0 s.tick.count)) s

/-! ### Staging (R26, R226, R227) -/

/-- The attached moves of a consumer, in order. -/
def State.movesOf (s : State) (c : Nat) : List Flight := s.work.flights.filter (fun y => y.consumer == some c)

/-- The attached moves of the flights named are gone. [DESIGN CHOICE, log 18] -/
def State.dropMoves (s : State) (cs : List Nat) : State :=
  let gone := s.work.flights.filter (fun y => y.consumer.any (fun c => cs.contains c))
  let s := gone.foldl (fun s y => (s.dropWaits y.id).unpin y.id) s
  { s with work := { s.work with flights := s.work.flights.filter (fun y => !y.consumer.any (fun c => cs.contains c)) } }

/-- An attached move has ended strictly before S of this tick. [DESIGN CHOICE, log 18] -/
def State.moveDone (s : State) (y : Flight) : Bool :=
  y.state == .ended && y.settleAt.any (fun k => decide (k ≤ s.tick.count))

/-- The Casket slice where an attached move writes first. -/
def moveSlice (m : Bytes) : Nat := (if dOpcode m = 1 then copyDst m else linAddr m) / 0x80000

/-- The unit id of the slice of the first incomplete staging of a consumer (Table 1.3). -/
def State.lateUnit (s : State) (x : Flight) : Nat :=
  match (s.movesOf x.id).find? (fun y => !s.moveDone y) with
  | some y => 0x4000 + moveSlice y.desc
  | none =>
    match x.stage with
    | e :: _ => 0x4000 + e.1
    | [] => 0xFFFF

/-- The staging of one consumer is judged; the second part is its partition and unit if it slips. [DESIGN CHOICE, log 19] -/
def State.judgeStaging (s : State) (f : Nat) : State × Option (Nat × Nat) :=
  match s.flight f with
  | none => (s, none)
  | some x =>
    let moves := s.movesOf f
    if x.state != .eligible || x.strands.any (fun y => y.state != .eligible) || x.worked || x.cleared || !s.mustClear x then (s, none)
    else match (moves.mapIdx (fun k y => (k, y))).find? (fun e => s.moveDone e.2 && e.2.status != 0) with
      | some (k, y) =>
        let s := (((s.dropMoves [f]).dropWaits f).unpin f).updFlight f (fun z => z.finish y.status 0 s.tick.count)
        (s.postStageFailed x.part x.desc k y.status, none)
      | none =>
        let own := !stagesItself x.desc || x.staged || (dKey x.desc == 0x40002 && uPLen x.desc == 0)
        if own && moves.all s.moveDone then ((s.dropMoves [f]).updFlight f (fun z => { z with cleared := true }), none)
        else
          ({ s with tick := { s.tick with slips := SMap.upd 0 s.tick.slips x.part (fun c => satAdd max32 c 1) } },
            some (x.part, s.lateUnit x))

/-- Every staging that runs is judged, and TICK_STAGE_LATE posted once for each partition that slips. -/
def State.settleStaging (s : State) : State :=
  let r := (s.work.flights.map (fun x => x.id)).foldl (fun (a : State × List (Nat × Nat)) f =>
    let o := a.1.judgeStaging f
    (o.1, a.2 ++ o.2.toList)) (s, [])
  (List.range 16).foldl (fun s p =>
    let late := r.2.filter (fun e => e.1 == p)
    match late with
    | [] => s
    | e :: _ => s.post 0x0002 0 p e.2 (detail [(4, late.length)])) r.1

/-! ### Step 3: records, tails, heads (R319, R320, R317) -/

/-- The record of one completing flight. -/
def State.settleRecord (s : State) (x : Flight) : State :=
  let x := if dKey x.desc = 0x60003 ∧ x.status = 0 then { x with detail := (s.evac (byteAt x.desc 32)).word } else x
  let s := if x.status = 2 then
      { s with xlat := { s.xlat with part := SMap.upd {} s.xlat.part x.part (fun (y : XlatPart) =>
          { y with unresolved := satAdd max32 y.unresolved 1 }) } } else s
  s.putRecord x

/-- Step 3: the records ring by ring, then the tails, then the heads; what has completed leaves. [DESIGN CHOICE, log 38] -/
def State.settleRecords (s : State) (due : List Flight) : State :=
  let s := due.foldl (fun s x => s.settleRecord x) s
  let s := (nub (due.map (fun x => x.cring))).foldl (fun s c => s.putTail c) s
  let s := (s.work.rings.map (fun e => e.1)).foldl (fun s i => s.putHead i) s
  let ids := due.map (fun x => x.id)
  let s := s.dropMoves ids
  { s with work := { s.work with flights := s.work.flights.filter (fun y => !ids.contains y.id) } }

/-! ### Step 4: clasps (R25, R276, R320 to R323) -/

/-- Check 6 of Table 9.7 decided the status of a descriptor. -/
def State.byCheck6 (s : State) (x : Flight) : Bool :=
  x.failed && x.status == 3 && dVersion x.desc == 1 && keySize (dKey x.desc) == some (dSize x.desc) && decide (dFlags x.desc < 16) &&
  bodyReserved x.desc && idsOk x.desc && !bit (dThreshold x.desc) 63 && !(dThreshold x.desc == 0 && dWait x.desc != 0) &&
  dPartition x.desc == x.part && s.claspForeign x.part x.desc

/-- The signal that follows a completing flight's status (R320). -/
def State.signalOf (s : State) (x : Flight) : Option Signal :=
  let k := dSignal x.desc
  if k == noClasp || !s.ownsClasp x.part k || x.status == 0xB || s.byCheck6 x then none
  else some ⟨k, 1, x.status != 0⟩

/-- Step 4 of a partition reset whose steps 1 to 3 have been taken (Table 8.3). [DEDUCED, log 87] -/
def State.settleReset (s : State) (p : Nat) : State :=
  match (SMap.get none s.care.resets p : Option PartReset) with
  | none => s
  | some r =>
    if !r.stopped then s
    else
      let b := (s.part p).claspBase
      let marked := (List.range (s.part p).claspCount).foldl (fun (m : SMap Nat) k =>
        SMap.upd 0 m (b + k) (fun v => claspSignal v 0 true)) s.clasps.committed
      let s : State := { s with
        clasps := { s.clasps with committed := marked }
        care := { s.care with resets := SMap.set none s.care.resets p none } }
      s.post 0x0010 2 p r.unit (detail [(1, r.cause), (4, r.joined), (8, r.tick)])

/-- The CLASP_SETs among the completing flights, in record order. -/
def setsOf (due : List Flight) : List ClaspSet :=
  (due.filter (fun x => dKey x.desc == 0x80002 && x.status == 0)).map (fun x =>
    ⟨fieldLe x.desc 32 4, byteAt x.desc 36, fieldLe x.desc 40 8⟩)

/-- Step 4: CLASP_SETs, partition resets, signals, hints; then what CLASP.VALUE is to show, and the answers to remote signals (R381). [DESIGN CHOICE, log 37] -/
def State.settleClasps (s : State) (due : List Flight) : State :=
  let sigs := s.clasps.signals ++ due.filterMap s.signalOf
  let s : State := { s with clasps := { s.clasps with committed := applySets s.clasps.committed (setsOf due), signals := [] } }
  let s := (List.range 16).foldl (fun s p => s.settleReset p) s
  let s : State := { s with clasps := { s.clasps with committed := applySignals s.clasps.committed sigs } }
  let s := (due.filter (fun x => dKey x.desc == 0x80020 && x.status == 0)).foldl (fun s x => s.applyHint x.part x.desc) s
  (s.queueWrite (.showClasps s.clasps.committed)).signalsDone

/-! ### Step 6: events (R324, R325, R536) -/

/-- The bytes of an event record (Table 9.21). -/
def Event.bytes (e : Event) : Bytes :=
  natLe 1 1 ++ natLe 1 e.severity ++ natLe 2 e.code ++ natLe 1 e.part ++ zeros 1 ++ natLe 2 e.unit ++ natLe 8 e.tick ++
    natLe 8 e.time ++ natLe 40 e.detail

/-- Events that have become due enter the device queue of 1,024 records; what finds it full is lost. [DESIGN CHOICE, log 30] -/
def State.queueEvents (s : State) : State :=
  let room := 1024 - s.evt.queue.length
  let due := s.evt.due.map (fun e => { e with tick := s.tick.count })
  let lost := due.length - room
  { s with evt := { s.evt with
      queue := s.evt.queue ++ due.take room
      due := []
      lost := satAdd 0xFFFF s.evt.lost lost
      discarded := s.evt.discarded + lost } }

/-- Where the control plane can write `n` bytes of the event ring, or none; a missing page is asked for. -/
def State.evtPlace (s : State) (va n : Nat) : Option Place × State :=
  if !s.xlatOn || decide (2 ^ 56 ≤ va) then (none, s)
  else
    match s.liveOfVa s.evt.pasid va false true with
    | some (.dev a) => (if s.devStatus 0xFF a n true = 0 then some (.dev a) else none, s)
    | some (.host a) => (some (.host a), s)
    | some _ => (none, s)
    | none => (none, s.askPage s.evt.pasid va ⟨.evt, false, true, 0, 0xFF, false⟩)

/-- Write event records while the ring has room and can be reached: EVT_LOST first after a discard.  The Bool says that one has been
written. [DESIGN CHOICE, log 30] -/
def State.writeEvents (s : State) : Nat → Bool → State × Bool
  | 0, w => (s, w)
  | fuel + 1, w =>
    let e := s.evt
    if e.size ≤ ptrSub e.written e.head || (e.discarded == 0 && e.queue.isEmpty) then (s, w)
    else
      let a := s.evtPlace (e.base + 64 * (e.written % e.size)) 64
      match a.1 with
      | none => (a.2, w)
      | some pl =>
        let rec_ : Event := if e.discarded ≠ 0 then ⟨0x0021, 1, 0xFF, 0xFFFF, s.tick.count, s.tick.time, detail [(4, e.discarded)]⟩
          else e.queue.headD ⟨0, 0, 0, 0, 0, 0, 0⟩
        let e' : EvtLog := { e with
          written := (e.written + 1) % 2 ^ 32
          discarded := 0
          queue := if e.discarded ≠ 0 then e.queue else e.queue.drop 1 }
        let s : State := { s with evt := e', host := { s.host with writes := s.host.writes ++ writesAt pl rec_.bytes } }
        State.writeEvents s fuel true

/-- Step 6: the tick's events are queued, and records and the tail written as far as the ring takes them. -/
def State.settleEvents (s : State) : State :=
  let s := s.queueEvents.sampleEvt
  if !s.evt.running || !s.evt.enable || !s.evt.sampled || decide (s.evt.size < ptrSub s.evt.written s.evt.head) then s
  else
    let t := s.evtPlace (s.evt.cell + 64) 4
    match t.1 with
    | none => t.2
    | some pl =>
      let r := s.writeEvents (s.evt.queue.length + 1) false
      if r.2 then { r.1 with host := { r.1.host with writes := r.1.host.writes ++ writesAt pl (natLe 4 r.1.evt.written) } } else r.1

/-! ### The mailbox (R306, R310, R417) -/

/-- The tiles a PART_SET names. -/
def partTiles (b : Bytes) : List Nat := (List.range 4608).filter (fun t => bit (byteAt b (64 + t / 8)) (t % 8))

/-- A tile that changes its partition is zeroed, IMEM and slot table with it (R119). -/
def Tile.emptied (x : Tile) : Tile :=
  { x.cleared with imem := [], imemBad := [], weak := [], failing := [], table := [] }

/-- A PART_SET takes effect (R310, R119): clasps that join or leave become 0, tiles that change partition are zeroed. [DESIGN CHOICE, log 32] -/
def State.applyPartSet (s : State) (b : Bytes) : State :=
  let p := byteAt b 1
  let old := s.part p
  let base := fieldLe b 8 4
  let n := fieldLe b 12 4
  let inOld (k : Nat) : Bool := decide (old.claspBase ≤ k) && decide (k < old.claspBase + old.claspCount)
  let inNew (k : Nat) : Bool := decide (base ≤ k) && decide (k < base + n)
  let ts := partTiles b
  let s : State := { s with
    clasps := { s.clasps with committed := SMap.keep (fun k => inOld k == inNew k) s.clasps.committed }
    tiles := s.tiles.map (fun e =>
      if e.2.partition = some p ∧ !ts.contains e.1 then (e.1, { e.2.emptied with partition := none }) else e) }
  let s := ts.foldl (fun s t => if (s.tile t).partition = some p then s
    else s.updTile t (fun x => { x.emptied with partition := some p })) s
  let s := s.updPart p (fun x => { x with
    maintenance := bit (byteAt b 2) 0, maxInflight := fieldLe b 4 4, claspBase := base, claspCount := n
    engines := fieldLe b 16 4, pasid := fieldLe b 20 4 })
  s.queueWrite (.showClasps s.clasps.committed)

/-- A LOCKET_SEAL whose seal can take effect at the next boundary ends now (R417). [DEDUCED, log 77] -/
def State.settleSeal (s : State) : State :=
  if (s.mbox.busy.map (fun b => b.opcode)) = some 0x705 ∧ ¬ s.locket.sealDue.isEmpty ∧ s.locket.sealDue.all s.sealReady then s.mboxOk []
  else s

/-- The result of the mailbox command that has finished is committed: MBOX.OUT, then MBOX.STATUS. [DESIGN CHOICE, log 32] -/
def State.settleMbox (s : State) : State :=
  match s.mbox.ready with
  | none => s
  | some r =>
    let words := (List.range (ceilDiv r.out.length 8)).map (fun i => BitVec.ofNat 64 (fieldLe r.out (8 * i) 8))
    let set := s.mbox.partSet
    let s : State := { s with mbox := { s.mbox with
      output := SMap.setList 0 s.mbox.output 0 words
      outLen := r.out.length, result := r.code, state := 2, ready := none, partSet := none } }
    match set with
    | none => s
    | some b => s.applyPartSet b

/-! ### The phase -/

/-- What SAIL.SLOT_STATE and SAIL.SLOT_LEN show from now on (R115). -/
def State.showSlots (s : State) : State :=
  { s with sail := { s.sail with slots := s.sail.slots.map (fun e =>
      (e.1, { e.2 with shownState := e.2.state, shownPencil := e.2.pencil })) } }

/-- The Settle phase begins at the edge `edge`, and what is due in it commits in the order of R21. -/
def State.settlePhase (s : State) (edge : Nat) : State :=
  let s := s.atEdge edge
  let s : State := { s with tick := { s.tick with phase := 2 } }
  let s := s.powerControl.openVote
  let all := s.work.flights.map (fun x => x.id)
  let s := all.foldl (fun s f => s.settleSpec f) s
  let s := s.dueList.foldl (fun s x => s.awaitWriteback x) s
  let due := s.dueList.map (fun x => x.id)
  let s := due.foldl (fun s f => s.settleStep1 due f) s
  let s := due.foldl (fun s f => s.settleStep2 due f) s
  let s := (s.settleCloses (s.dueList.map (fun x => x.id))).settleStaging
  let done := s.dueList
  let s := (s.settleRecords done).settleClasps done
  let s := s.faultBatch.settleEvents
  (s.settleSeal.settleMbox.showSlots).drain

/-- SETTLE_PHASE (R21), at the first REFCLK edge at or after S_n: a status or signal whose parity fails on its way is never committed,
and starts a warm reset (Table 15.5). [DESIGN CHOICE, log 11; DESIGN CHOICE, log 99] -/
def execSettlePhase (at_ : Nat) (parityOk : Bool) (s : State) : Host.Outcome State Fault Refusal :=
  .next (
    if !s.ctl.released || s.tick.phase != 1 || !s.firstEdge s.settleStart at_ then s
    else if parityOk then s.settlePhase at_
    else
      let s := s.atEdge at_
      ({ s with tick := { s.tick with phase := 2 } }).warmDue 5)

end Sys2Proof.Machine
end

