-- ==== Sys2Proof/Machine/Image.lean ====
section
/-! DEFINITION. The configuration image (R493 to R503): its checks, its fields with their clamps, and the configuration report. -/

namespace Sys2Proof.Machine

/-! ### Checks (R494 to R497) -/

def imgLen (b : Bytes) : Nat := fieldLe b 8 4
def imgGroups (b : Bytes) : Nat := fieldLe b 12 2
def imgSig (b : Bytes) : Nat := fieldLe b 16 4

/-- Entry `i` of the group table (R495): type, version, offset, length. -/
def imgEntry (b : Bytes) (i : Nat) : Nat × Nat × Nat × Nat :=
  let o := 64 + 16 * i
  (fieldLe b o 2, byteAt b (o + 2), fieldLe b (o + 4) 4, fieldLe b (o + 8) 4)

/-- The entries of the group table. -/
def imgEntries (b : Bytes) : List (Nat × Nat × Nat × Nat) := (List.range (imgGroups b)).map (imgEntry b)

/-- Bytes [o, o + n) are zero. -/
def zerosAt (b : Bytes) (o n : Nat) : Bool := (List.range n).all (fun i => byteAt b (o + i) == 0)

/-- The check of one group-table entry: its place, and that no earlier entry overlaps it or has its type (R495). -/
def imgEntryOk (b : Bytes) (i : Nat) : Bool :=
  let e := imgEntry b i
  let off := e.2.2.1
  let len := e.2.2.2
  off % 16 == 0 && decide (64 + 16 * imgGroups b ≤ off) && decide (off + len ≤ imgSig b) &&
    byteAt b (64 + 16 * i + 3) == 0 && zerosAt b (64 + 16 * i + 12) 4 &&
    (List.range i).all (fun j =>
      let f := imgEntry b j
      f.1 != e.1 && !(meets f.2.2.1 f.2.2.2 off len))

/-- The image proper: `image_len` bytes of what the flash or the staging holds. -/
def imgBytes (b : Bytes) : Bytes := b.take (imgLen b)

/-- A key is accepted in the life-cycle state (R432). -/
def imgKeyOk (lc : Nat) (keyHash pk : Bytes) : Bool :=
  match lc with
  | 2 => true
  | 3 => sha3_256 pk == keyHash
  | 5 => false
  | _ => Config.romKeyHash (sha3_256 pk)

/-- Checks 2 to 6 of Table 16.5: the cause and the image offset of the first that fails, in order. [DEDUCED, log 92] -/
def imgCheck (lc : Nat) (keyHash b : Bytes) : Option (Nat × Nat) :=
  let len := imgLen b
  let sig := imgSig b
  let table := (List.range (imgGroups b)).find? (fun i => !imgEntryOk b i)
  let pk := slice b sig 1312
  let bad (c : Bool) (cause off : Nat) : Option (Nat × Nat) := if c then some (cause, off) else none
  (bad (b.length < 64 || slice b 0 4 != [0x4B, 0x59, 0x43, 0x49]) 2 0)
    <|> bad (len < 8192 || 67108864 < len || len % 16 != 0 || b.length < len) 2 8
    <|> bad (sig != len - 3744) 2 16
    <|> bad (imgGroups b == 0 || 32 < imgGroups b) 2 12
    <|> (table.map (fun i => (2, 64 + 16 * i)))
    <|> bad (!zerosAt b 6 2) 2 6
    <|> bad (!zerosAt b 14 2) 2 14
    <|> bad (!zerosAt b 20 4) 2 20
    <|> bad (!zerosAt b 43 21) 2 43
    <|> bad (byteAt b 4 != 1) 4 4
    <|> bad (byteAt b 5 != 1) 4 5
    <|> bad (fieldLe b 40 2 != 0x0B68) 4 40
    <|> bad (0xA1 < byteAt b 42) 4 42
    <|> bad (crc64 (b.take 32 ++ zeros 8 ++ slice b 40 (sig - 40)) != fieldLe b 32 8) 2 32
    <|> bad (!imgKeyOk lc keyHash pk) 3 sig
    <|> bad (!Config.hashMlDsaVerify pk (ascii "KYORI-IMAGE") (b.take sig)
        (slice b (sig + 1312) 2420)) 3 (sig + 1312)

/-! ### Fields (R498 to R502) -/

/-- What the fields are read from: each group's bytes where it is given with version 1, and what the stacks report as latencies. -/
structure ImgView where
  group : Nat → Option Bytes
  readLats : List Nat
  writeLats : List Nat

/-- The groups of an image. -/
def imgView (b : Bytes) (readLats writeLats : List Nat) : ImgView :=
  ⟨fun t => ((imgEntries b).find? (fun e => e.1 == t && e.2.1 == 1)).map (fun e => slice b e.2.2.1 e.2.2.2), readLats, writeLats⟩

/-- A record of the report (Table 16.12). -/
def mkReport (kind group off given applied : Nat) : Report := ⟨kind, group, off, 0xFFFF, given, applied⟩

/-- A field of `w` bytes at `off` of a group, with its range, its default, and its clamp: none for the nearer bound (R498). -/
def imgField (v : ImgView) (t off w lo hi dflt : Nat) (clamp : Option Nat) : Nat × List Report :=
  match v.group t with
  | none => (dflt, [])
  | some g =>
    if g.length < off + w then (dflt, [mkReport 2 t off 0 dflt])
    else
      let x := fieldLe g off w
      if lo ≤ x ∧ x ≤ hi then (x, [])
      else
        let y := clamp.getD (clampNat lo hi x)
        (y, [mkReport 1 t off x y])

/-- A field of bits: those outside `mask` are reserved (R498). -/
def imgBits (v : ImgView) (t off w mask dflt : Nat) : Nat × List Report :=
  match v.group t with
  | none => (dflt, [])
  | some g =>
    if g.length < off + w then (dflt, [mkReport 2 t off 0 dflt])
    else
      let x := fieldLe g off w
      (x &&& mask, if x &&& mask = x then [] else [mkReport 3 t off x (x &&& mask)])

/-- Reserved bytes. -/
def imgReserved (v : ImgView) (t off w : Nat) : List Report :=
  match v.group t with
  | none => []
  | some g => if off + w ≤ g.length ∧ fieldLe g off w ≠ 0 then [mkReport 3 t off (fieldLe g off w % 2 ^ 64) 0] else []

/-- The nearest of the reported values, the lower of two as near. -/
def nearest (vals : List Nat) (x : Nat) : Nat :=
  vals.foldl (fun b y =>
    let db := max b x - min b x
    let dy := max y x - min y x
    if dy < db ∨ (dy = db ∧ y < b) then y else b) (vals.headD x)

/-- A latency field (Table 16.7): a value the stacks report, else the nearest; without one, the stack's lowest. [DEDUCED, log 92] -/
def imgLatency (v : ImgView) (off : Nat) (vals : List Nat) : Option Nat × List Report :=
  match v.group 2 with
  | none => (none, [])
  | some g =>
    if g.length < off + 1 then (none, [mkReport 2 2 off 0 (vals.foldl min (vals.headD 0))])
    else
      let x := byteAt g off
      if vals.isEmpty then (none, [])
      else if vals.contains x then (some x, [])
      else (some (nearest vals x), [mkReport 1 2 off x (nearest vals x)])

/-- The repair list (R499). -/
def imgRepairs (v : ImgView) : List (Nat × Nat × Nat × Nat × Nat) × List Report :=
  match v.group 6 with
  | none => ([], [])
  | some g =>
    let n := g.length / 8
    let es := (List.range (min n 1024)).map (fun i =>
      let o := 8 * i
      (i, (byteAt g o, byteAt g (o + 1), byteAt g (o + 2), byteAt g (o + 3), fieldLe g (o + 4) 4), fieldLe g o 8))
    let ok (e : Nat × Nat × Nat × Nat × Nat) : Bool :=
      decide (e.1 < 8) && decide (e.2.1 < 64) && decide (e.2.2.1 < 64) && (e.2.2.2.1 == 1 || e.2.2.2.1 == 2) && decide (e.2.2.2.2 < 24576)
    ((es.filter (fun e => ok e.2.1)).map (fun e => e.2.1),
      ((es.filter (fun e => !ok e.2.1)).map (fun e => mkReport 3 6 e.1 e.2.2 0)) ++
        (if 1024 < n then [mkReport 1 6 0xFFFF n 1024] else []))

/-- Numbered fields of one kind, gathered with their records. -/
def imgList (fs : List (Nat × List Report)) : List Nat × List Report := (fs.map (fun f => f.1), (fs.map (fun f => f.2)).flatten)

/-- Values other than the ROM's, by index. -/
def romOverrides (given rom : List Nat) : SMap (Option Nat) :=
  (List.range given.length).foldl (fun m i =>
    if given.getD i 0 = rom.getD i 0 then m else SMap.set none m i (some (given.getD i 0))) []

/-- The DEVICE and MEMORY groups (Tables 16.6, 16.7). -/
def imgDevice (v : ImgView) (c : ImageCfg) : ImageCfg × List Report :=
  let f (off w lo hi d : Nat) (cl : Option Nat) := imgField v 1 off w lo hi d cl
  let vendor := f 0 2 0 0xFFFF 0x1F3A none
  let sub := f 2 2 0 0xFFFF 0x0B68 none
  let period := f 4 2 2 1000 20 none
  let pct := f 6 1 0 25 10 (some 25)
  let flags := imgBits v 1 7 1 7 0
  let beads := f 8 2 1 4096 4096 none
  let engines := f 12 4 0 0xFFFFFFFF 0xFFFFFFFF none
  let ports := imgBits v 1 16 2 0x1FF 0x1FF
  let limit := f 18 2 100 520 520 none
  let wide := imgField v 2 0 4 0 0xFFFFFFFF 0xFFFFFFFF none
  let rd := imgLatency v 4 v.readLats
  let wr := imgLatency v 5 v.writeLats
  let reps := imgRepairs v
  ({ c with
      subsysVendor := vendor.1, subsysId := sub.1, tickPeriodUs := period.1, overrunPct := pct.1
      fixedFreq := bit flags.1 0, fastStart := bit flags.1 1, beadDebug := bit flags.1 2
      beads := beads.1, engines := engines.1, tetherPorts := ports.1, powerLimit := limit.1
      wideMask := wide.1, readLatency := rd.1, writeLatency := wr.1, repairs := reps.1 },
    vendor.2 ++ sub.2 ++ period.2 ++ pct.2 ++ flags.2 ++ beads.2 ++ imgReserved v 1 10 2 ++ engines.2 ++ ports.2 ++ limit.2 ++
      wide.2 ++ rd.2 ++ wr.2 ++ reps.2)

/-- A bound of a quarter of, or four times, the ROM's value (Table 16.8). -/
def imgRom (v : ImgView) (off rom : Nat) : Nat × List Report := imgField v 3 off 4 (ceilDiv rom 4) (4 * rom) rom none

/-- The POWER group (Table 16.8). -/
def imgPower (v : ImgView) (c : ImageCfg) : ImageCfg × List Report :=
  let f (off w lo hi d : Nat) (cl : Option Nat) := imgField v 3 off w lo hi d cl
  let ratings := imgList [f 0 2 50 600 350 none, f 2 2 50 600 350 none, f 4 2 20 250 120 none, f 6 2 1 10 3 none]
  let pmbus := imgList ((List.range 4).map (fun i => f (8 + i) 1 0x08 0x77 (0x40 + i) (some (0x40 + i))))
  let avs := imgList ((List.range 2).map (fun i => f (12 + i) 1 0 15 i (some i)))
  let pj := f 16 4 200 10000 1800 none
  let st := imgList ((List.range 20).map (fun d => imgRom v (24 + 4 * d) (Config.romStatic d)))
  let ev := imgList ((List.range 160).map (fun i => imgRom v (104 + 4 * i) (Config.romEvent (i / 8) (i % 8))))
  ({ c with
      ratings := ratings.1, pmbus := pmbus.1, avs := avs.1, stackPj := pj.1
      staticMw := romOverrides st.1 ((List.range 20).map Config.romStatic)
      eventFj := romOverrides ev.1 ((List.range 160).map (fun i => Config.romEvent (i / 8) (i % 8))) },
    ratings.2 ++ pmbus.2 ++ avs.2 ++ imgReserved v 3 14 2 ++ pj.2 ++ imgReserved v 3 20 4 ++ st.2 ++ ev.2)

/-- The THERMAL group (Table 16.9), with the order rule of R501. -/
def imgThermal (v : ImgView) (c : ImageCfg) : ImageCfg × List Report :=
  let f (off w lo hi d : Nat) := imgField v 4 off w lo hi d none
  let rd := f 0 2 10 200 40
  let rp := f 2 2 10 500 60
  let rk := f 4 2 50 1000 250
  let taud := f 6 2 1 1000 25
  let taup := f 8 2 100 60000 4000
  let tauk := f 10 2 1 1000 40
  let tin := f 12 2 0 1280 560
  let lead := f 14 2 1 2000 200
  let tjt := f 16 1 80 100 100
  let tst := f 17 1 70 92 90
  let tsh := f 18 1 75 95 95
  let tset := f 19 1 50 95 85
  let gain := f 20 2 1 64 16
  let floor := imgField v 4 22 1 0 128 64 (some 128)
  let order := if tsh.1 - 3 < tst.1 then [mkReport 1 4 17 tst.1 (tsh.1 - 3)] else []
  ({ c with
      rd := rd.1, rp := rp.1, rk := rk.1, taud := taud.1, taup := taup.1, tauk := tauk.1, tin := tin.1, lead := lead.1
      tjt := tjt.1, tst := min tst.1 (tsh.1 - 3), tsh := tsh.1, tset := tset.1, gain := gain.1, floor := floor.1 },
    rd.2 ++ rp.2 ++ rk.2 ++ taud.2 ++ taup.2 ++ tauk.2 ++ tin.2 ++ lead.2 ++ tjt.2 ++ tst.2 ++ order ++ tsh.2 ++ tset.2 ++ gain.2 ++
      floor.2 ++ imgReserved v 4 23 1)

/-- A count of list entries that the group's length may cut (Table 16.10). -/
def cutCount (n holds off : Nat) : Nat × List Report :=
  if n ≤ holds then (n, []) else (holds, [mkReport 1 5 off n holds])

/-- The TRUST group (Table 16.10). -/
def imgTrust (v : ImgView) (c : ImageCfg) : ImageCfg × List Report :=
  let g := (v.group 5).getD []
  let hash := if 32 ≤ g.length then (slice g 0 32, [])
    else (zeros 32, if (v.group 5).isSome then [mkReport 2 5 0 0 0] else [])
  let rc := imgField v 5 32 1 0 16 0 (some 16)
  let mc := imgField v 5 33 1 0 64 0 (some 64)
  let holds := (g.length - 48) / 32
  let roots := cutCount rc.1 holds 32
  let meas := cutCount mc.1 (holds - roots.1) 33
  ({ c with
      ownerKeyHash := hash.1
      roots := (List.range roots.1).map (fun i => slice g (48 + 32 * i) 32)
      measurements := (List.range meas.1).map (fun i => slice g (48 + 32 * (roots.1 + i)) 32) },
    hash.2 ++ rc.2 ++ roots.2 ++ mc.2 ++ meas.2 ++ imgReserved v 5 34 14)

/-- Groups that are ignored (R495): of an unknown type, kind 3; of another version, kind 2. -/
def imgIgnored (b : Bytes) : List Report :=
  ((imgEntries b).map (fun e =>
    if e.1 = 0 ∨ 6 < e.1 then [mkReport 3 (e.1 % 256) 0xFFFF e.1 0]
    else if e.2.1 ≠ 1 then [mkReport 2 e.1 0xFFFF e.2.1 0] else [])).flatten

/-- Sorts records by group, then by field offset (R503). -/
def sortReports (l : List Report) : List Report := sortBy (fun r => r.group * 65536 + r.offset) l

/-- The fields of an image, checked and clamped, and their records (R498 to R502). [DEDUCED, log 92] -/
def imgFields (b : Bytes) (readLats writeLats : List Nat) : ImageCfg × List Report :=
  let v := imgView b readLats writeLats
  let d := imgDevice v {}
  let p := imgPower v d.1
  let t := imgThermal v p.1
  let r := imgTrust v t.1
  (r.1, sortReports (imgIgnored b ++ d.2 ++ p.2 ++ t.2 ++ r.2))

/-- The ROM defaults of the recovery state (R504). -/
def romCfg : ImageCfg := { fixedFreq := true, fastStart := true }

/-! ### The configuration report (R503) -/

/-- The records in the order of R503, as many as are kept. -/
def State.records (s : State) : List Report :=
  (sortReports (s.ctl.reports ++ s.ctl.overrides) ++ sortBy (fun r => r.unit) s.ctl.unitReports).take 2047

/-- A record in bytes (Table 16.12). -/
def reportBytes (r : Report) : Bytes :=
  natLe 1 r.kind ++ natLe 1 r.group ++ natLe 2 r.offset ++ natLe 2 r.unit ++ zeros 2 ++ natLe 8 r.given ++ natLe 8 r.applied ++ zeros 8

/-- The report: its header (Table 16.11) and its records. -/
def State.report (s : State) : Bytes :=
  let rs := s.records
  let all := s.ctl.reports.length + s.ctl.overrides.length + s.ctl.unitReports.length
  natLe 1 1 ++ natLe 1 (flag s.ctl.recovery) ++ natLe 2 rs.length ++ natLe 4 (32 + 32 * rs.length) ++ natLe 8 s.ctl.buildId ++
    natLe 8 s.ctl.bootNs ++ natLe 1 s.ctl.recoveryCause ++
    natLe 1 (flag s.ctl.fastStart + 2 * flag s.ctl.cfg.fixedFreq + 4 * flag (decide (2047 < all))) ++ zeros 6 ++
    (rs.map reportBytes).flatten

end Sys2Proof.Machine
end

