-- ==== Sys2Proof/Machine/Startup.lean ====
section
/-! DEFINITION. Cold restarts, start-up and release (R486 to R492, R498 to R507, R513), warm resets (R478 to R480), PERST_N and the
host link (R296, R298, R487). -/

namespace Sys2Proof.Machine

/-! ### What a cold restart keeps (R486, Table 15.4) -/

/-- The device as a cold restart finds it: fuses, the retained registers of domain 0 if VDD_AON held, and the model's own
fields. [DESIGN CHOICE, log 93] -/
def State.coldBase (s : State) (kept : Bool) : State :=
  { out := s.out, free := s.free, pending := s.pending
    locket := { lc := s.locket.lc, lot := s.locket.lot, wafer := s.locket.wafer, dieX := s.locket.dieX, dieY := s.locket.dieY,
                uid := s.locket.uid, seed := s.locket.seed, imageKeyHash := s.locket.imageKeyHash, chain := s.locket.chain }
    keel := if kept then { first := s.keel.first, mask := s.keel.mask, unit := s.keel.unit, causeAt := s.keel.causeAt } else {}
    ctl := if kept then { recoveryRequest := s.ctl.recoveryRequest, imageWritten := s.ctl.imageWritten } else {} }

/-- The link widths in lanes and the rates in GT/s of the host port (R296). -/
def hostWidths : List Nat := [16, 8]
def hostRates : List Nat := [32, 16, 8]

/-- The host port trains: the link comes up with the widest width and the fastest rate that both ends support (R296). -/
def State.trainHost (s : State) : State :=
  match hostWidths.find? s.host.cfg.widths.contains, hostRates.find? s.host.cfg.rates.contains with
  | some w, some r => { s with host := { s.host with linkUp := true, width := w, rate := r } }
  | _, _ => { s with host := { s.host with linkUp := false, width := 0, rate := 0 } }

/-- Start-up halts with FAULT_N asserted; domains 1 to 16 stay off (R490). -/
def State.bootHalt (s : State) (step : Nat) : State :=
  let s := { s with ctl := { s.ctl with halted := true, step := step }, therm := { s.therm with fault := true } }
  (List.range 16).foldl (fun s d => s.setDomain (d + 1) true) s

/-! ### The image (Table 16.1, steps 4 and 5) -/

/-- The latencies the stacks report: those of the lowest-numbered stack that answers. -/
def bootLats (b : BootInput) (f : StackBoot → List Nat) : List Nat :=
  match b.hbm.find? (fun x => x.ok) with
  | some x => f x
  | none => []

/-- The recovery cause with the offset of the failing field, or none (Table 16.5). [DEDUCED, log 92] -/
def State.bootCause (s : State) (b : BootInput) : Option (Nat × Nat) :=
  match b.flash with
  | none => some (1, 0xFFFFFFFF)
  | some g =>
    match imgCheck s.locket.lc s.locket.imageKeyHash g with
    | some e => some e
    | none => if s.ctl.recoveryRequest then some (5, 0xFFFFFFFF) else none

/-- The settings the fields load: the tick, the limits and Ballast's start (Table 16.1, steps 5 and 12). -/
def State.loadFields (s : State) : State :=
  let c := s.ctl.cfg
  { s with
    tick := { s.tick with periodUs := c.tickPeriodUs, overrunPct := c.overrunPct }
    pwr := { s.pwr with limitW := c.powerLimit, fixedFreq := c.fixedFreq }
    therm := { s.therm with tin := c.tin, plate := 4096 * (c.tin : Int) } }

/-- Steps 4 and 5: the image is checked and its fields are taken, or the recovery state begins with the ROM defaults. -/
def State.bootImage (s : State) (b : BootInput) : State :=
  match s.bootCause b, b.flash with
  | none, some g =>
    let img := imgBytes g
    let f := imgFields img (bootLats b (fun x => x.readLats)) (bootLats b (fun x => x.writeLats))
    ({ s with ctl := { s.ctl with
        step := 5, cfg := f.1, reports := f.2, buildId := fieldLe img 24 8, imageDigest := sha3_256 img
        imageKeyHash := sha3_256 (slice img (imgSig img) 1312), imageLen := img.length, debugHalt := f.1.beadDebug
        fastStart := f.1.fastStart, recoveryRequest := false } }).loadFields
  | some e, _ =>
    ({ s with ctl := { s.ctl with
        step := 5, cfg := romCfg, recovery := true, recoveryCause := e.1, failOffset := e.2, fastStart := true
        recoveryRequest := false } }).loadFields
  | none, none => s

/-! ### Self-test (Table 16.2) -/

/-- A record of a unit (Table 16.12, kinds 5 to 7). -/
def State.unitReport (s : State) (kind unit off given applied : Nat) : State :=
  { s with ctl := { s.ctl with unitReports := s.ctl.unitReports ++ [⟨kind, 0, off, unit, given, applied⟩] } }

/-- A bead core fails self-test. -/
def State.bootCore (s : State) (t : Nat) : State :=
  if (s.tile t).coreFenced then s
  else ((s.updTile t (fun x => { x with coreFenced := true })).post 0x2042 2 0xFF t (detail [(1, 3)])).unitReport 5 t 0xFFFF 3 0

/-- A router fails self-test; its core is fenced with it. -/
def State.bootRouter (s : State) (t : Nat) : State :=
  if (s.tile t).routerFenced then s
  else ((s.updTile t (fun x => { x with coreFenced := true, routerFenced := true })).post 0x2052 2 0xFF t
    (detail [(1, 4)])).unitReport 5 t 0xFFFF 4 0

/-- Step 7: what fails is fenced and recorded. -/
def State.bootUnits (s : State) (b : BootInput) : State :=
  let s := ((nub b.routers).filter (fun t => decide (t < 4608))).foldl State.bootRouter s
  let s := ((nub b.cores).filter (fun t => decide (t < 4608))).foldl State.bootCore s
  let s := ((nub b.slices).filter (fun q => decide (q < 576))).foldl (fun s q =>
    let s := ({ s with casket := { s.casket with fenced := SMap.set false s.casket.fenced q true } }).unitReport 5 (0x4000 + q) 0xFFFF 0 0
    ((List.range 4608).filter (fun t => sliceOfTile t == q)).foldl State.bootCore s) s
  let s := ((nub b.engines).filter (fun n => decide (n < 32))).foldl (fun s n =>
    (({ s with sail := { s.sail with fenced := s.sail.fenced ||| 2 ^ n } }).post 0x3003 2 0xFF (0x2000 + n)
      (detail [(1, 3)])).unitReport 5 (0x2000 + n) 0xFFFF 3 0) s
  let s := ((nub b.lanes).filter (fun l => decide (l < 72))).foldl (fun s l =>
    (s.updLane l (fun y => { y with bad := true, retired := true, state := 4 })).unitReport 5 (0x5100 + l) 0xFFFF 0 0) s
  ((nub b.sites).filter (fun q => decide (q < 6))).foldl (fun s q =>
    ((s.updSite q (fun x => { x with state := 4, fenceCause := 4 })).post 0x6002 2 0xFF (0x6000 + q)
      (detail [(1, 4), (1, 0)])).unitReport 5 (0x6000 + q) 0xFFFF 4 0) s

/-! ### Stacks (R492, R499; Table 16.1, step 8) -/

/-- One entry of the repair list: skipped, failed or applied; the failed one leaves its pseudo-channel failed. -/
def State.bootRepair (s : State) (b : BootInput) (i : Nat) : State :=
  match s.ctl.cfg.repairs[i]? with
  | none => s
  | some (k, pc, bank, kind, row) =>
    match b.hbm[k]? with
    | none => s
    | some sb =>
      if !sb.ok then s
      else if sb.hppr.contains (pc, bank, row) then s.unitReport 7 (0x3000 + 64 * k + pc) i row 0
      else if sb.repairFails.contains i then s
      else s.unitReport 7 (0x3000 + 64 * k + pc) i row kind

/-- The failed pseudo-channels of stack `k`: its own, and those of repairs it reports as failed. -/
def State.bootFailed (s : State) (sb : StackBoot) (k : Nat) : List Nat :=
  let reps := (sb.repairFails.filterMap (fun i => s.ctl.cfg.repairs[i]?)).filter (fun e =>
    e.1 == k && !sb.hppr.contains (e.2.1, e.2.2.1, e.2.2.2.2))
  nub ((sb.failed ++ reps.map (fun e => e.2.1)).filter (fun p => decide (p < 64)))

/-- Group `n` as it leaves start-up (Table 16.3). -/
def State.bootGroup (s : State) (ok : Bool) (failed : List Nat) (n : Nat) : State :=
  let wide := bit s.ctl.cfg.wideMask n
  let bad := failed.filter (fun p => p / 16 == n % 4)
  let st := if !ok then 5 else if bad.isEmpty then 0 else if wide && bad.length == 1 then 3 else 5
  let s := s.updGroup n (fun _ => { wide := wide, state := st, shown := st, deadDie := if st = 3 then bad.head?.map (fun p => p % 16) else none })
  if st = 0 then s
  else
    let s := s.unitReport 6 (0x3000 + 16 * n) 0xFFFF 0 st
    if st = 5 then
      { s with mem := { s.mem with slabs := (List.range 24).foldl (fun m j => SMap.set {} m (24 * n + j) { hole := true }) s.mem.slabs } }
    else s

/-- A latency of a stack's mode registers: the image's, or the lowest that the stack reports (Table 16.8). -/
def bootLatency (image : Option Nat) (reported : List Nat) : Nat := image.getD (reported.foldl min (reported.headD 0))

/-- The mode registers of every pseudo-channel of stack `k` are programmed (R233). -/
def State.bootModes (s : State) (sb : StackBoot) (k : Nat) : State :=
  let m := modeRegs (bootLatency s.ctl.cfg.readLatency sb.readLats) (bootLatency s.ctl.cfg.writeLatency sb.writeLats)
  (List.range 64).foldl (fun s p => s.programAs (64 * k + p) m) s

/-- Steps 8 and 10 for stack `k`. -/
def State.bootStack (s : State) (b : BootInput) (k : Nat) : State :=
  let sb := (b.hbm[k]?).getD ⟨false, [], [], [], [], [], [], []⟩
  let s := { s with mem := { s.mem with
    hbm := SMap.upd {} s.mem.hbm k (fun x => { x with present := sb.ok })
    noSpare := s.mem.noSpare ++ sb.noSpare.map (fun x => 8192 * k + x) } }
  let failed := s.bootFailed sb k
  let s := if sb.ok then s.bootModes sb k else s
  let s := (List.range 4).foldl (fun s g => s.bootGroup sb.ok failed (4 * k + g)) s
  if s.ctl.fastStart then s
  else sb.mended.foldl (fun s m => s.unitReport 7 (0x3000 + 64 * k + m.1) 0xFFFF m.2.2 1) s

/-- Step 9: sites and Tether ports begin their bring-up; in the recovery state sites are held in reset and ports stay off
(R392, R500, R504). -/
def State.bootLinks (s : State) : State :=
  let s := (List.range 6).foldl (fun s q => s.updSite q (fun x => { x with
    state := if x.state = 4 then 4 else if x.strap = 0 then 0 else if x.strap = 2 ∨ s.ctl.recovery then 1 else 2 })) s
  if s.ctl.recovery then s
  else (List.range 9).foldl (fun s p => if bit s.ctl.cfg.tetherPorts p then s.bringUp p else s) s

/-- Step 11: memory is filled, or its valid bits stay clear (R269). [DESIGN CHOICE, log 93] -/
def State.bootFill (s : State) : State :=
  if s.ctl.fastStart then { s with care := { s.care with fastStart := true } }
  else { s with mem := { s.mem with filled := true } }

/-- A site whose training release waits for. -/
def State.sitesPending (s : State) : Bool :=
  !s.ctl.recovery && (List.range 6).any (fun q => (s.site q).state == 2)

/-- Start-up up to the wait for release (Table 16.1); `first`: from step 1. [DESIGN CHOICE, log 85; DESIGN CHOICE, log 91] -/
def State.coldStart (s : State) (b : BootInput) (first : Bool) : State :=
  let s := { s with
    ctl := { s.ctl with pwrgood := true, startNs := s.tick.time }
    therm := { s.therm with duty := 0xFF, fullSince := some s.tick.time } }
  if first && !b.refclk then s.bootHalt 0
  else if first && !b.rails then s.enterSafe 4 0xA000
  else if s.locket.lc = 5 then s.bootHalt 1
  else
    let s := { s with
      locket := { s.locket with entropyOk := b.entropy, drbgOk := b.entropy, generates := 0 }
      ctl := { s.ctl with step := 3 } }
    let s := if s.ctl.perstN then s.trainHost else s
    let s := if b.entropy then s else s.post 0x7007 2 0xFF 0x7000 (detail [(1, 1)])
    let s := s.bootImage b
    let s := if (List.range 6).all (fun q => (s.site q).strap == 0) then s.setDomain 18 true else s
    let s := [0, 1].foldl (fun s h => (s.updRail h (fun r => { r with setpoint := stateSetpoint 1 })).emit (.setpoint h (stateSetpoint 1))) s
    let s := { s with mesh := { s.mesh with westP := 1, eastP := 1 } }
    if !b.vital then s.bootHalt 6
    else
      let s := s.bootUnits b
      let s := (List.range s.ctl.cfg.repairs.length).foldl (fun s i => s.bootRepair b i) s
      let s := (List.range 8).foldl (fun s k => s.bootStack b k) s
      let s := s.bootLinks.bootFill
      { s with ctl := { s.ctl with step := if s.sitesPending then 8 else 11 } }

/-- PWRGOOD_RISE (R486, R488, R513): a cold restart from step 1 of Table 16.1. [DESIGN CHOICE, log 91] -/
def execPwrgoodRise (b : BootInput) (s : State) : Host.Outcome State Fault Refusal :=
  guarded "PWRGOOD_RISE" (b.straps.length == 6 && b.straps.all (fun x => decide (x < 4)) && b.hbm.length == 8) (
    if s.ctl.pwrgood then s
    else
      let base := s.coldBase b.aonKept
      let base := { base with
        ctl := { base.ctl with perstN := s.ctl.perstN }
        host := { base.host with cfg := s.host.cfg }
        sites := (List.range 6).foldl (fun m q => SMap.upd {} m q (fun (x : Site) => { x with strap := b.straps.getD q 0 })) [] }
      base.coldStart b true)

/-- INTERNAL_COLD_RESTART (R486): the restart that is due, from step 2; TICK.TIME runs on and the straps hold. -/
def execInternalColdRestart (b : BootInput) (s : State) : Host.Outcome State Fault Refusal :=
  guarded "INTERNAL_COLD_RESTART" (b.hbm.length == 8) (
    if !s.ctl.restartDue then s
    else
      let base := s.coldBase true
      let base := { base with
        tick := { base.tick with time := s.tick.time, frac := s.tick.frac }
        ctl := { base.ctl with perstN := s.ctl.perstN }
        host := { base.host with cfg := s.host.cfg }
        sites := (List.range 6).foldl (fun m q => SMap.upd {} m q (fun (x : Site) => { x with strap := (s.site q).strap })) [] }
      base.coldStart b false)

/-- PWRGOOD_FALL (R486, R514, R517): every clock and output stops at once. [DESIGN CHOICE, log 69] -/
def execPwrgoodFall (s : State) : Host.Outcome State Fault Refusal :=
  .next (if s.ctl.pwrgood then s.coldBase true else s)

/-! ### Release (Table 16.1, steps 12 and 13) -/

/-- The engines in service (R500, Table 2.17). -/
def State.syncEngines (s : State) : State :=
  { s with sail := { s.sail with enabled := (List.range 32).foldl (fun m n =>
      if bit s.sail.configured n && !bit s.sail.fenced n then m + 2 ^ n else m) 0 } }

/-- What every release does: the slot generations are seeded (R83), the engines enabled, and each half runs P1 (R447). [DESIGN CHOICE, log 49; DESIGN CHOICE, log 104] -/
def State.released (s : State) : State :=
  let s := if s.locket.drbgOk then
      ({ s with sail := { s.sail with generation := Config.freeNat s.free % 2 ^ 32 } } : State).generated else s
  let p := if s.keel.safe then 7 else 1
  { s.countClocks.syncEngines with
    tick := { s.tick with localP := p, agreedP := p, currentP := p, freqAt := 0 }
    mesh := { s.countClocks.mesh with westP := p, eastP := p }
    therm := { s.therm with started := false } }

/-- The unit counts take their current values (R7, R531). [DESIGN CHOICE, log 36] -/
def State.showUnits (s : State) : State :=
  let fenced := (s.tiles.filter (fun e => e.2.coreFenced && (s.beadOfTile e.1).isSome)).length
  let slices := ((List.range 576).filter (fun sl => SMap.get false s.casket.fenced sl)).length
  { s with ctl := { s.ctl with units := {
      beads := s.mesh.beads - fenced
      engines := ((List.range 32).filter (fun n => bit s.sail.enabled n)).length
      groups := ((List.range 32).filter (fun n => (s.group n).state != 5)).length
      ports := ((List.range 9).filter (fun p => (s.port p).enabled && (s.port p).state != 5)).length
      sites := maskOf ((List.range 6).filter (fun q => (s.site q).state == 3))
      hbm := ((List.range 8).filter (fun k => (SMap.get {} s.mem.hbm k : Stack).present)).length
      casketKib := 512 * (576 - slices) } } }

/-- Records of some kinds. -/
def countKinds (l : List Report) (p : Nat → Bool) : Nat := (l.filter (fun r => p r.kind)).length

/-- The events of a release (Table 16.14). -/
def State.releaseEvents (s : State) : State :=
  let adj := countKinds s.ctl.reports (fun k => decide (k ≤ 3))
  let host := countKinds s.ctl.overrides (fun k => k == 4)
  let groups := ((List.range 32).filter (fun n => (s.group n).state != 0)).length
  let s := s.post 0xB001 0 0xFF 0xFFFF (detail [(8, s.tick.time - s.ctl.startNs), (1, flag s.ctl.fastStart), (2, adj + host),
    (2, countKinds s.ctl.unitReports (fun k => k == 5)), (1, groups)])
  let s := if adj = 0 ∧ host = 0 then s else s.post 0xB002 1 0xFF 0xFFFF (detail [(2, adj), (2, host)])
  let s := if s.ctl.recovery then s.post 0xB003 2 0xFF 0xFFFF (detail [(1, s.ctl.recoveryCause), (4, s.ctl.failOffset)]) else s
  match s.ctl.imageWritten with
  | none => s
  | some w => ({ s with ctl := { s.ctl with imageWritten := none } }).post 0xB004 1 0xFF 0xFFFF (detail [(8, w.1), (4, w.2)])

/-- Bead numbers go to the lowest tiles whose cores passed self-test, up to the beads value (R4, R500). -/
def State.numberBeads (s : State) : State :=
  let skipped := (List.range 4608).filter (fun t => (s.tile t).coreFenced)
  { s with mesh := { s.mesh with skipped := skipped, beads := min s.ctl.cfg.beads (4608 - skipped.length) } }

/-- RELEASE (R488): at a REFCLK edge at `at_`, tick 0 begins and E := TICK.TIME. [DESIGN CHOICE, log 93] -/
def execRelease (at_ : Nat) (s : State) : Host.Outcome State Fault Refusal :=
  .next (
    if !s.ctl.pwrgood || s.ctl.released || s.ctl.halted || s.keel.safe || decide (s.ctl.step < 8) || s.sitesPending then s
    else
      let s := (s.arrive at_).numberBeads
      let k := s.keel
      let s := { s with
        tick := { s.tick with epoch := s.tick.time, count := 0, phase := 0 }
        sail := { s.sail with configured := s.ctl.cfg.engines }
        keel := if k.newCause then k else { k with first := 0, mask := 0, unit := 0, causeAt := 0 }
        ctl := { s.ctl with step := 13, released := true, bootNs := s.tick.time } }
      s.released.showUnits.syncKeel.releaseEvents)

/-! ### Warm resets (R478 to R480, Table 15.13) -/

/-- WARM_RESET (R309): it completes, and the reset begins at the next tick boundary. -/
def execWarmReset (s : State) : Host.Outcome State Fault Refusal :=
  .next (s.mailbox 0x40 0 (fun _ => []) (fun _ => (s.mboxOk []).warmDue 1))

/-- A tile after a warm reset: everything is gone but its fences and what counts since the cold restart. -/
def Tile.warm (x : Tile) : Tile :=
  { coreFenced := x.coreFenced, routerFenced := x.routerFenced, memErrors := x.memErrors, checkSeen := x.checkSeen
    routerFault := x.routerFault }

/-- The zeroed and reset state of the compute part (Table 15.4, Table 15.13). [DESIGN CHOICE, log 88] -/
def State.warmCompute (s : State) : State :=
  { s with
    tiles := s.tiles.map (fun e => (e.1, e.2.warm))
    mesh := { beads := s.mesh.beads, skipped := s.mesh.skipped, westP := s.mesh.westP, eastP := s.mesh.eastP, clockAt := s.mesh.clockAt
              clockWest := s.mesh.clockWest, clockEast := s.mesh.clockEast }
    casket := { fenced := s.casket.fenced, epochs := s.casket.epochs }
    sail := { configured := s.sail.configured, enabled := s.sail.enabled, fenced := s.sail.fenced, kvrBase := s.sail.kvrBase
              kvrLimit := s.sail.kvrLimit, generation := s.sail.generation }
    dbg := {} }

/-- The reset state of the host side: work, clasps, events, translation, mailbox (R306, R311, R341, R348). -/
def State.warmHost (s : State) : State :=
  { s with
    work := { nextId := s.work.nextId }
    clasps := {}
    evt := { queue := s.evt.queue, due := s.evt.due, discarded := s.evt.discarded }
    xlat := { epochs := s.xlat.epochs }
    host := { cfg := s.host.cfg, linkUp := s.host.linkUp, width := s.host.width, rate := s.host.rate }
    mbox := if s.mbox.busy.isSome || s.mbox.ready.isSome then { s.mbox with busy := none, ready := some ⟨4, []⟩, partSet := none } else s.mbox
    ctl := { s.ctl with level := 0, staging := {} } }

/-- Memory and memory care across a warm reset: buckets, generators and counters are reset, the rest is kept. [DESIGN CHOICE, log 88] -/
def State.warmMemory (s : State) : State :=
  let c := s.care
  { s with
    mem := { s.mem with buckets := [], wbPartial := [], wbFull := [], tg := [], filling := [] }
    care := { stormPeriods := c.stormPeriods, leakMs := c.leakMs, scrubHours := c.scrubHours, threshold := c.threshold, leak := c.leak
              fastStart := c.fastStart, scrub := c.scrub.map (fun e => (e.1, { rows := e.2.rows, pos := e.2.pos, hours := e.2.hours })), donor := c.donor, evac := c.evac.map (fun e => (e.1, { e.2 with flight := none })) } }

/-- The Locket across a warm reset: sessions, keys and the owner key go, regions are orphaned, the DRBG is reseeded. -/
def State.warmLocket (s : State) : State :=
  let s := s.zeroise 1
  let k := s.locket
  { s with locket := { k with
      owner := none, nonce := none, generates := 0, released := [], sealDue := [], unsealDue := [], negotiated := false, returning := false } }

/-- Tether across a warm reset: ids and routes are kept; ports return to the image's enable set and train again. [DESIGN CHOICE, log 69] -/
def State.warmTether (s : State) : State :=
  let s := s.leaveFabric
  let t := s.tether
  let ports := (List.range 9).foldl (fun (m : SMap Port) p =>
    let x : Port := SMap.get {} t.ports p
    SMap.upd {} m p (fun y => { y with delayNs := x.delayNs })) []
  let lanes := (List.range 72).foldl (fun (m : SMap TetherLane) l =>
    SMap.upd {} m l (fun y => { y with bad := (SMap.get {} t.lanes l : TetherLane).bad, retired := (SMap.get {} t.lanes l : TetherLane).bad })) []
  let s := { s with tether := { ownId := t.ownId, refId := t.refId, joinEnable := t.joinEnable, routes := t.routes
                                routesDue := t.routesDue, nextTag := t.nextTag, ports := ports, lanes := lanes } }
  if s.ctl.recovery then s
  else (List.range 9).foldl (fun s p => if bit s.ctl.cfg.tetherPorts p then s.bringUp p else s) s

/-- Sites across a warm reset: a full retrain, no grant, no Bezel entry; they follow their straps (R394, Table 15.13). [DESIGN CHOICE, log 69] -/
def State.warmSites (s : State) : State :=
  if s.ctl.recovery then s
  else (List.range 6).foldl (fun s q =>
    let st := (s.site q).state
    let s := s.updSite q (fun x => { x with
      mask := 0, sealedOk := false, entries := [], entriesDue := [], grantDue := none, retrains := 0, replays := 0, crcBad := 0
      bezelRefused := 0, egress := [] })
    let x := s.site q
    if st = 0 ∨ st = 4 then s
    else if x.strap = 2 then (s.loseAttest q 5).updSite q (fun y => { y.restart with state := 1, resetLow := true })
    else s.partialReset q 5 0) s

/-- Power and heat across a warm reset (Table 15.13). -/
def State.warmPower (s : State) : State :=
  let s := (maskList 4 s.pwr.idle).foldl (fun s i => s.leaveIdle i) s
  let w := s.pwr
  { s with
    pwr := { w with
      limitW := s.ctl.cfg.powerLimit, capWest := 0xFF, capEast := 0xFF, idle := 0, idleDue := none, waking := 0, leaving := 0
      droopEvents := 0, droopPersistent := 0, droopUnits := 0, throttle := [], energy := [], energyRem := [], energyBase := 0
      energyBaseRem := 0, diverge := 0 }
    therm := { s.therm with
      tin := s.ctl.cfg.tin, tinDue := none, hints := []
      hbm := s.therm.hbm.map (fun e => (e.1, { e.2 with episodes := 0 })) } }

/-- WARM_RESET_BEGIN (R478 to R480): the warm reset that is due begins; the third one of its kind within 1 s is a safe-state entry
(R479). [DESIGN CHOICE, log 88] -/
def execWarmResetBegin (at_ : Nat) (s : State) : Host.Outcome State Fault Refusal :=
  .next (
    match s.ctl.warmDue with
    | none => s
    | some c =>
      if c = 1 ∧ s.mbox.ready.isSome then s
      else
        let s := s.arrive at_
        let now := s.tick.time
        let recent (l : List Nat) : List Nat := l.filter (fun t => decide (now < t + 1000000000)) ++ [now]
        let storm := if c ≤ 2 then s.keel.stormTimes else recent s.keel.stormTimes
        if 2 < c ∧ 3 ≤ storm.length then ({ s with keel := { s.keel with stormTimes := storm } }).enterSafe 13 0xA000
        else
          let times := recent s.keel.warmTimes
          let s := { s with
            keel := { s.keel with
              warmResets := satAdd 0xFFFF s.keel.warmResets 1, lastWarm := c, warmTimes := times, stormTimes := storm }
            ctl := { s.ctl with warm := some c, warmDue := none } }
          let s := s.post 0xA002 2 0xFF 0xA000 (detail [(1, c), (1, min 255 times.length)])
          let s := s.work.flights.foldl (fun s x =>
            if s.care.repairHold.any (fun h => h.2 == x.id) then s.repairEnd x false else s) s
          let s := s.writebackAll (fun _ => true)
          let s := s.warmCompute.warmHost.warmMemory.warmLocket.warmPower.warmTether.warmSites
          { s with tick := { s.tick with overruns := [], aborts := [], slips := [] } }.syncKeel)

/-- WARM_RESET_RELEASE (R479): the device is released again at a tick boundary. [DESIGN CHOICE, log 88] -/
def execWarmResetRelease (at_ : Nat) (s : State) : Host.Outcome State Fault Refusal :=
  .next (match s.ctl.warm with
    | none => s
    | some _ => let s := s.arrive at_; ({ s with ctl := { s.ctl with warm := none } }).released.showUnits)

/-! ### PERST_N and the host link (R296, R298, R487) -/

/-- The host port is reset (R487, Table 15.13). -/
def State.hostPortReset (s : State) : State := { s with host := { cfg := s.host.cfg } }

/-- PERST_N_ASSERT (R487): after release a warm reset with cause 2; before it only the host port is reset. -/
def execPerstNAssert (s : State) : Host.Outcome State Fault Refusal :=
  .next (if !s.ctl.pwrgood ∨ !s.ctl.perstN then s
    else
      let s := ({ s with ctl := { s.ctl with perstN := false } }).hostPortReset
      s.warmDue 2)

/-- PERST_N_DEASSERT (R487, R331): the host port trains once step 3 has ended, and the host enumerates the device. [DESIGN CHOICE, log 8] -/
def execPerstNDeassert (h : HostCfg) (s : State) : Host.Outcome State Fault Refusal :=
  .next (if !s.ctl.pwrgood ∨ s.ctl.perstN then s
    else
      let s := { s with ctl := { s.ctl with perstN := true }, host := { s.host with cfg := h } }
      if 3 ≤ s.ctl.step then s.trainHost else s)

/-- HOST_LINK_RESET (R296): a hot reset, a link-down event or the return from D3hot. -/
def execHostLinkReset (kind : LinkReset) (s : State) : Host.Outcome State Fault Refusal :=
  .next (
    if !s.host.linkUp then s
    else match kind with
      | .d3Return => if s.host.d3hot then ({ s with host := { s.host with d3hot := false } }).warmDue 2 else s
      | _ => ({ s with host := { s.host with d3hot := false, hdm0 := none, hdm1 := none } }).warmDue 2)

/-- D3HOT_ENTRY (R298): ring scanning stops and BAR0 reads return zero. -/
def execD3hotEntry (s : State) : Host.Outcome State Fault Refusal :=
  .next (if s.host.linkUp then { s with host := { s.host with d3hot := true } } else s)

/-! ### The recovery commands (R504 to R506) -/

/-- RECOVERY_BEGIN (Table 16.13). -/
def execRecoveryBegin (s : State) : Host.Outcome State Fault Refusal :=
  .next (s.mailbox 0xB00 8
    (fun b =>
      let n := fieldLe b 0 4
      (0, decide (8192 ≤ n) && decide (n ≤ 67108864) && n % 16 == 0) :: reservedChecks b 4 8)
    (fun b =>
      if !s.ctl.recovery || s.ctl.staging.state == 2 then s.mboxEnd 4 []
      else ({ s with ctl := { s.ctl with staging := ⟨1, fieldLe b 0 4, []⟩ } }).mboxOk []))

/-- RECOVERY_CHUNK (Table 16.13). -/
def execRecoveryChunk (s : State) : Host.Outcome State Fault Refusal :=
  .next (s.mailboxLc 0xB01 (fun n => decide (24 ≤ n) && decide (n ≤ 4088) && n % 16 == 8) [0, 1, 2, 3, 4, 5] (fun _ => [])
    (fun b =>
      let g := s.ctl.staging
      if g.state ≠ 1 then s.mboxEnd 4 []
      else if fieldLe b 0 4 ≠ g.bytes.length ∨ g.length < g.bytes.length + (b.length - 8) then s.mboxRange 0
      else match firstFail (reservedChecks b 4 8) with
        | some o => s.mboxRange o
        | none => ({ s with ctl := { s.ctl with staging := { g with bytes := g.bytes ++ b.drop 8 } } }).mboxOk []))

/-- RECOVERY_COMMIT (R506): the staged image is checked, written to flash and read back as `flash` says. -/
def execRecoveryCommit (flash : FlashWrite) (s : State) : Host.Outcome State Fault Refusal :=
  .next (s.mailbox 0xB02 0 (fun _ => []) (fun _ =>
    let g := s.ctl.staging
    if g.state ≠ 1 ∨ g.bytes.length ≠ g.length then s.mboxEnd 4 []
    else match imgCheck s.locket.lc s.locket.imageKeyHash g.bytes with
      | some e => s.mboxEnd 3 (zeros 2 ++ natLe 1 e.1 ++ zeros 1 ++ natLe 4 e.2)
      | none =>
        match flash.failAt with
        | some a => s.mboxConflict 8 a
        | none =>
          let img := imgBytes g.bytes
          (({ s with ctl := { s.ctl with imageWritten := some (fieldLe img 24 8, img.length) } }).restartDue).mboxOk []))

/-- RECOVERY_REQUEST (Table 16.13): an internal cold restart into the recovery state follows. -/
def execRecoveryRequest (s : State) : Host.Outcome State Fault Refusal :=
  .next (s.mailbox 0xB03 8 (fun b => (0, byteAt b 0 == 1) :: reservedChecks b 1 8) (fun _ =>
    if (List.range 16).any (fun p => (s.part p).enabled) then s.mboxEnd 4 []
    else (({ s with ctl := { s.ctl with recoveryRequest := true } }).restartDue).mboxOk []))

/-- RECOVERY_STATUS (Table 16.13). -/
def execRecoveryStatus (s : State) : Host.Outcome State Fault Refusal :=
  .next (s.mailbox 0xB04 0 (fun _ => []) (fun _ =>
    let g := s.ctl.staging
    s.mboxOk (natLe 4 g.bytes.length ++ natLe 4 g.length ++ natLe 1 g.state ++ zeros 7)))

/-! ### The level and the report (R309, R503) -/

/-- LEVEL_SET (R10, R309). -/
def execLevelSet (s : State) : Host.Outcome State Fault Refusal :=
  .next (s.mailbox 0x10 8 (fun b => (0, s.ctl.level != 0 || byteAt b 0 == 1) :: reservedChecks b 1 8) (fun b =>
    if s.ctl.level ≠ 0 ∧ byteAt b 0 ≠ s.ctl.level then s.mboxEnd 4 []
    else ({ s with ctl := { s.ctl with level := byteAt b 0 } }).mboxOk (natLe 8 (byteAt b 0))))

/-- CFG_REPORT_READ (R309, R503). -/
def execCfgReportRead (s : State) : Host.Outcome State Fault Refusal :=
  .next (s.mailbox 0x20 8
    (fun b =>
      let o := fieldLe b 0 4
      let n := fieldLe b 4 4
      let len := s.report.length
      [(0, decide (o < len)), (4, decide (1 ≤ n) && decide (n ≤ 4096) && decide (o + n ≤ len))])
    (fun b => s.mboxOk (slice s.report (fieldLe b 0 4) (fieldLe b 4 4))))

end Sys2Proof.Machine
end

