-- ==== Sys2Proof/Machine/Boundary.lean ====
section
/-! DEFINITION. The tick boundary: what takes effect at T_n, and the start of the Admit phase (R13, R16, R18, R201, R249, R252, R285,
R306, R311, R318, R319, R324, R346). -/

namespace Sys2Proof.Machine

/-! ### Memory and the mesh at T_n -/

/-- One token bucket at a boundary: new settings are in force, and it refills (R252). -/
def Bucket.refill (b : Bucket) : Bucket :=
  let n := min (b.count + b.rate) (b.depth : Int)
  { b with rateNow := b.rate, count := n, shownCount := n, waited := false }

/-- The tick's bucket waits are reported and buckets refill, group states show (R252, R253, R285), and buffer lines first written two ticks ago are written back (R249). -/
def State.memoryBoundary (s : State) : State :=
  let s := (List.range 18).foldl (fun s b => (s.postWaits b).updBucket b Bucket.refill) s
  let s := (List.range 32).foldl (fun s n => s.updGroup n (fun g => { g with shown := g.state })) s
  s.writebackAll (fun l => decide (l.tick + 2 ≤ s.tick.count) && !s.lineHeld l)

/-- A router fault that has been detected is acted on (R201). -/
def State.fenceRouters (s : State) : State :=
  (s.tiles.filter (fun e => e.2.routerFault != 0 && !e.2.routerFenced)).foldl (fun s e =>
    let t := e.1
    let s := match e.2.partition with
      | some p => (s.startReset p 2 t).unload p
      | none => s
    (s.updTile t (fun x => { x with coreFenced := true, routerFenced := true })).post 0x2052 2 (e.2.partition.getD 0xFF) t
      (detail [(1, e.2.routerFault)])) s

/-! ### Rings at T_n (R318, R319, R324, R536) -/

/-- Host lines of a ring's cell and of its next slots are not kept from one Admit phase to the next. [DESIGN CHOICE, log 14] -/
def State.forgetCell (s : State) (pasid cell base : Nat) (idx : List Nat) (width : Nat) : State :=
  s.useCtl (s.ringLines pasid cell base idx width)

/-- What takes effect on submission ring `i` at the start of an Admit phase. -/
def State.ringBoundary (s : State) (i : Nat) : State :=
  let r := s.ring i
  let pasid := (s.part r.partition).pasid
  let restarts := !r.enable || r.fresh
  let s := s.forgetCell pasid r.cell r.base (if restarts then (List.range 36).map (fun k => (r.head + k) % r.size) else []) 64
  let s := s.updRing i (fun r => { r with tail := none, seen := 0 })
  if !r.enable then
    (s.dropRingWaits i).updRing i (fun r => { r with state := 0, read := [], fail := 0 })
  else if r.fresh then
    let c := s.cring r.cring
    let ok := c.enable && c.state == 1 && c.partition == r.partition
    let s := (s.dropRingWaits i).updRing i (fun r =>
      { r with head := 0, state := 1, fresh := false, read := [], fail := 0, headDue := false })
    let s := s.queueWrite (.byVa pasid (r.cell + 64) (natLe 4 0) (.ringHead i))
    if ok then s else s.stopRing i 4
  else if (s.cring r.cring).state = 3 then s.stopRing i 4
  else s

/-- What takes effect on the event ring. -/
def State.evtBoundary (s : State) : State :=
  let e := s.evt
  let s := s.forgetCell e.pasid e.cell 0 [] 64
  if !e.enable then { s with evt := { e with running := false, sampled := false } }
  else if !e.running then
    let s : State := { s with evt := { e with running := true, sampled := false, written := 0, head := 0 } }
    s.queueWrite (.byVa e.pasid (e.cell + 64) (natLe 4 0) .eventRing)
  else { s with evt := { e with sampled := false } }

/-- Rings, completion rings and the event ring at the start of an Admit phase. [DESIGN CHOICE, log 14] -/
def State.ringsBoundary (s : State) : State :=
  let s := (s.work.crings.map (fun e => e.1)).foldl (fun s c =>
    let r := s.cring c
    (s.forgetCell (s.part r.partition).pasid r.cell 0 [] 32).updCRing c (fun r => { r with sampled := false })) s
  let s := (s.work.rings.map (fun e => e.1)).foldl (fun s i => s.ringBoundary i) s
  s.evtBoundary

/-! ### The mailbox at T_n (R306, R308) -/

/-- The mailbox opcodes that are defined (Tables 9.5, 10.9, 11.12, 12.9, 13.11, 14.8, 16.13). -/
def mboxOpcodes : List Nat :=
  [0x10, 0x20, 0x30, 0x31, 0x40, 0x400, 0x401, 0x500, 0x501, 0x502, 0x503, 0x504, 0x600, 0x601, 0x602, 0x603,
   0x700, 0x701, 0x702, 0x703, 0x704, 0x705, 0x706, 0x707, 0x710, 0x711, 0x712, 0x800, 0x801, 0x802, 0x803, 0x900,
   0xB00, 0xB01, 0xB02, 0xB03, 0xB04]

/-- The first `n` bytes of MBOX.IN; bytes past its 4,096 are zero. [DESIGN CHOICE, log 32] -/
def State.mboxIn (s : State) (n : Nat) : Bytes :=
  (((List.range 512).map (fun i => natLe 8 (SMap.get 0 s.mbox.input i).toNat)).flatten).take n ++ zeros (n - 4096)

/-- MBOX.CMD is sampled: a new sequence number is a command, and one that is not defined ends at once. [DESIGN CHOICE, log 32] -/
def State.sampleMbox (s : State) : State :=
  let m := s.mbox
  if m.state = 1 ∨ m.cmdSeq = m.seq ∨ s.ctl.warm.isSome then s
  else
    let s : State := { s with mbox := { m with
      seq := m.cmdSeq, state := 1, busy := some ⟨m.cmdOpcode, m.cmdSeq, s.mboxIn m.cmdLength⟩ } }
    if mboxOpcodes.contains m.cmdOpcode then s
    else if s.mailboxClosed m.cmdOpcode then s.mboxEnd 4 []
    else s.mboxEnd 1 []

/-! ### TICK_BOUNDARY -/

/-- Partitions and translation at T_n (R311, R341, Table 10.13). -/
def State.workBoundary (s : State) : State :=
  { s with
    work := { s.work with
      parts := s.work.parts.map (fun e => (e.1, { e.2 with scanned := e.2.enabled }))
      budget := 1024 * (50 * s.tick.periodUs) / 1000 }
    xlat := { s.xlat with
      reqs := s.xlat.reqs.map (fun r => { r with hold := false })
      halted := s.xlat.halted && !s.xlat.restart
      restart := false
      part := s.xlat.part.map (fun e => (e.1, { e.2 with atomicNow := e.2.atomic })) } }

/-- The next tick begins at the edge `edge`: ID shows what the tick before has changed (R7), steps and fences take effect, and the Admit
phase starts. -/
def State.nextTick (s : State) (edge : Nat) : State :=
  let s := s.atEdge edge
  let s : State := { s with tick := { s.tick with count := s.tick.count + 1, phase := 0 } }
  let s := s.beadBoundary.showUnits.powerBoundary.idleBoundary.stepClock
  let s := s.fenceRouters.memoryBoundary.syncEngines
  let s := s.siteBoundary.tetherBoundary.beginUnseals.runReturn
  let s := s.workBoundary.giveVerdicts.ringsBoundary.sampleMbox
  s.admitProgress.drain

/-- TICK_BOUNDARY (R13, R16): at the first REFCLK edge at or after T_(n+1) the next tick begins, and with it its Admit phase. [DESIGN CHOICE, log 11] -/
def execTickBoundary (edge : Nat) (s : State) : Host.Outcome State Fault Refusal :=
  .next (if s.ctl.released && s.tick.phase == 2 && s.firstEdge s.tickEnd edge then s.nextTick edge else s)

/-! ### An edge of REFCLK with no command (R12, R13, R15) -/

/-- One edge of REFCLK passes: TICK.TIME advances, and a phase or a tick that is due at this edge begins.  The parity of a Settle phase
is good. [DESIGN CHOICE, log 1; DESIGN CHOICE, log 11] -/
def State.edge (s : State) : State :=
  let t := s.refclk
  let stay (k : State → Nat → State) (at_ : Nat) : State :=
    if s.ctl.released && decide (at_ ≤ t.tick.time) then
      let s : State := { s with tick := { s.tick with frac := t.tick.frac } }
      k s t.tick.time
    else t
  match s.tick.phase with
  | 0 => stay State.startRun s.runStart
  | 1 => stay State.settlePhase s.settleStart
  | _ => stay State.nextTick s.tickEnd

end Sys2Proof.Machine
end

