-- ==== Sys2Proof/Machine/Control.lean ====
section
/-! DEFINITION. Control descriptors that need no unit, the partition commands of the mailbox, and writes to the mailbox (R306, R310, R311,
R323). -/

namespace Sys2Proof.Machine

/-! ### Control descriptors (R323) -/

/-- NOP (R323): the control descriptor completes with no effect. -/
def execNop (f : Nat) (s : State) : Host.Outcome State Fault Refusal :=
  .next (match s.controlReady f 0x80001 with
    | none => s
    | some _ => s.endFlight f 0 0)

/-- CLASP_SET (R323): the control descriptor ends; its effect is taken in step 4 of the Settle phase it completes in, by
`State.settleClasps`. -/
def execClaspSet (f : Nat) (s : State) : Host.Outcome State Fault Refusal :=
  .next (match s.controlReady f 0x80002 with
    | none => s
    | some _ => s.endFlight f 0 0)

/-! ### Partitions (R310, R311) -/

/-- The field checks of a PART_SET payload of version 1, in ascending offset order (Table 9.6). -/
def partSetChecks (b : Bytes) : List (Nat × Bool) :=
  if byteAt b 0 ≠ 1 then []
  else
    [(1, decide (byteAt b 1 < 16)), (2, decide (byteAt b 2 < 2)), (3, byteAt b 3 == 0),
     (4, decide (1 ≤ fieldLe b 4 4) && decide (fieldLe b 4 4 ≤ 4096)),
     (8, decide (fieldLe b 8 4 < 16384)),
     (12, decide (fieldLe b 8 4 + fieldLe b 12 4 ≤ 16384)),
     (20, decide (fieldLe b 20 4 < 2 ^ 20))] ++ reservedChecks b 24 64

/-- The first clasp of a PART_SET's range that belongs to another partition (kind 1). -/
def State.claspTaken (s : State) (b : Bytes) : Option Nat :=
  let p := byteAt b 1
  (List.range (fieldLe b 12 4)).findSome? (fun i =>
    let k := fieldLe b 8 4 + i
    if (List.range 16).any (fun q => q != p && s.ownsClasp q k) then some k else none)

/-- The first engine of a PART_SET that belongs to another partition (kind 2). -/
def State.engineTaken (s : State) (b : Bytes) : Option Nat :=
  let p := byteAt b 1
  (maskList 32 (fieldLe b 16 4)).find? (fun n => (List.range 16).any (fun q => q != p && s.ownsEngine q n))

/-- The first tile of a PART_SET that belongs to another partition, or that the partition loses while its loaded schedule names it
(kind 3). -/
def State.tileTaken (s : State) (b : Bytes) : Option Nat :=
  let p := byteAt b 1
  let named := if (s.sched p).state = 0 then [] else (s.sched p).tiles.map (fun e => e.1)
  (List.range 4608).find? (fun t =>
    let owner := (s.tile t).partition
    if bit (byteAt b (64 + t / 8)) (t % 8) then owner.isSome && owner != some p
    else owner == some p && named.contains t)

/-- The partition that holds the maintenance role a PART_SET asks for (kind 4). -/
def State.roleTaken (s : State) (b : Bytes) : Option Nat :=
  if byteAt b 2 % 2 = 0 then none
  else (List.range 16).find? (fun q => q != byteAt b 1 && (s.part q).maintenance)

/-- The first conflict of a PART_SET: its kind and its index (R310). [DESIGN CHOICE, log 31] -/
def State.partConflict (s : State) (b : Bytes) : Option (Nat × Nat) :=
  match s.claspTaken b with
  | some k => some (1, k)
  | none =>
    match s.engineTaken b with
    | some n => some (2, n)
    | none =>
      match s.tileTaken b with
      | some t => some (3, t)
      | none => (s.roleTaken b).map (fun q => (4, q))

/-- PART_SET (R310): the mailbox command replaces a partition's resources, in the Settle phase that commits its result. [DESIGN CHOICE, log 31] -/
def execPartSet (s : State) : Host.Outcome State Fault Refusal :=
  .next (s.mailbox 0x30 640 partSetChecks fun b =>
    let p := byteAt b 1
    if byteAt b 0 ≠ 1 then s.mboxEnd 6 []
    else if (s.part p).enabled || s.inflight p != 0 then s.mboxEnd 4 []
    else match s.partConflict b with
      | some (kind, i) => s.mboxConflict kind i
      | none => ({ s with mbox := { s.mbox with partSet := some b } } : State).mboxOk [])

/-- PART_ENABLE (R311): the mailbox command enables or disables the scanning of a partition's rings from the next Admit phase. -/
def execPartEnable (s : State) : Host.Outcome State Fault Refusal :=
  .next (s.mailbox 0x31 8
    (fun b => [(0, decide (byteAt b 0 < 16)), (1, decide (byteAt b 1 < 2))] ++ reservedChecks b 2 8)
    fun b => (s.updPart (byteAt b 0) (fun x => { x with enabled := byteAt b 1 == 1 })).mboxOk [])

/-! ### The mailbox's own registers (R306, Table 9.17) -/

/-- MBOX.CMD as it reads: seq 47:32, length 28:16, opcode 15:0. -/
def Mbox.cmdWord (m : Mbox) : Nat := m.cmdSeq * 2 ^ 32 + m.cmdLength * 2 ^ 16 + m.cmdOpcode

/-- A write of MBOX.CMD (`none`) or MBOX.IN[i] (Table 9.17): dropped while the mailbox is busy (R306). -/
def State.writeMbox (s : State) (i : Option Nat) (h : Half) (v : W64) : State :=
  if s.mbox.state = 1 then s
  else match i with
    | none =>
      let w := mergeHalf h s.mbox.cmdWord v
      { s with mbox := { s.mbox with cmdSeq := bits w 47 32, cmdLength := bits w 28 16, cmdOpcode := bits w 15 0 } }
    | some i =>
      { s with mbox := { s.mbox with
          input := SMap.upd 0 s.mbox.input i (fun x => BitVec.ofNat 64 (mergeHalf h x.toNat v)) } }

/-- MBOX_CMD_WRITE (R306): a write to the mailbox is stored, or dropped while it is busy. -/
def execMboxCmdWrite (k : Option Nat) (h : Half) (v : W64) (s : State) : Host.Outcome State Fault Refusal :=
  guarded "MBOX_CMD_WRITE" (decide (k.getD 0 < 512)) (s.regWrite fun s => s.writeMbox k h v)

end Sys2Proof.Machine
end

