-- ==== Sys2Proof/Machine/TrafficGen.lean ====
section
/-! DEFINITION. The traffic generators and checkers of the pseudo-channels (R262 to R264). -/

namespace Sys2Proof.Machine

/-! ### Traffic generators -/

/-- The traffic generator of pseudo-channel `c`. -/
def State.gen (s : State) (c : Nat) : TrafficGen := SMap.get {} s.mem.tg c

/-- Change the traffic generator of pseudo-channel `c`. -/
def State.updGen (s : State) (c : Nat) (f : TrafficGen → TrafficGen) : State :=
  { s with mem := { s.mem with tg := SMap.upd {} s.mem.tg c f } }

/-- The last beat address outside the reserved area, and the last one of all (R263). -/
def lastBeat : Nat := 25165823
def lastReserved : Nat := 25166847

/-- The storage byte at which beat `a` of pseudo-channel `c` begins (R234). -/
def beatStorage (c a : Nat) : Nat := (settingsPerGroup * (c / 16) + a) * 1024 + 64 * (c % 16)

/-- The slabs a range of beats of pseudo-channel `c` meets. -/
def beatSlabs (c first last : Nat) : List Nat :=
  (List.range (min last lastBeat / 2 ^ 20 + 1 - first / 2 ^ 20)).map (fun i => 24 * (c / 16) + first / 2 ^ 20 + i)

/-- A sealed region's slab in the generator's range: the region and the slab (R415, R437). [DESIGN CHOICE, log 58] -/
def State.genSealed (s : State) (c : Nat) (g : TrafficGen) : Option (Nat × Nat) :=
  (beatSlabs c g.first g.last).findSome? (fun i =>
    (s.locket.regions.find? (fun e => e.2.state != 0 && e.2.slabs.contains i)).map (fun e => (e.1, i)))

/-- The modes that write, and raw operation, are open: in the recovery state, in TEST and in RETURN (R263, Table 13.9). -/
def State.genWrites (s : State) : Bool := s.ctl.recovery || s.locket.lc == 1 || s.locket.lc == 4

/-- A start of the generator is refused (R263, R415; Table 7.17's order 3 and mode 3). [DESIGN CHOICE, log 58] -/
def State.genRefused (s : State) (c : Nat) (g : TrafficGen) : Bool :=
  g.order == 3 || g.mode == 3 ||
  ((g.mode != 0 || g.raw) && !s.genWrites) ||
  (g.mode == 0 && ((s.group (c / 16)).state == 1 || (s.group (c / 16)).state == 5)) ||
  decide (g.last < g.first) || decide (lastReserved < g.last) || (decide (lastBeat < g.last) && !s.ctl.recovery) ||
  (s.genSealed c g).isSome

/-- A write of TG_CTL's fields (Table 7.17). -/
def TrafficGen.control (g : TrafficGen) (v : Nat) : TrafficGen :=
  { g with passes := bits v 63 48, readPct := bits v 47 40, order := bits v 11 10, pattern := bits v 9 8, raw := bit v 4, mode := bits v 3 2 }

/-- TG_CTL.start (R263, R264). [DESIGN CHOICE, log 58] -/
def State.genStart (s : State) (c : Nat) : State :=
  let g := s.gen c
  if s.genRefused c g then
    let s := match s.genSealed c g with
      | none => s
      | some (r, i) => s.postAccess 0x7001 0xFF 0x7000 (localAddr (slabBase i)) 6 [(1, r)]
    (s.updGen c (fun g => { g with refused := true })).post 0x1015 1 0xFF (0x3000 + c) (detail [(1, g.mode), (1, flag g.raw)])
  else
    s.updGen c (fun g => { g with
      mismatches := 0, corrected := 0, uncorrectable := 0, refused := false, done := false, busy := true, stopping := false
      failBit := 0, failValid := false, failBeat := 0, progress := 0 })

/-- TG_CTL.stop: a running generator stops at the next beat (R264). -/
def State.genStop (s : State) (c : Nat) : State := s.updGen c (fun g => { g with stopping := g.busy })

/-- A write of TG_CTL: its fields, then the start and the stop it asks for (Table 7.17). -/
def State.genControl (s : State) (c v : Nat) : State :=
  let s := s.updGen c (fun g => g.control v)
  let s := if bit v 0 then s.genStart c else s
  if bit v 1 then s.genStop c else s

/-- TG_START (R263): a write of TG_CTL with start. -/
def execTgStart (c : Nat) (v : W64) (s : State) : Host.Outcome State Fault Refusal :=
  guarded "TG_START" (decide (c < 512)) (s.regWrite fun s => s.genControl c (v.toNat ||| 1))

/-- TG_STOP (R264): TG_CTL.stop of a generator. -/
def execTgStop (c : Nat) (s : State) : Host.Outcome State Fault Refusal :=
  guarded "TG_STOP" (decide (c < 512)) (s.regWrite fun s => s.genStop c)

/-! ### Patterns (Table 7.17) -/

/-- One bit of the PRBS31 sequence x^31 + x^28 + 1: the register after it, and the bit. [DESIGN CHOICE, log 57] -/
def prbsStep (r : Nat) : Nat × Bool :=
  let b := bit r 30 != bit r 27
  (2 * r % 2 ^ 31 + flag b, b)

/-- `n` bits of the PRBS31 sequence, the first in bit 0, with the register after them. -/
def prbsBits : Nat → Nat → Nat × Nat
  | 0, r => (r, 0)
  | n + 1, r =>
    let x := prbsBits n r
    let y := prbsStep x.1
    (y.1, x.2 + flag y.2 * 2 ^ n)

/-- The PRBS31 register after `i` beats of `width` bits. -/
def prbsSkip (width : Nat) : Nat → Nat → Nat
  | 0, r => r
  | i + 1, r => (prbsBits width (prbsSkip width i r)).1

/-- Bits of a beat that the generator makes: the data alone, or in raw operation the metadata with them. -/
def TrafficGen.width (g : TrafficGen) : Nat := if g.raw then 576 else 512

/-- What the pattern gives for the `i`-th beat of a pass, at beat address `a`: 576 bits, data first. [DESIGN CHOICE, log 57] -/
def TrafficGen.word (g : TrafficGen) (i a : Nat) : Nat :=
  let repeated (w : Nat) := leNat ((List.replicate 9 (natLe 8 w)).flatten)
  match g.pattern with
  | 0 => (prbsBits g.width (prbsSkip g.width i (if g.seed % 2 ^ 31 = 0 then 1 else g.seed % 2 ^ 31))).2
  | 1 => repeated g.seed
  | 2 => repeated a
  | _ => 2 ^ (i % g.width)

/-! ### Beats as the stack holds them -/

/-- Raw beat `a` of pseudo-channel `c`: 64 data and 8 metadata bytes. [DESIGN CHOICE, log 105] -/
def State.rawBeatAt (s : State) (c a : Nat) : Bytes :=
  if a ≤ lastBeat then s.mem.rawBeat (s.group (c / 16)).wide (beatStorage c a / 64)
  else
    let b := SMap.get [] s.mem.reserved (1024 * c + (a - 25165824))
    if b.isEmpty then (List.range 72).map Config.canaryByte else b

/-- Raw beat `a` of pseudo-channel `c` takes these 72 bytes; its data alone, with the check symbols of its code, unless `raw`. -/
def State.putBeat (s : State) (c a : Nat) (raw : Bool) (b : Bytes) : State :=
  let wide := (s.group (c / 16)).wide
  if lastBeat < a then
    let b := if raw then b else b.take 64 ++ natLe 8 (narrowChecks (b.take 64))
    { s with mem := { s.mem with reserved := SMap.set [] s.mem.reserved (1024 * c + (a - 25165824)) b } }
  else
    let k := beatStorage c a
    if raw && wide then
      let st := k / 1024
      { s with mem := s.mem.holdSetting true st ((s.mem.rawSetting true st).set (c % 16) b) }
    else if raw then
      let m := s.mem.storeStack k (b.take 64) [] []
      { s with mem := { m with checks := SMap.set 0 m.checks (k / 64) (m.dataChecks false (k / 64) ^^^ fieldLe b 64 8) } }
    else if wide then
      { s with mem := s.mem.storeStack k (b.take 64) [] ((List.range 16).map (fun j => k / 1024 * 16 + j)) }
    else { s with mem := s.mem.storeStack k (b.take 64) [] [k / 64] }

/-- What reading beat `a` of pseudo-channel `c`, returned by the stack as `b`, decodes to. [DESIGN CHOICE, log 57] -/
def State.decodeBeat (s : State) (c a : Nat) (b : Bytes) : Decoded :=
  let g := s.group (c / 16)
  if g.wide && decide (a ≤ lastBeat) then
    decodeWide g.erasure ((s.mem.rawSetting true (beatStorage c a / 1024)).set (c % 16) b)
  else if s.beatLost (beatStorage c a) then .uncorrectable
  else decodeNarrow b

/-! ### A run (R262, R264) -/

/-- Beats of one pass over the range: mode 1 writes it whole and reads it whole. -/
def TrafficGen.passLen (g : TrafficGen) : Nat := (g.last + 1 - g.first) * (if g.mode = 1 then 2 else 1)

/-- The `i`-th of `n` beats in a pseudo-random permutation of them. [DESIGN CHOICE, log 57] -/
def permuted (seed : Nat) : Nat → List Nat → Nat → Nat
  | 0, l, _ => l.headD 0
  | fuel + 1, l, i =>
    let j := Config.tgPick seed i % l.length
    if i = 0 then l.getD j 0 else permuted seed fuel (l.eraseIdx j) (i - 1)

/-- The address of the `i`-th beat of a pass (Table 7.17). -/
def TrafficGen.beatAt (g : TrafficGen) (i : Nat) : Nat :=
  let n := g.last + 1 - g.first
  match g.order with
  | 0 => g.first + i
  | 1 => g.last - i
  | _ => g.first + permuted g.seed n (List.range n) i

/-- The beat worked as number `p` of a run is read, not written (R262). [DESIGN CHOICE, log 57] -/
def TrafficGen.reads (g : TrafficGen) (p : Nat) : Bool :=
  match g.mode with
  | 0 => true
  | 1 => decide (g.last + 1 - g.first ≤ p % g.passLen)
  | _ => if 100 ≤ g.readPct then true else if g.readPct = 0 then false else Config.tgRead g.seed p

/-- The number within its pass of the beat worked as number `p`. -/
def TrafficGen.place (g : TrafficGen) (p : Nat) : Nat := p % g.passLen % (g.last + 1 - g.first)

/-- The lowest bit in which two raw beats differ, up to `n`. -/
def firstDiff (n a b : Nat) : Option Nat := (List.range n).find? (fun i => bit a i != bit b i)

/-- A read of a run is counted: what its decoder said, and the comparison, whose first mismatch is kept (R264, Tables 7.20, 7.21). -/
def TrafficGen.noted (g : TrafficGen) (r : Option Decoded) (a : Nat) (diff : Option Nat) : TrafficGen :=
  let g := match r with
    | some (.corrected _ _ _) => { g with corrected := satAdd 0xFFFF g.corrected 1 }
    | some (.erased _ _ true) => { g with corrected := satAdd 0xFFFF g.corrected 1 }
    | some .uncorrectable => { g with uncorrectable := satAdd 0xFFFF g.uncorrectable 1 }
    | some .poison => { g with uncorrectable := satAdd 0xFFFF g.uncorrectable 1 }
    | _ => g
  match diff with
  | none => g
  | some i =>
    let g := { g with mismatches := satAdd 0xFFFFFF g.mismatches 1 }
    if g.failValid then g else { g with failValid := true, failBeat := a, failBit := i }

/-- The beat worked as number `p`: it is written, or read as `seen` says and otherwise as the stack holds it, decoded and compared.  In a
wide group mode 0 reads the whole setting and is charged for it. -/
def State.genBeat (s : State) (c p : Nat) (seen : List (Nat × Bytes)) : State :=
  let g := s.gen c
  let i := g.place p
  let a := g.beatAt i
  let s := s.updGen c (fun g => { g with progress := p + 1 })
  if !g.reads p then s.putBeat c a g.raw (natLe 72 (g.word i a))
  else
    let b := ((seen.find? (fun x => x.1 == p)).map (fun x => x.2)).getD (s.rawBeatAt c a)
    let r := if g.raw then none else some (s.decodeBeat c a b)
    let own (d : Bytes) : Bytes := if (s.group (c / 16)).wide ∧ a ≤ lastBeat then d.drop (64 * (c % 16)) else d
    let got : Bytes := ((r.bind Decoded.data).map own).getD b
    let diff := if g.mode = 0 then none else firstDiff g.width (g.word i a) (leNat got)
    let s := s.updGen c (fun g => g.noted r a diff)
    if g.mode = 0 ∧ (s.group (c / 16)).wide then s.charge 16 16 else s

/-- The beats of a run up to `n`, one after another; a read that bucket 16 does not admit now waits, and the beats after it (R253). -/
def State.genRun (s : State) (c n : Nat) (seen : List (Nat × Bytes)) : Nat → State
  | 0 => s
  | fuel + 1 =>
    let p := (s.gen c).progress
    if n ≤ p then s
    else if (s.gen c).mode = 0 ∧ (s.group (c / 16)).wide ∧ ¬ s.mayIssue 16 then s.bucketWait 16
    else State.genRun (s.genBeat c p seen) c n seen fuel

/-- TG_DONE (R262, R264): the generator has worked `r.beats` beats, to the end of its passes or to a stop, in the order TG_CTL.order gives.
A run whose reads must wait for their bucket goes on when the command comes again. [DESIGN CHOICE, log 57] -/
def execTgDone (c : Nat) (r : TgResult) (s : State) : Host.Outcome State Fault Refusal :=
  guarded "TG_DONE" (decide (c < 512) && r.seen.all (fun b => b.2.length == 72)) (
    let g := s.gen c
    let total := g.passes * g.passLen
    let ends := (g.passes != 0 && r.beats == total) || (g.stopping && (g.passes == 0 || decide (r.beats ≤ total)))
    if !g.busy || !ends then s
    else
      let s := s.genRun c r.beats r.seen (r.beats - g.progress)
      if (s.gen c).progress < r.beats then s
      else s.updGen c (fun g => { g with busy := false, done := true, stopping := false }))

end Sys2Proof.Machine
end

