-- ==== Sys2Proof/Machine/Debug.lean ====
section
/-! DEFINITION. The debug claim of a tile (R157, R532), the test access port (R437, R523), DOE discovery and the CDAT (R300). -/

namespace Sys2Proof.Machine

/-! ### The debug claim (R157, R532) -/

/-- A halted core resumes at the instruction after its EBREAK. [DESIGN CHOICE, log 94] -/
def State.dbgResume (s : State) (t : Nat) : State :=
  if (s.tile t).state = 3 then s.updTile t (fun x => { x with state := 2, pc := x.pc + 4 }) else s

/-- A write of DBG.CLAIM is dropped (R532). [DESIGN CHOICE, log 94] -/
def State.claimDropped (s : State) (v : Nat) : Bool :=
  let t := bits v 12 0
  !s.beadHaltOpen || decide (4607 < t) ||
    (bit v 16 && ((s.tile t).coreFenced ||
      (s.locket.lc == 3 && (match (s.tile t).partition with
        | some p => s.sealedPart p
        | none => false))))

/-- A write of DBG.CLAIM (R532, Table 18.6). [DESIGN CHOICE, log 94] -/
def State.writeClaim (s : State) (v : Nat) : State :=
  if s.claimDropped v then s
  else
    let t := bits v 12 0
    let s := if s.dbg.claim && (s.dbg.tile != t || !bit v 16) then s.dbgResume s.dbg.tile else s
    { s with dbg := { tile := t, claim := bit v 16 } }

/-- DBG_CLAIM_WRITE (R532). -/
def execDbgClaimWrite (v : W64) (s : State) : Host.Outcome State Fault Refusal :=
  .next (s.regWrite fun s => s.writeClaim v.toNat)

/-! ### The test access port (R437, R523) -/

/-- The IDCODE (R523). -/
def idcode : Nat := 2 ^ 28 + 0x0B68 * 2 ^ 12 + Config.manufacturerId % 2 ^ 11 * 2 + 1

/-- A JTAG instruction is open (Table 13.9). [DEDUCED, log 95] -/
def State.jtagOpen (s : State) (i : JtagInstr) : Bool :=
  match s.locket.lc with
  | 3 => match i with
    | .idcode | .bypass | .sample => true
    | .extest => !s.ctl.released
    | .other => false
  | 5 => match i with
    | .idcode | .bypass => true
    | _ => false
  | _ => true

/-- An instrument is open (Table 13.9); one that would read a sealed place, a key slot, the seed or the DRBG state never is
(R437), and none is in the safe state (R473, R476). [DEDUCED, log 95] -/
def State.instrumentOpen (s : State) (i : Instrument) : Bool :=
  !s.keel.safe && match i with
  | .secret => false
  | .monitorRead => s.locket.lc != 5
  | .monitorWrite => s.locket.lc != 5 && s.locket.lc != 3
  | .repairRead => s.locket.lc != 5 && s.locket.lc != 3
  | .raw => s.locket.lc == 0 || s.locket.lc == 1 || s.locket.lc == 4
  | .other => s.locket.lc == 0 || s.locket.lc == 1 || s.locket.lc == 4

/-- TAP_ACCESS (R437, R523): usable while PWRGOOD is high; what the life-cycle state does not open is refused. [DEDUCED, log 95] -/
def execTapAccess (a : TapAccess) (s : State) : Host.Outcome State Fault Refusal :=
  .next (
    if !s.ctl.pwrgood then s
    else match a with
      | .reset => s.emit (.tap true 0)
      | .jtag i => s.emit (.tap (s.jtagOpen i) (if i = .idcode then idcode else 0))
      | .instrument i =>
        let s := if i = .secret then
            match s.locket.regions.find? (fun e => e.2.state != 0) with
            | none => s
            | some e => s.postAccess 0x7001 0xFF 0x7000 (match e.2.slabs with
                | i :: _ => localAddr (slabBase i)
                | [] => 0) 6 [(1, e.1)]
          else s
        s.emit (.tap (s.instrumentOpen i) 0))

/-! ### DOE discovery and the CDAT (R300) -/

/-- The protocols of the DOE mailbox, in the order discovery gives them. -/
def doeProtocols : List DoeProtocol := [.discovery, .spdm, .securedSpdm, .cdat]

/-- DOE_DISCOVERY (R300): the protocol at an index, and the next index, zero after the last. -/
def execDoeDiscovery (index : Nat) (s : State) : Host.Outcome State Fault Refusal :=
  .next (if s.host.linkUp then
      s.emit (.doe (doeProtocols[index]?) (if index + 1 < doeProtocols.length then index + 1 else 0)) else s)

/-- CDAT_READ (R300): one memory-affinity entry per HDM range. -/
def execCdatRead (entry : Nat) (s : State) : Host.Outcome State Fault Refusal :=
  guarded "CDAT_READ" (decide (entry < 2)) (if s.host.linkUp then s.emit (.cdat entry 400 300 64) else s)

end Sys2Proof.Machine
end

