-- ==== Sys2Proof/Machine/Regs.lean ====
section
/-! DEFINITION. BAR0: what every register reads (R530, Table 18.1 and the register tables of each chapter), and writes by register
offset (R5, R6, R487). -/

namespace Sys2Proof.Machine

/-! ### Words and arrays -/

/-- The word whose fields (high bit, low bit, value) are given; every other bit is zero. -/
def packed : List (Nat × Nat × Nat) → Nat
  | [] => 0
  | (hi, lo, v) :: r => v % 2 ^ (hi + 1 - lo) * 2 ^ lo + packed r

/-- The offset `o` lies on the register at `base` or on one of the `n` elements of the array there, of the stride given; its index. -/
def elemOf (o base n stride : Nat) : Option Nat :=
  if base ≤ o ∧ o < base + n * stride ∧ (o - base) % stride = 0 then some ((o - base) / stride) else none

/-- The first register of a list (base, number of elements, stride, what element i reads) that the offset lies on; a reserved offset
reads zero (R530). -/
def readAmong (o : Nat) : List (Nat × Nat × Nat × (Nat → Nat)) → Nat
  | [] => 0
  | (base, n, stride, f) :: r =>
    match elemOf o base n stride with
    | some i => f i
    | none => readAmong o r

/-- A saturating count in 32 bits. -/
def cut32 (n : Nat) : Nat := min n max32

/-! ### ID and CTL (R508, R531) -/

/-- Capacity in GiB (R239). -/
def UnitCounts.capacity (u : UnitCounts) : Nat := 24 * u.groups

/-- The ID block (Tables 0.6, 18.2 to 18.5). [DESIGN CHOICE, log 36] -/
def State.readId (s : State) (o : Nat) : Nat :=
  let u := s.ctl.units
  readAmong o
    [(0x00, 1, 8, fun _ => packed [(55, 48, 0xA1), (47, 32, 0x0B68), (15, 0, 0x1F3A)]),
     (0x08, 1, 8, fun _ => packed [(45, 40, u.sites), (35, 32, u.ports), (29, 24, u.groups), (21, 16, u.engines), (12, 0, u.beads)]),
     (0x10, 1, 8, fun _ => packed [(23, 16, s.ctl.level), (15, 8, 1), (7, 0, 1)]),
     (0x18, 1, 8, fun _ => packed [(50, 32, u.casketKib),
       (31, 24, u.hbm), (15, 0, u.capacity)]),
     (0x20, 1, 8, fun _ => packed [(61, 57, 0x10), (56, 48, 0x100), (42, 32, 0x400), (28, 16, 0x1000), (14, 0, 0x4000)])]

/-- The CTL block's start-up registers (Tables 16.16, 16.17). [PRESUMED, log 9] -/
def State.readCtl (s : State) (o : Nat) : Nat :=
  let c := s.ctl
  readAmong o
    [(0x00, 1, 8, fun _ => packed [(63, 48, s.records.length), (47, 40, c.recoveryCause), (35, 32, c.step),
       (31, 16, countKinds (c.reports ++ c.overrides) (fun k => decide (k ≤ 4))),
       (3, 3, flag c.halted), (2, 2, flag c.fastStart), (1, 1, flag c.recovery), (0, 0, flag c.released)]),
     (0x08, 1, 8, fun _ => c.buildId), (0x10, 1, 8, fun _ => c.bootNs)]

/-! ### Tick, partitions, rings, clasps -/

/-- The TICK block (Tables 1.4 to 1.11). -/
def State.readTick (s : State) (o : Nat) : Nat :=
  let t := s.tick
  readAmong o
    [(0x00, 1, 8, fun _ => packed [(20, 16, t.overrunPct), (9, 0, t.periodUs)]), (0x08, 1, 8, fun _ => t.count),
     (0x10, 1, 8, fun _ => t.time), (0x18, 1, 8, fun _ => packed [(63, 32, t.time - s.tickStart), (1, 0, t.phase)]),
     (0x20, 1, 8, fun _ => s.tickStart), (0x28, 1, 8, fun _ => fromSigned 32 t.trim),
     (0x30, 1, 8, fun _ => packed [(47, 32, fromSigned 16 (clampInt (-32767) 32767 t.offsetNs)), (2, 2, flag t.reference),
       (1, 1, flag t.aligned), (0, 0, flag t.member)]),
     (0x38, 1, 8, fun _ => packed [(12, 12, flag t.deferred), (10, 8, t.localP), (6, 4, t.agreedP), (2, 0, t.currentP)]),
     (0x40, 1, 8, fun _ => t.freqAt),
     (0x100, 16, 8, fun p => packed [(63, 32, SMap.get 0 t.aborts p), (31, 0, SMap.get 0 t.overruns p)]),
     (0x180, 16, 8, fun p => packed [(31, 0, SMap.get 0 t.slips p)])]

/-- The PART block (R327, Table 9.11). -/
def State.readPart (s : State) (o : Nat) : Nat :=
  readAmong o
    [(0x00, 16, 0x20, fun p => packed [(51, 32, (s.part p).pasid), (28, 16, (s.part p).maxInflight),
       (1, 1, flag (s.part p).maintenance), (0, 0, flag (s.part p).enabled)]),
     (0x08, 16, 0x20, fun p => packed [(46, 32, (s.part p).claspCount), (13, 0, (s.part p).claspBase)]),
     (0x10, 16, 0x20, fun p => packed [(31, 0, (s.part p).engines)]),
     (0x18, 16, 0x20, fun p => packed [(63, 32, (s.part p).admitted), (12, 0, s.inflight p)])]

/-- The RING block (Tables 9.12 to 9.14). -/
def State.readRing (s : State) (o : Nat) : Nat :=
  readAmong o
    [(0x00, 256, 0x20, fun r => (s.ring r).base), (0x08, 256, 0x20, fun r => (s.ring r).cell),
     (0x10, 256, 0x20, fun r => (s.ring r).ctl),
     (0x18, 256, 0x20, fun r => packed [(63, 32, (s.ring r).head), (15, 8, (s.ring r).stopCause), (1, 0, (s.ring r).state)]),
     (0x2000, 256, 0x20, fun c => (s.cring c).base), (0x2008, 256, 0x20, fun c => (s.cring c).cell),
     (0x2010, 256, 0x20, fun c => (s.cring c).ctl),
     (0x2018, 256, 0x20, fun c => packed [(63, 32, (s.cring c).written), (28, 16, (s.cring c).held),
       (15, 8, (s.cring c).stopCause), (1, 0, (s.cring c).state)])]

/-- The CLASP block (Table 9.16). -/
def State.readClasp (s : State) (o : Nat) : Nat := readAmong o [(0, 16384, 8, fun k => SMap.get 0 s.clasps.shown k)]

/-- The XLAT block (Tables 10.9 to 10.15). -/
def State.readXlat (s : State) (o : Nat) : Nat :=
  let x := s.xlat
  let part (p : Nat) : XlatPart := SMap.get {} x.part p
  readAmong o
    [(0x00, 1, 8, fun _ => packed [(55, 48, 0x38), (47, 40, 0x14), (39, 32, 0x78), (31, 16, 0x4000), (15, 8, 0x40), (7, 0, 0x31)]),
     (0x08, 1, 8, fun _ => x.priTimeout),
     (0x10, 1, 8, fun _ => packed [(43, 32, s.host.cfg.allocation), (27, 16, (x.groups.map (fun g => g.requests)).sum),
       (9, 1, x.nextPrg), (0, 0, flag x.halted)]),
     (0x100, 16, 8, fun p => flag (part p).atomic),
     (0x180, 16, 8, fun p => packed [(63, 32, cut32 (part p).faults), (31, 0, cut32 (part p).unresolved)]),
     (0x200, 16, 8, fun p => packed [(63, 48, (part p).lastUnit), (47, 47, flag (part p).lastValid), (46, 46, flag (part p).lastWrite),
       (45, 45, flag (part p).lastRead), (43, 0, (part p).lastPage)])]

/-! ### Sail, mesh, Casket -/

/-- The SAIL block (Tables 2.14 to 2.21, 3.10 to 3.14). -/
def State.readSail (s : State) (o : Nat) : Nat :=
  let eng (n : Nat) : Engine := SMap.get {} s.sail.engines n
  readAmong o
    [(0x00, 1, 8, fun _ => packed [(47, 40, 0x40), (39, 32, 4), (31, 24, 0x40), (23, 16, 0x80), (7, 0, 0x20)]),
     (0x08, 1, 8, fun _ => 0x37F7F), (0x10, 1, 8, fun _ => s.sail.enabled), (0x18, 1, 8, fun _ => s.sail.fenced),
     (0x20, 1, 8, fun _ => packed [(47, 36, 0xFFF), (35, 25, 0x400), (24, 0, 0x1000000)]),
     (0x100, 32, 8, fun n => packed [(32, 32, flag (bit s.sail.fenced n)), (31, 16, (eng n).residue), (15, 0, (eng n).corrected)]),
     (0x200, 32, 8, fun n => s.busyShown n), (0x300, 32, 8, fun n => (eng n).macs % 2 ^ 64),
     (0x400, 16, 8, fun p => SMap.get 0 s.sail.kvrBase p), (0x480, 16, 8, fun p => SMap.get 0 s.sail.kvrLimit p),
     (0x1000, 1024, 8, fun i => packed [(63, 32, (s.slot i).generation), (5, 4, (s.slot i).shownState), (3, 0, (s.slot i).partition)]),
     (0x3000, 1024, 8, fun i => packed [(43, 32, (s.slot i).shownPencil), (24, 0, (s.slot i).len)])]

/-- MESH.BEAD_STATE[t].state (Table 4.16). [DEDUCED, log 110] -/
def State.shownState (s : State) (t : Nat) : Nat := if (s.tile t).coreFenced then 4 else if s.tileLoads t then 1 else (s.tile t).state

/-- MESH.TILE[t] (Table 5.22): the clock region and the port are those of Table 5.22's reset before start-up sets them, and a core is
gated where it is fenced or is a spare's (R204, R500). [DEDUCED, log 114] -/
def State.tileWord (s : State) (t : Nat) : Nat :=
  let x := s.tile t
  let spare := s.mesh.beads != 0 && (s.beadOfTile t).isNone
  packed ([(63, 48, (s.beadOfTile t).getD 0xFFFF), (11, 8, x.partition.getD 0),
    (2, 2, flag (!x.routerFenced && (x.coreFenced || spare))), (1, 1, flag x.coreFenced), (0, 0, flag x.routerFenced)] ++
    if s.ctl.step = 0 then [] else [(47, 40, (tilePort t).2), (35, 32, (tilePort t).1), (14, 12, tileRegion t)])

/-- The MESH block (Tables 4.14 to 4.17, 5.17 to 5.24). [DESIGN CHOICE, log 56] -/
def State.readMesh (s : State) (o : Nat) : Nat :=
  let m := s.mesh
  readAmong o
    [(0x00, 1, 8, fun _ => packed [(55, 48, 4), (47, 40, 0x10), (39, 28, 0x400), (27, 24, 8), (23, 16, 0x40), (15, 8, 0x48)]),
     (0x08, 1, 8, fun _ => packed [(63, 32, m.seamRefusals), (31, 24, m.seamReason), (10, 8, m.eastP), (6, 4, m.westP),
       (0, 0, flag s.crossings)]),
     (0x100, 16, 8, fun p => packed [(63, 48, (s.sched p).frames), (42, 32, (s.sched p).frameLen), (31, 16, (s.sched p).tiles.length),
       (3, 3, flag (s.sched p).seam), (1, 0, s.schedState p)]),
     (0x180, 16, 8, fun p => packed [(63, 48, (s.sched p).other), (47, 32, (s.sched p).overflows), (31, 16, (s.sched p).drops),
       (15, 0, (s.sched p).misses)]),
     (0x8000, 1, 8, fun _ => packed [(55, 48, 0x10), (47, 40, 0x40), (35, 24, 0x10), (12, 0, if s.ctl.step = 0 then 0x1000 else m.beads)]),
     (0x10000, 4608, 8, fun t => packed [(63, 32, (s.tile t).launchTick), (11, 8, (s.tile t).progPart),
       (3, 3, flag (s.tile t).trapActive), (2, 0, s.shownState t)]),
     (0x20000, 4608, 8, fun t => packed [(47, 32, (s.tile t).corrected), (31, 16, (s.tile t).uncorrectable), (15, 0, (s.tile t).traps)]),
     (0x30000, 4608, 8, fun t => s.tileWord t),
     (0x40000, 4096, 8, fun b => (s.tileOfBead b).getD 0),
     (0x50000, 4608, 8, fun t =>
       let c (i : Nat) : Nat := SMap.get 0 (s.tile t).checkFails i
       packed [(47, 32, (s.tile t).tableCorrected), (31, 24, c 3), (23, 16, c 2), (15, 8, c 1), (7, 0, c 0)])]

/-- The CASKET block (Tables 6.6 to 6.12). -/
def State.readCasketReg (s : State) (o : Nat) : Nat :=
  let err (sl : Nat) : CasketErr := SMap.get {} s.casket.err sl
  let win (i : Nat) : ChkWindow := SMap.get {} s.casket.chk i
  readAmong o
    [(0x00, 1, 8, fun _ => packed [(55, 48, 0x40), (47, 40, 0x20), (39, 32, 0x10), (27, 24, 8), (23, 12, 0x200), (11, 0, 0x240)]),
     (0x1000, 576, 8, fun sl => packed [(48, 48, flag (s.casketOwn sl).pending), (47, 0, (s.casketOwn sl).requested)]),
     (0x3000, 576, 8, fun sl => packed [(47, 32, (err sl).corrected), (31, 16, (err sl).uncorrectable), (15, 0, (err sl).crcMismatch)]),
     (0x5000, 64, 0x20, fun i => (win i).base), (0x5008, 64, 0x20, fun i => (win i).limit), (0x5010, 64, 0x20, fun i => (win i).table),
     (0x6000, 16, 8, fun p => SMap.get 0 s.casket.moved p % 2 ^ 64)]

/-! ### Memory -/

/-- The fields of TG_CTL as they read: start and stop read zero (Table 7.17). -/
def TrafficGen.ctl (g : TrafficGen) : Nat :=
  packed [(63, 48, g.passes), (47, 40, g.readPct), (11, 10, g.order), (9, 8, g.pattern), (4, 4, flag g.raw), (3, 2, g.mode)]

/-- TG_RANGE (Table 7.18). -/
def TrafficGen.range (g : TrafficGen) : Nat := packed [(56, 32, g.last), (24, 0, g.first)]

/-- The MEM block (Tables 7.9 to 7.21). -/
def State.readMem (s : State) (o : Nat) : Nat :=
  let stack (k : Nat) : Stack := SMap.get {} s.mem.hbm k
  readAmong o
    [(0x00, 1, 8, fun _ => packed [(55, 48, 8), (47, 40, 0x20), (39, 32, 0x40), (31, 24, 0x20), (23, 16, s.ctl.units.groups),
       (15, 0, s.ctl.units.capacity)]),
     (0x100, 32, 8, fun n => packed [(47, 40, (s.group n).deadDie.getD 0xFF), (31, 16, (s.group n).epoch), (11, 8, (s.group n).shown),
       (0, 0, flag (s.group n).wide)]),
     (0x200, 8, 8, fun k => packed [(55, 48, (stack k).tempC), (12, 8, (stack k).duty), (2, 2, flag (stack k).cattrip),
       (1, 1, flag (stack k).refresh2x), (0, 0, flag (stack k).present)]),
     (0x300, 18, 8, fun b => packed [(63, 32, (s.bucket b).depth), (31, 0, (s.bucket b).rate)]),
     (0x400, 18, 8, fun b => packed [(63, 32, fromSigned 32 (s.bucket b).shownCount), (31, 0, (s.bucket b).waitTicks)]),
     (0x500, 32, 8, fun n => packed [(63, 32, cut32 (SMap.get 0 s.mem.wbPartial n)), (31, 0, cut32 (SMap.get 0 s.mem.wbFull n))]),
     (0x1000, 768, 8, fun i => packed [(15, 15, flag (s.slab i).hole), (14, 14, flag (s.slab i).movedTo.isSome),
       (12, 8, (s.slab i).movedTo.getD 0 / 24), (4, 0, (s.slab i).movedTo.getD 0 % 24)]),
     (0x10000, 512, 0x40, fun c => (s.gen c).ctl), (0x10008, 512, 0x40, fun c => (s.gen c).range),
     (0x10010, 512, 0x40, fun c => (s.gen c).seed),
     (0x10018, 512, 0x40, fun c => packed [(63, 40, (s.gen c).mismatches), (39, 24, (s.gen c).corrected),
       (23, 8, (s.gen c).uncorrectable), (3, 3, flag (s.gen c).refused), (1, 1, flag (s.gen c).done), (0, 0, flag (s.gen c).busy)]),
     (0x10020, 512, 0x40, fun c => packed [(41, 32, (s.gen c).failBit), (31, 31, flag (s.gen c).failValid), (24, 0, (s.gen c).failBeat)])]

/-- MEMC.CFG (Table 8.11). -/
def Care.cfgWord (c : Care) : Nat := packed [(47, 40, c.stormPeriods), (31, 16, c.leakMs), (15, 8, c.scrubHours)]

/-- Granules with the valid bit set (Table 8.13). -/
def Mem.written (m : Mem) : Nat := if m.filled then 12582912 - m.flipped.length else m.flipped.length

/-- The MEMC block (Tables 8.10 to 8.18). -/
def State.readMemc (s : State) (o : Nat) : Nat :=
  let hot (n : Nat) : RowHot := SMap.get {} s.care.rowHot n
  readAmong o
    [(0x00, 1, 8, fun _ => s.care.cfgWord), (0x08, 1, 8, fun _ => packed [(63, 32, s.care.threshold), (31, 0, s.care.leak)]),
     (0x10, 1, 8, fun _ => packed [(55, 32, s.mem.written), (0, 0, flag s.care.fastStart)]),
     (0x100, 34, 8, fun b => packed [(63, 48, (s.ce b).overflows), (32, 32, flag (s.ce b).storm), (31, 0, (s.ce b).count)]),
     (0x300, 32, 8, fun n => packed [(63, 32, cut32 (s.scrub n).passes), (31, 16, (s.scrub n).uncorrectable), (15, 0, (s.scrub n).corrected)]),
     (0x400, 32, 8, fun n => packed [(63, 48, (hot n).count), (35, 32, (hot n).die), (29, 24, (hot n).bank), (14, 0, (hot n).row)]),
     (0x500, 12, 8, fun w => (SMap.get 0 s.care.donor w).toNat), (0x600, 32, 8, fun n => (s.evac n).word)]

/-! ### Tether, sites, Locket -/

/-- TETHER.WIN_*[w]. -/
def State.window (s : State) (w : Nat) : Window := SMap.get {} s.tether.windows w

/-- The TETHER block (Tables 11.14 to 11.24). -/
def State.readTether (s : State) (o : Nat) : Nat :=
  let t := s.tether
  readAmong o
    [(0x00, 1, 8, fun _ => packed [(55, 48, 0x40), (47, 36, 0xFFF), (35, 24, 0x400), (23, 16, 0x48), (15, 8, 9), (7, 0, 8)]),
     (0x08, 1, 8, fun _ => packed [(57, 57, flag (!s.memberPorts.isEmpty)), (56, 56, flag t.joinEnable), (55, 52, t.parent),
       (51, 44, t.distance), (31, 16, t.refId), (15, 0, t.ownId)]),
     (0x10, 1, 8, fun _ => packed [(63, 32, t.lost), (31, 16, t.late), (15, 0, t.notices)]),
     (0x100, 9, 8, fun p => packed [(63, 48, (s.port p).partnerId), (47, 36, min 4095 (s.port p).delayNs), (35, 32, (s.port p).partnerPort),
       (31, 24, (s.port p).level), (23, 16, (s.port p).lanes), (3, 3, flag (s.port p).allowFarLoop), (2, 0, (s.port p).state)]),
     (0x180, 9, 8, fun p => packed [(63, 48, (s.port p).retrains), (47, 32, (s.port p).replays), (31, 16, (s.port p).crcBad),
       (15, 0, (s.port p).uncorrectable)]),
     (0x400, 72, 8, fun l => packed [(63, 32, (s.lane l).corrected), (31, 24, (s.lane l).eqn), (23, 16, (s.lane l).eqnMin),
       (15, 8, (s.lane l).uncorrectable), (2, 0, (s.lane l).state)]),
     (0x800, 72, 8, fun l => packed [(63, 32, (s.lane l).loopErrors), (31, 8, (s.lane l).loopMs), (2, 2, flag (s.lane l).loopLock),
       (1, 1, flag (s.lane l).loopDone), (0, 0, flag (s.lane l).loopBusy)]),
     (0x1000, 64, 0x20, fun w => (s.window w).base), (0x1008, 64, 0x20, fun w => (s.window w).limit),
     (0x1010, 64, 0x20, fun w => (s.window w).ctl), (0x20000, 4096, 8, fun i => SMap.get 0xF t.routes i)]

/-- The SITE block (Tables 12.11 to 12.15). -/
def State.readSite (s : State) (o : Nat) : Nat :=
  readAmong o
    [(0x00, 1, 8, fun _ => packed [(47, 40, 0x10), (39, 32, 1), (31, 24, 8), (23, 16, 4), (15, 8, 0x10), (7, 4, 2), (3, 0, 4)]),
     (0x100, 6, 8, fun q => packed [(63, 48, (s.site q).chanMask), (47, 32, (s.site q).mask), (31, 24, (s.site q).fenceCause),
       (21, 20, (s.site q).failures), (17, 16, (s.site q).strap), (11, 11, flag (s.site q).sealedOk), (10, 10, flag (s.site q).attested),
       (2, 0, (s.site q).state)]),
     (0x180, 6, 8, fun q => let p := (s.site q).peer
       packed [(63, 48, p.vendor), (47, 32, p.part), (31, 24, p.revision), (23, 16, p.windowLog2), (15, 12, p.gen), (11, 8, p.runGen),
         (7, 4, min 15 p.minLevel), (3, 0, min 15 p.maxLevel)]),
     (0x200, 6, 8, fun q => packed [(63, 48, (s.site q).retrains), (47, 32, (s.site q).replays), (31, 16, (s.site q).crcBad),
       (15, 0, (s.site q).bezelRefused)])]

/-- The LOCKET block (Tables 13.13 to 13.18). -/
def State.readLocket (s : State) (o : Nat) : Nat :=
  let k := s.locket
  readAmong o
    [(0x00, 1, 8, fun _ => packed [(39, 32, 0x40), (31, 16, 0x1000), (15, 8, 0x10)]),
     (0x08, 1, 8, fun _ => packed [(63, 48, maskOf ((List.range 16).filter s.sealedPart)), (44, 32, k.keys.length), (2, 2, flag k.drbgOk),
       (1, 1, flag k.entropyOk), (0, 0, flag k.owner.isSome)]),
     (0x100, 64, 8, fun r => packed [(47, 32, (s.region r).keySlot), (25, 16, (s.region r).slabs.length), (7, 4, (s.region r).partition),
       (1, 0, (s.region r).state)]),
     (0x1000, 768, 8, fun i =>
       match k.regions.find? (fun e => e.2.state != 0 && e.2.slabs.contains i) with
       | none => 0
       | some e => packed [(7, 7, 1), (5, 0, e.1)]),
     (0x2000, 16, 8, fun p => SMap.get 0 k.released p % 2 ^ 64)]

/-- The LC block (Tables 13.13, 13.19, 13.20); the open access reads zero until the fuses have been read (Table 16.1, step 2). -/
def State.readLc (s : State) (o : Nat) : Nat :=
  let k := s.locket
  let read := s.ctl.step != 0
  let open_ := read && (k.lc == 0 || k.lc == 1 || k.lc == 4)
  readAmong o
    [(0x00, 1, 8, fun _ => packed [(11, 11, flag open_), (10, 10, flag (read && s.beadHaltOpen)), (9, 9, flag open_),
       (8, 8, flag (read && k.lc != 3 && k.lc != 5)), (2, 0, k.lc)]),
     (0x08, 1, 8, fun _ => k.lot % 2 ^ 48),
     (0x10, 1, 8, fun _ => packed [(31, 24, 0xA1), (23, 16, k.dieY), (15, 8, k.dieX), (4, 0, k.wafer)]),
     (0x18, 1, 8, fun _ => k.uid % 2 ^ 64), (0x20, 1, 8, fun _ => k.uid / 2 ^ 64 % 2 ^ 64)]

/-! ### Power, heat, the Keel, events, the mailbox, debug -/

/-- The P-state of a domain's half; before a start-up has begun it reads its reset value (Table 14.14). -/
def State.domainP (s : State) (d : Nat) : Nat :=
  if d = 0 ∨ 13 ≤ d then 7 else if s.ctl.step = 0 then 1 else if railOf d = 0 then s.mesh.westP else s.mesh.eastP

/-- The PWR block (Tables 14.10 to 14.15). -/
def State.readPwr (s : State) (o : Nat) : Nat :=
  let p := s.pwr
  let thr (c : Nat) : Throttle := SMap.get {} p.throttle c
  readAmong o
    [(0x00, 1, 8, fun _ => packed [(32, 32, flag p.cap90), (25, 16, min 0x3FF p.diverge), (9, 0, p.limitW)]),
     (0x08, 1, 8, fun _ => packed [(63, 44, p.measW), (43, 24, p.estW), (12, 8, p.binding), (5, 5, flag p.fixedFreq),
       (4, 4, flag ((List.range 4).any (fun r => (s.rail r).failed))), (3, 0, p.idle)]),
     (0x10, 1, 8, fun _ => packed [(63, 32, min max32 (s.suppressed / clockUnit)), (31, 16, min 0xFFFF p.droopPersistent), (15, 0, min 0xFFFF p.droopEvents)]),
     (0x100, 20, 8, fun d => packed [(63, 32, (s.domain d).powerMw), (31, 16, (s.domain d).epoch), (6, 4, s.domainP d),
       (0, 0, flag (!(s.domain d).off))]),
     (0x200, 13, 8, fun c => packed [(63, 48, min 0xFFFF (thr c).onsets), (47, 0, (thr c).timeUs)]),
     (0x300, 16, 8, fun q => SMap.get 0 p.energy q % 2 ^ 64), (0x380, 1, 8, fun _ => p.energyBase % 2 ^ 64)]

/-- The THERM block (Tables 14.10, 14.16 to 14.18). -/
def State.readTherm (s : State) (o : Nat) : Nat :=
  let t := s.therm
  readAmong o
    [(0x00, 1, 8, fun _ => packed [(63, 56, t.duty), (55, 44, t.predDie), (43, 32, tempOfNode t.plate), (23, 16, t.hotSensor),
       (15, 4, t.hottest), (2, 2, flag t.emergency), (1, 1, flag t.warn), (0, 0, flag t.fault)]),
     (0x100, 96, 8, fun n => packed [(16, 16, flag (s.sensor n).failed), (11, 0, tempField (s.sensor n).temp)]),
     (0x400, 8, 8, fun k => packed [(63, 32, match s.hintNow with
         | some (_, left) => left / 1000
         | none => 0),
       (31, 20, (s.thermStack k).predicted), (15, 8, min 0xFF (s.thermStack k).episodes), (2, 1, (s.thermStack k).phase),
       (0, 0, flag (s.thermStack k).deferred)])]

/-- The KEEL block (Tables 15.8 to 15.12). -/
def State.readKeel (s : State) (o : Nat) : Nat :=
  let k := s.keel
  readAmong o
    [(0x00, 1, 8, fun _ => packed [(63, 48, k.warmResets), (47, 40, k.lastWarm), (2, 2, flag k.trip), (1, 1, flag k.lockstepOk), (0, 0, flag k.safe)]),
     (0x08, 1, 8, fun _ => packed [(63, 48, k.unit), (32, 16, k.mask), (7, 0, k.first)]), (0x10, 1, 8, fun _ => k.causeAt),
     (0x18, 1, 8, fun _ => packed [(63, 48, fromSigned 16 k.oscB), (47, 32, fromSigned 16 k.oscA), (31, 16, k.gateTests),
       (2, 2, flag k.copiesEqual), (1, 1, flag k.supplyOk), (0, 0, flag k.gateOk)])]

/-- The EVT block (Tables 9.12, 9.13, 9.15). -/
def State.readEvt (s : State) (o : Nat) : Nat :=
  let e := s.evt
  readAmong o
    [(0x00, 1, 8, fun _ => e.base), (0x08, 1, 8, fun _ => e.cell), (0x10, 1, 8, fun _ => e.ctl),
     (0x18, 1, 8, fun _ => packed [(63, 32, e.written), (31, 16, min 0xFFFF e.lost), (10, 0, e.queue.length)])]

/-- The MBOX block (Tables 9.17, 9.18). -/
def State.readMbox (s : State) (o : Nat) : Nat :=
  let m := s.mbox
  readAmong o
    [(0x00, 1, 8, fun _ => m.cmdWord),
     (0x08, 1, 8, fun _ => packed [(47, 32, m.seq), (28, 16, m.outLen), (15, 8, m.result), (1, 0, m.state)]),
     (0x1000, 512, 8, fun i => (SMap.get 0 m.input i).toNat), (0x2000, 512, 8, fun i => (SMap.get 0 m.output i).toNat)]

/-- DBG.CLAIM (Table 18.6): zero while the bead halt is closed (R532). -/
def State.claimWord (s : State) : Nat :=
  if s.beadHaltOpen then
    packed [(17, 17, flag (s.dbg.claim && (s.tile s.dbg.tile).state == 3)), (16, 16, flag s.dbg.claim), (12, 0, s.dbg.tile)]
  else 0

/-! ### BAR0 -/

/-- What the register at BAR0 offset `off` holds, whether or not the host can read it. -/
def State.register (s : State) (off : Nat) : Nat :=
  let o := off % 0x100000
  match off / 0x100000 with
  | 0 => s.readId o
  | 1 => s.readCtl o
  | 2 => s.readTick o
  | 3 => s.readPart o
  | 4 => s.readRing o
  | 5 => s.readClasp o
  | 6 => s.readXlat o
  | 7 => s.readSail o
  | 8 => s.readMesh o
  | 9 => s.readCasketReg o
  | 10 => s.readMem o
  | 11 => s.readMemc o
  | 12 => s.readTether o
  | 13 => s.readSite o
  | 14 => s.readLocket o
  | 15 => s.readLc o
  | 16 => s.readPwr o
  | 17 => s.readTherm o
  | 18 => s.readKeel o
  | 19 => s.readEvt o
  | 20 => s.readMbox o
  | 21 => if o = 0 then s.claimWord else 0
  | _ => 0

/-- An aligned 64-bit read of BAR0: zero in D3hot (Table 9.2), and before release for every register outside the ID block and the
start-up registers (R487). [DEDUCED, log 33] -/
def State.readReg (s : State) (off : Nat) : W64 :=
  if !s.ctl.pwrgood || !s.host.linkUp || s.host.d3hot then 0
  else if (s.ctl.released && s.ctl.warm.isNone) || decide (off < 0x200000) then BitVec.ofNat 64 (s.register off)
  else 0

/-- An aligned read of a whole register or of one half (R5). [DEDUCED, log 33] -/
def State.readBar0 (s : State) (off : Nat) (h : Half) : W64 :=
  let w := (s.readReg off).toNat
  match h with
  | .full => s.readReg off
  | .low => BitVec.ofNat 64 (w % 2 ^ 32)
  | .high => BitVec.ofNat 64 (w / 2 ^ 32)

/-! ### Writes -/

/-- A write of TICK.CFG strictly before release (R6, R487, Table 1.5): clamped, and recorded with kind 4 for each field. [DESIGN CHOICE, log 35] -/
def State.writeTickCfg (s : State) (h : Half) (v : W64) : State :=
  let w := mergeHalf h (packed [(20, 16, s.tick.overrunPct), (9, 0, s.tick.periodUs)]) v
  if h = .high then s
  else
    let p := clampNat 2 1000 (bits w 9 0)
    let a := min 25 (bits w 20 16)
    { s with
      tick := { s.tick with periodUs := p, overrunPct := a }
      ctl := { s.ctl with overrides := (s.ctl.overrides.filter (fun r => !(r.group == 1 && (r.offset == 4 || r.offset == 6)))) ++
        [⟨4, 1, 4, 0xFFFF, bits w 9 0, p⟩, ⟨4, 1, 6, 0xFFFF, bits w 20 16, a⟩] } }

/-- A write in the RING block. -/
def State.writeRingBlock (s : State) (o : Nat) (h : Half) (v : W64) : State :=
  match elemOf (o / 0x20 * 0x20) 0 256 0x20, elemOf (o / 0x20 * 0x20) 0x2000 256 0x20 with
  | some r, _ =>
    match o % 0x20 with
    | 0 => s.writeRingBase r (mergeHalf h (s.ring r).base v)
    | 8 => s.writeRingCell r (mergeHalf h (s.ring r).cell v)
    | 16 => s.writeRingCtl r (mergeHalf h (s.ring r).ctl v)
    | _ => s
  | none, some c =>
    match o % 0x20 with
    | 0 => s.writeCRingBase c (mergeHalf h (s.cring c).base v)
    | 8 => s.writeCRingCell c (mergeHalf h (s.cring c).cell v)
    | 16 => s.writeCRingCtl c (mergeHalf h (s.cring c).ctl v)
    | _ => s
  | none, none => s

/-- A write in the XLAT block (Tables 10.11, 10.13). [DESIGN CHOICE, log 35] -/
def State.writeXlatBlock (s : State) (o : Nat) (h : Half) (v : W64) : State :=
  if o = 8 then
    { s with xlat := { s.xlat with priTimeout := max 1 (mergeHalf h s.xlat.priTimeout v % 2 ^ 16) } }
  else match elemOf o 0x100 16 8 with
    | some p => { s with xlat := { s.xlat with
        part := SMap.upd {} s.xlat.part p (fun x => { x with atomic := mergeHalf h (flag x.atomic) v % 2 == 1 }) } }
    | none => s

/-- A write in the SAIL block (Table 3.12). -/
def State.writeSailBlock (s : State) (o : Nat) (h : Half) (v : W64) : State :=
  match elemOf o 0x400 16 8, elemOf o 0x480 16 8 with
  | some p, _ => s.writeKvr p false h v
  | none, some p => s.writeKvr p true h v
  | none, none => s

/-- A write in the CASKET block (Tables 6.8, 6.10, 6.11). -/
def State.writeCasketBlock (s : State) (o : Nat) (h : Half) (v : W64) : State :=
  match elemOf o 0x1000 576 8, elemOf (o / 0x20 * 0x20) 0x5000 64 0x20 with
  | some sl, _ => s.writeOwn sl h v
  | none, some i =>
    let put (f : ChkWindow → ChkWindow) : State := { s with casket := { s.casket with chk := SMap.upd {} s.casket.chk i f } }
    match o % 0x20 with
    | 0 => put (fun x => { x with base := mergeHalf h x.base v % 2 ^ 57 / 4096 * 4096 })
    | 8 => put (fun x => { x with limit := mergeHalf h x.limit v % 2 ^ 57 / 4096 * 4096 })
    | 16 => put (fun x => { x with table := mergeHalf h x.table v % 2 ^ 57 / 8 * 8 })
    | _ => s
  | none, none => s

/-- A write in the MEM block (Tables 7.13, 7.17 to 7.19). -/
def State.writeMemBlock (s : State) (o : Nat) (h : Half) (v : W64) : State :=
  match elemOf o 0x300 18 8, elemOf (o / 0x40 * 0x40) 0x10000 512 0x40 with
  | some b, _ => s.writeMemReg b h v
  | none, some c =>
    match o % 0x40 with
    | 0 => s.genControl c (mergeHalf h (s.gen c).ctl v)
    | 8 => s.updGen c (fun g =>
        let w := mergeHalf h g.range v
        { g with first := bits w 24 0, last := bits w 56 32 })
    | 16 => s.updGen c (fun g => { g with seed := mergeHalf h g.seed v })
    | _ => s
  | none, none => s

/-- A write in the MEMC block (Tables 8.11, 8.12, 8.17), clamped to the nearer bound (R295). [DESIGN CHOICE, log 35] -/
def State.writeMemcBlock (s : State) (o : Nat) (h : Half) (v : W64) : State :=
  if o = 0 then
    let w := mergeHalf h s.care.cfgWord v
    { s with care := { s.care with
        stormPeriods := clampNat 1 255 (bits w 47 40), leakMs := clampNat 1 60000 (bits w 31 16), scrubHours := clampNat 1 168 (bits w 15 8) } }
  else if o = 8 then
    let w := mergeHalf h (packed [(63, 32, s.care.threshold), (31, 0, s.care.leak)]) v
    { s with care := { s.care with threshold := max 1 (bits w 63 32), leak := bits w 31 0 } }
  else match elemOf o 0x500 12 8 with
    | some w => s.writeDonor w h v
    | none => s

/-- A write in the TETHER block (Tables 11.22, 11.23). -/
def State.writeTetherBlock (s : State) (o : Nat) (h : Half) (v : W64) : State :=
  match elemOf (o / 0x20 * 0x20) 0x1000 64 0x20 with
  | none => s
  | some w =>
    let put (f : Window → Window) : State := { s with tether := { s.tether with windows := SMap.upd {} s.tether.windows w f } }
    match o % 0x20 with
    | 0 => put (fun x => { x with base := baseField (mergeHalf h x.base v) })
    | 8 => put (fun x => { x with limit := baseField (mergeHalf h x.limit v) })
    | 16 => put (fun x =>
        let w := mergeHalf h x.ctl v
        { x with ctl := packed [(63, 8, w / 256), (4, 0, w)] })
    | _ => s

/-- A write in the EVT block. -/
def State.writeEvtBlock (s : State) (o : Nat) (h : Half) (v : W64) : State :=
  match o with
  | 0 => s.writeEvtBase (mergeHalf h s.evt.base v)
  | 8 => s.writeEvtCell (mergeHalf h s.evt.cell v)
  | 16 => s.writeEvtCtl (mergeHalf h s.evt.ctl v)
  | _ => s

/-- A write in the MBOX block. -/
def State.writeMboxBlock (s : State) (o : Nat) (h : Half) (v : W64) : State :=
  if o = 0 then s.writeMbox none h v
  else match elemOf o 0x1000 512 8 with
    | some i => s.writeMbox (some i) h v
    | none => s

/-- A write to BAR0 offset `off` of a device that serves BAR0 (Table 18.1): RW and WO fields take it, everything else drops it. [PRESUMED, log 9; DESIGN CHOICE, log 34] -/
def State.writeBlock (s : State) (off : Nat) (h : Half) (v : W64) : State :=
  let o := off % 0x100000
  match off / 0x100000 with
  | 4 => s.writeRingBlock o h v
  | 6 => s.writeXlatBlock o h v
  | 7 => s.writeSailBlock o h v
  | 9 => s.writeCasketBlock o h v
  | 10 => s.writeMemBlock o h v
  | 11 => s.writeMemcBlock o h v
  | 12 => s.writeTetherBlock o h v
  | 19 => s.writeEvtBlock o h v
  | 20 => s.writeMboxBlock o h v
  | 21 => if o = 0 then s.writeClaim (mergeHalf h s.claimWord v) else s
  | _ => s

/-- REGISTER_WRITE (R6, R487): a write to the register at a BAR0 offset acts per its access code; before release only RWS registers
take one, and after it none does. [DESIGN CHOICE, log 34] -/
def execRegisterWrite (off : Nat) (h : Half) (v : W64) (s : State) : Host.Outcome State Fault Refusal :=
  guarded "REGISTER_WRITE" (decide (off % 8 = 0) && decide (off < 0x4000000)) (
    if s.regOpen then s.writeBlock off h v
    else if s.ctl.pwrgood && !s.ctl.released && s.host.linkUp && off == 0x200000 then s.writeTickCfg h v
    else s)

/-- BAR0_UNSUPPORTED_ACCESS (R5): an access that is not an aligned 32-bit or 64-bit one completes as an unsupported request and has no
effect. -/
def execBar0UnsupportedAccess (off bytes : Nat) (_write : Bool) (s : State) : Host.Outcome State Fault Refusal :=
  guarded "BAR0_UNSUPPORTED_ACCESS" (decide (off < 0x4000000) && !((bytes == 4 || bytes == 8) && off % bytes == 0))
    (if s.host.linkUp then s.emit (.unsupportedRequest off) else s)

end Sys2Proof.Machine
end

