-- ==== Sys2Proof/Machine/Dispatch.lean ====
section
/-! DEFINITION. What each command does: one arm per constructor of Instr, each a call of its meaning. -/

namespace Sys2Proof.Machine

def exec (i : Instr) (s : State) : Host.Outcome State Fault Refusal :=
  match i with
  | .pwrgoodRise b => Sys2Proof.Machine.execPwrgoodRise b s
  | .pwrgoodFall => Sys2Proof.Machine.execPwrgoodFall s
  | .internalColdRestart b => Sys2Proof.Machine.execInternalColdRestart b s
  | .release at_ => Sys2Proof.Machine.execRelease at_ s
  | .perstNAssert => Sys2Proof.Machine.execPerstNAssert s
  | .hostLinkReset kind => Sys2Proof.Machine.execHostLinkReset kind s
  | .d3hotEntry => Sys2Proof.Machine.execD3hotEntry s
  | .tickBoundary edge => Sys2Proof.Machine.execTickBoundary edge s
  | .runPhaseStart at_ => Sys2Proof.Machine.execRunPhaseStart at_ s
  | .settlePhase at_ parityOk => Sys2Proof.Machine.execSettlePhase at_ parityOk s
  | .sliceEnd f j at_ => Sys2Proof.Machine.execSliceEnd f j at_ s
  | .overrunDeadline f at_ => Sys2Proof.Machine.execOverrunDeadline f at_ s
  | .pieceStart f j => Sys2Proof.Machine.execPieceStart f j s
  | .specConfirmTimeout f => Sys2Proof.Machine.execSpecConfirmTimeout f s
  | .prefetchConfirmTimeout f => Sys2Proof.Machine.execPrefetchConfirmTimeout f s
  | .specFaultTimeout f => Sys2Proof.Machine.execSpecFaultTimeout f s
  | .meshOfferDrop p => Sys2Proof.Machine.execMeshOfferDrop p s
  | .copy f => Sys2Proof.Machine.execCopy f s
  | .fill f => Sys2Proof.Machine.execFill f s
  | .crcgen f => Sys2Proof.Machine.execCrcgen f s
  | .crcverify f => Sys2Proof.Machine.execCrcverify f s
  | .gemm f e => Sys2Proof.Machine.execGemm f e s
  | .attend f j e => Sys2Proof.Machine.execAttend f j e s
  | .scan f e => Sys2Proof.Machine.execScan f e s
  | .reduce f e => Sys2Proof.Machine.execReduce f e s
  | .sfu f e => Sys2Proof.Machine.execSfu f e s
  | .slotOpen f => Sys2Proof.Machine.execSlotOpen f s
  | .slotClose f => Sys2Proof.Machine.execSlotClose f s
  | .kvWrite f => Sys2Proof.Machine.execKvWrite f s
  | .kvSettle f => Sys2Proof.Machine.execKvSettle f s
  | .launch f => Sys2Proof.Machine.execLaunch f s
  | .launchStart f => Sys2Proof.Machine.execLaunchStart f s
  | .load f => Sys2Proof.Machine.execLoad f s
  | .loadStart f => Sys2Proof.Machine.execLoadStart f s
  | .run f => Sys2Proof.Machine.execRun f s
  | .runStart f => Sys2Proof.Machine.execRunStart f s
  | .frameStart p e => Sys2Proof.Machine.execFrameStart p e s
  | .unload f => Sys2Proof.Machine.execUnload f s
  | .gcmDecrypt f e => Sys2Proof.Machine.execGcmDecrypt f e s
  | .gcmEncrypt f e => Sys2Proof.Machine.execGcmEncrypt f e s
  | .xtsDecrypt f e => Sys2Proof.Machine.execXtsDecrypt f e s
  | .xtsEncrypt f e => Sys2Proof.Machine.execXtsEncrypt f e s
  | .hash f => Sys2Proof.Machine.execHash f s
  | .releaseDescriptor f => Sys2Proof.Machine.execReleaseDescriptor f s
  | .scatterAdd f => Sys2Proof.Machine.execScatterAdd f s
  | .repair f => Sys2Proof.Machine.execRepair f s
  | .repairDone f good => Sys2Proof.Machine.execRepairDone f good s
  | .mapOut f => Sys2Proof.Machine.execMapOut f s
  | .rwrite f => Sys2Proof.Machine.execRwrite f s
  | .rread f => Sys2Proof.Machine.execRread f s
  | .radd f => Sys2Proof.Machine.execRadd f s
  | .rsignal f => Sys2Proof.Machine.execRsignal f s
  | .nop f => Sys2Proof.Machine.execNop f s
  | .claspSet f => Sys2Proof.Machine.execClaspSet f s
  | .invalidate f => Sys2Proof.Machine.execInvalidate f s
  | .collectiveHint f => Sys2Proof.Machine.execCollectiveHint f s
  | .hintExpiry p => Sys2Proof.Machine.execHintExpiry p s
  | .levelSet => Sys2Proof.Machine.execLevelSet s
  | .cfgReportRead => Sys2Proof.Machine.execCfgReportRead s
  | .partSet => Sys2Proof.Machine.execPartSet s
  | .partEnable => Sys2Proof.Machine.execPartEnable s
  | .warmReset => Sys2Proof.Machine.execWarmReset s
  | .warmResetBegin at_ => Sys2Proof.Machine.execWarmResetBegin at_ s
  | .warmResetRelease at_ => Sys2Proof.Machine.execWarmResetRelease at_ s
  | .xlatInvalidate => Sys2Proof.Machine.execXlatInvalidate s
  | .priRestart => Sys2Proof.Machine.execPriRestart s
  | .tetherFabricSet => Sys2Proof.Machine.execTetherFabricSet s
  | .tetherRouteSet => Sys2Proof.Machine.execTetherRouteSet s
  | .tetherPortDisable => Sys2Proof.Machine.execTetherPortDisable s
  | .tetherPortEnable => Sys2Proof.Machine.execTetherPortEnable s
  | .tetherPortRetrain => Sys2Proof.Machine.execTetherPortRetrain s
  | .tetherPortSetFarLoop => Sys2Proof.Machine.execTetherPortSetFarLoop s
  | .tetherLoopback => Sys2Proof.Machine.execTetherLoopback s
  | .loopbackEnd p r => Sys2Proof.Machine.execLoopbackEnd p r s
  | .tetherLeave => Sys2Proof.Machine.execTetherLeave s
  | .siteDisable => Sys2Proof.Machine.execSiteDisable s
  | .siteEnable => Sys2Proof.Machine.execSiteEnable s
  | .siteRetrain => Sys2Proof.Machine.execSiteRetrain s
  | .siteUnfence => Sys2Proof.Machine.execSiteUnfence s
  | .siteGrant => Sys2Proof.Machine.execSiteGrant s
  | .siteBezelSet => Sys2Proof.Machine.execSiteBezelSet s
  | .siteBezelRead => Sys2Proof.Machine.execSiteBezelRead s
  | .locketOwnerLoad => Sys2Proof.Machine.execLocketOwnerLoad s
  | .locketImportNonce => Sys2Proof.Machine.execLocketImportNonce s
  | .locketKeyImport => Sys2Proof.Machine.execLocketKeyImport s
  | .locketKeyErase => Sys2Proof.Machine.execLocketKeyErase s
  | .locketKemPublic => Sys2Proof.Machine.execLocketKemPublic s
  | .locketSeal => Sys2Proof.Machine.execLocketSeal s
  | .sealTakeEffect r => Sys2Proof.Machine.execSealTakeEffect r s
  | .locketUnseal => Sys2Proof.Machine.execLocketUnseal s
  | .unsealZeroDone r => Sys2Proof.Machine.execUnsealZeroDone r s
  | .locketAttestSite => Sys2Proof.Machine.execLocketAttestSite s
  | .lcField => Sys2Proof.Machine.execLcField s
  | .lcReturn => Sys2Proof.Machine.execLcReturn s
  | .lcScrap => Sys2Proof.Machine.execLcScrap s
  | .instrumentLcTransition goal token => Sys2Proof.Machine.execInstrumentLcTransition goal token s
  | .pwrLimitSet => Sys2Proof.Machine.execPwrLimitSet s
  | .pwrCapClear => Sys2Proof.Machine.execPwrCapClear s
  | .pwrHalfSet => Sys2Proof.Machine.execPwrHalfSet s
  | .pwrIdleSet => Sys2Proof.Machine.execPwrIdleSet s
  | .idleWake mode => Sys2Proof.Machine.execIdleWake mode s
  | .idleExitDone mode => Sys2Proof.Machine.execIdleExitDone mode s
  | .thermCoolantSet => Sys2Proof.Machine.execThermCoolantSet s
  | .recoveryBegin => Sys2Proof.Machine.execRecoveryBegin s
  | .recoveryChunk => Sys2Proof.Machine.execRecoveryChunk s
  | .recoveryCommit flash => Sys2Proof.Machine.execRecoveryCommit flash s
  | .recoveryRequest => Sys2Proof.Machine.execRecoveryRequest s
  | .recoveryStatus => Sys2Proof.Machine.execRecoveryStatus s
  | .mboxCmdWrite k h v => Sys2Proof.Machine.execMboxCmdWrite k h v s
  | .ringEnable r v => Sys2Proof.Machine.execRingEnable r v s
  | .ringDisable r => Sys2Proof.Machine.execRingDisable r s
  | .cringEnable c v => Sys2Proof.Machine.execCringEnable c v s
  | .cringDisable c => Sys2Proof.Machine.execCringDisable c s
  | .cringDrained c => Sys2Proof.Machine.execCringDrained c s
  | .evtRingEnable v => Sys2Proof.Machine.execEvtRingEnable v s
  | .evtRingDisable => Sys2Proof.Machine.execEvtRingDisable s
  | .casketOwnWrite sl h v => Sys2Proof.Machine.execCasketOwnWrite sl h v s
  | .casketOwnApply sl => Sys2Proof.Machine.execCasketOwnApply sl s
  | .kvrWrite p limit h v => Sys2Proof.Machine.execKvrWrite p limit h v s
  | .memRegWrite b h v => Sys2Proof.Machine.execMemRegWrite b h v s
  | .donorWrite w h v => Sys2Proof.Machine.execDonorWrite w h v s
  | .tgStart c v => Sys2Proof.Machine.execTgStart c v s
  | .tgStop c => Sys2Proof.Machine.execTgStop c s
  | .tgDone c r => Sys2Proof.Machine.execTgDone c r s
  | .dbgClaimWrite v => Sys2Proof.Machine.execDbgClaimWrite v s
  | .hdmDecoderCommit d base size => Sys2Proof.Machine.execHdmDecoderCommit d base size s
  | .registerWrite off h v => Sys2Proof.Machine.execRegisterWrite off h v s
  | .bar0UnsupportedAccess off bytes write => Sys2Proof.Machine.execBar0UnsupportedAccess off bytes write s
  | .cxlMemRead hpa e => Sys2Proof.Machine.execCxlMemRead hpa e s
  | .cxlMemWrite hpa mask data => Sys2Proof.Machine.execCxlMemWrite hpa mask data s
  | .atsInvalidateRequest itag r => Sys2Proof.Machine.execAtsInvalidateRequest itag r s
  | .invalidationDrained id => Sys2Proof.Machine.execInvalidationDrained id s
  | .translationCompletion t => Sys2Proof.Machine.execTranslationCompletion t s
  | .pageRequestResponse pasid group code => Sys2Proof.Machine.execPageRequestResponse pasid group code s
  | .pageRequestTimeout group => Sys2Proof.Machine.execPageRequestTimeout group s
  | .doeDiscovery index => Sys2Proof.Machine.execDoeDiscovery index s
  | .cdatRead entry => Sys2Proof.Machine.execCdatRead entry s
  | .spdmGetVersion => Sys2Proof.Machine.execSpdmGetVersion s
  | .spdmGetCapabilities => Sys2Proof.Machine.execSpdmGetCapabilities s
  | .spdmNegotiateAlgorithms o => Sys2Proof.Machine.execSpdmNegotiateAlgorithms o s
  | .spdmGetDigests => Sys2Proof.Machine.execSpdmGetDigests s
  | .spdmGetCertificate slot off len => Sys2Proof.Machine.execSpdmGetCertificate slot off len s
  | .spdmChallenge slot nonce => Sys2Proof.Machine.execSpdmChallenge slot nonce s
  | .spdmGetMeasurements index nonce => Sys2Proof.Machine.execSpdmGetMeasurements index nonce s
  | .spdmKeyExchange ek => Sys2Proof.Machine.execSpdmKeyExchange ek s
  | .spdmFinish sid mac => Sys2Proof.Machine.execSpdmFinish sid mac s
  | .spdmEndSession sid => Sys2Proof.Machine.execSpdmEndSession sid s
  | .spdmKeyUpdate sid op => Sys2Proof.Machine.execSpdmKeyUpdate sid op s
  | .spdmHeartbeat sid => Sys2Proof.Machine.execSpdmHeartbeat sid s
  | .spdmVendorDefinedRequest sid m => Sys2Proof.Machine.execSpdmVendorDefinedRequest sid m s
  | .tetherFlit p words => Sys2Proof.Machine.execTetherFlit p words s
  | .tetherReplayTimeout p => Sys2Proof.Machine.execTetherReplayTimeout p s
  | .commaBlock l ui levels => Sys2Proof.Machine.execCommaBlock l ui levels s
  | .commaLockLoss l => Sys2Proof.Machine.execCommaLockLoss l s
  | .trainingFrame l levels height spacing => Sys2Proof.Machine.execTrainingFrame l levels height spacing s
  | .adaptationTimeout p => Sys2Proof.Machine.execAdaptationTimeout p s
  | .portBringupTimeout p => Sys2Proof.Machine.execPortBringupTimeout p s
  | .portRetryTimer p => Sys2Proof.Machine.execPortRetryTimer p s
  | .lanesLocked p => Sys2Proof.Machine.execLanesLocked p s
  | .eqnMeasurement l height spacing => Sys2Proof.Machine.execEqnMeasurement l height spacing s
  | .hello p => Sys2Proof.Machine.execHello p s
  | .join p => Sys2Proof.Machine.execJoin p s
  | .adopt p => Sys2Proof.Machine.execAdopt p s
  | .syncReqSend phase => Sys2Proof.Machine.execSyncReqSend phase s
  | .syncReq p t2tick t2phase turn => Sys2Proof.Machine.execSyncReq p t2tick t2phase turn s
  | .syncRsp p t4tick t4phase => Sys2Proof.Machine.execSyncRsp p t4tick t4phase s
  | .vote p => Sys2Proof.Machine.execVote p s
  | .voteDeadline => Sys2Proof.Machine.execVoteDeadline s
  | .slowNotice p => Sys2Proof.Machine.execSlowNotice p s
  | .messageForward p => Sys2Proof.Machine.execMessageForward p s
  | .tetherRead p => Sys2Proof.Machine.execTetherRead p s
  | .tetherWrite p => Sys2Proof.Machine.execTetherWrite p s
  | .tetherWritePartial p => Sys2Proof.Machine.execTetherWritePartial p s
  | .tetherAdd p => Sys2Proof.Machine.execTetherAdd p s
  | .tetherSignal p => Sys2Proof.Machine.execTetherSignal p s
  | .tetherReadData p => Sys2Proof.Machine.execTetherReadData p s
  | .tetherDone p => Sys2Proof.Machine.execTetherDone p s
  | .siteAlert q => Sys2Proof.Machine.execSiteAlert q s
  | .siteTrainingAttempt q => Sys2Proof.Machine.execSiteTrainingAttempt q s
  | .advert q m => Sys2Proof.Machine.execAdvert q m s
  | .lanes q m => Sys2Proof.Machine.execLanes q m s
  | .laneTestEnd q failing => Sys2Proof.Machine.execLaneTestEnd q failing s
  | .echo q m => Sys2Proof.Machine.execEcho q m s
  | .echoTimeout q => Sys2Proof.Machine.execEchoTimeout q s
  | .siteTrainingTimeout q => Sys2Proof.Machine.execSiteTrainingTimeout q s
  | .siteFrame q ch b => Sys2Proof.Machine.execSiteFrame q ch b s
  | .siteReplayTimeout q ch => Sys2Proof.Machine.execSiteReplayTimeout q ch s
  | .siteRead q ch => Sys2Proof.Machine.execSiteRead q ch s
  | .siteWrite q ch => Sys2Proof.Machine.execSiteWrite q ch s
  | .siteReadData q ch => Sys2Proof.Machine.execSiteReadData q ch s
  | .siteDone q ch => Sys2Proof.Machine.execSiteDone q ch s
  | .siteAttestPoll q r => Sys2Proof.Machine.execSiteAttestPoll q r s
  | .siteAttestTimeout q => Sys2Proof.Machine.execSiteAttestTimeout q s
  | .canaryRead c ok => Sys2Proof.Machine.execCanaryRead c ok s
  | .stackTempRead k temp => Sys2Proof.Machine.execStackTempRead k temp s
  | .stackRefresh c bank => Sys2Proof.Machine.execStackRefresh c bank s
  | .calibration n pc => Sys2Proof.Machine.execCalibration n pc s
  | .scrubRead n st raw => Sys2Proof.Machine.execScrubRead n st raw s
  | .stackCommandFailure c kind => Sys2Proof.Machine.execStackCommandFailure c kind s
  | .holdBudgetExpiry n => Sys2Proof.Machine.execHoldBudgetExpiry n s
  | .retrainAttemptEnd n ok => Sys2Proof.Machine.execRetrainAttemptEnd n ok s
  | .rebuildDone n => Sys2Proof.Machine.execRebuildDone n s
  | .leakPeriod => Sys2Proof.Machine.execLeakPeriod s
  | .stormWindowEnd b => Sys2Proof.Machine.execStormWindowEnd b s
  | .wcbWriteback n st e => Sys2Proof.Machine.execWcbWriteback n st e s
  | .granuleFillDone g => Sys2Proof.Machine.execGranuleFillDone g s
  | .uncorrectableConsumed c => Sys2Proof.Machine.execUncorrectableConsumed c s
  | .partitionReset p again => Sys2Proof.Machine.execPartitionReset p again s
  | .controlPlaneUncorrectable => Sys2Proof.Machine.execControlPlaneUncorrectable s
  | .evacuationSlabDone n bad => Sys2Proof.Machine.execEvacuationSlabDone n bad s
  | .pmbusPoll r => Sys2Proof.Machine.execPmbusPoll r s
  | .setpointReached rail => Sys2Proof.Machine.execSetpointReached rail s
  | .setpointTimeout rail => Sys2Proof.Machine.execSetpointTimeout rail s
  | .throttleRecoveryStep => Sys2Proof.Machine.execThrottleRecoveryStep s
  | .droopTrip region at_ => Sys2Proof.Machine.execDroopTrip region at_ s
  | .droopStretchEnd half at_ => Sys2Proof.Machine.execDroopStretchEnd half at_ s
  | .persistentDroop half at_ => Sys2Proof.Machine.execPersistentDroop half at_ s
  | .vrAlert => Sys2Proof.Machine.execVrAlert s
  | .vrAlertRelease => Sys2Proof.Machine.execVrAlertRelease s
  | .junctionSensorRead t => Sys2Proof.Machine.execJunctionSensorRead t s
  | .hardwiredTrip => Sys2Proof.Machine.execHardwiredTrip s
  | .ballastWindow => Sys2Proof.Machine.execBallastWindow s
  | .stackDeferralEnd k => Sys2Proof.Machine.execStackDeferralEnd k s
  | .cattrip k => Sys2Proof.Machine.execCattrip k s
  | .entropyHealthFail test => Sys2Proof.Machine.execEntropyHealthFail test s
  | .lockstepMismatch => Sys2Proof.Machine.execLockstepMismatch s
  | .refclkLoss => Sys2Proof.Machine.execRefclkLoss s
  | .oscillatorCheck a b => Sys2Proof.Machine.execOscillatorCheck a b s
  | .supplyComparator rail mv us => Sys2Proof.Machine.execSupplyComparator rail mv us s
  | .egressTransfer x => Sys2Proof.Machine.execEgressTransfer x s
  | .copyCompare => Sys2Proof.Machine.execCopyCompare s
  | .latentTest test pass => Sys2Proof.Machine.execLatentTest test pass s
  | .watchdogExpiry => Sys2Proof.Machine.execWatchdogExpiry s
  | .faultNReadback low => Sys2Proof.Machine.execFaultNReadback low s
  | .integerOp t => Sys2Proof.Machine.execIntegerOp t s
  | .branch t => Sys2Proof.Machine.execBranch t s
  | .jump t => Sys2Proof.Machine.execJump t s
  | .beadLoad t upset => Sys2Proof.Machine.execBeadLoad t upset s
  | .beadStore t upset => Sys2Proof.Machine.execBeadStore t upset s
  | .mul t => Sys2Proof.Machine.execMul t s
  | .div t => Sys2Proof.Machine.execDiv t s
  | .csrAccess t => Sys2Proof.Machine.execCsrAccess t s
  | .fence t => Sys2Proof.Machine.execFence t s
  | .ecall t => Sys2Proof.Machine.execEcall t s
  | .ebreak t => Sys2Proof.Machine.execEbreak t s
  | .mret t => Sys2Proof.Machine.execMret t s
  | .wfi t => Sys2Proof.Machine.execWfi t s
  | .wfiWake t => Sys2Proof.Machine.execWfiWake t s
  | .illegalInstruction t => Sys2Proof.Machine.execIllegalInstruction t s
  | .vaddB t => Sys2Proof.Machine.execVaddB t s
  | .vsubB t => Sys2Proof.Machine.execVsubB t s
  | .vaddsuB t => Sys2Proof.Machine.execVaddsuB t s
  | .vsubsuB t => Sys2Proof.Machine.execVsubsuB t s
  | .vminuB t => Sys2Proof.Machine.execVminuB t s
  | .vmaxuB t => Sys2Proof.Machine.execVmaxuB t s
  | .vand t => Sys2Proof.Machine.execVand t s
  | .vor t => Sys2Proof.Machine.execVor t s
  | .vxor t => Sys2Proof.Machine.execVxor t s
  | .vandn t => Sys2Proof.Machine.execVandn t s
  | .vcmpeqB t => Sys2Proof.Machine.execVcmpeqB t s
  | .vcmpltuB t => Sys2Proof.Machine.execVcmpltuB t s
  | .vshufB t => Sys2Proof.Machine.execVshufB t s
  | .vsel t => Sys2Proof.Machine.execVsel t s
  | .vshrB t => Sys2Proof.Machine.execVshrB t s
  | .vmsk t => Sys2Proof.Machine.execVmsk t s
  | .vextW t => Sys2Proof.Machine.execVextW t s
  | .vsplatB t => Sys2Proof.Machine.execVsplatB t s
  | .vinsW t => Sys2Proof.Machine.execVinsW t s
  | .vld t => Sys2Proof.Machine.execVld t s
  | .vst t => Sys2Proof.Machine.execVst t s
  | .kround t => Sys2Proof.Machine.execKround t s
  | .tstep t => Sys2Proof.Machine.execTstep t s
  | .topk t => Sys2Proof.Machine.execTopk t s
  | .lsec t => Sys2Proof.Machine.execLsec t s
  | .lsef t => Sys2Proof.Machine.execLsef t s
  | .fadd32 t => Sys2Proof.Machine.execFadd32 t s
  | .fmul32 t => Sys2Proof.Machine.execFmul32 t s
  | .fmax32 t => Sys2Proof.Machine.execFmax32 t s
  | .fexp2 t => Sys2Proof.Machine.execFexp2 t s
  | .frcp t => Sys2Proof.Machine.execFrcp t s
  | .fkey t => Sys2Proof.Machine.execFkey t s
  | .beadClaspAdd t => Sys2Proof.Machine.execBeadClaspAdd t s
  | .beadClaspValRead t => Sys2Proof.Machine.execBeadClaspValRead t s
  | .txStore t => Sys2Proof.Machine.execTxStore t s
  | .rxLoad t => Sys2Proof.Machine.execRxLoad t s
  | .txCfgWrite t => Sys2Proof.Machine.execTxCfgWrite t s
  | .rxCfgWrite t => Sys2Proof.Machine.execRxCfgWrite t s
  | .rxAwait t => Sys2Proof.Machine.execRxAwait t s
  | .barrierArrive t => Sys2Proof.Machine.execBarrierArrive t s
  | .barrierWait t => Sys2Proof.Machine.execBarrierWait t s
  | .barrierRelease p b => Sys2Proof.Machine.execBarrierRelease p b s
  | .frame t => Sys2Proof.Machine.execFrame t s
  | .casketPatrolScrub sl off codeword upset => Sys2Proof.Machine.execCasketPatrolScrub sl off codeword upset s
  | .globalObservation => Sys2Proof.Machine.execGlobalObservation s
  | .cxlCacheReadData line data poison => Sys2Proof.Machine.execCxlCacheReadData line data poison s
  | .perstNDeassert h => Sys2Proof.Machine.execPerstNDeassert h s
  | .tapAccess a => Sys2Proof.Machine.execTapAccess a s
  | .xRstNRelease q => Sys2Proof.Machine.execXRstNRelease q s
  | .advertTimeout q => Sys2Proof.Machine.execAdvertTimeout q s
  | .frameAlignTimeout q => Sys2Proof.Machine.execFrameAlignTimeout q s

end Sys2Proof.Machine
end

