-- ==== Sys2Proof/WellFormed.lean ====
section
/-! DEFINITION. Well-formed commands: every operand that names a unit, a register or a length names one the device has.  A command
that is not well-formed cannot reach the device; exec refuses it by name. -/

namespace Sys2Proof

/-! ### The units of the device (R2, R3, R116, R206, R233, R313, R351, R392, R413) -/

/-- Tiles, 4,608. -/
def isTile (t : Nat) : Bool := decide (t < 4608)

/-- Partitions, 16. -/
def isPart (p : Nat) : Bool := decide (p < 16)

/-- Tether ports, 9, and lanes, 72. -/
def isPort (p : Nat) : Bool := decide (p < 9)
def isLane (l : Nat) : Bool := decide (l < 72)

/-- Sites: four crown sites, then two beside sites. -/
def isSite (q : Nat) : Bool := decide (q < 6)

/-- Channels of a crown site, or modules of a beside site. -/
def sitePaths (q : Nat) : Nat := if q < 4 then 16 else 4

/-- Submission rings, and completion rings, 256 each. -/
def isRing (r : Nat) : Bool := decide (r < 256)

/-- Stacks, setting groups, pseudo-channels and the settings of one group. -/
def isStack (k : Nat) : Bool := decide (k < 8)
def isGroup (n : Nat) : Bool := decide (n < 32)
def isPc (c : Nat) : Bool := decide (c < 512)
def isSetting (st : Nat) : Bool := decide (st < 25165824)

/-- Casket slices, and sealed regions. -/
def isSlice (sl : Nat) : Bool := decide (sl < 576)
def isRegion (r : Nat) : Bool := decide (r < 64)

/-- A byte offset in BAR0. -/
def inBar0 (off : Nat) : Bool := decide (off < 0x4000000)

/-! ### Operands with parts -/

/-- What a setting or a buffer line can meet: a whole setting or none, bytes of the line, two copies. -/
def MemErrors.wf (e : MemErrors) : Bool :=
  (e.stack.isEmpty || (e.stack.length == 16 && e.stack.all (fun b => b.length == 72))) && e.upsets.all (fun u => decide (u.1 < 1024)) &&
    decide (e.copies ≤ 2)

/-- A fault of a router that exists, of a kind that exists. -/
def MeshFault.wf (x : MeshFault) : Bool := decide (x.tile < 4608) && decide (1 ≤ x.kind) && decide (x.kind ≤ 7)

/-- A consumer that exists. -/
def Consumer.wf (c : Consumer) : Bool :=
  match c with
  | .stack _ _ => true
  | .engineBuffer n _ => decide (n < 32)
  | .host _ => true
  | .tether _ => true
  | .beadMemory t memory _ => decide (t < 4608) && decide (memory < 3)
  | .meshWord t chan => decide (t < 4608) && decide (chan < 4)
  | .pendingStore _ _ _ => true
  | .casket p addr _ => decide (p < 16) && decide (addr < 0x12000000)

/-- A transfer of a slab, a partition and a gate that exist. -/
def Transfer.wf (x : Transfer) : Bool :=
  decide (x.slab < 768) && decide (x.part < 16) && (match x.gate with
    | .tether p => decide (p < 9)
    | .site q => decide (q < 6)
    | _ => true)

/-! ### Commands -/

/-- A well-formed command. -/
def Instr.wf (i : Instr) : Bool :=
  match i with
  | .pwrgoodRise b => b.straps.length == 6 && b.straps.all (fun x => decide (x < 4)) && b.hbm.length == 8
  | .pwrgoodFall => true
  | .internalColdRestart b => b.hbm.length == 8
  | .release _ => true
  | .perstNAssert => true
  | .hostLinkReset _ => true
  | .d3hotEntry => true
  | .tickBoundary _ => true
  | .runPhaseStart _ => true
  | .settlePhase _ _ => true
  | .sliceEnd _ _ _ => true
  | .overrunDeadline _ _ => true
  | .pieceStart _ _ => true
  | .specConfirmTimeout _ => true
  | .prefetchConfirmTimeout _ => true
  | .specFaultTimeout _ => true
  | .meshOfferDrop p => isPart p
  | .copy _ => true
  | .fill _ => true
  | .crcgen _ => true
  | .crcverify _ => true
  | .gemm _ _ => true
  | .attend _ _ _ => true
  | .scan _ _ => true
  | .reduce _ _ => true
  | .sfu _ _ => true
  | .slotOpen _ => true
  | .slotClose _ => true
  | .kvWrite _ => true
  | .kvSettle _ => true
  | .launch _ => true
  | .launchStart _ => true
  | .load _ => true
  | .loadStart _ => true
  | .run _ => true
  | .runStart _ => true
  | .frameStart p e => isPart p && e.all MeshFault.wf
  | .unload _ => true
  | .gcmDecrypt _ _ => true
  | .gcmEncrypt _ _ => true
  | .xtsDecrypt _ _ => true
  | .xtsEncrypt _ _ => true
  | .hash _ => true
  | .releaseDescriptor _ => true
  | .scatterAdd _ => true
  | .repair _ => true
  | .repairDone _ _ => true
  | .mapOut _ => true
  | .rwrite _ => true
  | .rread _ => true
  | .radd _ => true
  | .rsignal _ => true
  | .nop _ => true
  | .claspSet _ => true
  | .invalidate _ => true
  | .collectiveHint _ => true
  | .hintExpiry p => isPart p
  | .levelSet => true
  | .cfgReportRead => true
  | .partSet => true
  | .partEnable => true
  | .warmReset => true
  | .warmResetBegin _ => true
  | .warmResetRelease _ => true
  | .xlatInvalidate => true
  | .priRestart => true
  | .tetherFabricSet => true
  | .tetherRouteSet => true
  | .tetherPortDisable => true
  | .tetherPortEnable => true
  | .tetherPortRetrain => true
  | .tetherPortSetFarLoop => true
  | .tetherLoopback => true
  | .loopbackEnd p r => isPort p && r.length == 8
  | .tetherLeave => true
  | .siteDisable => true
  | .siteEnable => true
  | .siteRetrain => true
  | .siteUnfence => true
  | .siteGrant => true
  | .siteBezelSet => true
  | .siteBezelRead => true
  | .locketOwnerLoad => true
  | .locketImportNonce => true
  | .locketKeyImport => true
  | .locketKeyErase => true
  | .locketKemPublic => true
  | .locketSeal => true
  | .sealTakeEffect r => isRegion r
  | .locketUnseal => true
  | .unsealZeroDone r => isRegion r
  | .locketAttestSite => true
  | .lcField => true
  | .lcReturn => true
  | .lcScrap => true
  | .instrumentLcTransition goal _ => goal == 1 || goal == 2 || goal == 5
  | .pwrLimitSet => true
  | .pwrCapClear => true
  | .pwrHalfSet => true
  | .pwrIdleSet => true
  | .idleWake mode => decide (mode < 4)
  | .idleExitDone mode => decide (mode < 4)
  | .thermCoolantSet => true
  | .recoveryBegin => true
  | .recoveryChunk => true
  | .recoveryCommit _ => true
  | .recoveryRequest => true
  | .recoveryStatus => true
  | .mboxCmdWrite k _ _ => decide (k.getD 0 < 512)
  | .ringEnable r _ => isRing r
  | .ringDisable r => isRing r
  | .cringEnable c _ => isRing c
  | .cringDisable c => isRing c
  | .cringDrained c => isRing c
  | .evtRingEnable _ => true
  | .evtRingDisable => true
  | .casketOwnWrite sl _ _ => isSlice sl
  | .casketOwnApply sl => isSlice sl
  | .kvrWrite p _ _ _ => isPart p
  | .memRegWrite b _ _ => decide (b < 18)
  | .donorWrite w _ _ => decide (w < 12)
  | .tgStart c _ => isPc c
  | .tgStop c => isPc c
  | .tgDone c r => isPc c && r.seen.all (fun b => b.2.length == 72)
  | .dbgClaimWrite _ => true
  | .hdmDecoderCommit d base size => decide (d < 2) && base % 2 ^ 28 == 0 && size % 2 ^ 28 == 0 && decide (size ≤ 0xC000000000) && decide (base + size ≤ 2 ^ 64)
  | .registerWrite off _ _ => decide (off % 8 = 0) && inBar0 off
  | .bar0UnsupportedAccess off bytes _ => inBar0 off && !((bytes == 4 || bytes == 8) && off % bytes == 0)
  | .cxlMemRead hpa e => hpa % 64 == 0 && decide (hpa < 2 ^ 64) && e.wf
  | .cxlMemWrite hpa _ data => hpa % 64 == 0 && decide (hpa < 2 ^ 64) && data.length == 64
  | .atsInvalidateRequest _ _ => true
  | .invalidationDrained _ => true
  | .translationCompletion _ => true
  | .pageRequestResponse _ _ _ => true
  | .pageRequestTimeout _ => true
  | .doeDiscovery _ => true
  | .cdatRead entry => decide (entry < 2)
  | .spdmGetVersion => true
  | .spdmGetCapabilities => true
  | .spdmNegotiateAlgorithms _ => true
  | .spdmGetDigests => true
  | .spdmGetCertificate _ _ _ => true
  | .spdmChallenge _ _ => true
  | .spdmGetMeasurements _ _ => true
  | .spdmKeyExchange _ => true
  | .spdmFinish _ _ => true
  | .spdmEndSession _ => true
  | .spdmKeyUpdate _ _ => true
  | .spdmHeartbeat _ => true
  | .spdmVendorDefinedRequest _ _ => true
  | .tetherFlit p words => isPort p && words.all (fun w => decide (w.lane < 8) && decide (w.levels < 4 ^ 2720))
  | .tetherReplayTimeout p => isPort p
  | .commaBlock l _ levels => isLane l && decide (levels < 4 ^ 64)
  | .commaLockLoss l => isLane l
  | .trainingFrame l levels _ spacing => isLane l && decide (0 < spacing) && decide (levels < 4 ^ 64)
  | .adaptationTimeout p => isPort p
  | .portBringupTimeout p => isPort p
  | .portRetryTimer p => isPort p
  | .lanesLocked p => isPort p
  | .eqnMeasurement l _ spacing => isLane l && decide (0 < spacing)
  | .hello p => isPort p
  | .join p => isPort p
  | .adopt p => isPort p
  | .syncReqSend _ => true
  | .syncReq p _ _ _ => isPort p
  | .syncRsp p _ _ => isPort p
  | .vote p => isPort p
  | .voteDeadline => true
  | .slowNotice p => isPort p
  | .messageForward p => isPort p
  | .tetherRead p => isPort p
  | .tetherWrite p => isPort p
  | .tetherWritePartial p => isPort p
  | .tetherAdd p => isPort p
  | .tetherSignal p => isPort p
  | .tetherReadData p => isPort p
  | .tetherDone p => isPort p
  | .siteAlert q => isSite q
  | .siteTrainingAttempt q => isSite q
  | .advert q _ => isSite q
  | .lanes q _ => isSite q
  | .laneTestEnd q failing => isSite q && failing.length == sitePaths q
  | .echo q _ => isSite q
  | .echoTimeout q => isSite q
  | .siteTrainingTimeout q => isSite q
  | .siteFrame q ch b => isSite q && decide (ch < sitePaths q) && b.length == 272
  | .siteReplayTimeout q ch => isSite q && decide (ch < sitePaths q)
  | .siteRead q ch => isSite q && decide (ch < sitePaths q)
  | .siteWrite q ch => isSite q && decide (ch < sitePaths q)
  | .siteReadData q ch => isSite q && decide (ch < sitePaths q)
  | .siteDone q ch => isSite q && decide (ch < sitePaths q)
  | .siteAttestPoll q _ => isSite q
  | .siteAttestTimeout q => isSite q
  | .canaryRead c _ => isPc c
  | .stackTempRead k temp => isStack k && decide (temp < 256)
  | .stackRefresh c bank => isPc c && decide (bank < 64)
  | .calibration n pc => isGroup n && pc.all (fun c => decide (c < 16))
  | .scrubRead n st raw => isGroup n && isSetting st && raw.length == 16 && raw.all (fun b => b.length == 72)
  | .stackCommandFailure c kind => isPc c && decide (kind ≤ 3)
  | .holdBudgetExpiry n => isGroup n
  | .retrainAttemptEnd n _ => isGroup n
  | .rebuildDone n => isGroup n
  | .leakPeriod => true
  | .stormWindowEnd b => decide (b < 34)
  | .wcbWriteback n st e => isGroup n && isSetting st && e.wf
  | .granuleFillDone g => decide (g < 12582912)
  | .uncorrectableConsumed c => c.wf
  | .partitionReset p _ => isPart p
  | .controlPlaneUncorrectable => true
  | .evacuationSlabDone n bad => isGroup n && bad.all isSetting
  | .pmbusPoll r => r.length == 4
  | .setpointReached rail => decide (rail < 2)
  | .setpointTimeout rail => decide (rail < 2)
  | .throttleRecoveryStep => true
  | .droopTrip region _ => decide (region < 8)
  | .droopStretchEnd half _ => decide (half < 2)
  | .persistentDroop half _ => decide (half < 2)
  | .vrAlert => true
  | .vrAlertRelease => true
  | .junctionSensorRead t => t.length == 96
  | .hardwiredTrip => true
  | .ballastWindow => true
  | .stackDeferralEnd k => isStack k
  | .cattrip k => isStack k
  | .entropyHealthFail test => test == 1 || test == 2
  | .lockstepMismatch => true
  | .refclkLoss => true
  | .oscillatorCheck a b => decide (-32768 ≤ a) && decide (a < 32768) && decide (-32768 ≤ b) && decide (b < 32768)
  | .supplyComparator rail _ _ => decide (rail < 4)
  | .egressTransfer x => x.wf
  | .copyCompare => true
  | .latentTest test _ => decide (test < 12)
  | .watchdogExpiry => true
  | .faultNReadback _ => true
  | .integerOp t => isTile t
  | .branch t => isTile t
  | .jump t => isTile t
  | .beadLoad t _ => isTile t
  | .beadStore t _ => isTile t
  | .mul t => isTile t
  | .div t => isTile t
  | .csrAccess t => isTile t
  | .fence t => isTile t
  | .ecall t => isTile t
  | .ebreak t => isTile t
  | .mret t => isTile t
  | .wfi t => isTile t
  | .wfiWake t => isTile t
  | .illegalInstruction t => isTile t
  | .vaddB t => isTile t
  | .vsubB t => isTile t
  | .vaddsuB t => isTile t
  | .vsubsuB t => isTile t
  | .vminuB t => isTile t
  | .vmaxuB t => isTile t
  | .vand t => isTile t
  | .vor t => isTile t
  | .vxor t => isTile t
  | .vandn t => isTile t
  | .vcmpeqB t => isTile t
  | .vcmpltuB t => isTile t
  | .vshufB t => isTile t
  | .vsel t => isTile t
  | .vshrB t => isTile t
  | .vmsk t => isTile t
  | .vextW t => isTile t
  | .vsplatB t => isTile t
  | .vinsW t => isTile t
  | .vld t => isTile t
  | .vst t => isTile t
  | .kround t => isTile t
  | .tstep t => isTile t
  | .topk t => isTile t
  | .lsec t => isTile t
  | .lsef t => isTile t
  | .fadd32 t => isTile t
  | .fmul32 t => isTile t
  | .fmax32 t => isTile t
  | .fexp2 t => isTile t
  | .frcp t => isTile t
  | .fkey t => isTile t
  | .beadClaspAdd t => isTile t
  | .beadClaspValRead t => isTile t
  | .txStore t => isTile t
  | .rxLoad t => isTile t
  | .txCfgWrite t => isTile t
  | .rxCfgWrite t => isTile t
  | .rxAwait t => isTile t
  | .barrierArrive t => isTile t
  | .barrierWait t => isTile t
  | .barrierRelease p b => isPart p && decide (b < 16)
  | .frame t => isTile t
  | .casketPatrolScrub sl off _ upset => isSlice sl && decide (off < 0x80000) && upset.all (fun u => decide (u.1 < 0x12000000))
  | .globalObservation => true
  | .cxlCacheReadData _ data _ => data.length == 64
  | .perstNDeassert _ => true
  | .tapAccess _ => true
  | .xRstNRelease q => isSite q
  | .advertTimeout q => isSite q
  | .frameAlignTimeout q => isSite q

end Sys2Proof
end

