-- ==== Sys2Proof/Safety.lean ====
section
/-! DEFINITION. The terms statements are made in: outcomes, the components of the state and what a command leaves alone, a mailbox
command that runs, what a byte reads as, and the invariants of a run. -/

namespace Sys2Proof.Machine

/-! ### Outcomes -/

/-- The outcome is a next state. -/
def completes (o : Host.Outcome State Fault Refusal) : Prop := ∃ t, o = .next t

/-- The outcome is a next state of which `P` holds. -/
def completesWith (o : Host.Outcome State Fault Refusal) (P : State → Prop) : Prop := ∃ t, o = .next t ∧ P t

/-- The outcome is a refusal of an ill-formed command. -/
def refusedIllFormed (o : Host.Outcome State Fault Refusal) : Prop := ∃ m, o = .refused (.illFormed m)

/-! ### Frames -/

/-- The components of the state that a command can change; the queue is the step's own. -/
inductive Comp where
  | tick | ctl | host | work | clasps | evt | mbox | xlat | sail | casket | mem | care | tiles | mesh | locket | tether | pwr
  | therm | keel | dbg | sites | out | free
  deriving DecidableEq, Repr

/-- The component is the same in both states. -/
def Comp.same (c : Comp) (s t : State) : Prop :=
  match c with
  | .tick => t.tick = s.tick
  | .ctl => t.ctl = s.ctl
  | .host => t.host = s.host
  | .work => t.work = s.work
  | .clasps => t.clasps = s.clasps
  | .evt => t.evt = s.evt
  | .mbox => t.mbox = s.mbox
  | .xlat => t.xlat = s.xlat
  | .sail => t.sail = s.sail
  | .casket => t.casket = s.casket
  | .mem => t.mem = s.mem
  | .care => t.care = s.care
  | .tiles => t.tiles = s.tiles
  | .mesh => t.mesh = s.mesh
  | .locket => t.locket = s.locket
  | .tether => t.tether = s.tether
  | .pwr => t.pwr = s.pwr
  | .therm => t.therm = s.therm
  | .keel => t.keel = s.keel
  | .dbg => t.dbg = s.dbg
  | .sites => t.sites = s.sites
  | .out => t.out = s.out
  | .free => t.free = s.free

/-- Every component but those listed is unchanged, and so is the queue. -/
def unchangedBut (cs : List Comp) (s t : State) : Prop := (∀ c, c ∉ cs → c.same s t) ∧ t.pending = s.pending

/-! ### The mailbox -/

/-- The mailbox runs a command of this opcode with this payload, in a state and a life-cycle state that serve it (R307, R439). -/
def State.mboxRuns (s : State) (op : Nat) (b : Bytes) : Prop :=
  ∃ c, s.mbox.busy = some c ∧ c.opcode = op ∧ c.payload = b ∧ s.mailboxClosed op = false ∧ s.locket.lc ≤ 5

/-- The running command has ended: its result and its output wait for their Settle phase (R306). -/
def State.mboxEnded (s : State) (code : Nat) (out : Bytes) : Prop := s.mbox.busy = none ∧ s.mbox.ready = some ⟨code, out⟩

/-! ### Descriptors -/

/-- Flight `f`, which was `x`, has ended with this status and detail and completes in the Settle phase R338 gives it, with nothing of it
pinned; every other flight is as it was. -/
def endedWith (s t : State) (f : Nat) (x : Flight) (status dt : Nat) : Prop :=
  (∃ y, t.flight f = some y ∧ y.worked = true ∧ y.status = status ∧ y.detail = dt ∧ y.state = .ended ∧
    y.settleAt = some s.settleTick ∧ y.desc = x.desc ∧ ∀ z, z ∈ y.strands → z.state = .ended ∧ z.pinned = false) ∧
  ∀ g, g ≠ f → t.flight g = s.flight g

/-- The work of flight `f`, which was `x`, has been done with this status, unless a site ended it first (R409); its slice goes on to
its SLICE_END. -/
def workedWith (t : State) (f : Nat) (x : Flight) (status : Nat) : Prop :=
  ∃ y, t.flight f = some y ∧ y.worked = true ∧ y.status = orStatus x.status status ∧ y.desc = x.desc ∧ y.state = x.state

/-- The running piece of flight `f`'s one strand, which was `x`'s, has been worked: with the last of the `n` pieces the work is done with
this status, else the next piece is due (R61). -/
def pieceWorked (t : State) (f : Nat) (x : Flight) (n status : Nat) : Prop :=
  ∃ y, t.flight f = some y ∧ y.desc = x.desc ∧ y.state = x.state ∧
    if (x.strand 0).piece + 1 = n then y.worked = true ∧ y.status = orStatus x.status status
    else y.worked = false ∧ y.status = x.status ∧ (y.strand 0).piece = (x.strand 0).piece + 1

/-- From `a` on, the Casket holds these bytes, all of them good (R208). -/
def casketHolds (t : State) (a : Nat) (bs : Bytes) : Prop :=
  ∀ i, i < bs.length → SMap.get 0 t.casket.bytes (a + i) = bs.getD i 0 ∧ SMap.get false t.casket.bad (a + i) = false

/-- Outside [a, a + n) the Casket is as it was. -/
def casketSameOutside (s t : State) (a n : Nat) : Prop :=
  ∀ i, (i < a ∨ a + n ≤ i) →
    SMap.get 0 t.casket.bytes i = SMap.get 0 s.casket.bytes i ∧ SMap.get false t.casket.bad i = SMap.get false s.casket.bad i

/-- The contents of the stacks and of the Casket are in canonical form. -/
def State.memoryCanonical (s : State) : Bool := s.mem.wf && SMap.wf 0 s.casket.bytes && SMap.wf false s.casket.bad

/-! ### The safe state, the Locket, the sites -/

/-- The safe state entered with this cause: latched as the first cause, FAULT_N driven, cooling at full duty, keys gone (R475, R476). -/
def safeWith (c : Nat) (t : State) : Prop :=
  t.keel.safe = true ∧ t.keel.first = c ∧ t.keel.mask = 2 ^ c ∧ t.therm.fault = true ∧ t.therm.duty = 0xFF ∧ t.locket.keys = []

/-- Flight `f` is due to run chunk `c` of the Locket opcode `op`, from the Casket to the Casket; nothing of it was poison so far, and no byte
of the chunk is. -/
def chunkRuns (s : State) (f op : Nat) (x : Flight) (c : Nat) : Prop :=
  s.working f 0 (0x50000 + op) = some x ∧ dOpcode x.desc = op ∧ kSrcSpace x.desc = 1 ∧ kDstSpace x.desc = 1 ∧ (x.strand 0).piece = c ∧
  c < kChunks x.desc ∧ x.detail % 2 = 0 ∧ s.casket.errs = [] ∧
  ∀ b, b ∈ s.readCasket (kFrom x.desc + (chunkFrom x.desc c).1) (chunkFrom x.desc c).2 → b.2 = false

/-- The source bytes of chunk `c`, in the Casket. -/
def chunkData (s : State) (x : Flight) (c : Nat) : Bytes :=
  plain (s.readCasket (kFrom x.desc + (chunkFrom x.desc c).1) (chunkFrom x.desc c).2)

/-- A discovery message for a site of this kind, with a good CRC (R397). -/
def discGood (m : Bytes) (kind : Nat) : Prop := discCrcOk m = true ∧ byteAt m 0 = 1 ∧ byteAt m 1 = kind

/-! ### Bead cores -/

/-- Tile `n` has become `y`; the other tiles and everything else are as they were. -/
def tileBecomes (s u : State) (n : Nat) (y : Tile) : Prop :=
  u.tile n = y ∧ (∀ m, m ≠ n → u.tile m = s.tile m) ∧ unchangedBut [.tiles] s u

/-- A core whose instruction has completed: its next pc, and the cycles the instruction took (Table 4.1). -/
def Tile.stepped (x : Tile) (pc cycles : Nat) : Tile :=
  { x with pc := BitVec.ofNat 32 pc, cycle := x.cycle + cycles, instret := x.instret + 1 }

/-- A core that has taken a trap to its handler (R155). -/
def Tile.trapped (x : Tile) (cause tval : Nat) : Tile :=
  { x with mepc := x.pc, mcause := BitVec.ofNat 32 cause, mtval := BitVec.ofNat 32 tval, trapActive := true, pc := x.mtvec
           cycle := x.cycle + 4 }

/-- The core of tile `n` executes now: it runs, does not stall, and the mesh is in step with it. -/
def State.coreRuns (s : State) (n : Nat) : Prop :=
  n < 4608 ∧ (s.tile n).state = 2 ∧ (s.tile n).stall = .none ∧ (s.tile n).coreFenced = false ∧ s.ahead n = false

/-- Tile `n` as the instruction at its pc finds it: what has arrived in its DMEM is there, and single-bit errors of the fetched words are
corrected (R118, R164). -/
def State.core (s : State) (n : Nat) : Tile :=
  let x := (s.tile n).land (s.tile n).cycle
  match x.fetch with
  | .inl (_, _, len) => x.heedWords (wordsMet x.pc.toNat len)
  | .inr _ => x

/-- The core of tile `n` executes now, and instruction `i`, of bits `w` and `len` bytes, stands at its pc, in words that IMEM returns. -/
def State.beadAt (s : State) (n : Nat) (i : BeadInstr) (w len : Nat) : Prop :=
  s.coreRuns n ∧ (s.core n).fetch = .inl (i, w, len) ∧
  ∀ q, q ∈ wordsMet (s.core n).pc.toNat len → SMap.get false (s.core n).imemBad q = false

/-- The outcome is the state in which tile `n` has become `y`; with the program of a RUN the mesh then goes on as far as the cores
let it. -/
def beadDone (o : Host.Outcome State Fault Refusal) (s : State) (n : Nat) (y : Tile) : Prop :=
  ∃ u, tileBecomes s u n y ∧ o = .next (if y.inRun then u.advance y.progPart else u)

/-- The core of tile `n` has executed the vector–vector operation with funct7 `f`, in one cycle (Table 4.5). -/
def vvDone (o : Host.Outcome State Fault Refusal) (s : State) (n f vd vs1 vs2 len : Nat) : Prop :=
  beadDone o s n (((s.core n).setVreg vd (vvOp f ((s.core n).vreg vd) ((s.core n).vreg vs1) ((s.core n).vreg vs2))).stepped
    ((s.core n).next len) 1)

/-- The core of tile `n` has executed the scalar FP32 operation with funct7 `f`, in so many cycles (Table 4.9). -/
def fpDone (o : Host.Outcome State Fault Refusal) (s : State) (n f cycles rd rs1 rs2 len : Nat) : Prop :=
  beadDone o s n (((s.core n).setReg rd (fpOp f ((s.core n).reg rs1) ((s.core n).reg rs2))).stepped ((s.core n).next len) cycles)

/-- Tile `n` can take a trap to its handler (R155). -/
def State.canTrap (s : State) (n : Nat) : Prop := (s.tile n).mtvec ≠ 0 ∧ (s.tile n).trapActive = false

end Sys2Proof.Machine
end

