-- ==== Sys2Proof/Certificates/Slice0/Obligations.lean ====
section
/-! DEFINITION. The statements for the provers: what the spec's rules say that the commands and the block do. -/

open Sys2Proof Sys2Proof.Machine

/-! ### The block as a whole -/

/-- A step runs the command at the front of the queue on the state with the queue's rest; on an empty queue an edge of REFCLK
passes. -/
def Obligations.AStepRunsTheFrontCommand : Prop :=
  (∀ s c rest, s.pending = c :: rest → step s = exec c { s with pending := rest }) ∧
  (∀ s, s.pending = [] → step s = .next s.edge)

/-- Every well-formed command completes in every state, and one that is not well-formed is refused by name. -/
def Obligations.WellFormedCommandsComplete : Prop :=
  ∀ (i : Instr) (s : State), (i.wf = true → completes (exec i s)) ∧ (i.wf = false → refusedIllFormed (exec i s))

/-- No command touches the queue of the commands that wait: a step takes the front and leaves the rest in order. -/
def Obligations.StepsTakeOneCommand : Prop :=
  ∀ s t, step s = .next t → t.pending = s.pending.tail

/-- Every step keeps the contents of the stacks and of the Casket in canonical form, so that equal memories are equal data. -/
def Obligations.StepsKeepMemoryCanonical : Prop :=
  ∀ s t, s.memoryCanonical = true → step s = .next t → t.memoryCanonical = true

/-- Every step leaves the life-cycle state alone or makes one of the transitions of Table 13.8; no other transition exists (R436). -/
def Obligations.LifeCycleTransitions : Prop :=
  ∀ s t, step s = .next t →
    t.locket.lc = s.locket.lc ∨
    (s.locket.lc, t.locket.lc) ∈ [(0, 1), (1, 2), (2, 3), (2, 4), (3, 4), (0, 5), (1, 5), (2, 5), (3, 5), (4, 5)]

/-- The safe state ends only at a cold restart: no step but a fall or a rise of PWRGOOD or an internal cold restart leaves it (R477). -/
def Obligations.TheSafeStateStays : Prop :=
  ∀ s t, step s = .next t → s.keel.safe = true →
    (∀ b, s.pending.head? ≠ some (.pwrgoodRise b)) → s.pending.head? ≠ some .pwrgoodFall →
    (∀ b, s.pending.head? ≠ some (.internalColdRestart b)) →
    t.keel.safe = true

/-- The state before power: memory is in canonical form, nothing waits, the counters are 0, no key, clasp or sealed region is held,
COOL_DEMAND stands at full duty. -/
def Obligations.TheStateBeforePower : Prop :=
  State.reset.memoryCanonical = true ∧ State.reset.pending = [] ∧ State.reset.tick.time = 0 ∧ State.reset.tick.count = 0 ∧
  State.reset.ctl.pwrgood = false ∧ State.reset.ctl.released = false ∧ State.reset.locket.keys = [] ∧
  State.reset.locket.regions = [] ∧ (∀ k, State.reset.clasp k = 0) ∧ State.reset.therm.duty = 255 ∧ State.reset.keel.safe = false ∧
  State.reset.host.linkUp = false ∧ (∀ p, (State.reset.port p).state = 0) ∧ (∀ n, (State.reset.tile n).state = 0)

/-- An exact zero sum is -0 only if every addend is -0, and +0 otherwise; the sign of a product is the exclusive-or of the signs
(R55). -/
def Obligations.SignsOfZeroSumsAndProducts : Prop :=
  (∀ vs n e, sumExact vs = .fin n 0 e → (n = true ↔ ∀ v, v ∈ vs → ∃ k, v = .fin true 0 k)) ∧
  (∀ a b : FVal, (a.mul b).isNaN = false → (a.mul b).neg? = (a.neg? != b.neg?))

/-! ### Registers of the host blocks -/

/-- A write that enables a submission ring takes its fields and starts it afresh; one that disables it clears enable.
A completion ring in state 0 is started afresh with its tail written to its cell, is drained when it is disabled, and is disabled
once it has drained; the event ring likewise takes its fields, and stops. -/
def Obligations.RingControl : Prop :=
  ((∀ s r v, s.regOpen = true → r < 256 → (s.ring r).enable = false →
     completesWith (exec (.ringEnable r v) s) fun t =>
       t.ring r = { s.ring r with
         enable := true, fresh := true, partition := bits (v.toNat ||| 1) 11 8
         sizeLog2 := clampNat 6 16 (bits (v.toNat ||| 1) 20 16), cring := bits (v.toNat ||| 1) 31 24 } ∧
       (∀ q, q ≠ r → t.ring q = s.ring q) ∧ t.work.crings = s.work.crings ∧ t.work.flights = s.work.flights ∧
       unchangedBut [.work] s t) ∧
   (∀ s r, s.regOpen = true → r < 256 →
     completesWith (exec (.ringDisable r) s) fun t =>
       t.ring r = { s.ring r with enable := false, fresh := false } ∧
       (∀ q, q ≠ r → t.ring q = s.ring q) ∧ t.work.crings = s.work.crings ∧ t.work.flights = s.work.flights ∧
       unchangedBut [.work] s t)) ∧
  ((∀ s c v, s.regOpen = true → c < 256 → (s.cring c).state = 0 →
     completesWith (exec (.cringEnable c v) s) fun t =>
       t.cring c = { s.cring c with
         enable := true, partition := bits (v.toNat ||| 1) 11 8, sizeLog2 := clampNat 6 16 (bits (v.toNat ||| 1) 20 16)
         state := 1, written := 0, held := 0, head := 0, sampled := false } ∧
       (∀ q, q ≠ c → t.cring q = s.cring q) ∧
       t.host.writes = s.host.writes ++ [.byVa (s.part (bits (v.toNat ||| 1) 11 8)).pasid ((s.cring c).cell + 64) (natLe 4 0)
         (.completionRing c)] ∧
       unchangedBut [.work, .host] s t) ∧
   (∀ s c, s.regOpen = true → c < 256 → (s.cring c).state = 1 →
     completesWith (exec (.cringDisable c) s) fun t =>
       t.cring c = { s.cring c with enable := false, state := 2 } ∧ (∀ q, q ≠ c → t.cring q = s.cring q) ∧
       unchangedBut [.work] s t) ∧
   (∀ s c, c < 256 → (s.cring c).state = 2 → (s.cring c).held = 0 →
     (∀ e, e ∈ s.work.rings → e.2.cring = c → e.2.enable = false ∧ e.2.state = 0) →
     completesWith (exec (.cringDrained c) s) fun t =>
       t.cring c = { s.cring c with state := 0 } ∧ (∀ q, q ≠ c → t.cring q = s.cring q) ∧ unchangedBut [.work] s t) ∧
   (∀ s v, s.regOpen = true → s.evt.enable = false →
     completesWith (exec (.evtRingEnable v) s) fun t =>
       t.evt = { s.evt with
         enable := true, running := false, pasid := bits (v.toNat ||| 1) 51 32
         sizeLog2 := clampNat 6 16 (bits (v.toNat ||| 1) 20 16) } ∧
       unchangedBut [.evt] s t) ∧
   (∀ s, s.regOpen = true →
     exec .evtRingDisable s = .next { s with evt := { s.evt with enable := false } }))

/-- Writes to the memory blocks' registers: a bucket, donor reservations, a KV region's bounds, Casket ownership.
The mailbox stores a write while it is not busy, and drops it while it is (R306).
A 64-bit write through BAR0 acts on the register at its offset: RING.BASE and MEMC.CFG stand for the stored and the clamped
ones; a write in a block that holds no writable register is dropped; before release only TICK.CFG takes one.
An access that is neither an aligned 64-bit nor an aligned 32-bit one completes as an unsupported request and has no effect.
An HDM decoder that is not locked takes its base and size; a locked one keeps them (R301). -/
def Obligations.RegisterWrites : Prop :=
  ((∀ s b v, s.regOpen = true → b < 18 →
     completesWith (exec (.memRegWrite b .full v) s) fun t =>
       (SMap.get {} t.mem.buckets b).rate = v.toNat % 2 ^ 32 ∧ (SMap.get {} t.mem.buckets b).depth = v.toNat / 2 ^ 32 ∧
       (∀ c, c ≠ b → SMap.get {} t.mem.buckets c = SMap.get {} s.mem.buckets c) ∧
       t.mem.bytes = s.mem.bytes ∧ unchangedBut [.mem] s t) ∧
   (∀ s w v, s.regOpen = true → w < 12 →
     completesWith (exec (.donorWrite w .full v) s) fun t =>
       (∀ i, i < 64 → bit (SMap.get 0 t.care.donor w).toNat i =
         if (s.slab (64 * w + i)).hole then bit (SMap.get 0 s.care.donor w).toNat i else bit v.toNat i) ∧
       (∀ u, u ≠ w → SMap.get 0 t.care.donor u = SMap.get 0 s.care.donor u) ∧ unchangedBut [.care] s t) ∧
   (∀ s p limit v, s.regOpen = true → p < 16 → (∀ e, e ∈ s.sail.slots → e.2.partition = p → e.2.state = 0) →
     completesWith (exec (.kvrWrite p limit .full v) s) fun t =>
       SMap.get 0 (if limit then t.sail.kvrLimit else t.sail.kvrBase) p = v.toNat % 2 ^ 57 / 2 ^ 21 * 2 ^ 21 ∧
       (if limit then t.sail.kvrBase = s.sail.kvrBase else t.sail.kvrLimit = s.sail.kvrLimit) ∧
       unchangedBut [.sail] s t) ∧
   (∀ s sl v, s.regOpen = true → sl < 576 →
     completesWith (exec (.casketOwnWrite sl .full v) s) fun t =>
       t.casketOwn sl = { s.casketOwn sl with requested := v.toNat % 2 ^ 48 } ∧
       (∀ q, q ≠ sl → t.casketOwn q = s.casketOwn q) ∧ t.casket.bytes = s.casket.bytes ∧ unchangedBut [.casket] s t)) ∧
  ((∀ s v, s.regOpen = true → s.mbox.state ≠ 1 →
     exec (.mboxCmdWrite none .full v) s = .next { s with mbox := { s.mbox with
       cmdSeq := bits v.toNat 47 32, cmdLength := bits v.toNat 28 16, cmdOpcode := bits v.toNat 15 0 } }) ∧
   (∀ s i v, s.regOpen = true → s.mbox.state ≠ 1 → i < 512 →
     completesWith (exec (.mboxCmdWrite (some i) .full v) s) fun t =>
       SMap.get 0 t.mbox.input i = v ∧ (∀ j, j ≠ i → SMap.get 0 t.mbox.input j = SMap.get 0 s.mbox.input j) ∧
       unchangedBut [.mbox] s t) ∧
   (∀ s k h v, s.mbox.state = 1 → k.getD 0 < 512 → exec (.mboxCmdWrite k h v) s = .next s)) ∧
  ((∀ s r v, s.regOpen = true → r < 256 → (s.ring r).enable = false →
     completesWith (exec (.registerWrite (0x400000 + 0x20 * r) .full v) s) fun t =>
       t.ring r = { s.ring r with base := v.toNat % 2 ^ 57 / 64 * 64 } ∧ (∀ q, q ≠ r → t.ring q = s.ring q) ∧
       t.work.flights = s.work.flights ∧ unchangedBut [.work] s t) ∧
   (∀ s v, s.regOpen = true →
     completesWith (exec (.registerWrite 0xB00000 .full v) s) fun t =>
       t.care.scrubHours = clampNat 1 168 (bits v.toNat 15 8) ∧ t.care.leakMs = clampNat 1 60000 (bits v.toNat 31 16) ∧
       t.care.stormPeriods = clampNat 1 255 (bits v.toNat 47 40) ∧ t.care.donor = s.care.donor ∧ unchangedBut [.care] s t) ∧
   (∀ s off h v, s.regOpen = true → off % 8 = 0 → off < 0x4000000 →
     off / 0x100000 ∉ [4, 6, 7, 9, 10, 11, 12, 19, 20, 21] → exec (.registerWrite off h v) s = .next s) ∧
   (∀ s v, s.ctl.pwrgood = true → s.ctl.released = false → s.host.linkUp = true →
     completesWith (exec (.registerWrite 0x200000 .full v) s) fun t =>
       t.tick = { s.tick with periodUs := clampNat 2 1000 (bits v.toNat 9 0), overrunPct := min 25 (bits v.toNat 20 16) } ∧
       unchangedBut [.tick, .ctl] s t) ∧
   (∀ s off h v, s.regOpen = false → off ≠ 0x200000 → off % 8 = 0 → off < 0x4000000 →
     exec (.registerWrite off h v) s = .next s)) ∧
  (∀ s off bytes w, off < 0x4000000 → ¬ ((bytes = 4 ∨ bytes = 8) ∧ off % bytes = 0) → s.host.linkUp = true →
     exec (.bar0UnsupportedAccess off bytes w) s = .next { s with out := s.out ++ [.unsupportedRequest off] }) ∧
  (∀ s d base size, d < 2 → base % 2 ^ 28 = 0 → size % 2 ^ 28 = 0 → size ≤ 0xC000000000 → base + size ≤ 2 ^ 64 →
     completesWith (exec (.hdmDecoderCommit d base size) s) fun t =>
       t.host.hdm0 = (if d = 0 then some (s.host.hdm0.getD (base, size)) else s.host.hdm0) ∧
       t.host.hdm1 = (if d = 1 then some (s.host.hdm1.getD (base, size)) else s.host.hdm1) ∧
       t.host.writes = s.host.writes ∧ t.host.cfg = s.host.cfg ∧ unchangedBut [.host] s t)

/-- The PART commands of the mailbox: a partition's rings are scanned or not from its PART_ENABLE on; a PART_SET that meets no
conflict waits for the Settle phase that commits its result (R310, R311). -/
def Obligations.PartitionCommands : Prop :=
  (∀ s b, s.mboxRuns 0x31 b → b.length = 8 → byteAt b 0 < 16 → byteAt b 1 < 2 → (∀ i, 2 ≤ i → i < 8 → byteAt b i = 0) →
    completesWith (exec .partEnable s) fun t =>
      t.part (byteAt b 0) = { s.part (byteAt b 0) with enabled := byteAt b 1 == 1 } ∧
      (∀ p, p ≠ byteAt b 0 → t.part p = s.part p) ∧ t.mboxEnded 0 [] ∧ unchangedBut [.work, .mbox] s t) ∧
  (∀ s b, s.mboxRuns 0x30 b → b.length = 640 → byteAt b 0 = 1 → firstFail (partSetChecks b) = none →
    (s.part (byteAt b 1)).enabled = false → (∀ x, x ∈ s.work.flights → x.part ≠ byteAt b 1) → s.partConflict b = none →
    completesWith (exec .partSet s) fun t =>
      t.mbox.partSet = some b ∧ t.mboxEnded 0 [] ∧ unchangedBut [.mbox] s t)

/-! ### Descriptors: control, movers, Sail, caches -/

/-- A NOP that is eligible ends at once with status 0x00 and changes nothing else; a CLASP_SET so ended changes its clasp by its mode in the
Settle phase that completes it (R323).
A CLASP_SET's effect is taken when its Settle phase commits: the value, the sum or the cleared error flag (R322, R323). -/
def Obligations.ControlDescriptorsAndClasps : Prop :=
  ((∀ s f x, s.controlReady f 0x80001 = some x →
     completesWith (exec (.nop f) s) fun t => endedWith s t f x 0 0 ∧ unchangedBut [.work, .xlat] s t) ∧
   (∀ s f x, s.controlReady f 0x80002 = some x →
     completesWith (exec (.claspSet f) s) fun t => endedWith s t f x 0 0 ∧ unchangedBut [.work, .xlat] s t ∧
       ∃ y, t.flight f = some y ∧
         SMap.get 0 (applySets t.clasps.committed (setsOf [y])) (fieldLe x.desc 32 4) =
           claspSet (s.clasp (fieldLe x.desc 32 4)) (byteAt x.desc 36) (fieldLe x.desc 40 8) ∧
         ∀ k, k ≠ fieldLe x.desc 32 4 → SMap.get 0 (applySets t.clasps.committed (setsOf [y])) k = s.clasp k)) ∧
  ((∀ v x, claspSet v 0 x = x % 2 ^ 64) ∧
   (∀ v x, v < 2 ^ 64 → claspCount (claspSet v 1 x) = min (claspCount v + claspCount x) (2 ^ 63 - 1)) ∧
   (∀ v x, claspCount (claspSet v 2 x) = claspCount v ∧ claspError (claspSet v 2 x) = false) ∧
   (∀ v add e, v < 2 ^ 64 → claspCount (claspSignal v add e) = min (claspCount v + add) (2 ^ 63 - 1) ∧
     claspError (claspSignal v add e) = (claspError v || e)) ∧
   (∀ m g, SMap.get 0 (applySignals m [g]) g.clasp = claspSignal (SMap.get 0 m g.clasp) g.add g.error) ∧
   (∀ m gs k, (∀ g, g ∈ gs → g.clasp ≠ k) → SMap.get 0 (applySignals m gs) k = SMap.get 0 m k))

/-- One piece of a FILL puts its pattern, repeated from the descriptor's address on, in the Casket; one of a COPY puts the bytes of its source
there, with status 0x01 at its last piece if one was poisoned; nothing else of the Casket changes (R221, R224).
One piece of a CRCGEN stores the checksum of its Casket block; one of a CRCVERIFY passes a block that matches its entry, and stops with
status 0x09 at one that does not (R215, R221). -/
def Obligations.MoverDescriptors : Prop :=
  ((∀ s f x a n, s.working f 0 0x10002 = some x → linSpace x.desc = 1 → bit (byteAt x.desc 33) 1 = false →
     (linPieces x.desc)[(x.strand 0).piece]? = some (a, n) →
     completesWith (exec (.fill f) s) fun t =>
       (∀ i, i < n → SMap.get 0 t.casket.bytes (a + i) = x.desc.getD (56 + (a - linAddr x.desc + i) % 8) 0 ∧
         SMap.get false t.casket.bad (a + i) = false) ∧
       casketSameOutside s t a n ∧ pieceWorked t f x (linPieces x.desc).length 0 ∧
       unchangedBut [.work, .casket, .tick, .xlat] s t) ∧
   (∀ s f x a b n, s.working f 0 0x10001 = some x → copySrcSpace x.desc = 1 → copyDstSpace x.desc = 1 →
     copySrcCheck x.desc = false → copyDstGen x.desc = false → dSpeculative x.desc = false →
     (copyPieces x.desc)[(x.strand 0).piece]? = some [(a, b, n)] → s.copyOverlaps x.part x.desc = false → s.casket.errs = [] →
     completesWith (exec (.copy f) s) fun t =>
       (∀ i, i < n → SMap.get 0 t.casket.bytes (b + i) = SMap.get 0 s.casket.bytes (a + i)) ∧
       casketSameOutside s t b n ∧
       pieceWorked t f x (copyPieces x.desc).length (flag (x.detail % 2 == 1 || poisoned (s.readCasket a n))) ∧
       unchangedBut [.work, .casket, .evt, .tick, .xlat] s t)) ∧
  ((∀ s f x a n, s.working f 0 0x10003 = some x → linSpace x.desc = 1 → (linPieces x.desc)[(x.strand 0).piece]? = some (a, n) →
     s.casket.errs = [] → x.detail % 2 = 0 → (∀ b, b ∈ s.readCasket a n → b.2 = false) →
     completesWith (exec (.crcgen f) s) fun t =>
       SMap.get none t.casket.side (a / 4096) = some (crc64 (plain (s.readCasket a 4096))) ∧
       (∀ b, b ≠ a / 4096 → SMap.get none t.casket.side b = SMap.get none s.casket.side b) ∧
       t.casket.bytes = s.casket.bytes ∧ pieceWorked t f x (linPieces x.desc).length 0 ∧
       unchangedBut [.work, .casket, .tick, .xlat] s t) ∧
   (∀ s f x a n, s.working f 0 0x10004 = some x → linSpace x.desc = 1 → (linPieces x.desc)[(x.strand 0).piece]? = some (a, n) →
     s.casket.errs = [] → x.detail % 2 = 0 → (∀ b, b ∈ s.readCasket a 4096 → b.2 = false) →
     SMap.get none s.casket.side (a / 4096) = some (crc64 (plain (s.readCasket a 4096))) →
     completesWith (exec (.crcverify f) s) fun t =>
       t.casket.bytes = s.casket.bytes ∧ t.casket.side = s.casket.side ∧ pieceWorked t f x (linPieces x.desc).length 0 ∧
       unchangedBut [.work, .casket, .tick, .xlat] s t) ∧
   (∀ s f x a n, s.working f 0 0x10004 = some x → linSpace x.desc = 1 → (linPieces x.desc)[(x.strand 0).piece]? = some (a, n) →
     s.casket.errs = [] → SMap.get none s.casket.side (a / 4096) ≠ some (crc64 (plain (s.readCasket a 4096))) →
     completesWith (exec (.crcverify f) s) fun t =>
       workedWith t f x 9 ∧ t.casket.bytes = s.casket.bytes ∧ unchangedBut [.work, .casket, .evt] s t))

/-- One piece of a Sail descriptor whose operands are there is worked with status 0x00; an output that lies in one stretch of the Casket,
apart from the inputs, takes the bytes that the arithmetic of its chapter gives (R61, R63, R65, R67, R71, R73). -/
def Obligations.SailDescriptorsWriteTheirResults : Prop :=
  (∀ s f x s1 a n k, s.working f 0 0x20001 = some x → (x.strand 0).piece = k →
    s.fetch x 0 (gemmTileIns x.desc k) [gemmTileD x.desc k] ((List.range k).map (gemmTileD x.desc)) [] = .go s1 →
    s1.opndPlaces x.part (gemmTileD x.desc k) = some [(.casket a, n)] →
    s.opndsOverlap x.part [gemmD x.desc] (gemmApart x.desc) = false →
    completesWith (exec (.gemm f []) s) fun t =>
      casketHolds t a ((gemmRows x.desc (gemmTile x.desc k).2.1 (gemmTile x.desc k).2.2.2 (s.opndRows x.part (gemmTileA x.desc k))
        (s.opndRows x.part (gemmTileB x.desc k)) (s.opndRows x.part (gemmTileC x.desc k)) (s.opndRows x.part (gemmTileAS x.desc k))
        (s.opndRows x.part (gemmTileBS x.desc k))).1.flatten.take n) ∧
      casketSameOutside s1 t a n ∧ pieceWorked t f x (gemmPieces x.desc) 0 ∧ t.mem = s1.mem ∧ t.tiles = s1.tiles) ∧
  (∀ s f x s1 a n k, s.working f 0 0x20004 = some x → (x.strand 0).piece = k →
    s.fetch x 0 (reduceTileIns x.desc k) [reduceTileOut x.desc k] ((List.range k).map (reduceTileOut x.desc)) [] = .go s1 →
    s1.opndPlaces x.part (reduceTileOut x.desc k) = some [(.casket a, n)] →
    s.opndsOverlap x.part [reduceOut x.desc] (reduceApart x.desc) = false →
    completesWith (exec (.reduce f []) s) fun t =>
      casketHolds t a ((reduceRows x.desc (reduceTile x.desc k).2
        ((reduceTileIns x.desc k).map (fun o => (s.opndRows x.part o).flatten))).1.take n) ∧
      casketSameOutside s1 t a n ∧ pieceWorked t f x (reducePieces x.desc) 0 ∧ t.mem = s1.mem ∧ t.tiles = s1.tiles) ∧
  (∀ s f x s1 a n k q, s.working f 0 0x20005 = some x → fOut x.desc ≤ 4 → (x.strand 0).piece = k → sfuParts x.desc k = [q] →
    s.fetch x 0 (sfuTileIns x.desc k) (sfuTileOuts x.desc k) (((List.range k).map (sfuTileOuts x.desc)).flatten) [] = .go s1 →
    s1.opndPlaces x.part (sfuPartY x.desc q) = some [(.casket a, n)] →
    s.opndsOverlap x.part (sfuOuts x.desc) (sfuApart x.desc) = false →
    completesWith (exec (.sfu f []) s) fun t =>
      casketHolds t a ((sfuRow x.desc q.2.1 q.2.2 ((s.opndRows x.part (sfuPartX x.desc q)).flatten) []).1.take n) ∧
      casketSameOutside s1 t a n ∧ pieceWorked t f x (sfuPieces x.desc) 0 ∧ t.mem = s1.mem ∧ t.tiles = s1.tiles) ∧
  (∀ s f x s1 a n k, s.working f 0 0x20003 = some x → sMetric x.desc = 0 → bit (sFlags x.desc) 0 = false →
    isMx (sQFmt x.desc) = false → isMx (sTFmt x.desc) = false → (x.strand 0).piece = k → k + 1 = scanPieces x.desc →
    s.fetch x 0 (scanTileIns x.desc k) [scanOut x.desc] [] [] = .go s1 →
    s1.opndPlaces x.part (scanOut x.desc) = some [(.casket a, n)] →
    s.opndsOverlap x.part [scanOut x.desc] (scanIns x.desc) = false →
    completesWith (exec (.scan f []) s) fun t =>
      casketHolds t a ((scanRows x.desc k (s.opndRows x.part (scanQ x.desc)) [] (s.opndRows x.part (scanTileT x.desc k)) [] [] []
        (x.strand 0).blob).1.flatten.take n) ∧
      casketSameOutside s1 t a n ∧ workedWith t f x 0 ∧ t.mem = s1.mem ∧ t.tiles = s1.tiles) ∧
  (∀ s f x s1 k, s.working f 0 0x20003 = some x → (x.strand 0).piece = k → k + 1 < scanPieces x.desc →
    s.fetch x 0 (scanTileIns x.desc k) [] [] [] = .go s1 →
    completesWith (exec (.scan f []) s) fun t =>
      pieceWorked t f x (scanPieces x.desc) 0 ∧ t.casket = s1.casket ∧ t.mem = s1.mem ∧ t.tiles = s1.tiles)

/-- KV_WRITE quantises its tokens and keeps them private until it completes, and then its slot's pencil reaches the last of them; ATTEND takes
one page into its part's records, and keeps its results private too (R92, R93, R102, R105, R106). -/
def Obligations.CacheResultsAreHeld : Prop :=
  (∀ s f x s1 r sm, s.working f 0 0x20008 = some x → (s.slot (dSlot x.desc)).record = r →
    smoothPlaces r (kLayer x.desc) 0 (recH r) = sm →
    s.fetch x 0 [kvSrc x.desc r false, kvSrc x.desc r true] [] [] sm = .go s1 → s.metaBad s1 x 0 sm = none →
    completesWith (exec (.kvWrite f) s) fun t =>
      workedWith t f x 0 ∧ unchangedBut [.work] s1 t ∧ (∀ g, g ≠ f → t.flight g = s1.flight g) ∧
      ∃ y, t.flight f = some y ∧ y.blob = kvTokens x.desc r (plain (s.readPlaces sm)) (s.opndRows x.part (kvSrc x.desc r false))
        (s.opndRows x.part (kvSrc x.desc r true))) ∧
  (∀ (s : State) (x : Flight) sl a, s.slot (dSlot x.desc) = sl → x.status = 0 → sl.len ≤ kPos x.desc → kPos x.desc + kN x.desc - sl.len ≤ 4095 →
    kPos x.desc % recT sl.record = 0 → s.pageEntry sl.record (kLayer x.desc) (kPos x.desc / recT sl.record) = some a →
    s.placed sl (partOf sl.record (kPos x.desc / recT sl.record) (kLayer x.desc)) a = true →
    (s.commitKvWrite x).slot (dSlot x.desc) = { sl with pencil := max sl.pencil (kPos x.desc + kN x.desc - sl.len) } ∧
    ∀ i, i ≠ dSlot x.desc → (s.commitKvWrite x).slot i = s.slot i) ∧
  (∀ s f x s1 r, s.working f 0 0x20002 = some x → x.strands.length = 1 → (x.strand 0).piece = 0 → (s.slot (dSlot x.desc)).record = r →
    attCarry x.desc r false = [] → attPages x.desc r (attHorizon x) 0 = [] →
    s.fetch x 0 [attQ x.desc r] (attOut x.desc r ++ attCarry x.desc r true) [] (smoothPlaces r (aLayer x.desc) (aHead x.desc) (aHeads x.desc)) =
      .go s1 → s.metaBad s1 x 0 (smoothPlaces r (aLayer x.desc) (aHead x.desc) (aHeads x.desc)) = none →
    completesWith (exec (.attend f 0 []) s) fun t =>
      workedWith t f x 0 ∧ t.mem = s1.mem ∧ t.casket = s1.casket ∧ t.tiles = s1.tiles ∧ t.evt = s1.evt) ∧
  (∀ s f j x s1 r v p, s.working f j 0x20002 = some x → (s.slot (dSlot x.desc)).record = r → (x.strand j).piece ≠ 0 →
    (attPages x.desc r (attHorizon x) j)[(x.strand j).piece]? = some p →
    (x.strand j).piece + 1 < (attPages x.desc r (attHorizon x) j).length →
    s.pageView (dSlot x.desc) x.desc j p = v → v.placed = true → v.cause = 0 →
    s.fetch x j [] [] [] (v.places x.desc r (attHorizon x)) = .go s1 → s.metaBad s1 x j (v.places x.desc r (attHorizon x)) = none →
    completesWith (exec (.attend f j []) s) fun t =>
      (∃ y, t.flight f = some y ∧ y.worked = false ∧ (y.strand j).piece = (x.strand j).piece + 1 ∧ (y.strand j).blob =
        (s.attPage x.desc r (attHorizon x) j v (AttHeld.parse x.desc r (x.strand j).blob)).bytes) ∧
      t.mem = s1.mem ∧ t.casket = s1.casket ∧ t.tiles = s1.tiles ∧ t.evt = s1.evt)

/-- A SLOT_OPEN reads its slot record and ends with the status of the record's checks; with status 0x00 its Settle phase opens the slot,
empty, with the next generation and that record (R82, R83).
A SLOT_CLOSE closes its slot and completes with status 0x00 in the Settle phase in which no descriptor admitted before it names the
slot any more (R84).
A KV_SETTLE ends at once; in its Settle phase, if it finds enough pencilled tokens, it moves them into the slot's length and clears the
pencil; one that does not ends with status 0x06 and leaves the slot as it is (R94). -/
def Obligations.SlotsOpenAndSettle : Prop :=
  (∀ s f x s0 st, s.controlReady f 0x20006 = some x → s.access x 0 [(.dev (openAddr x.desc), 256)] [] = .go s0 →
     poisoned (s0.readLinesOf [(.dev (openAddr x.desc), 256)]) = false →
     s0.openChecks x.part (dSlot x.desc) (plain (s0.readLinesOf [(.dev (openAddr x.desc), 256)])) = st →
     completesWith (exec (.slotOpen f) s) fun t =>
       endedWith s t f x st.1 (st.2 * 2 ^ 56) ∧ t.sail = s.sail ∧ t.tiles = s.tiles ∧
       ∃ y, t.flight f = some y ∧ (st.1 = 0 → (s.slot (dSlot x.desc)).state = 0 →
         (t.commitOpen y).slot (dSlot x.desc) = { state := 1, generation := (s.sail.generation + 1) % 2 ^ 32, partition := x.part, len := 0
                                                  pencil := 0, record := plain (s0.readLinesOf [(.dev (openAddr x.desc), 256)]), moved := [] } ∧
         ∀ i, i ≠ dSlot x.desc → (t.commitOpen y).slot i = s.slot i)) ∧
  (∀ s f x, s.controlReady f 0x20007 = some x →
     completesWith (exec (.slotClose f) s) fun t =>
       t.flight f = some { x with worked := true, state := .running s.tick.count } ∧
       (∀ g, g ≠ f → t.flight g = s.flight g) ∧ unchangedBut [.work] s t ∧
       (s.closeDue x = true → ((t.settleCloses []).slot (dSlot x.desc)).state = 0 ∧
         ∃ z, (t.settleCloses []).flight f = some z ∧ z.state = .ended ∧ z.status = 0 ∧ z.settleAt = some s.tick.count)) ∧
  (∀ s f x sl, s.controlReady f 0x20009 = some x → s.slot (dSlot x.desc) = sl →
     completesWith (exec (.kvSettle f) s) fun t =>
       endedWith s t f x 0 0 ∧ unchangedBut [.work, .xlat] s t ∧
       ∃ y, t.flight f = some y ∧ (t.commitSettle y).mem = s.mem ∧
         (fieldLe x.desc 36 4 ≤ sl.pencil →
           (t.commitSettle y).slot (dSlot x.desc) = { sl with len := sl.len + fieldLe x.desc 36 4, pencil := 0 }) ∧
         (sl.pencil < fieldLe x.desc 36 4 → (t.commitSettle y).sail = s.sail ∧
           ∃ z, (t.commitSettle y).flight f = some z ∧ z.status = 6))

/-! ### The tick, slices, speculation -/

/-- The tick's phases follow one another, each at the first edge at or after its instant: at T_(n+1) the tick number grows by one and its
Admit phase begins; the Run phase makes queued descriptors eligible; the Settle phase begins at S_n, and one whose parity fails starts a
warm reset (R13, R15, R16, R19).
A boundary before its time, past its edge or out of turn changes nothing (R13, R15, R16). -/
def Obligations.TickPhases : Prop :=
  ((∀ s edge, s.ctl.released = true → s.tick.phase = 2 → s.firstEdge s.tickEnd edge = true →
     completesWith (exec (.tickBoundary edge) s) fun t =>
       t.tick.count = s.tick.count + 1 ∧ t.tick.phase = 0 ∧ t.tick.epoch = s.tick.epoch) ∧
   (∀ s at_, s.ctl.released = true → s.tick.phase = 0 → s.firstEdge s.runStart at_ = true →
     completesWith (exec (.runPhaseStart at_) s) fun t =>
       t.tick = { s.tick with time := max s.tick.time at_, phase := 1 } ∧ unchangedBut [.tick, .work, .xlat, .mesh, .sail] s t ∧
       ∀ f x, s.flight f = some x → x.state = .queued → x.consumer = none → dClass x.desc = 1 → dSpeculative x.desc = false →
         dThreshold x.desc = 0 → ∃ y, t.flight f = some y ∧ y.state = .eligible ∧ y.strands = [{}] ∧ y.eligTick = s.tick.count) ∧
   (∀ s at_, s.ctl.released = true → s.tick.phase = 1 → s.firstEdge s.settleStart at_ = true →
     completesWith (exec (.settlePhase at_ true) s) fun t => t.tick.phase = 2 ∧ t.tick.count = s.tick.count) ∧
   (∀ s at_, s.ctl.released = true → s.tick.phase = 1 → s.firstEdge s.settleStart at_ = true → s.ctl.warm = none → s.ctl.warmDue = none →
     completesWith (exec (.settlePhase at_ false) s) fun t =>
       t.tick.phase = 2 ∧ t.ctl = { s.ctl with warmDue := some 5 } ∧ unchangedBut [.tick, .ctl] s t)) ∧
  ((∀ s edge, s.tick.phase ≠ 2 ∨ s.firstEdge s.tickEnd edge = false → exec (.tickBoundary edge) s = .next s) ∧
   (∀ s at_, s.tick.phase ≠ 0 ∨ s.firstEdge s.runStart at_ = false → exec (.runPhaseStart at_) s = .next s) ∧
   (∀ s at_ ok, s.tick.phase ≠ 1 ∨ s.firstEdge s.settleStart at_ = false → exec (.settlePhase at_ ok) s = .next s))

/-- The next piece of a mover starts in the Run phase on the unit dealt to it, once its pages are there: its slice runs with its pages
pinned; while a page is missing the piece waits (R20, R61, R223, R336).
A mover's slice whose work is done ends before S: it completes in that tick's Settle phase with the status of its work; one
that has not ended by T_(n+1) + A is stopped, counted as an abort, and completes with status 0x05 (R27, R28).
Speculation that is not confirmed in time is discarded: the descriptor ends with status 0x0B and its results are dropped (R97,
R229, R344). -/
def Obligations.SlicesAndSpeculation : Prop :=
  (∀ s f x y u ns, s.flight f = some x → x.state = .eligible → x.worked = false → x.strands = [y] → y.state = .eligible → y.pinned = false →
     y.worked = false → (SMap.get none s.care.resets x.part : Option PartReset) = none → dClass x.desc = 1 → s.stagingDone x = true →
     s.tick.phase = 1 → s.dealtUnit x = some u → needsOf (s.pieceRanges x y.piece) = ns →
     (ns.all (s.pageReady (x.tlb 0) (s.part x.part).pasid) = true →
       s.tooManyPins x.part (countedPins (s.pieceRanges x y.piece)) = false →
       s.pieceStatus x (s.pieceRanges x y.piece) (y.piece == 0) = 0 →
       completesWith (exec (.pieceStart f 0) s) fun t =>
         (∃ z, t.flight f = some z ∧ z.desc = x.desc ∧ (z.strand 0).state = .running s.tick.count ∧ (z.strand 0).pinned = true ∧
           (z.strand 0).unit = u ∧ (z.strand 0).piece = y.piece) ∧
         t.mem = s.mem ∧ t.casket = s.casket ∧ t.tiles = s.tiles) ∧
     (ns.all (s.pageReady (x.tlb 0) (s.part x.part).pasid) = false →
       completesWith (exec (.pieceStart f 0) s) fun t =>
         (∃ z, t.flight f = some z ∧ z.desc = x.desc ∧ (z.strand 0).state = .parked ∧ (z.strand 0).piece = y.piece) ∧
         unchangedBut [.work, .xlat, .host, .out] s t)) ∧
  ((∀ s f at_ x y n, s.flight f = some x → x.strands = [y] → y.state = .running n → dClass x.desc = 1 → x.consumer = none →
     x.worked = true → y.worked = true → (∀ q, q < 6 → (s.site q).writing = []) → at_ ≤ s.sliceDeadline x n → at_ < s.phaseEnd →
     max s.tick.time at_ < s.tickAt n + 19 * s.period / 20 →
     completesWith (exec (.sliceEnd f 0 at_) s) fun t =>
       (∃ z, t.flight f = some z ∧ z.state = .ended ∧ z.settleAt = some n ∧ z.status = x.status ∧ (z.strand 0).pinned = false) ∧
       t.mem = s.mem ∧ t.casket = s.casket ∧ t.tiles = s.tiles) ∧
   (∀ s f at_ x y n, s.flight f = some x → x.strands = [y] → y.state = .running n → y.pinned = true → dClass x.desc = 1 →
     dSpeculative x.desc = false → x.consumer = none → s.sliceDeadline x n ≤ at_ → at_ < s.phaseEnd → (s.sched x.part).run = none →
     completesWith (exec (.overrunDeadline f at_) s) fun t =>
       (∃ z, t.flight f = some z ∧ z.state = .ended ∧ z.status = 5 ∧ z.worked = true ∧ z.held = []) ∧
       SMap.get 0 t.tick.aborts x.part = satAdd max32 (SMap.get 0 s.tick.aborts x.part) 1)) ∧
  ((∀ s f x, s.unconfirmed f = some x → dKey x.desc = 0x20002 → s.confirmDue x = true →
     completesWith (exec (.specConfirmTimeout f) s) fun t =>
       (∃ y, t.flight f = some y ∧ y.state = .ended ∧ y.status = 0xB ∧ y.held = [] ∧ y.blob = [] ∧ y.settleAt = some s.settleTick) ∧
       t.mem = s.mem ∧ t.tiles = s.tiles ∧ t.casket.bytes = s.casket.bytes ∧ (∀ l, l ∈ t.casket.pending → l.flight ≠ f)) ∧
   (∀ s f x, s.unconfirmed f = some x → dKey x.desc = 0x10001 → s.confirmDue x = true →
     completesWith (exec (.prefetchConfirmTimeout f) s) fun t =>
       (∃ y, t.flight f = some y ∧ y.state = .ended ∧ y.status = 0xB ∧ y.held = [] ∧ y.blob = [] ∧ y.settleAt = some s.settleTick) ∧
       t.mem = s.mem ∧ t.tiles = s.tiles ∧ t.casket.bytes = s.casket.bytes ∧ (∀ l, l ∈ t.casket.pending → l.flight ≠ f)) ∧
   (∀ s f x, s.unconfirmed f = some x → s.faultDue x = true →
     completesWith (exec (.specFaultTimeout f) s) fun t =>
       (∃ y, t.flight f = some y ∧ y.state = .ended ∧ y.status = 0xB ∧ y.held = [] ∧ y.blob = [] ∧ y.settleAt = some s.settleTick) ∧
       t.mem = s.mem ∧ t.tiles = s.tiles ∧ t.casket.bytes = s.casket.bytes ∧ (∀ l, l ∈ t.casket.pending → l.flight ≠ f)))

/-! ### Start-up, resets, the safe state, debug -/

/-- The causes of the safe state that the Keel and its monitors detect by themselves (Table 15.2, R470, R471, R473, R481, R518).
A check that finds nothing wrong leaves the device running (R471, R473, R481, R518). -/
def Obligations.KeelChecks : Prop :=
  ((∀ s, s.ctl.pwrgood = true → s.keel.safe = false → s.keel.newCause = false →
     completesWith (exec .lockstepMismatch s) fun t => safeWith 1 t ∧ t.keel.lockstepOk = false ∧ t.tiles = s.tiles) ∧
   (∀ s, s.ctl.pwrgood = true → s.keel.safe = false → s.keel.newCause = false →
     completesWith (exec .refclkLoss s) fun t => safeWith 2 t ∧ t.tiles = s.tiles) ∧
   (∀ s a b, s.ctl.pwrgood = true → s.keel.safe = false → s.keel.newCause = false → -32768 ≤ a → a < 32768 → -32768 ≤ b → b < 32768 →
     (a.natAbs ≤ 5000 ∨ b.natAbs ≤ 5000) → 5000 < (a - b).natAbs →
     completesWith (exec (.oscillatorCheck a b) s) fun t => safeWith 3 t ∧ t.keel.oscA = a ∧ t.keel.oscB = b) ∧
   (∀ s mv us, s.ctl.pwrgood = true → s.keel.safe = false → s.keel.newCause = false → 1 ≤ us → mv < 760 ∨ 840 < mv →
     completesWith (exec (.supplyComparator 3 mv us) s) fun t => safeWith 4 t) ∧
   (∀ s, s.ctl.pwrgood = true → s.keel.safe = false → s.keel.newCause = false → s.keel.copy ≠ s.sealMap →
     completesWith (exec .copyCompare s) fun t => safeWith 9 t ∧ t.keel.copiesEqual = false) ∧
   (∀ s test, s.ctl.pwrgood = true → s.keel.safe = false → s.keel.newCause = false → test < 4 →
     completesWith (exec (.latentTest test false) s) fun t => safeWith 14 t) ∧
   (∀ s low, s.ctl.pwrgood = true → s.keel.safe = false → s.keel.newCause = false → low ≠ s.therm.fault →
     completesWith (exec (.faultNReadback low) s) fun t => safeWith 16 t)) ∧
  ((∀ s, exec (.faultNReadback s.therm.fault) s = .next s) ∧
   (∀ s, s.keel.copy = s.sealMap →
     exec .copyCompare s = .next { s with keel := { s.keel with copiesEqual := true } }) ∧
   (∀ s mv us, 760 ≤ mv → mv ≤ 840 → exec (.supplyComparator 3 mv us) s = .next s) ∧
   (∀ s test, s.ctl.pwrgood = true → test < 4 →
     completesWith (exec (.latentTest test true) s) fun t => t.keel.safe = s.keel.safe ∧ unchangedBut [.keel] s t))

/-- The egress gate passes a transfer that both checkers pass, and refuses one that both refuse, or any data in the safe state (R472,
R476). -/
def Obligations.EgressGate : Prop :=
  (∀ s x, x.slab < 768 → x.part < 16 → (match x.gate with
      | .tether p => p < 9
      | .site q => q < 6
      | _ => True) → s.keel.safe = false → x.parityOk = true → x.stuckA = none → x.stuckB = none →
    transferPasses x s.sealMap = true → transferPasses x s.keel.copy = true →
    exec (.egressTransfer x) s = .next { s with out := s.out ++ [.gate true] }) ∧
  (∀ s x, x.slab < 768 → x.part < 16 → (match x.gate with
      | .tether p => p < 9
      | .site q => q < 6
      | _ => True) → s.keel.safe = true → x.record = false →
    exec (.egressTransfer x) s = .next { s with out := s.out ++ [.gate false] }) ∧
  (∀ s x, x.slab < 768 → x.part < 16 → (match x.gate with
      | .tether p => p < 9
      | .site q => q < 6
      | _ => True) → s.keel.safe = false → x.parityOk = true → x.stuckA = none → x.stuckB = none →
    transferPasses x s.sealMap = false → transferPasses x s.keel.copy = false →
    completesWith (exec (.egressTransfer x) s) fun t => t.out = s.out ++ [.gate false] ∧ unchangedBut [.out, .evt] s t)

/-- Warm resets fall due by the mailbox, PERST_N, the watchdog and an uncorrectable control-plane error, begin, and end; a fall of
PWRGOOD stops everything, and its rise starts the device over, not yet released (R478, R479, R486, R487). -/
def Obligations.ResetsComeAndGo : Prop :=
  (∀ s, s.mboxRuns 0x40 [] → s.ctl.released = true → s.ctl.warmDue = none → s.ctl.warm = none →
    completesWith (exec .warmReset s) fun t => t.ctl.warmDue = some 1 ∧ t.mboxEnded 0 [] ∧ unchangedBut [.ctl, .mbox] s t) ∧
  (∀ s, s.ctl.released = true → s.ctl.warmDue = none → s.ctl.warm = none →
    exec .watchdogExpiry s = .next { s with ctl := { s.ctl with warmDue := some 4 } }) ∧
  (∀ s, s.ctl.released = true → s.ctl.warmDue = none → s.ctl.warm = none →
    exec .controlPlaneUncorrectable s = .next { s with ctl := { s.ctl with warmDue := some 3 } }) ∧
  (∀ s at_, s.ctl.warmDue = some 2 →
    completesWith (exec (.warmResetBegin at_) s) fun t =>
      t.ctl.warm = some 2 ∧ t.ctl.warmDue = none ∧ t.keel.lastWarm = 2 ∧ t.keel.warmResets = satAdd 0xFFFF s.keel.warmResets 1 ∧
      t.work.flights = [] ∧ t.locket.keys = [] ∧ t.tick.overruns = [] ∧ t.tick.count = s.tick.count) ∧
  (∀ s at_ c, s.ctl.warm = some c →
    completesWith (exec (.warmResetRelease at_) s) fun t => t.ctl.warm = none ∧ t.tick.phase = s.tick.phase ∧ t.mem = s.mem) ∧
  (∀ s, s.ctl.pwrgood = true →
    completesWith (exec .pwrgoodFall s) fun t =>
      t.ctl.pwrgood = false ∧ t.ctl.released = false ∧ t.mem = {} ∧ t.work.flights = [] ∧ t.locket.uid = s.locket.uid) ∧
  (∀ s b, s.ctl.pwrgood = false → b.straps.length = 6 → (∀ x, x ∈ b.straps → x < 4) → b.hbm.length = 8 →
    completesWith (exec (.pwrgoodRise b) s) fun t => t.ctl.pwrgood = true ∧ t.ctl.released = false ∧ t.therm.duty = 0xFF) ∧
  (∀ s b, s.ctl.restartDue = true → b.hbm.length = 8 →
    completesWith (exec (.internalColdRestart b) s) fun t =>
      t.ctl.pwrgood = true ∧ t.ctl.released = false ∧ t.ctl.restartDue = false ∧ t.tick.time = s.tick.time)

/-- A poisoned mesh word that a program or schedule takes, or an uncorrectable Casket line that a unit reads, starts the reset of its
partition, or joins the one that runs; the reset zeroes the partition's segments and tiles and leaves the other tiles, the stacks
and the clasps as they are. -/
def Obligations.PartitionResets : Prop :=
  (∀ s n c, n < 4608 → c < 4 → 2 ≤ (s.tile n).state → (s.tile n).progPart < 16 →
    SMap.get none s.care.resets (s.tile n).progPart = none →
    completesWith (exec (.uncorrectableConsumed (.meshWord n c)) s) fun t =>
      SMap.get none t.care.resets (s.tile n).progPart = some ⟨1, n, 0, s.tick.count, false⟩ ∧
      (∀ p, p ≠ (s.tile n).progPart → SMap.get none t.care.resets p = SMap.get none s.care.resets p) ∧
      (t.tile n).state = 0 ∧ (t.tile n).uncorrectable = satAdd 0xFFFF (s.tile n).uncorrectable 1 ∧
      (1 ≤ (s.tile n).memErrors → (t.tile n).coreFenced = true) ∧ (∀ m, m ≠ n → t.tile m = s.tile m) ∧
      unchangedBut [.tiles, .evt, .care, .host, .sites] s t) ∧
  (∀ s p addr reader r, p < 16 → addr < casketSize → 1 ≤ reader → reader ≤ 3 → SMap.get none s.care.resets p = some r →
    completesWith (exec (.uncorrectableConsumed (.casket p addr reader)) s) fun t =>
      SMap.get none t.care.resets p = some { r with joined := satAdd max32 r.joined 1 } ∧ t.casket.bytes = s.casket.bytes ∧
      unchangedBut [.care, .casket, .evt, .host, .sites] s t) ∧
  (∀ s p r again, p < 16 → SMap.get none s.care.resets p = some r → r.stopped = false → (∀ x, x ∈ s.work.flights → x.part ≠ p) →
    (s.sched p).run = none →
    completesWith (exec (.partitionReset p again) s) fun t =>
      SMap.get none t.care.resets p = some { r with stopped := true } ∧
      (∀ n, (s.tile n).partition = some p → (t.tile n).dmem = [] ∧ (t.tile n).dmemBad = [] ∧ (t.tile n).regs = [] ∧
        (t.tile n).vregs = [] ∧ (t.tile n).state = 0 ∧ (t.tile n).prog = none ∧ (t.tile n).failing = [] ∧
        ((s.tile n).failing = [] → n ∉ again → t.tile n = (s.tile n).cleared)) ∧
      (∀ n, (∀ e, e ∈ s.tiles → e.1 = n → e.2.partition ≠ some p) → t.tile n = s.tile n) ∧
      (∀ sl g st i, g < 8 → segOwner (s.casketOwn sl).current g = some (p, st) → i < 0x10000 →
        SMap.get 0 t.casket.bytes (sl * 0x80000 + g * 0x10000 + i) = 0) ∧
      t.mem = s.mem ∧ t.clasps = s.clasps ∧ t.work = s.work)

/-- Release begins tick 0 in its Admit phase with the epoch at TICK.TIME (R13, R488, R507).
PERST_N and the host link: before release PERST_N resets the host port alone; after it a warm reset falls due with cause 2
(R296, R298, R487). -/
def Obligations.ReleaseAndHostLink : Prop :=
  (∀ s at_, s.ctl.pwrgood = true → s.ctl.released = false → s.ctl.halted = false → s.keel.safe = false → 8 ≤ s.ctl.step →
     s.sitesPending = false →
     completesWith (exec (.release at_) s) fun t =>
       t.ctl.released = true ∧ t.ctl.step = 13 ∧ t.tick.count = 0 ∧ t.tick.phase = 0 ∧ t.tick.epoch = max s.tick.time at_ ∧
       t.ctl.bootNs = max s.tick.time at_ ∧ t.mesh.westP = 1 ∧ t.mesh.eastP = 1 ∧ t.mem = s.mem) ∧
  ((∀ s, s.ctl.pwrgood = true → s.ctl.perstN = true → s.ctl.released = false →
     completesWith (exec .perstNAssert s) fun t =>
       t.ctl.perstN = false ∧ t.host.linkUp = false ∧ t.ctl.warmDue = s.ctl.warmDue ∧ unchangedBut [.ctl, .host] s t) ∧
   (∀ s, s.ctl.pwrgood = true → s.ctl.perstN = true → s.ctl.released = true → s.ctl.warmDue = none → s.ctl.warm = none →
     completesWith (exec .perstNAssert s) fun t => t.ctl.warmDue = some 2 ∧ unchangedBut [.ctl, .host] s t) ∧
   (∀ s h, s.ctl.pwrgood = true → s.ctl.perstN = false →
     completesWith (exec (.perstNDeassert h) s) fun t =>
       t.ctl.perstN = true ∧ t.host.cfg = h ∧ unchangedBut [.ctl, .host] s t ∧
       (3 ≤ s.ctl.step → t.host.linkUp = (hostWidths.any h.widths.contains && hostRates.any h.rates.contains))) ∧
   (∀ s, s.host.linkUp = true → s.ctl.released = true → s.ctl.warmDue = none → s.ctl.warm = none →
     completesWith (exec (.hostLinkReset .hotReset) s) fun t =>
       t.ctl.warmDue = some 2 ∧ t.host.hdm0 = none ∧ t.host.hdm1 = none ∧ unchangedBut [.ctl, .host] s t) ∧
   (∀ s, s.host.linkUp = true → exec .d3hotEntry s = .next { s with host := { s.host with d3hot := true } }))

/-- LEVEL_SET agrees the interface level, and CFG_REPORT_READ returns a part of the report (R10, R309, R503).
The recovery commands stage an image chunk by chunk, report it, commit it once it passes its checks, and ask for a restart (R504
to R506, Table 16.13). -/
def Obligations.LevelReportAndRecovery : Prop :=
  ((∀ s b, s.mboxRuns 0x10 b → b.length = 8 → byteAt b 0 = 1 → (∀ i, 1 ≤ i → i < 8 → byteAt b i = 0) →
     s.ctl.level = 0 ∨ s.ctl.level = 1 →
     completesWith (exec .levelSet s) fun t => t.ctl.level = 1 ∧ t.mboxEnded 0 (natLe 8 1) ∧ unchangedBut [.ctl, .mbox] s t) ∧
   (∀ s b, s.mboxRuns 0x20 b → b.length = 8 → fieldLe b 0 4 < s.report.length → 1 ≤ fieldLe b 4 4 → fieldLe b 4 4 ≤ 4096 →
     fieldLe b 0 4 + fieldLe b 4 4 ≤ s.report.length →
     completesWith (exec .cfgReportRead s) fun t =>
       t.mboxEnded 0 (slice s.report (fieldLe b 0 4) (fieldLe b 4 4)) ∧ unchangedBut [.mbox] s t)) ∧
  ((∀ s b, s.mboxRuns 0xB00 b → b.length = 8 → 8192 ≤ fieldLe b 0 4 → fieldLe b 0 4 ≤ 67108864 → fieldLe b 0 4 % 16 = 0 →
     (∀ i, 4 ≤ i → i < 8 → byteAt b i = 0) → s.ctl.recovery = true → s.ctl.staging.state ≠ 2 →
     completesWith (exec .recoveryBegin s) fun t =>
       t.ctl.staging = ⟨1, fieldLe b 0 4, []⟩ ∧ t.mboxEnded 0 [] ∧ unchangedBut [.ctl, .mbox] s t) ∧
   (∀ s b, s.mboxRuns 0xB01 b → 24 ≤ b.length → b.length ≤ 4088 → b.length % 16 = 8 → s.ctl.staging.state = 1 →
     fieldLe b 0 4 = s.ctl.staging.bytes.length → s.ctl.staging.bytes.length + (b.length - 8) ≤ s.ctl.staging.length →
     (∀ i, 4 ≤ i → i < 8 → byteAt b i = 0) →
     completesWith (exec .recoveryChunk s) fun t =>
       t.ctl.staging = { s.ctl.staging with bytes := s.ctl.staging.bytes ++ b.drop 8 } ∧ t.mboxEnded 0 [] ∧
       unchangedBut [.ctl, .mbox] s t) ∧
   (∀ s, s.mboxRuns 0xB02 [] → s.ctl.staging.state = 1 → s.ctl.staging.bytes.length = s.ctl.staging.length →
     completesWith (exec (.recoveryCommit ⟨none⟩) s) fun t =>
       (imgCheck s.locket.lc s.locket.imageKeyHash s.ctl.staging.bytes = none →
         t.ctl.restartDue = true ∧ t.mboxEnded 0 [] ∧ unchangedBut [.ctl, .mbox] s t ∧
         t.ctl.imageWritten = some (fieldLe (imgBytes s.ctl.staging.bytes) 24 8, (imgBytes s.ctl.staging.bytes).length)) ∧
       (∀ e, imgCheck s.locket.lc s.locket.imageKeyHash s.ctl.staging.bytes = some e →
         t.mboxEnded 3 (zeros 2 ++ natLe 1 e.1 ++ zeros 1 ++ natLe 4 e.2) ∧ unchangedBut [.mbox] s t)) ∧
   (∀ s b, s.mboxRuns 0xB03 b → b.length = 8 → byteAt b 0 = 1 → (∀ i, 1 ≤ i → i < 8 → byteAt b i = 0) →
     (∀ p, p < 16 → (s.part p).enabled = false) →
     completesWith (exec .recoveryRequest s) fun t =>
       t.ctl.recoveryRequest = true ∧ t.ctl.restartDue = true ∧ t.mboxEnded 0 [] ∧ unchangedBut [.ctl, .mbox] s t) ∧
   (∀ s, s.mboxRuns 0xB04 [] →
     completesWith (exec .recoveryStatus s) fun t =>
       t.mboxEnded 0 (natLe 4 s.ctl.staging.bytes.length ++ natLe 4 s.ctl.staging.length ++ natLe 1 s.ctl.staging.state ++ zeros 7) ∧
       unchangedBut [.mbox] s t))

/-- The traffic generators start, stop and report; a bead is claimed for debug; the test port, DOE and CDAT answer (R263, R264, R300,
R437, R523, R532). -/
def Obligations.DebugAndDiscovery : Prop :=
  (∀ s c, s.regOpen = true → c < 512 → (s.gen c).busy = true →
    completesWith (exec (.tgStop c) s) fun t =>
      t.gen c = { s.gen c with stopping := true } ∧ (∀ k, k ≠ c → t.gen k = s.gen k) ∧ t.mem.bytes = s.mem.bytes ∧
      unchangedBut [.mem] s t) ∧
  (∀ s c v, s.regOpen = true → c < 512 → bit (v.toNat ||| 1) 1 = false →
    s.genRefused c ((s.gen c).control (v.toNat ||| 1)) = false →
    completesWith (exec (.tgStart c v) s) fun t =>
      (t.gen c).busy = true ∧ (t.gen c).done = false ∧ (t.gen c).refused = false ∧ (t.gen c).mismatches = 0 ∧
      t.mem.bytes = s.mem.bytes ∧ unchangedBut [.mem] s t) ∧
  (∀ s v, s.regOpen = true → s.claimDropped v.toNat = false →
    completesWith (exec (.dbgClaimWrite v) s) fun t =>
      t.dbg = { tile := bits v.toNat 12 0, claim := bit v.toNat 16 } ∧ unchangedBut [.dbg, .tiles] s t) ∧
  (∀ s c r p, c < 512 → r.seen = [] → (s.gen c).busy = true → (s.gen c).stopping = true → (s.gen c).passes = 0 → (s.gen c).progress = p →
    r.beats = p + 1 → (s.gen c).reads p = false → (s.gen c).beatAt ((s.gen c).place p) ≤ lastBeat →
    completesWith (exec (.tgDone c r) s) fun t =>
      t.gen c = { s.gen c with progress := p + 1, busy := false, done := true, stopping := false } ∧
      (t.rawBeatAt c ((s.gen c).beatAt ((s.gen c).place p))).take 64 =
        (natLe 72 ((s.gen c).word ((s.gen c).place p) ((s.gen c).beatAt ((s.gen c).place p)))).take 64 ∧
      unchangedBut [.mem] s t) ∧
  (∀ s c r p a, c < 512 → r.seen = [] → (s.gen c).busy = true → (s.gen c).stopping = true → (s.gen c).passes = 0 → (s.gen c).progress = p →
    r.beats = p + 1 → (s.gen c).reads p = true → (s.gen c).mode ≠ 0 → (s.gen c).raw = true → (s.gen c).beatAt ((s.gen c).place p) = a →
    completesWith (exec (.tgDone c r) s) fun t =>
      t.gen c = { ({ s.gen c with progress := p + 1 } : TrafficGen).noted none a
        (firstDiff 576 ((s.gen c).word ((s.gen c).place p) a) (leNat (s.rawBeatAt c a))) with busy := false, done := true, stopping := false } ∧
      t.mem.bytes = s.mem.bytes ∧ unchangedBut [.mem] s t) ∧
  (∀ s, s.ctl.pwrgood = true → exec (.tapAccess .reset) s = .next { s with out := s.out ++ [.tap true 0] }) ∧
  (∀ s i, s.ctl.pwrgood = true →
    exec (.tapAccess (.jtag i)) s = .next { s with out := s.out ++ [.tap (s.jtagOpen i) (if i = .idcode then idcode else 0)] }) ∧
  (∀ s i, s.ctl.pwrgood = true → i ≠ .secret →
    exec (.tapAccess (.instrument i)) s = .next { s with out := s.out ++ [.tap (s.instrumentOpen i) 0] }) ∧
  (∀ s index, s.host.linkUp = true →
    exec (.doeDiscovery index) s = .next { s with out := s.out ++
      [.doe (doeProtocols[index]?) (if index + 1 < doeProtocols.length then index + 1 else 0)] }) ∧
  (∀ s e, e < 2 → s.host.linkUp = true → exec (.cdatRead e) s = .next { s with out := s.out ++ [.cdat e 400 300 64] })

/-! ### The stacks, their care and the host's accesses -/

/-- The correctable-error buckets leak, and a storm window closes (R274).
A granule's zero writes end, refreshes go out, a group is calibrated, and a recalibration outside the regular slot holds its group
(R249, R254, R260, R268, R283). -/
def Obligations.StackUpkeep : Prop :=
  ((∀ s, completesWith (exec .leakPeriod s) fun t =>
     (∀ b, b < 34 → t.ce b = { s.ce b with count := (s.ce b).count - s.care.leak }) ∧ t.mem = s.mem ∧ unchangedBut [.care] s t) ∧
   (∀ s b, b < 34 →
     completesWith (exec (.stormWindowEnd b) s) fun t =>
       t.ce b = { s.ce b with storm := false } ∧ (∀ c, c ≠ b → t.ce c = s.ce c) ∧ unchangedBut [.care] s t)) ∧
  ((∀ s g, g < 12582912 → s.memoryRests = false → (∀ l, l ∈ s.mem.wcb → l.setting / settingsPerGroup ≠ g / 393216) →
     exec (.granuleFillDone g) s = .next { s with mem := { s.mem with filling := s.mem.filling.filter (fun x => x != g) } }) ∧
   (∀ s c bank, c < 512 → bank < 64 → s.memoryRests = false → (s.group (c / 16)).state ≠ 1 →
     exec (.stackRefresh c bank) s = .next { s with out := s.out ++ [.refresh c bank] }) ∧
   (∀ s n, n < 32 → s.memoryRests = false → (s.group n).state ≠ 1 → s.mem.wcb = [] →
     completesWith (exec (.calibration n none) s) fun t =>
       t.out = s.out ++ [.calibrate n] ∧ t.group n = { s.group n with recal := false } ∧ (∀ m, m ≠ n → t.group m = s.group m) ∧
       t.mem.bytes = s.mem.bytes ∧ unchangedBut [.mem, .out] s t) ∧
   (∀ s n c, n < 32 → c < 16 → s.memoryRests = false → (s.group n).state = 0 →
     (∀ l, l ∈ s.mem.wcb → l.setting / settingsPerGroup ≠ n) →
     completesWith (exec (.calibration n (some c)) s) fun t =>
       (t.group n).state = 1 ∧ (t.group n).heldPc = c ∧ (t.group n).holdStart = s.tick.time ∧
       (∀ m, m ≠ n → t.group m = s.group m) ∧ t.mem.bytes = s.mem.bytes ∧ unchangedBut [.mem] s t))

/-- A failed command is reissued; holds, degraded mode, retrains, rebuilds and canary reads move a group between its states (R233, R244,
R283 to R285, R293). -/
def Obligations.GroupStates : Prop :=
  (∀ s c, c < 512 → exec (.stackCommandFailure c 0) s =
    .next { s with mem := { s.mem with failures := SMap.set 0 s.mem.failures c 0 } }) ∧
  (∀ s c kind, c < 512 → 1 ≤ kind → kind ≤ 3 → SMap.get 0 s.mem.failures c < 2 →
    completesWith (exec (.stackCommandFailure c kind) s) fun t =>
      SMap.get 0 t.mem.failures c = SMap.get 0 s.mem.failures c + 1 ∧ t.mem.groups = s.mem.groups ∧ t.mem.bytes = s.mem.bytes ∧
      t.out = s.out ++ [.reissue c kind] ∧ unchangedBut [.mem, .evt, .out] s t) ∧
  (∀ s c kind, c < 512 → 1 ≤ kind → kind ≤ 3 → 2 ≤ SMap.get 0 s.mem.failures c → (s.group (c / 16)).state = 0 →
    (∀ l, l ∈ s.mem.wcb → l.setting / settingsPerGroup ≠ c / 16) →
    completesWith (exec (.stackCommandFailure c kind) s) fun t =>
      (t.group (c / 16)).state = 1 ∧ (t.group (c / 16)).heldPc = c % 16 ∧ (t.group (c / 16)).holdStart = s.tick.time ∧
      (∀ m, m ≠ c / 16 → t.group m = s.group m) ∧ SMap.get 0 t.mem.failures c = 0 ∧ t.mem.bytes = s.mem.bytes ∧
      unchangedBut [.mem, .evt] s t) ∧
  (∀ s n, n < 32 → (s.group n).state = 1 →
    completesWith (exec (.holdBudgetExpiry n) s) fun t =>
      (t.group n).state = 2 ∧ (t.group n).attempts = 1 ∧ (∀ m, m ≠ n → t.group m = s.group m) ∧ t.mem.bytes = s.mem.bytes ∧
      unchangedBut [.mem, .evt, .tick] s t) ∧
  (∀ s n, n < 32 → (s.group n).state = 1 → (∀ l, l ∈ s.mem.wcb → l.setting / settingsPerGroup ≠ n) →
    completesWith (exec (.retrainAttemptEnd n true) s) fun t =>
      (t.group n).state = (s.group n).formerState ∧ (t.group n).epoch = ((s.group n).epoch + 1) % 65536 ∧
      (∀ m, m ≠ n → t.group m = s.group m) ∧
      (∃ m, SMap.get none t.mem.modes (16 * n + (s.group n).heldPc) = some m ∧
        t.out = s.out ++ [.modeRegisters (16 * n + (s.group n).heldPc) m]) ∧
      t.mem.bytes = s.mem.bytes ∧ unchangedBut [.mem, .out] s t) ∧
  (∀ s n, n < 32 → (s.group n).wide = true → (s.group n).state = 2 → (s.group n).rejoining = true → s.memoryRests = false →
    completesWith (exec (.rebuildDone n) s) fun t =>
      (t.group n).state = 0 ∧ (t.group n).erased = none ∧ (t.group n).rebuild = [] ∧ (∀ m, m ≠ n → t.group m = s.group m) ∧
      unchangedBut [.mem, .evt] s t) ∧
  (∀ s c, c < 512 → (s.group (c / 16)).wide = false → (s.group (c / 16)).state = 2 → (s.group (c / 16)).deadDie ≠ some (c % 16) →
    s.memoryRests = false →
    completesWith (exec (.canaryRead c false) s) fun t =>
      SMap.get false t.mem.failedDies (16 * (c / 16 / 4) + c % 16) = true ∧ t.mem.bytes = s.mem.bytes ∧
      t.mem.groups = s.mem.groups ∧ unchangedBut [.mem, .evt] s t) ∧
  (∀ s c, c < 512 → (s.group (c / 16)).wide = false → (s.group (c / 16)).state = 0 → (s.group (c / 16)).deadDie ≠ some (c % 16) →
    s.memoryRests = false → s.canaryIntact c = true →
    completesWith (exec (.canaryRead c true) s) fun t =>
      (∀ k, pcUnit (64 * k) = 0x3000 + c → SMap.get none s.mem.corrected k ≠ none → SMap.get none t.mem.corrected k = some true) ∧
      t.mem.bytes = s.mem.bytes ∧ t.mem.groups = s.mem.groups ∧ unchangedBut [.mem] s t)

/-- The patrol scrub reads the next written setting: a wide one that decodes clean leaves what the stack holds, and the pass goes on, or
ends (R271); a buffer line that is written back leaves the buffer, and its valid bytes stand in the stack, and no other byte changes
(R246, R250). -/
def Obligations.ScrubAndWriteback : Prop :=
  (∀ s n st raw data, n < 32 → st < settingsPerGroup → raw.length = 16 → (∀ b, b ∈ raw → b.length = 72) →
    (s.group n).wide = true → s.nextWritten n (s.scrub n).pos = some st →
    s.scrubWaits n ((n * settingsPerGroup + st) * 1024) = false →
    ({ s with mem := s.mem.holdSetting true (n * settingsPerGroup + st) raw } : State).readSetting (n * settingsPerGroup + st) =
      .clean data →
    completesWith (exec (.scrubRead n st raw) s) fun t =>
      t.mem = s.mem.holdSetting true (n * settingsPerGroup + st) raw ∧
      (∀ q, s.nextWritten n (st + 1) = some q → (t.scrub n).pos = q ∧ (t.scrub n).passes = (s.scrub n).passes) ∧
      (s.nextWritten n (st + 1) = none →
        (t.scrub n).pos = 0 ∧ (t.scrub n).passes = satAdd max32 (s.scrub n).passes 1 ∧ (t.scrub n).rows = []) ∧
      unchangedBut [.mem, .care] s t) ∧
  (∀ s n st l c, n < 32 → st < settingsPerGroup → s.mem.wcb.find? (fun x => x.setting == settingsPerGroup * n + st) = some l →
    s.mem.wcb.any (fun x => x.setting == settingsPerGroup * n + st && s.lineHeld x) = false → l.errs = [] → c ≠ 0 →
    completesWith (exec (.wcbWriteback n st ⟨[], [], c⟩) s) fun t =>
      t.mem.wcb = s.mem.wcb.filter (fun x => x.setting != l.setting) ∧
      (∀ k, k / 1024 ≠ l.setting → SMap.get 0 t.mem.bytes k = SMap.get 0 s.mem.bytes k) ∧
      (∀ i b, i < 1024 → SMap.get none l.bytes i = some b → SMap.get 0 t.mem.bytes (l.setting * 1024 + i) = b.1) ∧
      unchangedBut [.mem, .evt, .care, .host, .sites, .sail] s t)

/-- Evacuation moves one slab to its donor and goes on with the next; after the last one the group is mapped out, and a MAP_OUT that waits
for it ends with status 0x00 (R288, R291).
REPAIR holds its granule, with the group held for sPPR and in degraded mode for hPPR; REPAIR_DONE releases it, leaves a repaired
granule unwritten, and ends the descriptor; MAP_OUT starts the evacuation of its group (R282, R288). -/
def Obligations.RepairAndEvacuation : Prop :=
  ((∀ s n j, n < 32 → (s.evac n).current = some j → (s.group n).state = 4 → j + 1 < (s.evac n).donors.length → s.mem.wcb = [] →
     completesWith (exec (.evacuationSlabDone n []) s) fun t =>
       (t.slab (24 * n + j)).movedTo = some ((s.evac n).donors.getD j 0) ∧ (t.evac n).current = some (j + 1) ∧
       (t.evac n).done = (s.evac n).done + 1 ∧ (t.group n).state = 4) ∧
   (∀ s n j, n < 32 → (s.evac n).current = some j → (s.group n).state = 4 → (s.evac n).donors.length ≤ j + 1 → s.mem.wcb = [] →
     completesWith (exec (.evacuationSlabDone n []) s) fun t =>
       (t.slab (24 * n + j)).movedTo = some ((s.evac n).donors.getD j 0) ∧ (t.evac n).current = none ∧
       (t.evac n).done = (s.evac n).done + 1 ∧ (t.group n).state = 5 ∧
       ∀ f x, (s.evac n).flight = some f → s.flight f = some x → x.state ≠ .ended →
         ∃ y, t.flight f = some y ∧ y.state = .ended ∧ y.status = 0)) ∧
  ((∀ s f x, s.controlReady f 0x60002 = some x → (s.group (repGroup x.desc)).state = 0 → repKind x.desc = 2 → s.mem.wcb = [] →
     completesWith (exec (.repair f) s) fun t =>
       t.care.repairHold = s.care.repairHold ++ [(repGranule x.desc, f)] ∧ (t.group (repGroup x.desc)).state = 2 ∧
       (t.group (repGroup x.desc)).erased = some (repDie x.desc) ∧ (∀ m, m ≠ repGroup x.desc → t.group m = s.group m) ∧
       t.flight f = some { x with state := .running s.tick.count } ∧ t.mem.bytes = s.mem.bytes ∧
       unchangedBut [.mem, .care, .work, .evt] s t) ∧
   (∀ s f x, s.controlReady f 0x60002 = some x → (s.group (repGroup x.desc)).state = 0 → repKind x.desc = 1 → s.mem.wcb = [] →
     completesWith (exec (.repair f) s) fun t =>
       t.care.repairHold = s.care.repairHold ++ [(repGranule x.desc, f)] ∧ (t.group (repGroup x.desc)).state = 1 ∧
       (t.group (repGroup x.desc)).heldPc = repDie x.desc ∧ (∀ m, m ≠ repGroup x.desc → t.group m = s.group m) ∧
       t.flight f = some { x with state := .running s.tick.count } ∧ t.mem.bytes = s.mem.bytes ∧
       unchangedBut [.mem, .care, .work] s t) ∧
   (∀ s f x, s.flight f = some x → (∃ g, (g, f) ∈ s.care.repairHold) → repKind x.desc = 1 → (s.group (repGroup x.desc)).state = 1 →
     completesWith (exec (.repairDone f true) s) fun t =>
       (∃ y, t.flight f = some y ∧ y.state = .ended ∧ y.status = 0) ∧ (∀ g, (g, f) ∉ t.care.repairHold) ∧
       t.granuleValid (repGranule x.desc) = false ∧ (∀ l, l ∈ t.mem.wcb → l.setting / 64 ≠ repGranule x.desc) ∧
       (t.group (repGroup x.desc)).state = (s.group (repGroup x.desc)).formerState ∧ t.mem.bytes = s.mem.bytes ∧
       t.casket = s.casket) ∧
   (∀ s f x, s.flight f = some x → (∃ g, (g, f) ∈ s.care.repairHold) → repKind x.desc ≠ 1 → (s.group (repGroup x.desc)).wide = true →
     completesWith (exec (.repairDone f true) s) fun t =>
       (∃ y, t.flight f = some y ∧ y.state = .ended ∧ y.status = 0) ∧ (∀ g, (g, f) ∉ t.care.repairHold) ∧
       t.granuleValid (repGranule x.desc) = false ∧ (t.group (repGroup x.desc)).rejoining = true ∧ t.mem.bytes = s.mem.bytes ∧
       t.casket = s.casket) ∧
   (∀ s f x, s.flight f = some x → (∃ g, (g, f) ∈ s.care.repairHold) →
     completesWith (exec (.repairDone f false) s) fun t =>
       (∃ y, t.flight f = some y ∧ y.state = .ended ∧ y.status = 8) ∧ (∀ g, (g, f) ∉ t.care.repairHold) ∧
       t.mem.bytes = s.mem.bytes ∧ t.mem.flipped = s.mem.flipped ∧ t.casket = s.casket) ∧
   (∀ s f x, s.controlReady f 0x60003 = some x → (s.group (byteAt x.desc 32)).state = 0 →
     24 ≤ (s.eligibleDonors (byteAt x.desc 32)).length →
     completesWith (exec (.mapOut f) s) fun t =>
       (t.group (byteAt x.desc 32)).state = 4 ∧
       t.evac (byteAt x.desc 32) = ⟨0, some 0, 0, some f, (s.eligibleDonors (byteAt x.desc 32)).take 24⟩ ∧
       (∀ i, i ∈ (s.eligibleDonors (byteAt x.desc 32)).take 24 → (t.slab i).hole = true) ∧
       t.flight f = some { x with state := .running s.tick.count } ∧ t.mem.bytes = s.mem.bytes ∧
       unchangedBut [.mem, .care, .work, .evt] s t) ∧
   (∀ s f x, s.controlReady f 0x60003 = some x → (s.eligibleDonors (byteAt x.desc 32)).length < 24 →
     completesWith (exec (.mapOut f) s) fun t =>
       (∃ y, t.flight f = some y ∧ y.state = .ended ∧ y.status = 8) ∧ t.mem = s.mem ∧ t.care = s.care))

/-- In an Admit phase a Casket segment that nothing of its old owner touches takes its new owner and is zeroed; the patrol scrub
corrects a single error in place and counts it (R208, R210, R212). -/
def Obligations.CasketOwnershipAndScrub : Prop :=
  (∀ s sl, sl < 576 → s.tick.phase = 0 → s.work.flights = [] →
    completesWith (exec (.casketOwnApply sl) s) fun t =>
      (∀ g, g < 8 → segOwner (t.casketOwn sl).current g = segOwner (s.casketOwn sl).requested g) ∧
      (∀ g i, g < 8 → segOwner (s.casketOwn sl).requested g ≠ segOwner (s.casketOwn sl).current g → i < 0x10000 →
        SMap.get 0 t.casket.bytes (sl * 0x80000 + g * 0x10000 + i) = 0) ∧
      (∀ q, q ≠ sl → t.casketOwn q = s.casketOwn q) ∧ unchangedBut [.casket, .evt] s t) ∧
  (∀ s sl off cw b, sl < 576 → off < 0x80000 →
    hammingDecode (BitVec.toNat cw) = some (b, true) →
    SMap.get false s.casket.bad (sl * 0x80000 + off) = false →
    completesWith (exec (.casketPatrolScrub sl off cw []) s) fun t =>
      SMap.get 0 t.casket.bytes (sl * 0x80000 + off) = BitVec.ofNat 8 b ∧ SMap.get 0 t.casket.errs (sl * 0x80000 + off) = 0 ∧
      (∀ i, i ≠ sl * 0x80000 + off → SMap.get 0 t.casket.bytes i = SMap.get 0 s.casket.bytes i) ∧
      (SMap.get {} t.casket.err sl).corrected = satAdd 0xFFFF (SMap.get {} s.casket.err sl).corrected 1 ∧
      unchangedBut [.casket, .care, .evt] s t)

/-- A host read of HDM answers the line as it reads, and a host write of a whole line with poison-free data completes; one that meets
a KV region, a sealed region or a donated slab is answered with ones, without an access (R303, Table 9.3).
One piece of a SCATTER_ADD: records that lie beyond its array are skipped, counted, and leave memory as it is; an update within it,
when its line is there to be had, leaves the sum in its element (R256 to R258). -/
def Obligations.HostAccessesAndScatterAdd : Prop :=
  ((∀ s hpa d c, hpa % 64 = 0 → hpa < 2 ^ 64 → s.placeOfHpa hpa = .dev d → s.keel.safe = false → s.accessStop d 64 1 0xFF = none →
     s.memoryRests = false → s.readHeld d 64 = false → s.mayIssue 16 = true → poisoned (s.readDev d 64) = false → c ≠ 0 →
     completesWith (exec (.cxlMemRead hpa ⟨[], [], c⟩) s) fun t =>
       t.out = s.out ++ [.memData hpa (plain (s.readDev d 64)) false] ∧ t.mem.bytes = s.mem.bytes ∧
       unchangedBut [.mem, .care, .evt, .sail, .out] s t) ∧
   (∀ s hpa d e s', hpa % 64 = 0 → hpa < 2 ^ 64 → s.placeOfHpa hpa = .dev d → s.keel.safe = false → s.accessStop d 64 1 0xFF = some s' →
     completesWith (exec (.cxlMemRead hpa e) s) fun t =>
       t.out = s.out ++ [.memData hpa (List.replicate 64 0xFF) false] ∧ unchangedBut [.out, .evt] s t) ∧
   (∀ s hpa d k data, hpa % 64 = 0 → hpa < 2 ^ 64 → data.length = 64 → s.placeOfHpa hpa = .dev d → s.keel.safe = false →
     s.accessStop d 64 2 0xFF = none → s.memoryRests = false → s.repairHeld d 64 = false → s.mayIssue 16 = true →
     storageOf d = some k → d % 64 = 0 → s.mem.slabs = [] → s.movingTo k = none → (∀ l, l ∈ s.mem.wcb → l.setting ≠ k / 1024) →
     completesWith (exec (.cxlMemWrite hpa (BitVec.allOnes 64) data) s) fun t =>
       (∀ i, i < 64 → t.readDevByte (d + i) = (data.getD i 0, false)) ∧ t.out = s.out ++ [.memCompletion hpa] ∧
       t.casket = s.casket ∧ t.tiles = s.tiles)) ∧
  ((∀ s f x ps s0, s.working f 0 0x60001 = some x → bit (xFlags x.desc) 1 = false → (x.strand 0).blob = [] →
     s.endPlaces x.part (xFrom x.desc).1 (xRun x.desc (scatterTile x.desc (x.strand 0).piece).1 (scatterTile x.desc (x.strand 0).piece).2)
       true false = some ps →
     s.access x 0 ps [] = .go s0 → poisoned (s0.readLinesOf ps) = false →
     (∀ r, r ∈ chunks 16 (scatterTile x.desc (x.strand 0).piece).2 (plain (s0.readLinesOf ps)) → xElems x.desc ≤ fieldLe r 0 8) →
     completesWith (exec (.scatterAdd f) s) fun t =>
       pieceWorked t f x (scatterPieces x.desc) 0 ∧ t.mem.bytes = s.mem.bytes ∧ t.mem.wcb = (s0.took ps).mem.wcb ∧
       (∃ y, t.flight f = some y ∧ y.detail =
         x.detail + 2 ^ 32 * (chunks 16 (scatterTile x.desc (x.strand 0).piece).2 (plain (s0.readLinesOf ps))).length)) ∧
   (∀ s f x r a k, s.working f 0 0x60001 = some x → x.blob = [] → (x.strand 0).blob = r → r.length = 16 →
     fieldLe r 0 8 < xElems x.desc →
     s.placeOfVa (s.part x.part).pasid (xDst x.desc + fieldLe r 0 8 * xSize (xFmt x.desc)) false true = some (.dev a) →
     storageOf a = some k → a % xSize (xFmt x.desc) = 0 → s.readHeld a (xSize (xFmt x.desc)) = false → s.mayIssue x.part = true →
     poisoned (s.readDev a (xSize (xFmt x.desc))) = false → s.mem.checks = [] → s.mem.slabs = [] → s.movingTo k = none →
     (∀ l, l ∈ s.mem.wcb → l.setting ≠ k / 1024 ∧ l.errs = []) →
     completesWith (exec (.scatterAdd f) s) fun t =>
       pieceWorked t f x (scatterPieces x.desc) 0 ∧
       t.readDev a (xSize (xFmt x.desc)) = clean (natLe (xSize (xFmt x.desc)) (scatterAdd (xFmt x.desc) (bit (xFlags x.desc) 0)
         (leNat (plain (s.readDev a (xSize (xFmt x.desc))))) (fieldLe r 8 (xSize (xFmt x.desc)))).1) ∧
       t.casket = s.casket ∧ t.tiles = s.tiles))

/-- The striped and the local view name every byte of the stacks, and no byte twice (R235 to R237). -/
def Obligations.ViewsAreOneToOne : Prop :=
  (∀ d, d < 0xC000000000 → ∃ k, storageOf d = some k ∧ k < 32 * settingsPerGroup * 1024) ∧
  (∀ d e, d < 0xC000000000 → e < 0xC000000000 → storageOf d = storageOf e → d = e) ∧
  (∀ d e, 0x10000000000 ≤ d → d < 0x1C000000000 → 0x10000000000 ≤ e → e < 0x1C000000000 → storageOf d = storageOf e → d = e) ∧
  (∀ k, k < 32 * settingsPerGroup * 1024 → storageOf (localAddr k) = some k)

/-! ### The Locket and the life cycle -/

/-- AES-XTS, SHA-3, SHAKE256 and RELEASE put their chunk's output in the Casket; the last chunk ends the work with status 0x00 (R426 to
R428).
AES-GCM: a chunk whose tag verifies is decrypted; one whose tag does not writes nothing, and the descriptor stops with status 0x09;
encryption writes the ciphertext and the tag (R426, R427). -/
def Obligations.LocketChunks : Prop :=
  ((∀ s f x c k, chunkRuns s f 3 x c → s.keySlot (kSlot x.desc) = some k →
     completesWith (exec (.xtsDecrypt f .none) s) fun t =>
       casketHolds t (kTo x.desc + (chunkFrom x.desc c).1) ((xtsUnit true k.key (kIndex x.desc + c) (chunkData s x c)).take (chunkFrom x.desc c).2) ∧
       pieceWorked t f x (kChunks x.desc) 0 ∧ unchangedBut [.casket, .work, .tick, .xlat, .evt] s t) ∧
   (∀ s f x c k, chunkRuns s f 4 x c → s.keySlot (kSlot x.desc) = some k →
     completesWith (exec (.xtsEncrypt f .none) s) fun t =>
       casketHolds t (kTo x.desc + (chunkFrom x.desc c).1) ((xtsUnit false k.key (kIndex x.desc + c) (chunkData s x c)).take (chunkFrom x.desc c).2) ∧
       pieceWorked t f x (kChunks x.desc) 0 ∧ unchangedBut [.casket, .work, .tick, .xlat, .evt] s t) ∧
   (∀ s f x c, chunkRuns s f 5 x c → kKind x.desc = 0 →
     completesWith (exec (.hash f) s) fun t =>
       casketHolds t (kTo x.desc + c * 32) (sha3_256 (chunkData s x c)) ∧
       pieceWorked t f x (kChunks x.desc) 0 ∧ unchangedBut [.casket, .work, .tick, .xlat, .evt] s t) ∧
   (∀ s f x c, chunkRuns s f 5 x c → kKind x.desc = 1 →
     completesWith (exec (.hash f) s) fun t =>
       casketHolds t (kTo x.desc + c * kOutLen x.desc) ((shake256 (chunkData s x c) (kOutLen x.desc)).take (kOutLen x.desc)) ∧
       pieceWorked t f x (kChunks x.desc) 0 ∧ unchangedBut [.casket, .work, .tick, .xlat, .evt] s t) ∧
   (∀ s f x c k, chunkRuns s f 6 x c → s.keySlot (kSlot x.desc) = some k →
     completesWith (exec (.releaseDescriptor f) s) fun t =>
       casketHolds t (kTo x.desc + (chunkFrom x.desc c).1) (chunkData s x c) ∧
       SMap.get 0 t.locket.released x.part = (SMap.get 0 s.locket.released x.part + (chunkFrom x.desc c).2) % 2 ^ 64 ∧
       pieceWorked t f x (kChunks x.desc) 0 ∧ unchangedBut [.casket, .work, .tick, .xlat, .evt, .locket] s t)) ∧
  ((∀ s f x c k tg s0, chunkRuns s f 1 x c → s.keySlot (kSlot x.desc) = some k →
     s.endPlaces x.part 0 (kTags x.desc + 16 * c, 16) true false = some tg →
     s.access x 0 ((Place.casket (kFrom x.desc + (chunkFrom x.desc c).1), (chunkFrom x.desc c).2) :: tg)
       [(.casket (kTo x.desc + (chunkFrom x.desc c).1), (chunkFrom x.desc c).2)] = .go s0 →
     gcmTag (roundKeys k.key) (chunkIv x.desc (kIndex x.desc + c)) (chunkAad x.desc (kIndex x.desc + c)) (chunkData s x c) =
       plain (s0.readLinesOf tg) →
     completesWith (exec (.gcmDecrypt f .none) s) fun t =>
       casketHolds t (kTo x.desc + (chunkFrom x.desc c).1) ((gcmCrypt (roundKeys k.key) (chunkIv x.desc (kIndex x.desc + c))
         (chunkData s x c)).take (chunkFrom x.desc c).2) ∧ pieceWorked t f x (kChunks x.desc) 0) ∧
   (∀ s f x c k tg s0, chunkRuns s f 1 x c → s.keySlot (kSlot x.desc) = some k →
     s.endPlaces x.part 0 (kTags x.desc + 16 * c, 16) true false = some tg →
     s.access x 0 ((Place.casket (kFrom x.desc + (chunkFrom x.desc c).1), (chunkFrom x.desc c).2) :: tg)
       [(.casket (kTo x.desc + (chunkFrom x.desc c).1), (chunkFrom x.desc c).2)] = .go s0 →
     gcmTag (roundKeys k.key) (chunkIv x.desc (kIndex x.desc + c)) (chunkAad x.desc (kIndex x.desc + c)) (chunkData s x c) ≠
       plain (s0.readLinesOf tg) →
     completesWith (exec (.gcmDecrypt f .none) s) fun t =>
       t.casket.bytes = s.casket.bytes ∧ t.mem.bytes = s.mem.bytes ∧ workedWith t f x 9) ∧
   (∀ s f x c k a q s0, chunkRuns s f 2 x c → s.keySlot (kSlot x.desc) = some k →
     s.endPlaces x.part 0 (kTags x.desc + 16 * c, 16) false true = some [(.dev a, 16)] →
     s.access x 0 [(Place.casket (kFrom x.desc + (chunkFrom x.desc c).1), (chunkFrom x.desc c).2)]
       [(.casket (kTo x.desc + (chunkFrom x.desc c).1), (chunkFrom x.desc c).2), (.dev a, 16)] = .go s0 →
     storageOf a = some q → a % 16 = 0 → s.mem.slabs = [] → s.movingTo q = none → (∀ l, l ∈ s.mem.wcb → l.setting ≠ q / 1024) →
     completesWith (exec (.gcmEncrypt f .none) s) fun t =>
       casketHolds t (kTo x.desc + (chunkFrom x.desc c).1) ((gcmCrypt (roundKeys k.key) (chunkIv x.desc (kIndex x.desc + c))
         (chunkData s x c)).take (chunkFrom x.desc c).2) ∧
       t.readDev a 16 = clean (gcmTag (roundKeys k.key) (chunkIv x.desc (kIndex x.desc + c)) (chunkAad x.desc (kIndex x.desc + c))
         (gcmCrypt (roundKeys k.key) (chunkIv x.desc (kIndex x.desc + c)) (chunkData s x c))) ∧
       pieceWorked t f x (kChunks x.desc) 0 ∧ t.tiles = s.tiles))

/-- Keys: the owner key, the import nonce, an import, an erasure, the public KEM key (R420 to R423, R431). -/
def Obligations.KeyCommands : Prop :=
  (∀ s b, s.mboxRuns 0x700 b → s.locket.lc = 3 → b.length = 1312 → s.locket.owner = none →
    completesWith (exec .locketOwnerLoad s) fun t =>
      (if sha3_256 b = s.ctl.cfg.ownerKeyHash ∧ allZero s.ctl.cfg.ownerKeyHash = false then
        t.locket = { s.locket with owner := some b } ∧ t.mboxEnded 0 []
      else t.locket = s.locket ∧ t.mboxEnded 3 (natLe 2 0)) ∧ unchangedBut [.locket, .mbox] s t) ∧
  (∀ s, s.mboxRuns 0x701 [] → s.locket.lc = 3 → s.locket.drbgOk = true →
    completesWith (exec .locketImportNonce s) fun t =>
      t.locket = { s.locket with nonce := some (s.drbg 32), generates := (s.locket.generates + 1) % 2 ^ 16 } ∧ t.mboxEnded 0 (s.drbg 32) ∧ t.free = s.free + 1 ∧
      unchangedBut [.locket, .mbox, .free] s t) ∧
  (∀ s b, s.mboxRuns 0x702 b → s.locket.lc = 3 → b.length = 3652 →
    completesWith (exec .locketKeyImport s) fun t =>
      (∀ key, s.importFail b = none → s.unwrap b = some key → s.keySlot (fieldLe b 2 2) = none →
        t.keySlot (fieldLe b 2 2) = some ⟨byteAt b 1, byteAt b 5, fieldLe b 8 8, byteAt b 4, key⟩ ∧ t.locket.nonce = none ∧
        t.mboxEnded 0 []) ∧
      (∀ off, s.importFail b = some off → t.locket.keys = s.locket.keys ∧ t.mboxEnded 3 (natLe 2 off)) ∧
      (∀ k, k ≠ fieldLe b 2 2 → t.keySlot k = s.keySlot k) ∧ unchangedBut [.locket, .mbox, .evt, .free] s t) ∧
  (∀ s b, s.mboxRuns 0x703 b → s.locket.lc ≤ 4 → b.length = 8 → fieldLe b 0 2 < 4096 → (∀ i, 2 ≤ i → i < 8 → byteAt b i = 0) →
    completesWith (exec .locketKeyErase s) fun t =>
      t.keySlot (fieldLe b 0 2) = none ∧ (∀ k, k ≠ fieldLe b 0 2 → t.keySlot k = s.keySlot k) ∧ t.mboxEnded 0 [] ∧
      unchangedBut [.locket, .mbox] s t) ∧
  (∀ s dz, s.mboxRuns 0x704 [] → s.kemSeed = some dz →
    completesWith (exec .locketKemPublic s) fun t => t.mboxEnded 0 (Config.kemPublic dz) ∧ unchangedBut [.mbox] s t)

/-- Sealed regions are sealed at their boundary, unsealed, zeroed and freed (R413, R417, R418). -/
def Obligations.SealedRegions : Prop :=
  (∀ s b, s.mboxRuns 0x705 b → s.locket.lc = 3 → b.length = 104 → firstFail (s.sealChecks b) = none →
    s.locket.sealDue = [] → (∀ i, i ∈ sealSlabs b → s.sealTaken i = false) → (s.region (byteAt b 0)).state = 0 →
    completesWith (exec .locketSeal s) fun t =>
      t.locket = { s.locket with sealDue := [⟨byteAt b 0, byteAt b 1, fieldLe b 2 2, sealSlabs b⟩] } ∧
      unchangedBut [.locket] s t) ∧
  (∀ s r q, r < 64 → s.locket.sealDue = [q] → q.region = r → s.mbox.busy = none → s.sealReady q = true →
    completesWith (exec (.sealTakeEffect r) s) fun t =>
      t.region r = ⟨1, q.partition, q.keySlot, q.slabs, false⟩ ∧ t.locket.sealDue = [] ∧
      (∀ k, k ≠ r → t.region k = s.region k) ∧ t.keel.copy = t.sealMap ∧ unchangedBut [.locket, .evt, .keel] s t) ∧
  (∀ s b, s.mboxRuns 0x706 b → s.locket.lc ≤ 4 → b.length = 8 → byteAt b 0 < 64 → (∀ i, 1 ≤ i → i < 8 → byteAt b i = 0) →
    (s.region (byteAt b 0)).state = 1 ∨ (s.region (byteAt b 0)).state = 2 →
    completesWith (exec .locketUnseal s) fun t =>
      t.locket = { s.locket with unsealDue := s.locket.unsealDue ++ [byteAt b 0] } ∧ t.mboxEnded 0 [] ∧
      unchangedBut [.locket, .mbox] s t) ∧
  (∀ s r, r < 64 → (s.region r).state = 3 → (s.region r).wasBound = false → s.memoryRests = false →
    completesWith (exec (.unsealZeroDone r) s) fun t =>
      t.region r = {} ∧ (∀ k, k ≠ r → t.region k = s.region k) ∧
      (∀ i k, i ∈ (s.region r).slabs → s.redirect (slabBase i) ≤ k → k < s.redirect (slabBase i) + 2 ^ 30 → SMap.get 0 t.mem.bytes k = 0) ∧
      t.keel.copy = t.sealMap ∧ t.casket = s.casket ∧ t.tiles = s.tiles)

/-- Attestation of a site die is started by command, judged when the die answers, and given up at its time limit; a failed entropy
test stops the DRBG (R429, R435). -/
def Obligations.AttestationAndEntropy : Prop :=
  (∀ s b, s.mboxRuns 0x707 b → s.locket.lc = 3 → b.length = 8 → byteAt b 0 < 6 → (∀ i, 1 ≤ i → i < 8 → byteAt b i = 0) →
    (s.site (byteAt b 0)).state = 3 →
    completesWith (exec .locketAttestSite s) fun t =>
      t.locket.attestSeq = s.locket.attestSeq + 1 ∧ t.mboxEnded 0 [] ∧ t.mem = s.mem ∧ t.casket = s.casket) ∧
  (∀ s q a b, q < 6 → (s.site q).attest = some a → b.seq = a.seq →
    completesWith (exec (.siteAttestPoll q (some b)) s) fun t =>
      (t.site q).attest = none ∧
      (t.site q).attested = (b.algorithms && s.ctl.cfg.roots.contains (sha3_256 b.root) &&
        Config.mlDsaVerify b.key [] b.challenge b.challengeSig && Config.mlDsaVerify b.key [] b.measured b.measuredSig &&
        s.ctl.cfg.measurements.contains (sha3_256 b.record)) ∧
      ((t.site q).attested = true → (t.site q).digest = sha3_256 b.record) ∧
      (∀ p, p ≠ q → t.site p = s.site p) ∧ unchangedBut [.sites, .evt, .keel] s t) ∧
  (∀ s q a, q < 6 → (s.site q).attest = some a →
    completesWith (exec (.siteAttestTimeout q) s) fun t =>
      (t.site q).attested = false ∧ (t.site q).attest = none ∧ (∀ p, p ≠ q → t.site p = s.site p) ∧
      unchangedBut [.sites, .evt, .keel] s t) ∧
  (∀ s test, test = 1 ∨ test = 2 →
    completesWith (exec (.entropyHealthFail test) s) fun t =>
      t.locket = { s.locket with drbgOk := false, entropyOk := false } ∧ unchangedBut [.locket, .evt] s t)

/-- The life cycle moves only forward, by its commands, and a restart follows every move (R436, R438). -/
def Obligations.LifeCycleMoves : Prop :=
  (∀ s, s.mboxRuns 0x710 [] → s.locket.lc = 2 →
    completesWith (exec .lcField s) fun t =>
      t.locket = { s.locket with lc := 3, imageKeyHash := s.ctl.imageKeyHash } ∧ t.ctl.restartDue = true ∧ t.mboxEnded 0 [] ∧
      unchangedBut [.locket, .ctl, .evt, .mbox] s t) ∧
  (∀ s b, s.mboxRuns 0x711 b → s.locket.lc = 3 → b.length = 2468 → s.locket.returning = false → fieldLe b 0 16 = s.locket.uid →
    s.locket.nonce = some (slice b 16 32) →
    completesWith (exec .lcReturn s) fun t =>
      t.locket = { s.locket with returning := Config.returnTokenOk (b.take 48) (b.drop 48) } ∧
      (Config.returnTokenOk (b.take 48) (b.drop 48) = false → t.mboxEnded 3 (natLe 2 48)) ∧ unchangedBut [.locket, .mbox] s t) ∧
  (∀ s b, s.mboxRuns 0x712 b → s.locket.lc ≤ 4 → b.length = 8 → fieldLe b 0 8 = s.locket.uid % 2 ^ 64 →
    completesWith (exec .lcScrap s) fun t =>
      t.locket = { s.locket with lc := 5 } ∧ t.ctl.restartDue = true ∧ t.mboxEnded 0 [] ∧
      unchangedBut [.locket, .ctl, .evt, .mbox] s t) ∧
  (∀ s token, s.locket.lc = 1 → s.locket.entropyOk = true → s.locket.drbgOk = true →
    completesWith (exec (.instrumentLcTransition 2 token) s) fun t =>
      t.locket = { s.locket with lc := 2, seed := some (s.drbg 32), chain := token, generates := (s.locket.generates + 1) % 2 ^ 16 } ∧
      t.ctl.restartDue = true ∧ t.free = s.free + 1 ∧ unchangedBut [.locket, .ctl, .evt, .free] s t) ∧
  (∀ s token, s.locket.lc = 0 →
    completesWith (exec (.instrumentLcTransition 1 token) s) fun t =>
      (Config.testTokenOk token = true → t.locket = { s.locket with lc := 1 } ∧ t.ctl.restartDue = true) ∧
      (Config.testTokenOk token = false → t = s) ∧ unchangedBut [.locket, .ctl, .evt] s t) ∧
  (∀ s token, s.locket.lc ≤ 1 → fieldLe token 0 8 = s.locket.uid % 2 ^ 64 →
    completesWith (exec (.instrumentLcTransition 5 token) s) fun t =>
      t.locket = { s.locket with lc := 5 } ∧ t.ctl.restartDue = true ∧ unchangedBut [.locket, .ctl, .evt] s t)

/-- The SPDM responder answers each request as its session and its negotiation allow (R433, R434).
Sessions are made, established, used and ended; a request outside an established session is an error (R433). -/
def Obligations.SpdmResponder : Prop :=
  ((∀ s, s.host.linkUp = true → exec .spdmGetVersion s = .next { s with out := s.out ++ [.spdm (.version 0x12)] }) ∧
   (∀ s, s.spdmUp = true → exec .spdmGetCapabilities s = .next { s with out := s.out ++ [.spdm .capabilities] }) ∧
   (∀ s, s.spdmUp = true → exec (.spdmNegotiateAlgorithms ⟨true, true, true, true, true⟩) s =
     .next { s with locket := { s.locket with negotiated := true }, out := s.out ++ [.spdm (.algorithms 0x1F3A 1 0x0100 2)] }) ∧
   (∀ s, s.spdmUp = true → s.locket.negotiated = true →
     exec .spdmGetDigests s = .next { s with out := s.out ++ [.spdm (.digests (sha3_256 s.locket.chain))] }) ∧
   (∀ s off len, s.spdmUp = true → s.locket.negotiated = true → off < s.locket.chain.length →
     exec (.spdmGetCertificate 0 off len) s = .next { s with out := s.out ++
       [.spdm (.certificate (slice s.locket.chain off len) (s.locket.chain.length - off - len))] }) ∧
   (∀ s xi nonce, s.spdmUp = true → s.locket.negotiated = true → s.locket.drbgOk = true → s.deviceXi = some xi →
     exec (.spdmChallenge 0 nonce) s = .next { s with
       free := s.free + 1
       locket := { s.locket with generates := (s.locket.generates + 1) % 2 ^ 16 }
       out := s.out ++ [.spdm (.challengeAuth (sha3_256 s.locket.chain) (sha3_256 s.allMeasurements) (s.drbg 32)
         (Config.mlDsaSign xi (nonce ++ sha3_256 s.locket.chain ++ sha3_256 s.allMeasurements ++ s.drbg 32)))] }) ∧
   (∀ s xi i nonce, s.spdmUp = true → s.locket.negotiated = true → s.locket.drbgOk = true → s.deviceXi = some xi → 1 ≤ i → i ≤ 5 →
     exec (.spdmGetMeasurements i nonce) s = .next { s with
       free := s.free + 1
       locket := { s.locket with generates := (s.locket.generates + 1) % 2 ^ 16 }
       out := s.out ++ [.spdm (.measurements [(i, s.measurement i)] (s.drbg 32)
         (Config.mlDsaSign xi (nonce ++ s.measurement i ++ s.drbg 32)))] })) ∧
  ((∀ s xi ek, s.spdmUp = true → s.locket.negotiated = true → s.locket.drbgOk = true → s.deviceXi = some xi → ek.length = 1184 →
     s.locket.sessions.length < 4 →
     completesWith (exec (.spdmKeyExchange ek) s) fun t =>
       t.locket.sessions = s.locket.sessions ++ [⟨s.locket.nextSession, (Config.kemEncaps ek s.free).1, false, 0⟩] ∧
       t.locket.nextSession = (s.locket.nextSession + 1) % 65536 ∧ t.locket.keys = s.locket.keys ∧
       unchangedBut [.locket, .out, .free] s t) ∧
   (∀ s sid x, s.spdmUp = true → s.session sid = some x → x.established = false →
     completesWith (exec (.spdmFinish sid (Config.finishMac x.secret)) s) fun t =>
       t.session sid = some { x with established := true } ∧ t.out = s.out ++ [.spdm .finish] ∧ unchangedBut [.locket, .out] s t) ∧
   (∀ s sid x, s.spdmUp = true → s.session sid = some x → x.established = true →
     completesWith (exec (.spdmEndSession sid) s) fun t =>
       t.session sid = none ∧ t.out = s.out ++ [.spdm .endSession] ∧ unchangedBut [.locket, .out] s t) ∧
   (∀ s sid x, s.spdmUp = true → s.session sid = some x → x.established = true →
     completesWith (exec (.spdmKeyUpdate sid 1) s) fun t =>
       t.session sid = some { x with updates := x.updates + 1 } ∧ t.out = s.out ++ [.spdm .keyUpdate] ∧
       unchangedBut [.locket, .out] s t) ∧
   (∀ s sid x, s.spdmUp = true → s.session sid = some x → x.established = true →
     exec (.spdmHeartbeat sid) s = .next { s with out := s.out ++ [.spdm .heartbeat] }) ∧
   (∀ s sid x m, s.spdmUp = true → s.session sid = some x → x.established = true → m.op = 2 →
     exec (.spdmVendorDefinedRequest sid m) s =
       .next { s with host := { s.host with ide := true }, out := s.out ++ [.spdm (.vendorDefined 2)] }) ∧
   (∀ s sid, s.spdmUp = true → s.session sid = none →
     exec (.spdmHeartbeat sid) s = .next { s with out := s.out ++ [.spdm .error] }))

/-! ### Lines, translation and invalidation -/

/-- A line read is answered once; an observed write lets the next one go out (R305).
A Translation Completion with the rights that were asked for is installed for its page, and its request is done (R333, R334). -/
def Obligations.HostLinesAndTranslation : Prop :=
  ((∀ s line data poison, List.length data = 64 → s.host.asked.contains line = true → s.host.ctlAsked.contains line = false →
     completesWith (exec (.cxlCacheReadData line data poison) s) fun t =>
       SMap.get none t.host.lines line = some ⟨data, poison⟩ ∧ line ∉ t.host.asked ∧
       (∀ l, l ≠ line → SMap.get none t.host.lines l = SMap.get none s.host.lines l) ∧ unchangedBut [.host] s t) ∧
   (∀ s line data poison, List.length data = 64 → s.host.asked.contains line = false → s.host.ctlAsked.contains line = false →
     exec (.cxlCacheReadData line data poison) s = .next s) ∧
   (∀ s q a d p, s.tick.phase ≠ 0 → s.host.writes = [.toHost q a d p true] →
     exec .globalObservation s = .next { s with host := { s.host with writes := [] } }) ∧
   (∀ s q a d p q' a' d' p' rest, s.tick.phase ≠ 0 → s.host.writes = .toHost q a d p true :: .toHost q' a' d' p' false :: rest →
     exec .globalObservation s = .next { s with
       host := { s.host with writes := .toHost q' a' d' p' true :: rest }, out := s.out ++ [.hostWrite a' d' p'] })) ∧
  (∀ (s : State) (c : TransCompletion) (q : XlatReq), s.tick.phase ≠ 0 → s.host.writes = [] → s.xlat.reqs = [q] → q.sent = true →
     q.pasid = c.pasid → q.page = c.va / 4096 * 4096 → q.discard = false → q.hold = false → q.epoch = SMap.get 0 s.xlat.epochs 49 →
     (c.read = true ∨ c.write = true) → c.untranslatedOnly = false →
     (∀ w, w ∈ q.waits → (w.read = true → c.read = true) ∧ (w.write = true → c.write = true)) →
     (∃ w, w ∈ q.waits ∧ w.isAhead = false) →
     completesWith (exec (.translationCompletion c) s) fun t =>
       t.xlat.l2.head? = some ⟨c.pasid, q.page / 2 ^ min c.log2 30 * 2 ^ min c.log2 30, min c.log2 30,
         c.addr / 2 ^ c.log2 * 2 ^ c.log2 + q.page / 2 ^ min c.log2 30 * 2 ^ min c.log2 30 % 2 ^ c.log2, c.read, c.write, q.epoch,
         false, [], false⟩ ∧
       t.xlat.reqs = [] ∧ t.xlat.faults = s.xlat.faults ∧ unchangedBut [.xlat] s t)

/-- Page request groups end: an answer to none is discarded, Success asks for the pages again, an overdue group is given up (R338 to
R341); PRI goes on after PRI_RESTART. -/
def Obligations.PageRequestsEnd : Prop :=
  (∀ s pasid g code, s.xlat.groups.find? (fun x => x.index == g && x.pasid == pasid) = none →
    completesWith (exec (.pageRequestResponse pasid g code) s) fun t => unchangedBut [.evt] s t) ∧
  (∀ s pasid g r, s.xlat.groups.find? (fun x => x.index == g && x.pasid == pasid) = some r →
    completesWith (exec (.pageRequestResponse pasid g .success) s) fun t =>
      (∀ x, x ∈ t.xlat.groups ↔ x ∈ s.xlat.groups ∧ x.index ≠ g) ∧
      (∀ x, x ∈ t.xlat.faults ↔ x ∈ s.xlat.faults ∧ x.group ≠ some g) ∧
      (∀ x, x ∈ s.xlat.faults → x.group = some g → ∃ q, q ∈ t.xlat.reqs ∧ q.pasid = x.pasid ∧ q.page = x.page) ∧
      unchangedBut [.xlat, .out] s t) ∧
  (∀ s pasid g r, s.xlat.groups.find? (fun x => x.index == g && x.pasid == pasid) = some r → s.xlat.faults = [] →
    completesWith (exec (.pageRequestResponse pasid g .failure) s) fun t =>
      t.xlat.halted = true ∧ t.xlat.groups = [] ∧ unchangedBut [.xlat, .evt] s t) ∧
  (∀ s g r, s.xlat.groups.find? (fun x => x.index == g) = some r → s.tick.count < r.dueTick →
    exec (.pageRequestTimeout g) s = .next s) ∧
  (∀ s g r, s.xlat.groups.find? (fun x => x.index == g) = some r → r.dueTick = s.tick.count → s.tick.phase = 2 →
    s.xlat.faults = [] →
    completesWith (exec (.pageRequestTimeout g) s) fun t =>
      (∀ x, x ∈ t.xlat.groups ↔ x ∈ s.xlat.groups ∧ x.index ≠ g) ∧ unchangedBut [.xlat] s t) ∧
  (∀ s, s.mboxRuns 0x401 [] → s.xlat.halted = true →
    completesWith (exec .priRestart s) fun t => t.xlat.restart = true ∧ t.mboxEnded 0 [] ∧ unchangedBut [.xlat, .mbox] s t) ∧
  (∀ s, s.mboxRuns 0x401 [] → s.xlat.halted = false →
    completesWith (exec .priRestart s) fun t => t.mboxEnded 4 [] ∧ unchangedBut [.mbox] s t)

/-- Invalidations: no translation that matches is used again, those that do not match stay, and the request is answered once the
work that held the page has drained (R345, Table 10.6). -/
def Obligations.InvalidationsRemoveAndDrain : Prop :=
  (∀ s itag (r : InvRange), s.host.linkUp = true → s.invCount true < 32 →
    completesWith (exec (.atsInvalidateRequest itag r) s) fun t =>
      (∀ e, e ∈ t.xlat.l2 → invMatches r e.pasid e.va e.log2 = true → e.doomed = true ∧ e.pins ≠ []) ∧
      (∀ e, e ∈ s.xlat.l2 → invMatches r e.pasid e.va e.log2 = false → e.doomed = false → e ∈ t.xlat.l2) ∧
      t.xlat.invs.length = s.xlat.invs.length + 1 ∧ unchangedBut [.xlat] s t) ∧
  (∀ s f x, s.controlReady f 0x80010 = some x → s.invCount false < 32 →
    completesWith (exec (.invalidate f) s) fun t =>
      (∀ e, e ∈ t.xlat.l2 → invMatches (invRangeOf x.desc (s.part x.part).pasid) e.pasid e.va e.log2 = true →
        e.doomed = true ∧ e.pins ≠ []) ∧
      t.flight f = some { x with state := .running s.tick.count } ∧ unchangedBut [.work, .xlat] s t) ∧
  (∀ s b, s.mboxRuns 0x400 b → List.length b = 24 → s.invCount false < 32 → (∀ i, i ∈ s.xlat.invs → i.source ≠ .mailbox) →
    fieldLe b 0 4 < 2 ^ 20 → byteAt b 4 = 1 → (∀ k, 5 ≤ k → k < 24 → byteAt b k = 0) →
    completesWith (exec .xlatInvalidate s) fun t =>
      (∀ e, e ∈ t.xlat.l2 → e.pasid = fieldLe b 0 4 → e.doomed = true ∧ e.pins ≠ []) ∧ t.mbox = s.mbox ∧ unchangedBut [.xlat] s t) ∧
  (∀ s id itag r n k, s.xlat.invs[id]? = some ⟨.ats itag, r, n, k, []⟩ → s.hostWritesOut = false →
    exec (.invalidationDrained id) s = .next { s with
      xlat := { s.xlat with invs := s.xlat.invs.eraseIdx id }, out := s.out ++ [.invalidateCompletion itag] }) ∧
  (∀ s id f x r n k, s.xlat.invs[id]? = some ⟨.descriptor f, r, n, k, []⟩ → s.hostWritesOut = false → s.flight f = some x →
    dKey x.desc = 0x80010 →
    completesWith (exec (.invalidationDrained id) s) fun t =>
      endedWith s t f x 0 (n % 2 ^ 32 * 2 ^ 32 + k) ∧ unchangedBut [.work, .xlat] s t)

/-! ### Launches and Filigree schedules -/

/-- A LAUNCH stages its images, then its programs start together with the registers the spec gives them, and IMEM holds the instruction
image (R150). -/
def Obligations.LaunchesStageAndStart : Prop :=
  (∀ s f x s1, s.staging f 0x30001 = some x → s.stageBusy x = false → s.fetch x 0 (s.imageOpnds x.part x.desc) [] [] [] = .go s1 →
    s1.flight f = some x →
    completesWith (exec (.launch f) s) fun t =>
      (∃ y, t.flight f = some y ∧ y.staged = true ∧ y.desc = x.desc ∧ y.state = x.state ∧ (∀ z, z ∈ y.strands → z.pinned = false) ∧
        y.blob = ((s.imageOpnds x.part x.desc).map (fun o => (s.opndRows x.part o).flatten)).flatten) ∧
      t.tiles = s1.tiles ∧ t.casket.bytes = s1.casket.bytes ∧ t.mem = s1.mem) ∧
  (∀ s f x k n, s.canStart f 0x30001 (fun x => s.setTiles x.part x.desc) = some x → x.strands ≠ [] →
    (s.setTiles x.part x.desc)[k]? = some n → (s.setTiles x.part x.desc).Nodup →
    completesWith (exec (.launchStart f) s) fun t =>
      (t.tile n).state = 2 ∧ (t.tile n).prog = some f ∧ (t.tile n).inRun = false ∧ (t.tile n).pc = BitVec.ofNat 32 (lEntry x.desc) ∧
      (t.tile n).stall = .none ∧ (t.tile n).cycle = 0 ∧ (t.tile n).trapActive = false ∧ (t.tile n).mtvec = 0 ∧
      (t.tile n).reg 2 = 0x20000 ∧ (t.tile n).reg 10 = (lFirst x.desc + k) % 2 ^ 32 ∧ (t.tile n).reg 11 = lArg x.desc % 2 ^ 32 ∧
      (t.tile n).reg 12 = k % 2 ^ 32 ∧ (∀ r, r < 32 → r ≠ 2 → r ≠ 10 → r ≠ 11 → r ≠ 12 → (t.tile n).reg r = 0) ∧
      (bit (lFlags x.desc) 0 = false → ∀ i, i < (slice x.blob 0 (lILen x.desc)).length →
        SMap.get 0 (t.tile n).imem i = (slice x.blob 0 (lILen x.desc)).getD i 0) ∧
      (∀ m, m ∉ s.setTiles x.part x.desc → t.tile m = s.tile m) ∧
      (∃ y, t.flight f = some y ∧ (y.strand 0).state = .running (s.tick.count + lBudget x.desc - 1)) ∧
      unchangedBut [.work, .tiles] s t)

/-- A LOAD whose image is bad ends with the status, and the detail, of the first check of Table 5.12 that fails; a good one is staged,
and its tables reach the tiles when it starts (R191, R193). -/
def Obligations.LoadsCheckAndWriteTables : Prop :=
  (∀ s f x s1 g r, s.staging f 0x40001 = some x → s.stageBusy x = false → s.fetch x 0 (s.imageOpnds x.part x.desc) [] [] [] = .go s1 →
    s1.flight f = some x → g = ((s.imageOpnds x.part x.desc).map (fun o => (s.opndRows x.part o).flatten)).flatten →
    (s1.unpin f).loadCheck x.part f (oLen x.desc) g = some r → 1 ≤ r.reason →
    completesWith (exec (.load f) s) fun t =>
      (∃ y, t.flight f = some y ∧ y.state = .ended ∧ y.status = r.status ∧
        y.detail = r.tile * 2 ^ 48 + r.reason * 2 ^ 40 + r.section_ * 2 ^ 32 + r.offset % 2 ^ 32) ∧
      t.tiles = s1.tiles ∧ t.casket = s1.casket ∧ t.mem = s1.mem) ∧
  (∀ s f x s1 g, s.staging f 0x40001 = some x → s.stageBusy x = false → s.fetch x 0 (s.imageOpnds x.part x.desc) [] [] [] = .go s1 →
    s1.flight f = some x → g = ((s.imageOpnds x.part x.desc).map (fun o => (s.opndRows x.part o).flatten)).flatten →
    (s1.unpin f).loadCheck x.part f (oLen x.desc) g = none → (s1.unpin f).stageFits x.part (loadNeed g) = true →
    (s1.unpin f).stageBusy { x with stage := loadNeed g } = false →
    completesWith (exec (.load f) s) fun t =>
      (∃ y, t.flight f = some y ∧ y.staged = true ∧ y.blob = g ∧ y.stage = loadNeed g ∧ y.desc = x.desc ∧ y.state = x.state) ∧
      t.tiles = s1.tiles ∧ t.casket.bytes = s1.casket.bytes ∧ t.mem = s1.mem) ∧
  (∀ (s : State) p f len g o, imgHeaderBad g len = some o → s.loadCheck p f len g = some ⟨1, 6, 0xFFFF, 0, o⟩) ∧
  (∀ s f x, s.canStart f 0x40001 (fun x => (imgTiles x.blob).map (fun e => e.tile)) = some x → x.strands ≠ [] →
    completesWith (exec (.loadStart f) s) fun t =>
      (∀ e, e ∈ imgTiles x.blob → (∀ e', e' ∈ imgTiles x.blob → e'.tile = e.tile → e' = e) → (t.tile e.tile).table = e.slots) ∧
      (∀ m, (∀ e, e ∈ imgTiles x.blob → e.tile ≠ m) → t.tile m = s.tile m) ∧
      (∃ y, t.flight f = some y ∧ y.worked = true ∧ y.blob = x.blob ∧ (y.strand 0).state = .running s.tick.count) ∧
      unchangedBut [.work, .tiles] s t)

/-- RUN stages its images, ends with 0x06 where no schedule is loaded, and starts the programs of a loaded one; UNLOAD ends (R194, R197);
frames begin in their cycle (R195), and records that no frame took are dropped (R199). -/
def Obligations.RunsStartAndEnd : Prop :=
  (∀ s f x, s.staging f 0x40002 = some x → (s.sched x.part).state < 2 →
    completesWith (exec (.run f) s) fun t => endedWith s t f x 6 (0xFFFF * 2 ^ 48 + s.exitOf x) ∧ unchangedBut [.work, .xlat] s t) ∧
  (∀ s f x, s.staging f 0x40002 = some x → 2 ≤ (s.sched x.part).state → s.stageFits x.part (s.needOf x) = true → uPLen x.desc = 0 →
    completesWith (exec (.run f) s) fun t =>
      t.flight f = some { x with
        strands := x.strands.map (fun y => { y with pinned := false, issued := 0 }), staged := true, blob := [] } ∧
      unchangedBut [.work, .xlat] s t) ∧
  (∀ s f x s1, s.staging f 0x40002 = some x → 2 ≤ (s.sched x.part).state → s.stageFits x.part (s.needOf x) = true → uPLen x.desc ≠ 0 →
    s.stageBusy x = false → s.fetch x 0 (s.imageOpnds x.part x.desc) [] [] [] = .go s1 → s1.flight f = some x →
    completesWith (exec (.run f) s) fun t =>
      (∃ y, t.flight f = some y ∧ y.staged = true ∧ y.desc = x.desc ∧ y.state = x.state ∧
        y.blob = ((s.imageOpnds x.part x.desc).map (fun o => (s.opndRows x.part o).flatten)).flatten) ∧
      t.tiles = s1.tiles ∧ t.casket.bytes = s1.casket.bytes ∧ t.mem = s1.mem) ∧
  (∀ s f x, s.canStart f 0x40002 (fun x => (s.sched x.part).tiles.map (fun e => e.1)) = some x → x.strands ≠ [] →
    (s.sched x.part).state = 2 →
    completesWith (exec (.runStart f) s) fun t =>
      (t.sched x.part).state = 3 ∧
      (∃ r, (t.sched x.part).run = some r ∧ r.flight = f ∧ r.startTick = s.tick.count ∧ r.ticks = uTicks x.desc ∧
        r.frameTick = s.tick.count ∧ r.inFrame = false ∧ r.framesDone = 0) ∧
      (∀ n, n ∈ (s.sched x.part).programTiles → (t.tile n).state = 2 ∧ (t.tile n).prog = some f ∧ (t.tile n).inRun = true ∧
        (t.tile n).cycle = 0 ∧ (t.tile n).reg 2 = 0x20000) ∧
      (∀ m, m ∉ (s.sched x.part).programTiles → t.tile m = s.tile m) ∧
      (∃ y, t.flight f = some y ∧ (y.strand 0).state = .running (s.tick.count + uTicks x.desc - 1)) ∧
      unchangedBut [.work, .tiles, .mesh] s t) ∧
  (∀ s f x, s.controlReady f 0x40003 = some x →
    completesWith (exec (.unload f) s) fun t =>
      endedWith s t f x (if s.work.flights.any (fun y => y.part == x.part && dKey y.desc == 0x40002 && !y.failed) then 6 else 0) 0 ∧
      unchangedBut [.work, .xlat] s t) ∧
  (∀ s p e r first, p < 16 → (∀ x, x ∈ e → x.tile < 4608 ∧ 1 ≤ x.kind ∧ x.kind ≤ 7) → (s.sched p).run = some r → r.inFrame = false →
    r.frameTick ≤ s.tick.count → r.frameTick < r.startTick + r.ticks → r.firstCycle (s.sched p).offset = some first →
    ∃ u, exec (.frameStart p e) s = .next (u.advance p) ∧
      (u.sched p).run = some { r with
        inFrame := true, frameStart := if r.framesDone = 0 then max r.lastEnd first else r.lastEnd, slot := 0, hard := e } ∧
      unchangedBut [.tiles, .mesh] s u) ∧
  (∀ s p, p < 16 →
    completesWith (exec (.meshOfferDrop p) s) fun t =>
      (∀ o, o ∈ t.mesh.offers ↔ o ∈ s.mesh.offers ∧ (o.part ≠ p ∨ s.tick.count < o.tick + 2)) ∧
      t.mesh.scheds = s.mesh.scheds ∧ unchangedBut [.mesh, .evt] s t)

/-! ### Bead cores -/

/-- The integer instructions, jumps, multiplications, divisions, FENCE, CSR instructions and MRET write their register and the pc, and
nothing else (R122 to R126, R155). -/
def Obligations.BeadIntegerInstructions : Prop :=
  (∀ s n rd imm w len, s.beadAt n (.lui rd imm) w len →
    beadDone (exec (.integerOp n) s) s n (((s.core n).setReg rd imm).stepped ((s.core n).next len) 1)) ∧
  (∀ s n rd imm w len, s.beadAt n (.auipc rd imm) w len →
    beadDone (exec (.integerOp n) s) s n
      (((s.core n).setReg rd (((s.core n).pc.toNat + imm) % 2 ^ 32)).stepped ((s.core n).next len) 1)) ∧
  (∀ s n f alt rd rs1 imm w len, s.beadAt n (.opImm f alt rd rs1 imm) w len →
    beadDone (exec (.integerOp n) s) s n
      (((s.core n).setReg rd (aluOp f alt ((s.core n).reg rs1) imm)).stepped ((s.core n).next len) 1)) ∧
  (∀ s n f alt rd rs1 rs2 w len, s.beadAt n (.opReg f alt rd rs1 rs2) w len →
    beadDone (exec (.integerOp n) s) s n
      (((s.core n).setReg rd (aluOp f alt ((s.core n).reg rs1) ((s.core n).reg rs2))).stepped ((s.core n).next len) 1)) ∧
  (∀ s n f rs1 rs2 imm w len, s.beadAt n (.branch f rs1 rs2 imm) w len →
    beadDone (exec (.branch n) s) s n
      (if branchTaken f ((s.core n).reg rs1) ((s.core n).reg rs2) = true then
        (s.core n).stepped (((s.core n).pc.toNat + imm) % 2 ^ 32) 3 else (s.core n).stepped ((s.core n).next len) 1)) ∧
  (∀ s n rd imm w len, s.beadAt n (.jal rd imm) w len →
    beadDone (exec (.jump n) s) s n
      (((s.core n).setReg rd ((s.core n).next len)).stepped (((s.core n).pc.toNat + imm) % 2 ^ 32) 3)) ∧
  (∀ s n rd rs1 imm w len, s.beadAt n (.jalr rd rs1 imm) w len →
    beadDone (exec (.jump n) s) s n
      (((s.core n).setReg rd ((s.core n).next len)).stepped ((s.core n).addr rs1 imm / 2 * 2) 3)) ∧
  (∀ s n f rd rs1 rs2 w len, f < 4 → s.beadAt n (.mulDiv f rd rs1 rs2) w len →
    beadDone (exec (.mul n) s) s n
      (((s.core n).setReg rd (mulDiv f ((s.core n).reg rs1) ((s.core n).reg rs2))).stepped ((s.core n).next len) 3)) ∧
  (∀ s n f rd rs1 rs2 w len, 4 ≤ f → s.beadAt n (.mulDiv f rd rs1 rs2) w len →
    beadDone (exec (.div n) s) s n
      (((s.core n).setReg rd (mulDiv f ((s.core n).reg rs1) ((s.core n).reg rs2))).stepped ((s.core n).next len) 34)) ∧
  (∀ s n w len, s.beadAt n .fence w len → beadDone (exec (.fence n) s) s n ((s.core n).stepped ((s.core n).next len) 1)) ∧
  (∀ s n w len, s.beadAt n .mret w len →
    beadDone (exec (.mret n) s) s n ({ s.core n with trapActive := false }.stepped (s.core n).mepc.toNat 4)) ∧
  (∀ s n f rd k rs1 w len old, s.beadAt n (.csr f rd k rs1) w len → s.csrRead n (s.core n) k = some old → csrWrites f rs1 = false →
    beadDone (exec (.csrAccess n) s) s n (((s.core n).setReg rd old).stepped ((s.core n).next len) 2)) ∧
  (∀ s n f rd k rs1 w len old, s.beadAt n (.csr f rd k rs1) w len → s.csrRead n (s.core n) k = some old → csrWrites f rs1 = true →
    k < 0xC00 → k ≠ 0x7C3 →
    beadDone (exec (.csrAccess n) s) s n
      ((((s.core n).csrWrite k (csrValue f old ((s.core n).csrOperand f rs1))).setReg rd old).stepped ((s.core n).next len) 2))

/-- Ends, traps, waits (R122, R123, R126, R128, R151, R155, R157): ECALL with a7 = 0 ends the program with a0; the other ECALLs,
EBREAK, an illegal encoding, a fetch outside IMEM and a CSR that does not exist raise their causes; WFI waits for the tick boundary. -/
def Obligations.BeadTrapsAndEnds : Prop :=
  (∀ s n w len, s.beadAt n .ecall w len → (s.core n).inRun = false → (s.core n).reg 17 = 0 →
    (∀ f x, (s.tile n).prog = some f → s.flight f = some x → dClass x.desc ≠ 4) →
    completesWith (exec (.ecall n) s) fun t =>
      (t.tile n).state = 0 ∧ (t.tile n).ended = some (.exit ((s.core n).reg 10)) ∧ (∀ m, m ≠ n → t.tile m = s.tile m) ∧
      unchangedBut [.tiles, .work, .evt] s t) ∧
  (∀ s n w len, s.beadAt n .ecall w len → (s.core n).reg 17 ≠ 0 → s.canTrap n →
    beadDone (exec (.ecall n) s) s n ((s.core n).trapped 11 0)) ∧
  (∀ s n w len, s.beadAt n .ebreak w len → s.dbg.claim = false → s.canTrap n →
    beadDone (exec (.ebreak n) s) s n ((s.core n).trapped 3 (s.core n).pc.toNat)) ∧
  (∀ s n w len, s.beadAt n .ebreak w len → s.dbg.claim = true → s.dbg.tile = n → s.beadHaltOpen = true → s.locket.lc ≠ 3 →
    beadDone (exec (.ebreak n) s) s n { s.core n with state := 3 }) ∧
  (∀ s n w len, s.beadAt n .wfi w len →
    beadDone (exec (.wfi n) s) s n ({ s.core n with stall := .wfi s.tick.count }.stepped ((s.core n).next len) 0)) ∧
  (∀ s n k, n < 4608 → (s.tile n).state = 2 → (s.tile n).stall = .wfi k → s.tick.count ≤ k → exec (.wfiWake n) s = .next s) ∧
  (∀ s n k, n < 4608 → (s.tile n).state = 2 → (s.tile n).stall = .wfi k → k < s.tick.count →
    beadDone (exec (.wfiWake n) s) s n { s.tile n with stall := .none }) ∧
  (∀ s n w len, s.beadAt n .illegal w len → s.canTrap n → beadDone (exec (.illegalInstruction n) s) s n ((s.core n).trapped 2 w)) ∧
  (∀ s n a, s.coreRuns n → (s.tile n).fetch = .inr a → s.canTrap n →
    beadDone (exec (.illegalInstruction n) s) s n ((s.tile n).trapped 1 a)) ∧
  (∀ s n f rd k rs1 w len, s.beadAt n (.csr f rd k rs1) w len → s.csrRead n (s.core n) k = none → k ≠ 0xFC6 → k ≠ 0xFC7 → s.canTrap n →
    beadDone (exec (.csrAccess n) s) s n ((s.core n).trapped 2 w))

/-- Loads and stores, scalar and vector, reach DMEM and the Casket window, and misaligned ones trap (R124, R127, R132, R141). -/
def Obligations.BeadMemoryInstructions : Prop :=
  (∀ s n f rd rs1 imm w len, s.beadAt n (.load f rd rs1 imm) w len → (s.core n).addr rs1 imm % accessSize f = 0 →
    inDmem ((s.core n).addr rs1 imm) (accessSize f) = true →
    poisoned ((s.core n).readDmem ((s.core n).addr rs1 imm - 0x10000) (accessSize f)) = false →
    beadDone (exec (.beadLoad n []) s) s n ((((s.core n).heedDmem ((s.core n).addr rs1 imm - 0x10000) (accessSize f)).setReg rd (loadValue f
      (leNat (plain ((s.core n).readDmem ((s.core n).addr rs1 imm - 0x10000) (accessSize f)))))).stepped ((s.core n).next len) 2)) ∧
  (∀ s n f rd rs1 imm w len, s.beadAt n (.load f rd rs1 imm) w len → (s.core n).addr rs1 imm % accessSize f = 0 →
    inWindow ((s.core n).addr rs1 imm) (accessSize f) = true → s.casket.errs = [] →
    s.casketAllowed (s.core n).progPart (windowAddr n ((s.core n).addr rs1 imm)) (accessSize f) = true →
    poisoned (s.windowRead n (windowAddr n ((s.core n).addr rs1 imm)) (accessSize f)) = false →
    beadDone (exec (.beadLoad n []) s) s n (((s.core n).setReg rd (loadValue f
      (leNat (plain (s.windowRead n (windowAddr n ((s.core n).addr rs1 imm)) (accessSize f)))))).stepped ((s.core n).next len) 16)) ∧
  (∀ s n f rd rs1 imm w len, s.beadAt n (.load f rd rs1 imm) w len → portReg ((s.core n).addr rs1 imm) (accessSize f) = .none →
    (s.core n).addr rs1 imm % accessSize f ≠ 0 → s.canTrap n →
    beadDone (exec (.beadLoad n []) s) s n ((s.core n).trapped 4 ((s.core n).addr rs1 imm))) ∧
  (∀ s n f rs1 rs2 imm w len, s.beadAt n (.store f rs1 rs2 imm) w len → (s.core n).addr rs1 imm % accessSize f = 0 →
    inDmem ((s.core n).addr rs1 imm) (accessSize f) = true →
    (∀ q, q ∈ wordsMet ((s.core n).addr rs1 imm - 0x10000) (accessSize f) → SMap.get false (s.core n).dmemBad q = false) →
    beadDone (exec (.beadStore n []) s) s n (((s.core n).writeDmem ((s.core n).addr rs1 imm - 0x10000)
      (clean (natLe (accessSize f) ((s.core n).reg rs2)))).stepped ((s.core n).next len) (if accessSize f = 4 then 1 else 2))) ∧
  (∀ s n f rs1 rs2 imm w len, s.beadAt n (.store f rs1 rs2 imm) w len → (s.core n).inRun = false →
    (s.core n).addr rs1 imm % accessSize f = 0 → inWindow ((s.core n).addr rs1 imm) (accessSize f) = true →
    s.casketAllowed (s.core n).progPart (windowAddr n ((s.core n).addr rs1 imm)) (accessSize f) = true →
    completesWith (exec (.beadStore n []) s) fun t =>
      casketHolds t (windowAddr n ((s.core n).addr rs1 imm)) (natLe (accessSize f) ((s.core n).reg rs2)) ∧
      casketSameOutside s t (windowAddr n ((s.core n).addr rs1 imm)) (accessSize f) ∧
      t.tile n = (s.core n).stepped ((s.core n).next len) 8 ∧ (∀ m, m ≠ n → t.tile m = s.tile m) ∧
      unchangedBut [.tiles, .casket] s t) ∧
  (∀ s n vd rs1 imm w len, s.beadAt n (.vld vd rs1 imm) w len → (s.core n).addr rs1 imm % 8 = 0 →
    inDmem ((s.core n).addr rs1 imm) 16 = true →
    poisoned ((s.core n).readDmem ((s.core n).addr rs1 imm - 0x10000) 16) = false →
    beadDone (exec (.vld n) s) s n ((((s.core n).heedDmem ((s.core n).addr rs1 imm - 0x10000) 16).setVreg vd (vofBytes
      (plain ((s.core n).readDmem ((s.core n).addr rs1 imm - 0x10000) 16)))).stepped ((s.core n).next len)
        (if (s.core n).addr rs1 imm % 16 = 0 then 1 else 2))) ∧
  (∀ s n vs rs1 imm w len, s.beadAt n (.vst vs rs1 imm) w len → (s.core n).addr rs1 imm % 8 = 0 →
    inDmem ((s.core n).addr rs1 imm) 16 = true →
    (∀ q, q ∈ wordsMet ((s.core n).addr rs1 imm - 0x10000) 16 → SMap.get false (s.core n).dmemBad q = false) →
    beadDone (exec (.vst n) s) s n (((s.core n).writeDmem ((s.core n).addr rs1 imm - 0x10000)
      (clean (vbytes ((s.core n).vreg vs)))).stepped ((s.core n).next len) (if (s.core n).addr rs1 imm % 16 = 0 then 1 else 2))) ∧
  (∀ s n vd rs1 imm w len, s.beadAt n (.vld vd rs1 imm) w len → (s.core n).addr rs1 imm % 8 ≠ 0 → s.canTrap n →
    beadDone (exec (.vld n) s) s n ((s.core n).trapped 4 ((s.core n).addr rs1 imm)))

/-- The vector, LSE, sketch and scalar FP32 instructions write the results of their tables (R129 to R140). -/
def Obligations.BeadVectorInstructions : Prop :=
  (∀ s n vd vs1 vs2 w len, s.beadAt n (.vv 0 vd vs1 vs2) w len → vvDone (exec (.vaddB n) s) s n 0 vd vs1 vs2 len) ∧
  (∀ s n vd vs1 vs2 w len, s.beadAt n (.vv 1 vd vs1 vs2) w len → vvDone (exec (.vsubB n) s) s n 1 vd vs1 vs2 len) ∧
  (∀ s n vd vs1 vs2 w len, s.beadAt n (.vv 2 vd vs1 vs2) w len → vvDone (exec (.vaddsuB n) s) s n 2 vd vs1 vs2 len) ∧
  (∀ s n vd vs1 vs2 w len, s.beadAt n (.vv 3 vd vs1 vs2) w len → vvDone (exec (.vsubsuB n) s) s n 3 vd vs1 vs2 len) ∧
  (∀ s n vd vs1 vs2 w len, s.beadAt n (.vv 4 vd vs1 vs2) w len → vvDone (exec (.vminuB n) s) s n 4 vd vs1 vs2 len) ∧
  (∀ s n vd vs1 vs2 w len, s.beadAt n (.vv 5 vd vs1 vs2) w len → vvDone (exec (.vmaxuB n) s) s n 5 vd vs1 vs2 len) ∧
  (∀ s n vd vs1 vs2 w len, s.beadAt n (.vv 6 vd vs1 vs2) w len → vvDone (exec (.vand n) s) s n 6 vd vs1 vs2 len) ∧
  (∀ s n vd vs1 vs2 w len, s.beadAt n (.vv 7 vd vs1 vs2) w len → vvDone (exec (.vor n) s) s n 7 vd vs1 vs2 len) ∧
  (∀ s n vd vs1 vs2 w len, s.beadAt n (.vv 8 vd vs1 vs2) w len → vvDone (exec (.vxor n) s) s n 8 vd vs1 vs2 len) ∧
  (∀ s n vd vs1 vs2 w len, s.beadAt n (.vv 9 vd vs1 vs2) w len → vvDone (exec (.vandn n) s) s n 9 vd vs1 vs2 len) ∧
  (∀ s n vd vs1 vs2 w len, s.beadAt n (.vv 10 vd vs1 vs2) w len → vvDone (exec (.vcmpeqB n) s) s n 10 vd vs1 vs2 len) ∧
  (∀ s n vd vs1 vs2 w len, s.beadAt n (.vv 11 vd vs1 vs2) w len → vvDone (exec (.vcmpltuB n) s) s n 11 vd vs1 vs2 len) ∧
  (∀ s n vd vs1 vs2 w len, s.beadAt n (.vv 12 vd vs1 vs2) w len → vvDone (exec (.vshufB n) s) s n 12 vd vs1 vs2 len) ∧
  (∀ s n vd vs1 vs2 w len, s.beadAt n (.vv 13 vd vs1 vs2) w len → vvDone (exec (.vsel n) s) s n 13 vd vs1 vs2 len) ∧
  (∀ s n vd vs1 vs2 w len, s.beadAt n (.vv 14 vd vs1 vs2) w len → vvDone (exec (.vshrB n) s) s n 14 vd vs1 vs2 len) ∧
  (∀ f d a b k, f < 15 → f ≠ 12 → k < 16 →
    (vbytes (vvOp f d a b)).getD k 0 = vvByte f ((vbytes d).getD k 0) ((vbytes a).getD k 0) ((vbytes b).getD k 0)) ∧
  (∀ d a b k, k < 16 → (vbytes (vvOp 12 d a b)).getD k 0 =
    (if 128 ≤ ((vbytes b).getD k 0).toNat then 0 else (vbytes a).getD (((vbytes b).getD k 0).toNat % 16) 0)) ∧
  (∀ s n rs1 w len, s.beadAt n (.kround rs1) w len → (s.core n).reg rs1 % 32 < 24 →
    ∃ y : Tile, beadDone (exec (.kround n) s) s n (y.stepped ((s.core n).next len) 2) ∧
      y.keccakBytes.take 200 = laneBytes (keccakRound (keccakLanes (s.core n).keccakBytes)
        (keccakRC.getD ((s.core n).reg rs1 % 32) 0)) ∧
      y.keccakBytes.drop 200 = (s.core n).keccakBytes.drop 200 ∧ (∀ k, 13 ≤ k → y.vreg k = (s.core n).vreg k) ∧
      y.regs = (s.core n).regs ∧ y.dmem = (s.core n).dmem) ∧
  (∀ s n rs1 w len, s.beadAt n (.kround rs1) w len → 24 ≤ (s.core n).reg rs1 % 32 → s.canTrap n →
    beadDone (exec (.kround n) s) s n ((s.core n).trapped 2 w)) ∧
  (∀ s n rd rs1 rs2 w len node k lo, s.beadAt n (.tstep rd rs1 rs2) w len → (s.core n).reg rs1 % 4 = 0 →
    inDmem ((s.core n).reg rs1) 4 = true → poisoned ((s.core n).readDmem ((s.core n).reg rs1 - 0x10000) (4 + 4 * k)) = false →
    node = plain ((s.core n).readDmem ((s.core n).reg rs1 - 0x10000) (4 + 4 * k)) → bits (fieldLe node 0 4) 31 23 = k → k ≤ 256 →
    inDmem ((s.core n).reg rs1) (4 + 4 * k) = true →
    lo = trieSearch (fun e => bits (fieldLe node (4 + 4 * e) 4) 31 24) ((s.core n).reg rs2 % 256) 10 0 k →
    beadDone (exec (.tstep n) s) s n (((((s.core n).heedDmem ((s.core n).reg rs1 - 0x10000) 4).heedDmem ((s.core n).reg rs1 - 0x10000)
      (4 + 4 * k)).setReg rd
      (if lo < k ∧ bits (fieldLe node (4 + 4 * lo) 4) 31 24 = (s.core n).reg rs2 % 256 then
        0x10000 + fieldLe node (4 + 4 * lo) 4 % 65536 else 0xFFFFFFFF)).stepped ((s.core n).next len) 12)) ∧
  (∀ s n rd rs1 rs2 w len k l h cand es p, s.beadAt n (.topk rd rs1 rs2) w len → (s.core n).reg rs1 % 16 = 0 →
    (s.core n).reg rs2 % 16 = 0 → inDmem ((s.core n).reg rs1) (16 + 16 * k) = true → inDmem ((s.core n).reg rs2) 16 = true →
    poisoned ((s.core n).readDmem ((s.core n).reg rs1 - 0x10000) (16 + 16 * l)) = false →
    poisoned ((s.core n).readDmem ((s.core n).reg rs2 - 0x10000) 16) = false →
    h = plain ((s.core n).readDmem ((s.core n).reg rs1 - 0x10000) (16 + 16 * l)) →
    cand = plain ((s.core n).readDmem ((s.core n).reg rs2 - 0x10000) 16) →
    fieldLe h 0 2 = k → fieldLe h 2 2 = l → 1 ≤ k → k ≤ 256 → l ≤ k → allZero (slice h 4 12) = true →
    topkInsert k (chunks 16 l (h.drop 16)) cand = some (es, p) →
    beadDone (exec (.topk n) s) s n (((((((s.core n).heedDmem ((s.core n).reg rs1 - 0x10000) 16).heedDmem ((s.core n).reg rs2 - 0x10000)
      16).heedDmem ((s.core n).reg rs1 - 0x10000) (16 + 16 * l)).writeDmem ((s.core n).reg rs1 - 0x10000)
      (clean (natLe 2 k ++ natLe 2 es.length ++ zeros 12 ++ es.flatten))).setReg rd p).stepped ((s.core n).next len)
        (6 + ceilDiv k 4))) ∧
  (∀ s n rs1 rs2 w len, s.beadAt n (.lsec rs1 rs2) w len → (s.core n).lseOk = true → (s.core n).reg rs1 % 16 = 0 →
    (s.core n).reg rs2 % 16 = 0 → inDmem ((s.core n).reg rs1) (4 * (s.core n).lseD + 64) = true →
    inDmem ((s.core n).reg rs2) (4 * (s.core n).lseD + 64) = true →
    poisoned ((s.core n).readDmem ((s.core n).reg rs1 - 0x10000) (4 * (s.core n).lseD + 64)) = false →
    poisoned ((s.core n).readDmem ((s.core n).reg rs2 - 0x10000) (4 * (s.core n).lseD + 64)) = false →
    recordOk (plain ((s.core n).readDmem ((s.core n).reg rs1 - 0x10000) (4 * (s.core n).lseD + 64))) = true →
    recordOk (plain ((s.core n).readDmem ((s.core n).reg rs2 - 0x10000) (4 * (s.core n).lseD + 64))) = true →
    beadDone (exec (.lsec n) s) s n (((((s.core n).heedDmem ((s.core n).reg rs1 - 0x10000) (4 * (s.core n).lseD + 64)).heedDmem
      ((s.core n).reg rs2 - 0x10000) (4 * (s.core n).lseD + 64)).writeDmem ((s.core n).reg rs1 - 0x10000) (clean
      ((PRec.parse (s.core n).lseD (plain ((s.core n).readDmem ((s.core n).reg rs1 - 0x10000) (4 * (s.core n).lseD + 64)))).merge
        (PRec.parse (s.core n).lseD (plain ((s.core n).readDmem ((s.core n).reg rs2 - 0x10000)
          (4 * (s.core n).lseD + 64))))).bytes)).stepped ((s.core n).next len) (16 + (s.core n).lseD / 2))) ∧
  (∀ s n rs1 rs2 w len out, s.beadAt n (.lsef rs1 rs2) w len → (s.core n).lseOk = true → (s.core n).reg rs1 % 16 = 0 →
    (s.core n).reg rs2 % (fmtBits (s.core n).lseFmt / 8) = 0 → bit (s.core n).lseSmooth.toNat 31 = true →
    inDmem ((s.core n).reg rs1) (4 * (s.core n).lseD + 64) = true →
    inDmem ((s.core n).reg rs2) (fmtBits (s.core n).lseFmt / 8 * (s.core n).lseD) = true →
    poisoned ((s.core n).readDmem ((s.core n).reg rs1 - 0x10000) (4 * (s.core n).lseD + 64)) = false →
    recordOk (plain ((s.core n).readDmem ((s.core n).reg rs1 - 0x10000) (4 * (s.core n).lseD + 64))) = true →
    out = finalise (s.core n).lseFmt false (plain ((s.core n).readDmem ((s.core n).reg rs1 - 0x10000) 4)) (s.core n).lseD
      (PRec.parse (s.core n).lseD (plain ((s.core n).readDmem ((s.core n).reg rs1 - 0x10000) (4 * (s.core n).lseD + 64)))) →
    beadDone (exec (.lsef n) s) s n (((((s.core n).heedDmem ((s.core n).reg rs1 - 0x10000) (4 * (s.core n).lseD + 64)).heedDmem
      ((s.core n).reg rs1 - 0x10000) 4).writeDmem ((s.core n).reg rs2 - 0x10000)
      (clean ((out.map (natLe (fmtBits (s.core n).lseFmt / 8))).flatten))).stepped ((s.core n).next len)
        (16 + (s.core n).lseD / 2))) ∧
  (∀ s n rd rs1 rs2 w len, s.beadAt n (.fp 0 rd rs1 rs2) w len → fpDone (exec (.fadd32 n) s) s n 0 4 rd rs1 rs2 len) ∧
  (∀ s n rd rs1 rs2 w len, s.beadAt n (.fp 1 rd rs1 rs2) w len → fpDone (exec (.fmul32 n) s) s n 1 4 rd rs1 rs2 len) ∧
  (∀ s n rd rs1 rs2 w len, s.beadAt n (.fp 2 rd rs1 rs2) w len → fpDone (exec (.fmax32 n) s) s n 2 1 rd rs1 rs2 len) ∧
  (∀ s n rd rs1 rs2 w len, s.beadAt n (.fp 3 rd rs1 rs2) w len → fpDone (exec (.fexp2 n) s) s n 3 8 rd rs1 rs2 len) ∧
  (∀ s n rd rs1 rs2 w len, s.beadAt n (.fp 4 rd rs1 rs2) w len → fpDone (exec (.frcp n) s) s n 4 8 rd rs1 rs2 len) ∧
  (∀ s n rd rs1 rs2 w len, s.beadAt n (.fp 5 rd rs1 rs2) w len → fpDone (exec (.fkey n) s) s n 5 1 rd rs1 rs2 len)

/-- Clasps, router ports, barriers and frames of a program (R146, R147, R176 to R181). -/
def Obligations.BeadClaspsAndPorts : Prop :=
  (∀ s n f rd rs1 w len, s.beadAt n (.csr f rd 0x7C3 rs1) w len → csrWrites f rs1 = true → s.claspOk (s.core n) = true →
    (s.core n).signalTick ≠ s.tick.count → s.sealedPart (s.core n).progPart = false →
    ∃ u, exec (.beadClaspAdd n) s = .next (if (s.core n).inRun then u.advance (s.core n).progPart else u) ∧
      u.clasps.signals = s.clasps.signals ++ [⟨(s.core n).claspId.toNat,
        if csrValue f 0 ((s.core n).csrOperand f rs1) % 2 ^ 31 = 0 then 1 else csrValue f 0 ((s.core n).csrOperand f rs1) % 2 ^ 31,
        bit (csrValue f 0 ((s.core n).csrOperand f rs1)) 31⟩] ∧
      u.clasps.committed = s.clasps.committed ∧
      u.tile n = ({ s.core n with signals := 1, signalTick := s.tick.count }.setReg rd 0).stepped ((s.core n).next len) 2 ∧
      (∀ m, m ≠ n → u.tile m = s.tile m) ∧ unchangedBut [.clasps, .tiles] s u) ∧
  (∀ s n f rd k rs1 w len, k = 0xFC6 ∨ k = 0xFC7 → s.beadAt n (.csr f rd k rs1) w len → csrWrites f rs1 = false →
    s.claspOk (s.core n) = true →
    beadDone (exec (.beadClaspValRead n) s) s n (((s.core n).setReg rd
      (if k = 0xFC6 then s.clasp (s.core n).claspId.toNat % 2 ^ 32 else s.clasp (s.core n).claspId.toNat / 2 ^ 32)).stepped
        ((s.core n).next len) 24)) ∧
  (∀ s n rs1 rs2 imm w len c off, s.beadAt n (.store 2 rs1 rs2 imm) w len → (s.core n).inRun = true →
    (s.core n).addr rs1 imm % 4 = 0 → portReg ((s.core n).addr rs1 imm) 4 = .tx c off → off < 28 →
    beadDone (exec (.txStore n) s) s n (((s.core n).updTx c (fun y => { y with
      staging := SMap.setList 0 y.staging off (natLe 4 ((s.core n).reg rs2)) })).stepped ((s.core n).next len) 1)) ∧
  (∀ s n rs1 rs2 imm w len c, s.beadAt n (.store 2 rs1 rs2 imm) w len → (s.core n).inRun = true →
    (s.core n).addr rs1 imm % 4 = 0 → portReg ((s.core n).addr rs1 imm) 4 = .tx c 28 → ((s.core n).txCh c).dmemMode = false →
    ((s.core n).txCh c).fifo.length < 4 →
    beadDone (exec (.txStore n) s) s n (((s.core n).updTx c (fun y => { y with
      staging := SMap.setList 0 y.staging 28 (natLe 4 ((s.core n).reg rs2))
      fifo := y.fifo ++ [((s.core n).cycle + 1,
        ⟨SMap.getList 0 (SMap.setList 0 y.staging 28 (natLe 4 ((s.core n).reg rs2))) 0 32, 0, false⟩)] })).stepped
        ((s.core n).next len) 1)) ∧
  (∀ s n rs1 rs2 imm w len c, s.beadAt n (.store 2 rs1 rs2 imm) w len → (s.core n).inRun = true →
    (s.core n).addr rs1 imm % 4 = 0 → portReg ((s.core n).addr rs1 imm) 4 = .tx c 28 → ((s.core n).txCh c).dmemMode = false →
    4 ≤ ((s.core n).txCh c).fifo.length →
    beadDone (exec (.txStore n) s) s n { s.core n with stall := .tx c }) ∧
  (∀ s n rd rs1 imm w len c off k m rest, s.beadAt n (.load 2 rd rs1 imm) w len → (s.core n).inRun = true →
    (s.core n).addr rs1 imm % 4 = 0 → portReg ((s.core n).addr rs1 imm) 4 = .rx c off → off < 28 →
    ((s.core n).rxCh c).fifo = (k, m) :: rest →
    beadDone (exec (.rxLoad n) s) s n (({ s.core n with cycle := max (s.core n).cycle k }.setReg rd
      (leNat (slice m.data off 4))).stepped ((s.core n).next len) 2)) ∧
  (∀ s n rd rs1 imm w len c k m rest, s.beadAt n (.load 2 rd rs1 imm) w len → (s.core n).inRun = true →
    (s.core n).addr rs1 imm % 4 = 0 → portReg ((s.core n).addr rs1 imm) 4 = .rx c 28 → ((s.core n).rxCh c).fifo = (k, m) :: rest →
    beadDone (exec (.rxLoad n) s) s n ((({ s.core n with cycle := max (s.core n).cycle k }.updRx c (fun y => { y with fifo := rest })).setReg rd
      (leNat (slice m.data 28 4))).stepped ((s.core n).next len) 2)) ∧
  (∀ s n rd rs1 imm w len c off, s.beadAt n (.load 2 rd rs1 imm) w len → (s.core n).inRun = true →
    (s.core n).addr rs1 imm % 4 = 0 → portReg ((s.core n).addr rs1 imm) 4 = .rx c off → ((s.core n).rxCh c).fifo = [] →
    beadDone (exec (.rxLoad n) s) s n { s.core n with stall := .rx c }) ∧
  (∀ s n rs1 rs2 imm w len c, s.beadAt n (.store 2 rs1 rs2 imm) w len → (s.core n).inRun = true →
    portReg ((s.core n).addr rs1 imm) 4 = .txCfg c → cfgOk ((s.core n).reg rs2) = true →
    beadDone (exec (.txCfgWrite n) s) s n
      (((s.core n).updTx c (fun _ => cfgChannel ((s.core n).reg rs2))).stepped ((s.core n).next len) 1)) ∧
  (∀ s n rs1 rs2 imm w len c, s.beadAt n (.store 2 rs1 rs2 imm) w len → (s.core n).inRun = true →
    portReg ((s.core n).addr rs1 imm) 4 = .rxCfg c → cfgOk ((s.core n).reg rs2) = true →
    beadDone (exec (.rxCfgWrite n) s) s n
      (((s.core n).updRx c (fun _ => cfgChannel ((s.core n).reg rs2))).stepped ((s.core n).next len) 1)) ∧
  (∀ s n rs1 rs2 imm w len c, s.beadAt n (.store 2 rs1 rs2 imm) w len → (s.core n).inRun = true →
    portReg ((s.core n).addr rs1 imm) 4 = .await c →
    beadDone (exec (.rxAwait n) s) s n (if (s.core n).reg rs2 ≤ ((s.core n).rxCh c).count then
      (s.core n).stepped ((s.core n).next len) 1 else { s.core n with stall := .await c ((s.core n).reg rs2) })) ∧
  (∀ s n rs1 rs2 imm w len b y, s.beadAt n (.store 2 rs1 rs2 imm) w len → (s.core n).inRun = true →
    portReg ((s.core n).addr rs1 imm) 4 = .barrier b → s.barrierOf (s.core n) b = some y → n ∈ y.members →
    (∀ z, z ∈ y.arrived → z.1 ≠ n) →
    ∃ u, exec (.barrierArrive n) s = .next (u.advance (s.core n).progPart) ∧
      u.tile n = (s.core n).stepped ((s.core n).next len) 1 ∧
      u.barrierOf (u.tile n) b = some { y with
        arrived := y.arrived ++ [(n, (s.core n).cycle)], passed := y.passed.filter (fun z => z != n) } ∧
      unchangedBut [.tiles, .mesh] s u) ∧
  (∀ s n rd rs1 imm w len b y, s.beadAt n (.load 2 rd rs1 imm) w len → (s.core n).inRun = true →
    portReg ((s.core n).addr rs1 imm) 4 = .barrier b → s.barrierOf (s.core n) b = some y → n ∈ y.members → n ∈ y.passed →
    ∃ u, exec (.barrierWait n) s = .next (u.advance (s.core n).progPart) ∧
      u.tile n = ({ s.core n with
        cycle := max (s.core n).cycle (if tileCol n < 36 then y.releaseWest else y.releaseEast) }.setReg rd y.generation).stepped
          ((s.core n).next len) 2 ∧
      u.barrierOf (u.tile n) b = some { y with passed := y.passed.filter (fun z => z != n) } ∧ unchangedBut [.tiles, .mesh] s u) ∧
  (∀ s n rd rs1 imm w len b y, s.beadAt n (.load 2 rd rs1 imm) w len → (s.core n).inRun = true →
    portReg ((s.core n).addr rs1 imm) 4 = .barrier b → s.barrierOf (s.core n) b = some y → n ∈ y.members → n ∉ y.passed →
    beadDone (exec (.barrierWait n) s) s n { s.core n with stall := .barrier b }) ∧
  (∀ s p b r y, p < 16 → b < 16 → (s.sched p).run = some r → r.barriers.find? (fun z => z.index == b) = some y →
    (∀ m, m ∈ y.members → ∃ z, z ∈ y.arrived ∧ z.1 = m) →
    ∃ u y', exec (.barrierRelease p b) s = .next (u.advance p) ∧
      ((u.sched p).run.bind (fun q => q.barriers.find? (fun z => z.index == b))) = some y' ∧
      y'.generation = (y.generation + 1) % 2 ^ 32 ∧ y'.passed = y.members ∧ y'.arrived = [] ∧
      unchangedBut [.tiles, .mesh, .free, .casket] s u) ∧
  (∀ s p b r y m, p < 16 → b < 16 → (s.sched p).run = some r → r.barriers.find? (fun z => z.index == b) = some y →
    m ∈ y.members → (∀ z, z ∈ y.arrived → z.1 ≠ m) → exec (.barrierRelease p b) s = .next s) ∧
  (∀ s n rd rs1 imm w len r, s.beadAt n (.load 2 rd rs1 imm) w len → (s.core n).inRun = true →
    portReg ((s.core n).addr rs1 imm) 4 = .frame → s.runOf (s.core n) = some r → r.inFrame = true → (s.core n).cycle ≤ r.frameStart →
    beadDone (exec (.frame n) s) s n
      (((s.core n).setReg rd r.framesDone).stepped ((s.core n).next len) (r.frameStart - (s.core n).cycle + 2))) ∧
  (∀ s n rd rs1 imm w len, s.beadAt n (.load 2 rd rs1 imm) w len → (s.core n).inRun = true →
    portReg ((s.core n).addr rs1 imm) 4 = .frame → s.runOf (s.core n) = none →
    beadDone (exec (.frame n) s) s n { s.core n with stall := .frame })

/-- The moves between scalar and vector registers each take one cycle: VMSK, VEXT.W, VSPLAT.B, VINS.W (R131). -/
def Obligations.ScalarVectorMoves : Prop :=
  (∀ s n rd vs1 w len, s.beadAt n (.vmsk rd vs1) w len →
    beadDone (exec (.vmsk n) s) s n (((s.core n).setReg rd
      (((List.range 16).map (fun i => ((vbytes ((s.core n).vreg vs1)).getD i 0).toNat / 128 * 2 ^ i)).sum)).stepped
        ((s.core n).next len) 1)) ∧
  (∀ s n rd vs1 idx w len, idx < 4 → s.beadAt n (.vextW rd vs1 idx) w len →
    beadDone (exec (.vextW n) s) s n (((s.core n).setReg rd
      (((s.core n).vreg vs1).toNat / 2 ^ (32 * idx) % 2 ^ 32)).stepped ((s.core n).next len) 1)) ∧
  (∀ s n vd rs1 w len, s.beadAt n (.vsplatB vd rs1) w len →
    ∃ v, beadDone (exec (.vsplatB n) s) s n (((s.core n).setVreg vd v).stepped ((s.core n).next len) 1) ∧
      ∀ i, i < 16 → (vbytes v).getD i 0 = BitVec.ofNat 8 ((s.core n).reg rs1 % 256)) ∧
  (∀ s n vd rs1 idx w len, idx < 4 → s.beadAt n (.vinsW vd rs1 idx) w len →
    ∃ v, beadDone (exec (.vinsW n) s) s n (((s.core n).setVreg vd v).stepped ((s.core n).next len) 1) ∧
      v.toNat / 2 ^ (32 * idx) % 2 ^ 32 = (s.core n).reg rs1 ∧
      ∀ k, k < 4 → k ≠ idx → v.toNat / 2 ^ (32 * k) % 2 ^ 32 = ((s.core n).vreg vd).toNat / 2 ^ (32 * k) % 2 ^ 32)

/-- FKEY maps an FP32 value to a key: NaN to 0, both zeros to one key, the others to keys in the order of their values (R140). -/
def Obligations.FkeyKeys : Prop :=
  (∀ s n rd rs1 rs2 w len, s.beadAt n (.fp 5 rd rs1 rs2) w len →
    beadDone (exec (.fkey n) s) s n (((s.core n).setReg rd (orderKey ((s.core n).reg rs1))).stepped ((s.core n).next len) 1)) ∧
  (∀ v, v < 2 ^ 32 → (f32 v).isNaN = true → orderKey v = 0) ∧
  orderKey 0x80000000 = 0x80000000 ∧ orderKey 0 = 0x80000000 ∧
  (∀ v, v < 0x80000000 → (f32 v).isNaN = false → orderKey v = v ^^^ 0x80000000) ∧
  (∀ v, 0x80000000 < v → v < 2 ^ 32 → (f32 v).isNaN = false → orderKey v = v ^^^ 0xFFFFFFFF) ∧
  (∀ a b, a < 2 ^ 32 → b < 2 ^ 32 → (f32 a).isNaN = false → (f32 b).isNaN = false →
    ((f32 a).lt (f32 b) = true ↔ orderKey a < orderKey b))

/-! ### Tether -/

/-- Ports are enabled, disabled and retrained, train, lock, say HELLO, and give up in steps (R357 to R366, Table 11.4). -/
def Obligations.TetherPortsTrainAndLink : Prop :=
  (∀ s b p, s.mboxRuns 0x502 b → List.length b = 8 → byteAt b 0 = p → p < 9 → (∀ k, 3 ≤ k → k < 8 → byteAt b k = 0) →
    (byteAt b 1 = 3 → byteAt b 2 ≤ 1 →
      completesWith (exec .tetherPortSetFarLoop s) fun t =>
        (t.port p).allowFarLoop = (byteAt b 2 == 1) ∧ (∀ q, q ≠ p → t.port q = s.port q) ∧ t.mboxEnded 0 [] ∧
        unchangedBut [.tether, .mbox] s t) ∧
    (byteAt b 1 = 1 → byteAt b 2 = 0 → (s.port p).enabled = false → s.portOn p = true →
      completesWith (exec .tetherPortEnable s) fun t =>
        (t.port p).enabled = true ∧ (t.port p).state = 1 ∧ (t.port p).step = 1 ∧ t.mboxEnded 0 [] ∧
        unchangedBut [.tether, .mbox, .tick, .out] s t) ∧
    (byteAt b 1 = 0 → byteAt b 2 = 0 → (s.port p).state ≠ 0 →
      completesWith (exec .tetherPortDisable s) fun t =>
        (t.port p).enabled = false ∧ (t.port p).state = 0 ∧ (t.port p).rx = [] ∧ (t.port p).replay = [] ∧ t.mboxEnded 0 [] ∧
        unchangedBut [.tether, .mbox, .tick, .evt, .xlat] s t) ∧
    (byteAt b 1 = 2 → byteAt b 2 = 0 → (s.port p).state = 3 →
      completesWith (exec .tetherPortRetrain s) fun t =>
        (t.port p).state = 1 ∧ (t.port p).step = 1 ∧ t.mboxEnded 0 [] ∧ unchangedBut [.tether, .mbox, .tick, .out] s t)) ∧
  (∀ s l levels h d, l < 72 → levels < 4 ^ 64 → 0 < d → trainingWordOf levels = none → exec (.trainingFrame l levels h d) s = .next s) ∧
  (∀ s l levels h d w, l < 72 → levels < 4 ^ 64 → 0 < d → trainingWordOf levels = some w → crc8 56 (w / 256) 0 ≠ w % 256 →
    exec (.trainingFrame l levels h d) s = .next s) ∧
  (∀ s l levels h d w, l < 72 → levels < 4 ^ 64 → 0 < d → trainingWordOf levels = some w → crc8 56 (w / 256) 0 = w % 256 →
    (s.port (l / 8)).state = 1 → (s.port (l / 8)).step ≤ 3 → bits w 42 41 ≠ 1 → bit w 43 = false → (s.port (l / 8)).readyTheirs ≠ 0xFF →
    bit (s.port (l / 8)).readyTheirs (l % 8) = false →
    completesWith (exec (.trainingFrame l levels h d) s) fun t =>
      (t.lane l).eqn = min 255 (256 * h / d) ∧ (t.lane l).inverted = markerFlipped levels ∧
      (t.lane l).taps = (tapRequest (s.lane l).taps (bits w 40 39) (bits w 38 37)).1 ∧
      (t.port (l / 8)).goodTheirs = bits w 51 44 ∧ (∀ m, m ≠ l → t.lane m = s.lane m) ∧
      unchangedBut [.tether, .out, .free] s t) ∧
  (∀ s p, p < 9 → (s.port p).state = 1 → (s.port p).step ≤ 3 → (s.port p).readyTheirs ≠ 0xFF →
    completesWith (exec (.adaptationTimeout p) s) fun t =>
      (∀ l, l ∈ lanesOf p → (t.lane l).rxReady = true) ∧ unchangedBut [.tether, .out, .free] s t) ∧
  (∀ s l ui levels v, l < 72 → levels < 4 ^ 64 → (s.lane l).inverted = false → commaFieldOf levels = some v →
    crc8 16 (v / 256) 0 = v % 256 → (s.lane l).commas ≠ 0 → ui = (s.lane l).commaUi + 44564544 →
    completesWith (exec (.commaBlock l ui levels) s) fun t =>
      (t.lane l).comma = true ∧ (t.lane l).commaUi = ui ∧ (∀ m, m ≠ l → t.lane m = s.lane m) ∧ unchangedBut [.tether] s t) ∧
  (∀ s l, l < 72 → (s.lane l).comma = true → (s.lane l).state = 2 → (s.port (l / 8)).state = 3 →
    completesWith (exec (.commaLockLoss l) s) fun t =>
      (t.port (l / 8)).state = 1 ∧ (t.port (l / 8)).step = 1 ∧ unchangedBut [.tether, .tick, .out] s t) ∧
  (∀ s p, p < 9 → (s.port p).state = 1 → (s.port p).step = 5 →
    (∀ l, l ∈ lanesOf p → bit (s.port p).lanes (l % 8) = true → (s.lane l).comma = true ∧ (s.lane l).fecLock = true ∧ (s.lane l).commaUi = 0) →
    completesWith (exec (.lanesLocked p) s) fun t => (t.port p).step = 6 ∧ (t.port p).locked = true ∧
      unchangedBut [.tether, .out] s t) ∧
  (∀ s p m, p < 9 → s.localMsg p 0x16 = some m → (s.port p).state = 1 → (s.port p).step = 6 →
    (s.port p).width = some (byteAt m.head 8) → byteAt m.head 9 ≤ 1 → 1 ≤ byteAt m.head 10 →
    completesWith (exec (.hello p) s) fun t =>
      (t.port p).state = 2 ∧ (t.port p).step = 7 ∧ (t.port p).level = 1 ∧ (t.port p).partnerId = fieldLe m.head 12 2 ∧
      unchangedBut [.tether, .evt, .out] s t) ∧
  (∀ s p, p < 9 → (s.port p).state = 1 → (s.port p).failures = 0 →
    completesWith (exec (.portBringupTimeout p) s) fun t =>
      (t.port p).state = 1 ∧ (t.port p).step = 1 ∧ (t.port p).failures = 1 ∧ unchangedBut [.tether, .tick, .out] s t) ∧
  (∀ s p, p < 9 → (s.port p).state = 1 → (s.port p).failures = 2 →
    completesWith (exec (.portBringupTimeout p) s) fun t =>
      (t.port p).state = 5 ∧ (t.port p).failures = 3 ∧ unchangedBut [.tether, .tick, .evt, .xlat] s t) ∧
  (∀ s p, p < 9 → (s.port p).state = 5 → (s.port p).enabled = true → s.portOn p = true →
    completesWith (exec (.portRetryTimer p) s) fun t =>
      (t.port p).state = 1 ∧ (t.port p).step = 1 ∧ unchangedBut [.tether, .tick, .out] s t)

/-- Lanes in service, codewords, flits, replays and loopbacks (R353, R355, R359, R361, R366, R370). -/
def Obligations.TetherLinksCarryFlits : Prop :=
  (∀ s l h d, l < 72 → 0 < d → 96 ≤ min 255 (256 * h / d) → (s.lane l).state = 2 → (s.port (l / 8)).state = 3 →
    completesWith (exec (.eqnMeasurement l h d) s) fun t =>
      (t.lane l).eqn = min 255 (256 * h / d) ∧ (t.lane l).low = 0 ∧ (t.lane l).state = 2 ∧ (∀ m, m ≠ l → t.lane m = s.lane m) ∧
      t.tether.ports = s.tether.ports ∧ unchangedBut [.tether, .free] s t) ∧
  (∀ s l h d, l < 72 → 0 < d → 256 * h / d < 64 → (s.lane l).state = 2 → (s.port (l / 8)).state = 3 → (s.lane l).low = 15 →
    completesWith (exec (.eqnMeasurement l h d) s) fun t =>
      (t.lane l).retired = true ∧ (t.port (l / 8)).state = 1 ∧ unchangedBut [.tether, .tick, .evt, .out, .free] s t) ∧
  (∀ s p words, p < 9 → (∀ w : LaneWord, w ∈ words → w.lane < 8 ∧ w.levels < 4 ^ 2720) → (s.port p).receives = false →
    exec (.tetherFlit p words) s = .next s) ∧
  (∀ s p l m v, p < 9 → l < 8 → m < 8 → m ≠ l → v < 4 ^ 2720 → (s.port p).receives = true → bit (s.port p).lanes l = true →
    bit (s.port p).lanes m = true → (s.lane (8 * p + m)).slices = [] → (s.lane (8 * p + l)).inverted = false →
    (s.lane (8 * p + l)).badTimes = [] → (decodeLane (s.lane (8 * p + l)).rxHist v).2.2.good = true →
    completesWith (exec (.tetherFlit p [⟨l, v⟩]) s) fun t =>
      (t.lane (8 * p + l)).slices =
        (s.lane (8 * p + l)).slices ++ (decodeLane (s.lane (8 * p + l)).rxHist v).1.map (fun b => (b, true)) ∧
      (t.lane (8 * p + l)).rxHist = (decodeLane (s.lane (8 * p + l)).rxHist v).2.1 ∧ (t.lane (8 * p + l)).fecLock = true ∧
      (t.lane (8 * p + l)).corrected =
        min max32 ((s.lane (8 * p + l)).corrected + (decodeLane (s.lane (8 * p + l)).rxHist v).2.2.corrected) ∧
      (∀ k, k ≠ 8 * p + l → t.lane k = s.lane k) ∧ (t.port p).rx = (s.port p).rx ∧
      (t.port p).rxSeq = (s.port p).rxSeq ∧ unchangedBut [.tether] s t) ∧
  (∀ s p b ok, p < 9 → (s.port p).carries = true → s.nextFlit p = some (b, ok) → crc64 (b.take 248) ≠ fieldLe b 248 8 →
    (s.port p).nakking = false →
    completesWith (exec (.tetherFlit p []) s) fun t =>
      (t.port p).nakking = true ∧ (t.port p).crcBad = satAdd 0xFFFF (s.port p).crcBad 1 ∧ (t.port p).rx = (s.port p).rx ∧
      (t.port p).rxSeq = (s.port p).rxSeq ∧ unchangedBut [.tether, .out] s t) ∧
  (∀ s p b, p < 9 → (s.port p).state = 3 → s.nextFlit p = some (b, true) → crc64 (b.take 248) = fieldLe b 248 8 →
    bits (fieldLe b 0 8) 59 58 = 0 → (∀ e, e ∈ flitSlots b → e.1 ≠ 3) → bits (fieldLe b 0 8) 55 44 = (s.port p).rxSeq →
    completesWith (exec (.tetherFlit p []) s) fun t =>
      (t.port p).rxSeq = ((s.port p).rxSeq + 1) % 4096 ∧
      (t.port p).rx = (s.port p).rx ++
        ((flitSlots b).foldl (fun a e => slotStep a e.1 e.2)
          ⟨(s.port p).partialMsg, (s.port p).wants, [], 0, (s.port p).freed⟩).got ∧
      unchangedBut [.tether, .tick, .out] s t) ∧
  (∀ s p, p < 9 → (s.port p).carries = true → (s.port p).replay ≠ [] → (s.port p).stuck < 15 →
    completesWith (exec (.tetherReplayTimeout p) s) fun t =>
      (∃ cs, t.out = s.out ++ (s.port p).replay.map (fun f => .flit p f.2) ++ cs) ∧ (t.port p).stuck = (s.port p).stuck + 1 ∧
      (t.port p).replay = (s.port p).replay ∧ unchangedBut [.tether, .out] s t) ∧
  (∀ s b p, s.mboxRuns 0x503 b → List.length b = 8 → byteAt b 0 = p → p < 9 → 1 ≤ byteAt b 1 → byteAt b 1 ≤ 2 → byteAt b 3 = 0 →
    1 ≤ fieldLe b 4 4 → fieldLe b 4 4 ≤ 60000 → (s.port p).state ≠ 3 →
    completesWith (exec .tetherLoopback s) fun t =>
      (t.port p).state = 4 ∧ (t.port p).loopKind = byteAt b 1 ∧ t.mboxEnded 0 [] ∧
      (∀ l, l ∈ lanesOf p → bit (byteAt b 2) (l % 8) = true → (t.lane l).state = 5 ∧ (t.lane l).loopBusy = true) ∧
      unchangedBut [.tether, .mbox] s t) ∧
  (∀ s p r l, p < 9 → List.length r = 8 → (s.port p).state = 4 → l ∈ lanesOf p → (s.lane l).loopBusy = true →
    completesWith (exec (.loopbackEnd p r) s) fun t =>
      (t.lane l).loopErrors = min max32 (r.getD (l % 8) ⟨false, 0⟩).errors ∧ (t.lane l).loopLock = (r.getD (l % 8) ⟨false, 0⟩).lock ∧
      (t.lane l).loopDone = true ∧ (t.lane l).loopBusy = false ∧ unchangedBut [.tether, .tick, .out] s t)

/-- The line code of a lane is undone by its receiver (R352 to R355): twenty slices, whatever they hold and whatever the scrambler held
before, come back whole, without a correction, and both histories agree. -/
def Obligations.LaneCodewordsRoundTrip : Prop :=
  (∀ n x, x < 4 ^ n → grayBits n (grayLevels n x) = x ∧ grayLevels n (grayBits n x) = x) ∧
  (∀ h x, h < 2 ^ 58 → x < 2 ^ 256 → unscrambleSlice h (scrambleSlice h x).1 = (x, (scrambleSlice h x).2)) ∧
  (∀ x, x < 2 ^ 256 → decodeBlock (encodeBlock x) = x ∧ encodeBlock x < 2 ^ 257) ∧
  (∀ h slices, h < 2 ^ 58 → List.length slices = 20 → (∀ b : Bytes, b ∈ slices → b.length = 32) →
    decodeLane h (encodeLane h slices).1 =
      (slices, (encodeLane h slices).2, ⟨(decodeLane h (encodeLane h slices).1).2.2.symbols, 0, true⟩))

/-- Ids, routes, membership, alignment, frequency agreement, slow notices and forwarding (R373, R382 to R389). -/
def Obligations.TetherFabricAgrees : Prop :=
  (∀ s b, s.mboxRuns 0x500 b → List.length b = 8 → fieldLe b 0 2 < 4096 → byteAt b 4 ≤ 1 → (∀ k, 5 ≤ k → k < 8 → byteAt b k = 0) →
    s.memberPorts = [] →
    completesWith (exec .tetherFabricSet s) fun t =>
      t.tether.ownId = fieldLe b 0 2 ∧ t.tether.refId = fieldLe b 2 2 ∧ t.tether.joinEnable = (byteAt b 4 == 1) ∧ t.mboxEnded 0 [] ∧
      t.tether.ports = s.tether.ports ∧ unchangedBut [.tether, .tick, .mbox] s t) ∧
  (∀ s b, s.mboxRuns 0x501 b → 5 ≤ List.length b → List.length b ≤ 4096 → List.length b = 4 + fieldLe b 2 2 → fieldLe b 0 2 < 4096 →
    fieldLe b 0 2 + fieldLe b 2 2 ≤ 4096 → (∀ i, i < fieldLe b 2 2 → byteAt b (4 + i) ≤ 8) →
    completesWith (exec .tetherRouteSet s) fun t =>
      (∀ i, i < fieldLe b 2 2 → SMap.get 0xFF t.tether.routesDue (fieldLe b 0 2 + i) = byteAt b (4 + i)) ∧
      t.tether.routes = s.tether.routes ∧ t.mboxEnded 0 [] ∧ unchangedBut [.tether, .mbox] s t) ∧
  (∀ s, s.mboxRuns 0x504 [] →
    completesWith (exec .tetherLeave s) fun t =>
      t.memberPorts = [] ∧ t.tick.member = false ∧ t.mboxEnded 0 [] ∧ unchangedBut [.tether, .tick, .mbox] s t) ∧
  (∀ s p m, p < 9 → s.localMsg p 0x14 = some m → (s.port p).state = 2 →
    (s.joinReason p m = 0 →
      completesWith (exec (.join p) s) fun t => (t.port p).state = 3 ∧ (t.port p).partnerId = m.src ∧
        s.tick.count ≤ t.tick.count ∧ s.tick.time ≤ t.tick.time ∧ unchangedBut [.tether, .tick, .evt, .out] s t) ∧
    (s.joinReason p m ≠ 0 →
      completesWith (exec (.join p) s) fun t => (t.port p).state = 2 ∧ t.tick = s.tick ∧ unchangedBut [.tether, .evt, .out] s t)) ∧
  (∀ s p m, p < 9 → s.localMsg p 0x15 = some m → (s.port p).state = 3 → s.work.flights = [] → s.tick.count < fieldLe m.head 8 8 →
    completesWith (exec (.adopt p) s) fun t =>
      t.tick.count = fieldLe m.head 8 8 ∧ s.tick.time ≤ t.tick.time ∧ (t.port p).state = 3 ∧
      unchangedBut [.tether, .tick, .evt, .out] s t) ∧
  (∀ s phase, s.tether.parent ≠ 0xF → (s.port s.tether.parent).state = 3 → phase < 2 ^ 32 →
    completesWith (exec (.syncReqSend phase) s) fun t =>
      (t.port s.tether.parent).t1 = some (s.tick.count, phase) ∧ unchangedBut [.tether, .out] s t) ∧
  (∀ s p n ph turn m, p < 9 → s.localMsg p 0x10 = some m → (s.port p).state = 3 →
    completesWith (exec (.syncReq p n ph turn) s) fun t =>
      (t.port p).distance = fieldLe m.head 24 2 % 256 ∧ unchangedBut [.tether, .out] s t) ∧
  (∀ s p n ph m q, p < 9 → s.localMsg p 0x11 = some m → (s.port p).state = 3 → p = s.tether.parent → (s.port p).t1 = some q →
    completesWith (exec (.syncRsp p n ph) s) fun t =>
      (t.port p).t1 = none ∧ (t.port p).offset = toSigned 16 (fieldLe m.head 26 2) ∧
      t.tick.aligned = (decide (-25 ≤ t.tick.offsetNs) && decide (t.tick.offsetNs ≤ 25)) ∧
      unchangedBut [.tether, .tick, .evt, .out, .free] s t) ∧
  (∀ s p m, p < 9 → s.localMsg p 0x12 = some m → (s.port p).state = 3 → s.voteClosed (fieldLe m.head 8 8) = false →
    completesWith (exec (.vote p) s) fun t =>
      (t.voteOf (fieldLe m.head 8 8)).state = max (s.voteOf (fieldLe m.head 8 8)).state (min 7 (byteAt m.head 16)) ∧
      p ∈ (t.voteOf (fieldLe m.head 8 8)).got ∧ unchangedBut [.tether, .out] s t) ∧
  (∀ s, s.memberPorts ≠ [] → 3 ≤ s.tick.count → s.voteClosed (s.tick.count - 3) = false →
    (∀ p, p ∈ (s.voteOf (s.tick.count - 3)).links → p ∈ (s.voteOf (s.tick.count - 3)).got) →
    (s.voteOf (s.tick.count - 3)).links ≠ [] →
    completesWith (exec .voteDeadline s) fun t =>
      t.tick.agreedP = (s.voteOf (s.tick.count - 3)).state ∧ t.tick.freqAt = s.tick.count + 1 ∧ unchangedBut [.tether, .tick] s t) ∧
  (∀ s p, s.memberPorts ≠ [] → 3 ≤ s.tick.count → s.voteClosed (s.tick.count - 3) = false →
    p ∈ (s.voteOf (s.tick.count - 3)).links → p ∉ (s.voteOf (s.tick.count - 3)).got → (s.port p).state = 3 →
    (s.port p).memberSince ≤ s.tick.count - 3 →
    completesWith (exec .voteDeadline s) fun t => t.tick.agreedP = 7 ∧ unchangedBut [.tether, .tick, .evt] s t) ∧
  (∀ s p m, p < 9 → s.localMsg p 0x13 = some m → (s.port p).state = 3 →
    completesWith (exec (.slowNotice p) s) fun t =>
      t.tether.notices = satAdd 0xFFFF s.tether.notices 1 ∧ (fieldLe m.head 18 2, fieldLe m.head 8 8) ∈ t.tether.seen ∧
      unchangedBut [.tether, .evt, .out] s t) ∧
  (∀ s p, p < 9 → s.foreign p = none → exec (.messageForward p) s = .next s) ∧
  (∀ s p m r, p < 9 → s.foreign p = some m → m.hops ≠ 0 → (s.takeMsg p m.vc).routeUp m.dest = some r →
    exec (.messageForward p) s =
      .next ((s.takeMsg p m.vc).portSend r { m with head := splice m.head 9 (natLe 1 (m.hops - 1)) }))

/-- Requests of other devices are checked, performed and answered (R379 to R381); a remote descriptor sends its requests, and the
last answer ends its work (R377). -/
def Obligations.TetherOperations : Prop :=
  (∀ s p m, p < 9 → s.ownMsg p 0 1 = some m → s.remoteCheck p m (64 * m.value) = (0, s) → bit s.pwr.idle 2 = false →
    s.readHeld m.addr (64 * m.value) = false → s.mayIssue 17 = true → poisoned (s.readDev m.addr (64 * m.value)) = false →
    exec (.tetherRead p) s = .next ((((s.charge 17 (s.readCost m.addr (64 * m.value))).heed m.addr (64 * m.value)).tetherAnswer m 0
      (plain (s.readDev m.addr (64 * m.value))) false).takeMsg p 0)) ∧
  (∀ s p m, p < 9 → s.ownMsg p 0 1 = some m → tetherMalformed m = true →
    exec (.tetherRead p) s = .next ((s.takeMsg p 0).tetherAnswer m 6 [] false)) ∧
  (∀ s p m, p < 9 → s.ownMsg p 0 3 = some m → s.remoteCheck p m (64 * m.lines) = (0, s) → bit s.pwr.idle 2 = false →
    s.repairHeld m.addr (64 * m.lines) = false → s.mayIssue 17 = true → m.data.length = 64 * m.lines →
    exec (.tetherWrite p) s = .next ((((s.charge 17 (writeCost (64 * m.lines))).writeDev m.addr
      (m.data.map (fun b => (b, bit m.flags 0))) 17).tetherAnswer m 0 [] false).takeMsg p 0)) ∧
  (∀ s p m bs, p < 9 → s.ownMsg p 0 4 = some m → s.remoteCheck p m (64 * m.lines) = (0, s) → bit s.pwr.idle 2 = false →
    s.repairHeld m.addr 64 = false → s.mayIssue 17 = true → bs = maskedBytes (BitVec.ofNat 64 m.value) m.data → bs.length ≠ 64 →
    exec (.tetherWritePartial p) s = .next (((bs.foldl (fun u b => u.writeDev (m.addr + b.1) [(b.2, bit m.flags 0)] 17)
      (s.charge 17 (writeCost 64))).tetherAnswer m 0 [] false).takeMsg p 0)) ∧
  (∀ s p m k fmt (u : Nat → State), p < 9 → s.ownMsg p 0 5 = some m → s.remoteCheck p m (64 * m.lines) = (0, s) →
    bit s.pwr.idle 2 = false → bit m.flags 0 = false → s.readHeld m.addr (64 * m.lines) = false →
    s.repairHeld m.addr (64 * m.lines) = false → s.mayIssue 17 = true → poisoned (s.readDev m.addr (64 * m.lines)) = false →
    fmt = addFmt (m.flags / 16) → k = 64 * m.lines / fmt.2 →
    u 0 = (s.charge 17 (s.readCost m.addr (64 * m.lines) + writeCost (64 * m.lines))).heed m.addr (64 * m.lines) →
    (∀ i, i < k → poisoned ((u i).readDev ((m.addr + i * fmt.2) / 64 * 64) 64) = false ∧
      u (i + 1) = (u i).writeDev (m.addr + i * fmt.2) (clean (natLe fmt.2 (scatterAdd fmt.1 (bit m.flags 1)
        (leNat (plain ((u i).readDev (m.addr + i * fmt.2) fmt.2))) (fieldLe m.data (i * fmt.2) fmt.2)).1)) 17) →
    exec (.tetherAdd p) s = .next (((u k).tetherAnswer m 0 [] false).takeMsg p 0)) ∧
  (∀ s p m, p < 9 → s.ownMsg p 0 5 = some m → s.remoteCheck p m (64 * m.lines) = (0, s) → bit s.pwr.idle 2 = false →
    bit m.flags 0 = true → s.readHeld m.addr (64 * m.lines) = false → s.repairHeld m.addr (64 * m.lines) = false →
    s.mayIssue 17 = true → poisoned (s.readDev m.addr (64 * m.lines)) = false → 0 < m.lines →
    exec (.tetherAdd p) s = .next ((((s.charge 17 (s.readCost m.addr (64 * m.lines) + writeCost (64 * m.lines))).heed m.addr
      (64 * m.lines)).tetherAnswer m 1 [] false).takeMsg p 0)) ∧
  (∀ s p m, p < 9 → s.ownMsg p 0 6 = some m → s.remoteCheck p m (64 * m.lines) = (0, s) →
    completesWith (exec (.tetherSignal p) s) fun t =>
      t.clasps.signals = s.clasps.signals ++ [⟨m.object, m.value % 2 ^ 63, bit m.value 63⟩] ∧
      t.clasps.committed = s.clasps.committed ∧ t.tether.signals = s.tether.signals ++ [⟨p, m⟩] ∧
      unchangedBut [.clasps, .tether, .out] s t) ∧
  (∀ s p m, p < 9 → s.ownMsg p 1 2 = some m → s.tether.requests.find? (fun r => r.tag == m.tag) = none →
    exec (.tetherReadData p) s = .next (s.takeMsg p 1)) ∧
  (∀ s p m, p < 9 → s.ownMsg p 1 7 = some m → s.tether.requests.find? (fun r => r.tag == m.tag) = none →
    exec (.tetherDone p) s = .next (s.takeMsg p 1)) ∧
  (∀ s p f x m r, p < 9 → s.ownMsg p 1 7 = some m → s.tether.requests.find? (fun r => r.tag == m.tag) = some r → r.flight = f →
    s.flight f = some x → x.worked = false → s.remote f = ⟨f, 1, []⟩ → remoteCount x.desc = 1 →
    completesWith (exec (.tetherDone p) s) fun t =>
      workedWith t f x m.status ∧ (∀ q, q ∈ t.tether.requests → q.tag ≠ m.tag) ∧
      unchangedBut [.tether, .work, .xlat, .tick, .out] s t) ∧
  (∀ s p f x m r, p < 9 → s.ownMsg p 1 2 = some m → s.tether.requests.find? (fun r => r.tag == m.tag) = some r → r.flight = f →
    s.flight f = some x → x.worked = false → s.remote f = ⟨f, 1, []⟩ → remoteCount x.desc = 1 → m.status ≠ 0 →
    completesWith (exec (.tetherReadData p) s) fun t =>
      workedWith t f x m.status ∧ unchangedBut [.tether, .work, .xlat, .tick, .out] s t) ∧
  (∀ s p f x m r ps u, p < 9 → s.ownMsg p 1 2 = some m → s.tether.requests.find? (fun r => r.tag == m.tag) = some r → r.flight = f →
    s.flight f = some x → x.worked = false → s.remote f = ⟨f, 1, []⟩ → remoteCount x.desc = 1 → m.status = 0 →
    s.placesOfVa (s.part x.part).pasid (rLocal x.desc + (remoteCut x.desc r.index).2.1) (remoteCut x.desc r.index).2.2 false true =
      some ps → s.placesRepaired ps = false → s.mayIssue x.part = true →
    u = (s.charge x.part (s.accessCosts [] ps).sum).writePlaces ps (m.data.map (fun b => (b, bit m.flags 0))) x.part →
    completesWith (exec (.tetherReadData p) s) fun t =>
      workedWith t f x (if bit m.flags 0 then 1 else 0) ∧ unchangedBut [.tether, .work, .xlat, .tick, .out] u t) ∧
  (∀ s f x q, s.working f 0 0x70004 = some x → s.remote f = ⟨f, 0, []⟩ → s.remoteOut f = [] → s.tether.requests.length < 4096 →
    s.routeUp (rDest x.desc) = some q → dOpcode x.desc = 4 → rLength x.desc = 0 →
    completesWith (exec (.rsignal f) s) fun t =>
      t.tether.requests = s.tether.requests ++ [⟨s.tether.nextTag, f, 0, q, 0, s.settleTick⟩] ∧ (t.remote f).issued = 1 ∧
      unchangedBut [.tether, .work, .out] s t) ∧
  (∀ s f x q u, s.working f 0 0x70002 = some x → s.remote f = ⟨f, 0, []⟩ → s.remoteOut f = [] → s.tether.requests.length < 4096 →
    s.routeUp (rDest x.desc) = some q → dOpcode x.desc = 2 → remoteData x.desc = 1 → rSignalAfter x.desc = false →
    (needsOf (remotePiece x.windows x.desc 0)).all (s.pageReady 48 (s.part x.part).pasid) = true →
    u = s.pinNeeds (f, 1) 48 (s.part x.part).pasid (needsOf (remotePiece x.windows x.desc 0)) →
    worst ((remotePiece x.windows x.desc 0).map (u.rangePlaced x.part)) = 0 →
    completesWith (exec (.rread f) s) fun t =>
      t.tether.requests = s.tether.requests ++ [⟨s.tether.nextTag, f, 0, q, (remoteCut x.desc 0).2.2, s.settleTick⟩] ∧
      (t.remote f).issued = 1 ∧ unchangedBut [.tether, .work, .out] u t) ∧
  (∀ s f x q u v ps, s.working f 0 0x70001 = some x → s.remote f = ⟨f, 0, []⟩ → s.remoteOut f = [] → s.tether.requests.length < 4096 →
    s.routeUp (rDest x.desc) = some q → dOpcode x.desc = 1 → remoteData x.desc = 1 → rSignalAfter x.desc = false →
    rSrcCheck x.desc = false →
    (needsOf (remotePiece x.windows x.desc 0)).all (s.pageReady 48 (s.part x.part).pasid) = true →
    u = s.pinNeeds (f, 1) 48 (s.part x.part).pasid (needsOf (remotePiece x.windows x.desc 0)) →
    worst ((remotePiece x.windows x.desc 0).map (u.rangePlaced x.part)) = 0 →
    u.opndPlaces x.part ⟨rLocal x.desc + (remoteCut x.desc 0).2.1, 1, (remoteCut x.desc 0).2.2, (remoteCut x.desc 0).2.2, false, false⟩ =
      some ps → u.access x 0 ps [] = .go v → v.badReads ps = [] →
    completesWith (exec (.rwrite f) s) fun t =>
      t.tether.requests = s.tether.requests ++ [⟨s.tether.nextTag, f, 0, q, (remoteCut x.desc 0).2.2, s.settleTick⟩] ∧
      (t.remote f).issued = 1 ∧ unchangedBut [.tether, .work, .out] (v.took ps) t) ∧
  (∀ s f x q u v ps, s.working f 0 0x70003 = some x → s.remote f = ⟨f, 0, []⟩ → s.remoteOut f = [] → s.tether.requests.length < 4096 →
    s.routeUp (rDest x.desc) = some q → dOpcode x.desc = 3 → remoteData x.desc = 1 → rSignalAfter x.desc = false →
    rSrcCheck x.desc = false →
    (needsOf (remotePiece x.windows x.desc 0)).all (s.pageReady 48 (s.part x.part).pasid) = true →
    u = s.pinNeeds (f, 1) 48 (s.part x.part).pasid (needsOf (remotePiece x.windows x.desc 0)) →
    worst ((remotePiece x.windows x.desc 0).map (u.rangePlaced x.part)) = 0 →
    u.opndPlaces x.part ⟨rLocal x.desc + (remoteCut x.desc 0).2.1, 1, (remoteCut x.desc 0).2.2, (remoteCut x.desc 0).2.2, false, false⟩ =
      some ps → u.access x 0 ps [] = .go v → v.badReads ps = [] →
    completesWith (exec (.radd f) s) fun t =>
      t.tether.requests = s.tether.requests ++ [⟨s.tether.nextTag, f, 0, q, (remoteCut x.desc 0).2.2, s.settleTick⟩] ∧
      (t.remote f).issued = 1 ∧ unchangedBut [.tether, .work, .out] (v.took ps) t)

/-! ### Die sites -/

/-- A site trains step by step, falls back, fails, and starts over when its die resets (R393 to R402, Table 12.5). -/
def Obligations.SitesTrain : Prop :=
  (∀ s q, q < 6 → (s.site q).state = 2 → (s.site q).step = 0 → (SMap.get {} s.pwr.domains 18 : Domain).off = false →
    completesWith (exec (.siteTrainingAttempt q) s) fun t =>
      (t.site q).step = 1 ∧ (t.site q).resetLow = true ∧ t.out = s.out ++ [.siteReset q true] ∧
      (∀ r, r ≠ q → t.site r = s.site r) ∧ unchangedBut [.sites, .out] s t) ∧
  (∀ s q, q < 6 → (s.site q).state = 2 → (s.site q).step = 1 →
    completesWith (exec (.xRstNRelease q) s) fun t =>
      (t.site q).step = 2 ∧ (t.site q).resetLow = false ∧
      t.out = s.out ++ [.siteReset q false, .siteMessage q (discMsg 1 (s.site q).attempt 0 0 [])] ∧
      (∀ r, r ≠ q → t.site r = s.site r) ∧ unchangedBut [.sites, .out] s t) ∧
  (∀ s q m, q < 6 → discGood m 1 → (s.site q).state = 2 → (s.site q).step = 2 → byteAt m 4 ≤ 1 → 1 ≤ byteAt m 5 →
    completesWith (exec (.advert q m) s) fun t =>
      (t.site q).step = 4 ∧ (t.site q).peer.vendor = fieldLe m 8 2 ∧ (t.site q).peer.part = fieldLe m 10 2 ∧
      (t.site q).peer.caps = byteAt m 7 &&& 7 ∧
      (t.site q).peer.windowLog2 = (if 12 ≤ byteAt m 12 ∧ byteAt m 12 ≤ 48 then byteAt m 12 else 0) ∧
      unchangedBut [.sites, .evt] s t) ∧
  (∀ s q m, q < 6 → discGood m 1 → (s.site q).state = 2 → (s.site q).step = 2 → 1 < byteAt m 4 →
    completesWith (exec (.advert q m) s) fun t =>
      (t.site q).state = 4 ∧ (t.site q).fenceCause = 1 ∧ (t.site q).resetLow = true ∧ unchangedBut [.sites, .work, .evt, .out, .keel] s t) ∧
  (∀ s q, q < 6 → (s.site q).state = 2 → (s.site q).step = 2 → (s.site q).failures = 0 →
    completesWith (exec (.advertTimeout q) s) fun t =>
      (t.site q).state = 2 ∧ (t.site q).step = 0 ∧ (t.site q).failures = 1 ∧ unchangedBut [.sites] s t) ∧
  (∀ s q, q < 6 → (s.site q).state = 2 → (s.site q).step = 6 → (s.site q).failures = 0 →
    completesWith (exec (.frameAlignTimeout q) s) fun t =>
      (t.site q).state = 2 ∧ (t.site q).step = 0 ∧ (t.site q).failures = 1 ∧ unchangedBut [.sites] s t) ∧
  (∀ s q, q < 6 → (s.site q).state = 2 → 2 ≤ (s.site q).step → 2 ≤ (s.site q).failures →
    completesWith (exec (.siteTrainingTimeout q) s) fun t =>
      (t.site q).state = 4 ∧ (t.site q).fenceCause = 3 ∧ (t.site q).resetLow = true ∧ unchangedBut [.sites, .work, .evt, .out, .keel] s t) ∧
  (∀ s q m, q < 6 → discCrcOk m = false → exec (.advert q m) s = .next s ∧ exec (.lanes q m) s = .next s) ∧
  (∀ s q f, q < 6 → List.length f = siteWays q → (s.site q).state = 2 → (s.site q).step = 4 →
    (s.site q).reported ≠ 2 ^ siteWays q - 1 →
    completesWith (exec (.laneTestEnd q f) s) fun t =>
      (t.site q).tested = 2 ^ siteWays q - 1 ∧
      (∀ c, c < siteWays q → SMap.get none (t.site q).mine c =
        (if (f.getD c []).length ≤ (if q < 4 then 8 else 0) then some (f.getD c []) else none)) ∧
      (t.site q).step = 4 ∧ unchangedBut [.sites, .out] s t) ∧
  (∀ s q m, q < 6 → discGood m 2 → (s.site q).state = 2 → (s.site q).step = 4 → byteAt m 16 < siteWays q →
    (s.site q).tested ≠ 2 ^ siteWays q - 1 →
    completesWith (exec (.lanes q m) s) fun t =>
      SMap.get none (t.site q).theirs (byteAt m 16) =
        (if byteAt m 17 ≤ 8 then some (unpackLanes (slice m 18 9) (byteAt m 17)) else none) ∧
      (t.site q).reported = (s.site q).reported ||| 2 ^ byteAt m 16 ∧ unchangedBut [.sites] s t) ∧
  (∀ s q m, q < 6 → discGood m 4 → (s.site q).state = 2 → (s.site q).step = 5 → fieldLe m 16 2 = (s.site q).chanMask →
    completesWith (exec (.echo q m) s) fun t =>
      (t.site q).step = 6 ∧ (t.site q).aligned = 0 ∧ (t.site q).chanMask = (s.site q).chanMask ∧ unchangedBut [.sites, .out] s t) ∧
  (∀ s q, q < 6 → (s.site q).state = 2 → (s.site q).step = 5 → (s.site q).failures = 0 →
    completesWith (exec (.echoTimeout q) s) fun t =>
      (t.site q).failures = 1 ∧ (t.site q).fallback = true ∧ (t.site q).step = 5 ∧
      t.out = s.out ++ [.siteMessage q (discMsg 3 (s.site q).attempt 1 (s.site q).chanMask [])] ∧ unchangedBut [.sites, .evt, .out] s t) ∧
  (∀ s q, q < 6 → ((s.site q).state = 2 ∨ (s.site q).state = 3) →
    completesWith (exec (.siteAlert q) s) fun t =>
      (t.site q).state = 2 ∧ (t.site q).step = 0 ∧ (t.site q).sealedOk = false ∧ (t.site q).attested = false ∧
      (t.site q).retrains = satAdd 0xFFFF (s.site q).retrains 1 ∧ (∀ r, r ≠ q → t.site r = s.site r) ∧
      unchangedBut [.sites, .evt, .keel] s t)

/-- Frames are taken in order; a die's requests pass the Bezel, are performed and answered; its answers end what was asked (R403 to
R409); the mailbox disables, enables, retrains, unfences and grants (R407, R410). -/
def Obligations.SitesExchange : Prop :=
  (∀ s q ch b, q < 6 → ch < siteWays q → List.length b = 272 → bit (s.site q).chanMask ch = false →
    exec (.siteFrame q ch b) s = .next s) ∧
  (∀ s q ch b, q < 6 → ch < siteWays q → List.length b = 272 → bit (s.site q).chanMask ch = true → (s.site q).state = 3 →
    crc64 (b.take 264) ≠ fieldLe b 264 8 → ((s.site q).chan ch).nakking = false →
    completesWith (exec (.siteFrame q ch b) s) fun t =>
      ((t.site q).chan ch).nakking = true ∧ (t.site q).crcBad = satAdd 0xFFFF (s.site q).crcBad 1 ∧
      ((t.site q).chan ch).rx = ((s.site q).chan ch).rx ∧ unchangedBut [.sites, .out] s t) ∧
  (∀ s q ch b, q < 6 → ch < siteWays q → List.length b = 272 → bit (s.site q).chanMask ch = true → (s.site q).state = 3 →
    crc64 (b.take 264) = fieldLe b 264 8 → bits (fieldLe b 256 4) 31 30 = 0 → bits (fieldLe b 256 4) 19 10 = ((s.site q).chan ch).rxSeq →
    bit (fieldLe b 256 4) 29 = false →
    completesWith (exec (.siteFrame q ch b) s) fun t =>
      ((t.site q).chan ch).rxSeq = (((s.site q).chan ch).rxSeq + 1) % 1024 ∧
      ((t.site q).chan ch).rx = ((s.site q).chan ch).rx ++
        (((chunks 16 16 (b.take 256)).foldl unitStep ⟨((s.site q).chan ch).partialMsg, [], false⟩).got.filter
          (fun m => m.op != siteStreamOp)) ∧
      unchangedBut [.sites, .out] s t) ∧
  (∀ s q ch, q < 6 → ch < siteWays q → (s.site q).state = 3 → ((s.site q).chan ch).replay ≠ [] → ((s.site q).chan ch).stuck < 15 →
    completesWith (exec (.siteReplayTimeout q ch) s) fun t =>
      t.out = s.out ++ ((s.site q).chan ch).replay.map (fun f => .siteFrame q ch f.2) ∧ unchangedBut [.sites, .out] s t) ∧
  (∀ s q ch m e, q < 6 → ch < siteWays q → s.siteHeadMsg q ch 0 = some m → m.op = siteReadOp → s.bezelCheck q m false = (0, s, e) →
    bit s.pwr.idle 2 = false → s.readHeld m.addr (64 * m.count) = false → s.mayIssue e.partition = true →
    exec (.siteRead q ch) s = .next ((((s.charge e.partition (s.readCost m.addr (64 * m.count))).heed m.addr
      (64 * m.count)).siteTake q ch 0).siteAnswer q ch m
      siteReadDataOp 0 (plain (s.readDev m.addr (64 * m.count))) (poisoned (s.readDev m.addr (64 * m.count))))) ∧
  (∀ s q ch m e, q < 6 → ch < siteWays q → s.siteHeadMsg q ch 0 = some m → m.op = siteWriteOp → s.bezelCheck q m true = (0, s, e) →
    bit s.pwr.idle 2 = false → s.repairHeld m.addr (64 * m.count) = false → s.mayIssue e.partition = true →
    exec (.siteWrite q ch) s = .next ((((s.charge e.partition (writeCost (64 * m.count))).writeDev m.addr
      (m.data.map (fun b => (b, m.poison))) e.partition).siteTake q ch 0).siteAnswer q ch m siteDoneOp 0 [] false)) ∧
  (∀ s q ch m, q < 6 → ch < siteWays q → s.siteHeadMsg q ch 0 = some m → m.op = siteReadOp → 4 < m.count →
    exec (.siteRead q ch) s = .next (s.siteRefuse q ch m siteReadDataOp 6)) ∧
  (∀ s q ch m line, q < 6 → ch < siteWays q → s.siteHeadMsg q ch 1 = some m → m.op = siteReadDataOp →
    (s.site q).asked.find? (fun a => a.1 == m.tag) = some (m.tag, line) →
    completesWith (exec (.siteReadData q ch) s) fun t =>
      SMap.get none (t.site q).answers line = some (m.status, (m.data.take 64).map (fun b => (b, m.poison))) ∧
      (∀ a, a ∈ (t.site q).asked → a.1 ≠ m.tag) ∧ unchangedBut [.sites, .out] s t) ∧
  (∀ s q ch m w, q < 6 → ch < siteWays q → s.siteHeadMsg q ch 1 = some m → m.op = siteDoneOp →
    (s.site q).writing.find? (fun w => w.tag == m.tag) = some w → m.status = 0 →
    completesWith (exec (.siteDone q ch) s) fun t =>
      (∀ y, y ∈ (t.site q).writing ↔ y ∈ (s.site q).writing ∧ y.tag ≠ m.tag) ∧ unchangedBut [.sites, .out] s t) ∧
  (∀ s b q, s.mboxRuns 0x600 b → List.length b = 8 → byteAt b 0 = q → q < 6 → (∀ k, 2 ≤ k → k < 8 → byteAt b k = 0) →
    (s.site q).strap ≠ 0 →
    (byteAt b 1 = 0 → completesWith (exec .siteDisable s) fun t =>
      (t.site q).state = 1 ∧ (t.site q).resetLow = true ∧ (t.site q).attested = false ∧ t.mboxEnded 0 [] ∧
      (∀ r, r ≠ q → t.site r = s.site r) ∧ unchangedBut [.sites, .out, .keel, .mbox] s t) ∧
    (byteAt b 1 = 1 → (s.site q).state = 1 → completesWith (exec .siteEnable s) fun t =>
      (t.site q).state = 2 ∧ (t.site q).step = 0 ∧ (t.site q).failures = 0 ∧ t.mboxEnded 0 [] ∧ unchangedBut [.sites, .mbox] s t) ∧
    (byteAt b 1 = 2 → (s.site q).state = 3 → completesWith (exec .siteRetrain s) fun t =>
      (t.site q).state = 2 ∧ (t.site q).sealedOk = false ∧ (t.site q).attested = false ∧ t.mboxEnded 0 [] ∧
      unchangedBut [.sites, .evt, .keel, .mbox] s t) ∧
    (byteAt b 1 = 3 → (s.site q).state = 4 → completesWith (exec .siteUnfence s) fun t =>
      (t.site q).state = 2 ∧ (t.site q).failures = 0 ∧ (t.site q).fenceCause = 0 ∧ t.mboxEnded 0 [] ∧
      unchangedBut [.sites, .evt, .keel, .mbox] s t)) ∧
  (∀ s b q, s.mboxRuns 0x601 b → List.length b = 8 → byteAt b 0 = q → q < 6 → byteAt b 1 = 0 → (∀ k, 4 ≤ k → k < 8 → byteAt b k = 0) →
    (∀ e, e < 16 → ((s.site q).entrySet e).enable = false) →
    completesWith (exec .siteGrant s) fun t =>
      (t.site q).grantDue = some (fieldLe b 2 2, false) ∧ (t.site q).mask = (s.site q).mask ∧ t.mboxEnded 0 [] ∧
      unchangedBut [.sites, .mbox] s t) ∧
  (∀ s b q, s.mboxRuns 0x601 b → List.length b = 8 → byteAt b 0 = q → q < 6 → byteAt b 1 = 1 → (∀ k, 4 ≤ k → k < 8 → byteAt b k = 0) →
    (s.site q).attested = false →
    completesWith (exec .siteGrant s) fun t => t.mboxEnded 4 [] ∧ unchangedBut [.mbox] s t) ∧
  (∀ s b q, s.mboxRuns 0x602 b → List.length b = 32 → byteAt b 0 = q → q < 6 → byteAt b 1 < 16 → byteAt b 2 < 16 → byteAt b 3 < 16 →
    bit (s.site q).maskSet (byteAt b 3) = true → (∀ k, 4 ≤ k → k < 8 → byteAt b k = 0) → (∀ k, 24 ≤ k → k < 32 → byteAt b k = 0) →
    fieldLe b 8 8 % 4096 = 0 → fieldLe b 16 8 % 4096 = 0 → fieldLe b 8 8 < fieldLe b 16 8 → backed (fieldLe b 8 8) 1 = true →
    backed (fieldLe b 8 8) (fieldLe b 16 8 - fieldLe b 8 8) = true →
    completesWith (exec .siteBezelSet s) fun t =>
      (t.site q).entrySet (byteAt b 1) = ⟨bit (byteAt b 2) 0, bit (byteAt b 2) 1, bit (byteAt b 2) 2, bit (byteAt b 2) 3, byteAt b 3,
        fieldLe b 8 8, fieldLe b 16 8⟩ ∧
      (∀ e, e ≠ byteAt b 1 → (t.site q).entrySet e = (s.site q).entrySet e) ∧ (t.site q).entries = (s.site q).entries ∧
      t.mboxEnded 0 [] ∧ unchangedBut [.sites, .mbox] s t) ∧
  (∀ s b, s.mboxRuns 0x603 b → List.length b = 8 → byteAt b 0 < 6 → (∀ k, 1 ≤ k → k < 8 → byteAt b k = 0) →
    completesWith (exec .siteBezelRead s) fun t =>
      t.mboxEnded 0 (((List.range 16).map (fun e => ((s.site (byteAt b 0)).entrySet e).bytes (byteAt b 0) e)).flatten) ∧
      unchangedBut [.mbox] s t)

/-! ### Power and heat -/

/-- Regulators, set-points, droop and the power settings (R443 to R454, R464 to R466). -/
def Obligations.PowerEventsAndSettings : Prop :=
  (∀ s, s.pwr.alertLow = false → s.ctl.pwrgood = true →
    completesWith (exec .vrAlert s) fun t =>
      t.pwr.alertLow = true ∧ t.pwr.alertStretch = true ∧ t.pwr.forceP7 = true ∧ t.pwr.alertLimit = 7 ∧
      unchangedBut [.pwr, .mesh, .evt] s t) ∧
  (∀ s, s.ctl.pwrgood = false → exec .vrAlert s = .next s) ∧
  (∀ s, s.pwr.alertLow = true →
    exec .vrAlertRelease s = .next { s with pwr := { s.pwr with alertLow := false, alertEnding := true } }) ∧
  (∀ s, s.pwr.alertLimit = 7 → s.pwr.alertNext ≠ 0 → s.pwr.faultLimit = 0 →
    completesWith (exec .throttleRecoveryStep s) fun t =>
      t.pwr.alertLimit = 6 ∧ t.pwr.alertNext = s.pwr.alertNext + 1000000 ∧ t.tick = (s.arrive s.pwr.alertNext).tick ∧
      unchangedBut [.pwr, .tick] s t) ∧
  (∀ s r, r < 2 →
    completesWith (exec (.setpointReached r) s) fun t =>
      (t.rail r).reached = true ∧ (∀ q, q ≠ r → t.rail q = s.rail q) ∧ (∀ q, q ∈ t.pwr.faultWait ↔ q ∈ s.pwr.faultWait ∧ q ≠ r) ∧
      unchangedBut [.pwr] s t) ∧
  (∀ s r, r < 2 → (s.rail r).reached = true → exec (.setpointTimeout r) s = .next s) ∧
  (∀ s r, r < 2 → (s.rail r).reached = false →
    completesWith (exec (.setpointTimeout r) s) fun t =>
      t.pwr.faultP7 = true ∧ t.pwr.faultLimit = 7 ∧ r ∈ t.pwr.faultWait ∧ unchangedBut [.pwr, .evt] s t) ∧
  (∀ s r, List.length r = 4 →
    completesWith (exec (.pmbusPoll r) s) fun t =>
      (∀ i g, r[i]? = some g → (t.rail i).uv = g.uv ∧ (t.rail i).ma = g.ma ∧ (t.rail i).temp = g.temp) ∧
      t.mem.bytes = s.mem.bytes ∧ t.tiles = s.tiles) ∧
  (∀ s region at_, region < 8 →
    completesWith (exec (.droopTrip region at_) s) fun t =>
      t.tick.time = (s.arrive at_).tick.time ∧
      ((s.ctl.released = false ∨ at_ < s.tickEnd) → t.tick.lastDroop = some t.tick.time) ∧
      t.pwr.droopEvents = satAdd 0xFFFF s.pwr.droopEvents 1 ∧
      t.stretchOf (region / 4) = some (match s.stretchOf (region / 4) with
        | some x => { x with last := (s.arrive at_).clockNow (region / 4) }
        | none => ⟨t.tick.time, (s.arrive at_).clockNow (region / 4), (s.arrive at_).clockNow (region / 4), region, false⟩) ∧
      t.stretchOf (1 - region / 4) = s.stretchOf (1 - region / 4) ∧
      unchangedBut [.pwr, .tick, .mesh] s t) ∧
  (∀ s half at_ x, half < 2 → s.stretchOf half = some x → x.count + 32 * clockUnit ≤ (s.arrive at_).clockNow half →
    x.last + 16 * clockUnit ≤ (s.arrive at_).clockNow half →
    completesWith (exec (.droopStretchEnd half at_) s) fun t =>
      t.stretchOf half = none ∧ t.stretchOf (1 - half) = s.stretchOf (1 - half) ∧ t.tick = (s.arrive at_).tick ∧
      unchangedBut [.pwr, .tick, .mesh] s t) ∧
  (∀ s half at_ x, half < 2 → s.stretchOf half = some x →
    (s.arrive at_).clockNow half < x.count + 32 * clockUnit ∨ (s.arrive at_).clockNow half < x.last + 16 * clockUnit →
    exec (.droopStretchEnd half at_) s = .next s) ∧
  (∀ s half at_ x, half < 2 → s.stretchOf half = some x → x.persistent = false → x.since + 4000 < (s.arrive at_).tick.time →
    completesWith (exec (.persistentDroop half at_) s) fun t =>
      t.pwr.droopPersistent = satAdd 0xFFFF s.pwr.droopPersistent 1 ∧ t.pwr.droopLimit = min 7 (s.commonP + 1) ∧
      t.stretchOf half = some { x with persistent := true } ∧ unchangedBut [.pwr, .tick, .evt] s t) ∧
  (∀ s b, s.mboxRuns 0x800 b → List.length b = 8 → (∀ k, 2 ≤ k → k < 8 → byteAt b k = 0) →
    completesWith (exec .pwrLimitSet s) fun t =>
      t.pwr.limitW = clampNat 100 520 (fieldLe b 0 2) ∧
      t.mboxEnded 0 (if 100 ≤ fieldLe b 0 2 ∧ fieldLe b 0 2 ≤ 520 then [] else natLe 8 1) ∧ unchangedBut [.pwr, .mbox] s t) ∧
  (∀ s, s.mboxRuns 0x801 [] →
    completesWith (exec .pwrCapClear s) fun t =>
      t.pwr.cap90 = false ∧ t.pwr.diverge = 0 ∧ t.mboxEnded 0 [] ∧ unchangedBut [.pwr, .mbox] s t) ∧
  (∀ s b, s.mboxRuns 0x802 b → List.length b = 8 → byteAt b 0 < 2 → byteAt b 1 < 8 → (∀ k, 2 ≤ k → k < 8 → byteAt b k = 0) →
    (s.crossings = false → s.offerBothHalves = false →
      completesWith (exec .pwrHalfSet s) fun t =>
        (if byteAt b 0 = 0 then t.pwr.capWest else t.pwr.capEast) = byteAt b 1 ∧ t.mboxEnded 0 [] ∧ unchangedBut [.pwr, .mbox] s t) ∧
    (s.crossings = true →
      completesWith (exec .pwrHalfSet s) fun t =>
        t.pwr = s.pwr ∧ t.mesh.seamReason = 1 ∧ t.mboxEnded 4 [] ∧ unchangedBut [.mesh, .evt, .mbox] s t)) ∧
  (∀ s b, s.mboxRuns 0x803 b → List.length b = 8 → byteAt b 0 < 16 → (∀ k, 1 ≤ k → k < 8 → byteAt b k = 0) →
    s.work.flights = [] → s.mesh.scheds = [] → s.memberPorts = [] →
    completesWith (exec .pwrIdleSet s) fun t =>
      t.pwr.idleDue = some (byteAt b 0) ∧ t.mboxEnded 0 (natLe 8 (byteAt b 0)) ∧ unchangedBut [.pwr, .mbox] s t) ∧
  (∀ s m, m < 4 → bit s.pwr.idle m = true → bit s.pwr.waking m = false →
    exec (.idleWake m) s = .next { s with pwr := { s.pwr with waking := s.pwr.waking ||| 2 ^ m } }) ∧
  (∀ s m, m < 4 → bit s.pwr.waking m = false → exec (.idleExitDone m) s = .next s) ∧
  (∀ s, bit s.pwr.waking 0 = true → bit s.pwr.leaving 0 = true →
    completesWith (exec (.idleExitDone 0) s) fun t =>
      t.pwr.idle = s.pwr.idle - 1 ∧ t.pwr.waking = s.pwr.waking - 1 ∧ unchangedBut [.pwr, .out] s t)

/-- Sensors, the trip, the stacks' heat, hints and the coolant (R456 to R462, R466). -/
def Obligations.HeatEventsAndSettings : Prop :=
  (∀ s (v : List Int), v.length = 96 → s.ctl.pwrgood = true → (∀ n, (s.sensor n).failed = false ∧ (s.sensor n).far = 0) →
    (∀ x, x ∈ v → x = v.headD 0) → 0 ≤ v.headD 0 → v.headD 0 < 1696 →
    completesWith (exec (.junctionSensorRead v) s) fun t =>
      (t.therm.hottest : Int) = v.headD 0 ∧ (∀ n, n < 96 → (t.sensor n).temp = v.headD 0 ∧ (t.sensor n).failed = false) ∧
      t.keel.safe = s.keel.safe ∧ unchangedBut [.therm] s t) ∧
  (∀ s, s.ctl.pwrgood = true → s.keel.safe = false → s.keel.newCause = false →
    completesWith (exec .hardwiredTrip s) fun t => safeWith 7 t ∧ t.keel.trip = true ∧ t.pwr.forceP7 = s.pwr.forceP7) ∧
  (∀ s f x, s.controlReady f 0x80020 = some x →
    completesWith (exec (.collectiveHint f) s) fun t => endedWith s t f x 0 0 ∧ t.therm = s.therm ∧ unchangedBut [.work, .xlat] s t) ∧
  (∀ s p t', p < 16 → (SMap.get none s.therm.hints p : Option Nat) = some t' →
    completesWith (exec (.hintExpiry p) s) fun t =>
      (SMap.get none t.therm.hints p : Option Nat) = none ∧
      (∀ q, q ≠ p → (SMap.get none t.therm.hints q : Option Nat) = SMap.get none s.therm.hints q) ∧
      t.tick.time = max s.tick.time t' ∧ unchangedBut [.therm, .tick] s t) ∧
  (∀ s k temp, k < 8 → temp ≤ 82 → s.ctl.pwrgood = true → temp < s.ctl.cfg.tst → s.ctl.cfg.tst ≤ s.ctl.cfg.tsh →
    completesWith (exec (.stackTempRead k temp) s) fun t =>
      (SMap.get {} t.mem.hbm k : Stack).tempC = temp ∧ (SMap.get {} t.mem.hbm k : Stack).refresh2x = false ∧
      (∀ j, j ≠ k → (SMap.get {} t.mem.hbm j : Stack) = SMap.get {} s.mem.hbm j) ∧ t.mem.bytes = s.mem.bytes ∧
      unchangedBut [.mem, .therm] s t) ∧
  (∀ s k temp, k < 8 → 86 ≤ temp → temp < 256 → s.ctl.pwrgood = true → s.ctl.cfg.tsh < temp → s.keel.safe = false →
    s.keel.newCause = false →
    completesWith (exec (.stackTempRead k temp) s) fun t => safeWith 15 t ∧ (SMap.get {} t.mem.hbm k : Stack).refresh2x = true) ∧
  (∀ s k, k < 8 → (s.thermStack k).phase = 1 → (SMap.get {} s.mem.hbm k : Stack).tempC < s.ctl.cfg.tst →
    s.ctl.cfg.tst ≤ s.ctl.cfg.tsh →
    completesWith (exec (.stackDeferralEnd k) s) fun t =>
      (t.thermStack k).phase = 0 ∧ (t.thermStack k).deferred = false ∧ t.tick.time = max s.tick.time (s.thermStack k).deferEnd ∧
      unchangedBut [.therm, .tick] s t) ∧
  (∀ s k, k < 8 → (s.thermStack k).phase = 1 → s.ctl.cfg.tst ≤ (SMap.get {} s.mem.hbm k : Stack).tempC →
    (SMap.get {} s.mem.hbm k : Stack).tempC < s.ctl.cfg.tsh →
    completesWith (exec (.stackDeferralEnd k) s) fun t =>
      (SMap.get {} t.mem.hbm k : Stack).duty = 12 ∧ (t.thermStack k).phase = 2 ∧ t.mem.bytes = s.mem.bytes) ∧
  (∀ s k, k < 8 → s.ctl.pwrgood = true → s.keel.safe = false → s.keel.newCause = false →
    completesWith (exec (.cattrip k) s) fun t => safeWith 8 t ∧ (SMap.get {} t.mem.hbm k : Stack).cattrip = true) ∧
  (∀ s, s.ctl.pwrgood = true → s.keel.safe = true →
    completesWith (exec .ballastWindow s) fun t => t.therm.duty = 255 ∧ t.mem.bytes = s.mem.bytes ∧ t.casket = s.casket) ∧
  (∀ s b, s.mboxRuns 0x900 b → List.length b = 8 → fieldLe b 0 2 ≤ 1280 → (∀ k, 2 ≤ k → k < 8 → byteAt b k = 0) →
    completesWith (exec .thermCoolantSet s) fun t =>
      t.therm.tinDue = some (fieldLe b 0 2) ∧ t.therm.tin = s.therm.tin ∧ t.mboxEnded 0 [] ∧ unchangedBut [.therm, .mbox] s t)
end

