-- ==== Sys2Proof/Laws/SMap.lean ====
section
/-! SUPPORT. The laws of sparse families: what a read gives after a write, and that every operation keeps the canonical form. -/

namespace Sys2Proof.Machine

variable {α : Type}

@[simp] theorem SMap.get_nil (d : α) (n : Nat) : SMap.get d [] n = d := rfl

@[simp] theorem SMap.get_put_same (d : α) (m : SMap α) (n : Nat) (x : α) : SMap.get d (SMap.put m n x) n = x := by
  induction m with
  | nil => simp [SMap.put, SMap.get]
  | cons e m ih =>
    obtain ⟨k, v⟩ := e
    by_cases h : n < k
    · simp [SMap.put, SMap.get, h]
    · by_cases h2 : n = k
      · simp [SMap.put, SMap.get, h2]
      · simp [SMap.put, SMap.get, h, h2, ih]

@[simp] theorem SMap.get_put_other (d : α) (m : SMap α) (n k : Nat) (x : α) (h : k ≠ n) :
    SMap.get d (SMap.put m n x) k = SMap.get d m k := by
  induction m with
  | nil => simp [SMap.put, SMap.get, h]
  | cons e m ih =>
    obtain ⟨j, v⟩ := e
    by_cases h1 : n < j
    · simp [SMap.put, SMap.get, h1, h]
    · by_cases h2 : n = j
      · subst h2; simp [SMap.put, SMap.get, h]
      · simp [SMap.put, SMap.get, h1, h2, ih]

@[simp] theorem SMap.get_del_same (d : α) (m : SMap α) (n : Nat) : SMap.get d (SMap.del m n) n = d := by
  induction m with
  | nil => rfl
  | cons e m ih =>
    obtain ⟨k, v⟩ := e
    by_cases h : k = n
    · simpa [SMap.del, h] using ih
    · have h' : n ≠ k := fun e => h e.symm
      simpa [SMap.del, SMap.get, h, h'] using ih

@[simp] theorem SMap.get_del_other (d : α) (m : SMap α) (n k : Nat) (h : k ≠ n) :
    SMap.get d (SMap.del m n) k = SMap.get d m k := by
  induction m with
  | nil => rfl
  | cons e m ih =>
    obtain ⟨j, v⟩ := e
    by_cases hj : j = n
    · subst hj
      simpa [SMap.del, SMap.get, h] using ih
    · by_cases hk : k = j
      · subst hk; simp [SMap.del, SMap.get, hj]
      · simpa [SMap.del, SMap.get, hj, hk] using ih

variable [DecidableEq α]

@[simp] theorem SMap.get_set_same (d : α) (m : SMap α) (n : Nat) (x : α) : SMap.get d (SMap.set d m n x) n = x := by
  unfold SMap.set; split <;> simp_all

@[simp] theorem SMap.get_set_other (d : α) (m : SMap α) (n k : Nat) (x : α) (h : k ≠ n) :
    SMap.get d (SMap.set d m n x) k = SMap.get d m k := by
  unfold SMap.set; split <;> simp_all

@[simp] theorem SMap.get_upd_same (d : α) (m : SMap α) (n : Nat) (f : α → α) :
    SMap.get d (SMap.upd d m n f) n = f (SMap.get d m n) := by simp [SMap.upd]

@[simp] theorem SMap.get_upd_other (d : α) (m : SMap α) (n k : Nat) (f : α → α) (h : k ≠ n) :
    SMap.get d (SMap.upd d m n f) k = SMap.get d m k := by simp [SMap.upd, h]

/-- A run of writes leaves every index outside it alone. -/
theorem SMap.get_setList_out (d : α) (xs : List α) (m : SMap α) (n k : Nat) (h : k < n ∨ n + xs.length ≤ k) :
    SMap.get d (SMap.setList d m n xs) k = SMap.get d m k := by
  induction xs generalizing m n with
  | nil => rfl
  | cons x xs ih =>
    simp only [List.length_cons] at h
    rw [SMap.setList, ih _ _ (by omega), SMap.get_set_other _ _ _ _ _ (by omega)]

/-- Each index of a run of writes reads as what was written to it. -/
theorem SMap.get_setList_in (d : α) (xs : List α) (m : SMap α) (n i : Nat) (h : i < xs.length) :
    SMap.get d (SMap.setList d m n xs) (n + i) = xs[i] := by
  induction xs generalizing m n i with
  | nil => simp at h
  | cons x xs ih =>
    cases i with
    | zero => rw [SMap.setList, SMap.get_setList_out _ _ _ _ _ (by omega)]; simp
    | succ i =>
      have := ih (SMap.set d m n x) (n + 1) i (by simpa using h)
      rw [SMap.setList, show n + (i + 1) = n + 1 + i by omega]
      simpa using this

omit [DecidableEq α] in
/-- What a run of reads gives. -/
theorem SMap.getList_eq (d : α) (m : SMap α) (n len : Nat) :
    SMap.getList d m n len = (List.range len).map (fun i => SMap.get d m (n + i)) := by
  induction len generalizing n with
  | zero => rfl
  | succ len ih =>
    rw [SMap.getList, ih, List.range_succ_eq_map]
    simp [Function.comp_def, Nat.add_comm, Nat.add_left_comm]

/-! ### The canonical form -/

omit [DecidableEq α] in
/-- Raising the bound of a rising list is a lower bound on its first index. -/
theorem SMap.rising_weaken (b : Option Nat) (c : Nat) (m : SMap α) (h : SMap.rising (some c) m = true)
    (hb : ∀ x, b = some x → x ≤ c) : SMap.rising b m = true := by
  cases m with
  | nil => simp [SMap.rising]
  | cons e m =>
    obtain ⟨k, v⟩ := e
    cases b with
    | none => simp_all [SMap.rising]
    | some x =>
      have := hb x rfl
      simp [SMap.rising] at h ⊢
      exact ⟨by omega, h.2⟩

omit [DecidableEq α] in
theorem SMap.rising_put (b : Option Nat) (m : SMap α) (n : Nat) (x : α) (h : SMap.rising b m = true)
    (hb : ∀ y, b = some y → y < n) : SMap.rising b (SMap.put m n x) = true := by
  induction m generalizing b with
  | nil => cases b <;> simp_all [SMap.put, SMap.rising]
  | cons e m ih =>
    obtain ⟨k, v⟩ := e
    have hk : SMap.rising (some k) m = true := by cases b <;> simp_all [SMap.rising]
    have hbk : ∀ y, b = some y → y < k := by cases b <;> simp_all [SMap.rising]
    by_cases h1 : n < k
    · cases b <;> simp_all [SMap.put, SMap.rising]
    · by_cases h2 : n = k
      · subst h2; cases b <;> simp_all [SMap.put, SMap.rising]
      · have := ih (some k) hk (by intro y hy; cases hy; omega)
        rw [SMap.put, if_neg h1, if_neg h2]
        cases b <;> simp_all [SMap.rising]

omit [DecidableEq α] in
theorem SMap.rising_filter (b : Option Nat) (m : SMap α) (p : Nat × α → Bool) (h : SMap.rising b m = true) :
    SMap.rising b (m.filter p) = true := by
  induction m generalizing b with
  | nil => simpa using h
  | cons e m ih =>
    obtain ⟨k, v⟩ := e
    have hk : SMap.rising (some k) m = true := by cases b <;> simp_all [SMap.rising]
    have hbk : ∀ y, b = some y → y < k := by cases b <;> simp_all [SMap.rising]
    have := ih (some k) hk
    by_cases hp : p (k, v)
    · cases b <;> simp_all [SMap.rising]
    · rw [List.filter_cons_of_neg (by simpa using hp)]
      exact SMap.rising_weaken b k _ this (fun x hx => Nat.le_of_lt (hbk x hx))

omit [DecidableEq α] in
/-- Every entry of a family after a write is an old one or the new one. -/
theorem SMap.mem_put (m : SMap α) (n : Nat) (x : α) (e : Nat × α) (h : e ∈ SMap.put m n x) : e ∈ m ∨ e = (n, x) := by
  induction m with
  | nil => simpa [SMap.put] using h
  | cons a m ih =>
    obtain ⟨k, v⟩ := a
    simp only [SMap.put] at h
    split at h
    · simp_all; tauto
    · split at h
      · simp_all; tauto
      · simp only [List.mem_cons] at h ⊢
        rcases h with h | h
        · exact .inl (.inl h)
        · exact (ih h).imp .inr id

theorem SMap.wf_nil (d : α) : SMap.wf d ([] : SMap α) = true := by simp [SMap.wf, SMap.rising]

theorem SMap.wf_filter (d : α) (m : SMap α) (p : Nat × α → Bool) (h : SMap.wf d m = true) : SMap.wf d (m.filter p) = true := by
  simp only [SMap.wf, Bool.and_eq_true, List.all_eq_true] at h ⊢
  exact ⟨SMap.rising_filter _ _ _ h.1, fun e he => h.2 e (List.mem_filter.1 he).1⟩

theorem SMap.wf_set (d : α) (m : SMap α) (n : Nat) (x : α) (h : SMap.wf d m = true) : SMap.wf d (SMap.set d m n x) = true := by
  unfold SMap.set
  split
  · exact SMap.wf_filter d m _ h
  · simp only [SMap.wf, Bool.and_eq_true, List.all_eq_true] at h ⊢
    refine ⟨SMap.rising_put _ _ _ _ h.1 (by simp), fun e he => ?_⟩
    rcases SMap.mem_put m n x e he with h1 | h1
    · exact h.2 e h1
    · subst h1; simpa

theorem SMap.wf_upd (d : α) (m : SMap α) (n : Nat) (f : α → α) (h : SMap.wf d m = true) : SMap.wf d (SMap.upd d m n f) = true :=
  SMap.wf_set d m n _ h

theorem SMap.wf_setList (d : α) (m : SMap α) (n : Nat) (xs : List α) (h : SMap.wf d m = true) :
    SMap.wf d (SMap.setList d m n xs) = true := by
  induction xs generalizing m n with
  | nil => exact h
  | cons x xs ih => exact ih _ _ (SMap.wf_set d m n x h)

theorem SMap.wf_keep (d : α) (m : SMap α) (p : Nat → Bool) (h : SMap.wf d m = true) : SMap.wf d (SMap.keep p m) = true :=
  SMap.wf_filter d m _ h

theorem SMap.wf_clear (d : α) (m : SMap α) (lo hi : Nat) (h : SMap.wf d m = true) : SMap.wf d (SMap.clear m lo hi) = true :=
  SMap.wf_keep d m _ h

omit [DecidableEq α] in
/-- What is cleared has the default value, and the rest stays. -/
theorem SMap.get_clear (d : α) (m : SMap α) (lo hi n : Nat) :
    SMap.get d (SMap.clear m lo hi) n = if lo ≤ n ∧ n < hi then d else SMap.get d m n := by
  induction m with
  | nil => simp [SMap.clear, SMap.keep, SMap.get]
  | cons e m ih =>
    obtain ⟨k, v⟩ := e
    have step : SMap.clear ((k, v) :: m) lo hi = if k < lo ∨ hi ≤ k then (k, v) :: SMap.clear m lo hi else SMap.clear m lo hi := by
      by_cases h : k < lo ∨ hi ≤ k <;> simp [SMap.clear, SMap.keep, h]
    rw [step]
    by_cases h : k < lo ∨ hi ≤ k
    · rw [if_pos h]; simp only [SMap.get]; rw [ih]
      by_cases hn : n = k
      · subst hn; rw [if_pos rfl, if_pos rfl, if_neg (by omega)]
      · rw [if_neg hn, if_neg hn]
    · rw [if_neg h, ih]; simp only [SMap.get]
      by_cases hn : n = k
      · subst hn; rw [if_pos (by omega), if_pos (by omega)]
      · rw [if_neg hn]

end Sys2Proof.Machine
end

