-- ==== Sys2Proof/Laws/Beads.lean ====
section
/-! SUPPORT. What executing one Bead instruction does, said once: `State.bead` on a core that stands at an instruction. -/

namespace Sys2Proof.Machine

@[simp] theorem Tile.landChan_none (x : Tile) (c cyc : Nat) (h : (x.rxCh c).landing = []) : x.landChan c cyc = x := by
  simp [Tile.landChan, h]

/-- With nothing on its way into DMEM, landing changes nothing. -/
theorem Tile.land_none (x : Tile) (cyc : Nat) (h : ∀ c, c < 4 → (x.rxCh c).landing = []) : x.land cyc = x := by
  simp [Tile.land, h]

/-- Landing writes DMEM, its error marks and the channels, and nothing else of a tile. -/
theorem Tile.landChan_keeps {β : Type} (g : Tile → β) (hd : ∀ y off bs, g (Tile.writeDmem y off bs) = g y) (hr : ∀ y c f, g (Tile.updRx y c f) = g y)
    (x : Tile) (c cyc : Nat) : g (x.landChan c cyc) = g x := by
  unfold Tile.landChan
  simp only
  split
  · rfl
  · generalize List.filter _ _ = l
    have : ∀ (l : List (Nat × MeshWord)) (y : Tile), g (l.foldl (fun (x : Tile) e =>
        (x.writeDmem ((x.rxCh c).base * 32 + 32 * (x.rxCh c).count) (e.2.data.map (fun b => (b, e.2.poison)))).updRx c
          (fun y => { y with count := y.count + 1 })) y) = g y := by
      intro l
      induction l with
      | nil => intro y; rfl
      | cons e l ih => intro y; rw [List.foldl_cons, ih, hr, hd]
    rw [this, hr]

theorem Tile.land_keeps {β : Type} (g : Tile → β) (hd : ∀ y off bs, g (Tile.writeDmem y off bs) = g y) (hr : ∀ y c f, g (Tile.updRx y c f) = g y)
    (x : Tile) (cyc : Nat) : g (x.land cyc) = g x := by
  simp [Tile.land, Tile.landChan_keeps g hd hr]

@[simp] theorem Tile.land_state (x : Tile) (cyc : Nat) : (x.land cyc).state = x.state :=
  Tile.land_keeps (fun x => x.state) (fun _ _ _ => rfl) (fun _ _ _ => rfl) x cyc
@[simp] theorem Tile.land_stall (x : Tile) (cyc : Nat) : (x.land cyc).stall = x.stall :=
  Tile.land_keeps (fun x => x.stall) (fun _ _ _ => rfl) (fun _ _ _ => rfl) x cyc
@[simp] theorem Tile.land_coreFenced (x : Tile) (cyc : Nat) : (x.land cyc).coreFenced = x.coreFenced :=
  Tile.land_keeps (fun x => x.coreFenced) (fun _ _ _ => rfl) (fun _ _ _ => rfl) x cyc
@[simp] theorem Tile.land_regs (x : Tile) (cyc : Nat) : (x.land cyc).regs = x.regs :=
  Tile.land_keeps (fun x => x.regs) (fun _ _ _ => rfl) (fun _ _ _ => rfl) x cyc
@[simp] theorem Tile.land_pc (x : Tile) (cyc : Nat) : (x.land cyc).pc = x.pc :=
  Tile.land_keeps (fun x => x.pc) (fun _ _ _ => rfl) (fun _ _ _ => rfl) x cyc
@[simp] theorem Tile.land_imem (x : Tile) (cyc : Nat) : (x.land cyc).imem = x.imem :=
  Tile.land_keeps (fun x => x.imem) (fun _ _ _ => rfl) (fun _ _ _ => rfl) x cyc
@[simp] theorem Tile.land_imemBad (x : Tile) (cyc : Nat) : (x.land cyc).imemBad = x.imemBad :=
  Tile.land_keeps (fun x => x.imemBad) (fun _ _ _ => rfl) (fun _ _ _ => rfl) x cyc
@[simp] theorem Tile.land_inRun (x : Tile) (cyc : Nat) : (x.land cyc).inRun = x.inRun :=
  Tile.land_keeps (fun x => x.inRun) (fun _ _ _ => rfl) (fun _ _ _ => rfl) x cyc

/-- Reading words of which none is weak changes nothing. -/
theorem Tile.heedWords_none (x : Tile) (ws : List Nat) (h : x.weak = []) (hc : x.corrected ≤ 0xFFFF) : x.heedWords ws = x := by
  cases x
  simp only at h hc
  subst h
  simp [Tile.heedWords, SMap.get, satAdd, hc]

/-- A core with nothing on its way into its DMEM and no weak word meets its instruction as its tile stands. -/
theorem State.core_eq (s : State) (n : Nat) (h : ∀ c, c < 4 → ((s.tile n).rxCh c).landing = []) (hw : (s.tile n).weak = [])
    (hc : (s.tile n).corrected ≤ 0xFFFF) : s.core n = s.tile n := by
  simp only [State.core, Tile.land_none _ _ h]
  split
  · exact Tile.heedWords_none _ _ hw hc
  · rfl

/-- What a core stands at does not depend on the words it has been given by ECC. -/
theorem Tile.heedWords_fetch (x : Tile) (ws : List Nat) : (x.heedWords ws).fetch = x.fetch := rfl

/-- One Bead command at a core that stands at instruction `i`: its meaning gets the state in which the fetched words are corrected. -/
theorem State.bead_of_beadAt {s : State} {n w len : Nat} {i : BeadInstr} (h : s.beadAt n i w len) (want : Tile → BeadInstr → Bool)
    (hw : want ((s.tile n).land (s.tile n).cycle) i = true) (sem : State → Tile → BeadInstr → Nat → Nat → BeadRes) :
    s.bead n want sem = (s.updTile n (fun _ => s.core n)).beadCommit n
      (sem (s.updTile n (fun _ => s.core n)) ((s.updTile n (fun _ => s.core n)).tile n) i w len) := by
  obtain ⟨⟨_, hs, hst, hf, ha⟩, hfe, hq⟩ := h
  have hfe' : ((s.tile n).land (s.tile n).cycle).fetch = .inl (i, w, len) := by
    rw [← hfe]; unfold State.core; simp only; split
    · rw [Tile.heedWords_fetch]
    · rfl
  have hc : s.core n = ((s.tile n).land (s.tile n).cycle).heedWords (wordsMet (s.tile n).pc.toNat len) := by
    simp [State.core, hfe']
  have hb : (wordsMet (s.tile n).pc.toNat len).any (fun w => SMap.get false (s.tile n).imemBad w) = false := by
    rw [List.any_eq_false]
    intro q hm
    have := hq q (by rw [hc]; simpa [Tile.heedWords] using hm)
    rw [hc] at this
    simpa [Tile.heedWords] using this
  simp [State.bead, hs, hst, hf, ha, hfe', hw, hb, hc]

end Sys2Proof.Machine
end

