-- ==== Sys2Proof/Laws/State.lean ====
section
/-! SUPPORT. What each plain update of the state leaves alone, one lemma per component, and what it makes of the unit it updates. -/

namespace Sys2Proof.Machine

/-! `State.updSlot` -/

section
variable (s : State) (i : Nat) (f : Slot → Slot)
@[simp] theorem State.updSlot_tick : (s.updSlot i f).tick = s.tick := rfl
@[simp] theorem State.updSlot_ctl : (s.updSlot i f).ctl = s.ctl := rfl
@[simp] theorem State.updSlot_host : (s.updSlot i f).host = s.host := rfl
@[simp] theorem State.updSlot_work : (s.updSlot i f).work = s.work := rfl
@[simp] theorem State.updSlot_clasps : (s.updSlot i f).clasps = s.clasps := rfl
@[simp] theorem State.updSlot_evt : (s.updSlot i f).evt = s.evt := rfl
@[simp] theorem State.updSlot_mbox : (s.updSlot i f).mbox = s.mbox := rfl
@[simp] theorem State.updSlot_xlat : (s.updSlot i f).xlat = s.xlat := rfl
@[simp] theorem State.updSlot_casket : (s.updSlot i f).casket = s.casket := rfl
@[simp] theorem State.updSlot_mem : (s.updSlot i f).mem = s.mem := rfl
@[simp] theorem State.updSlot_care : (s.updSlot i f).care = s.care := rfl
@[simp] theorem State.updSlot_tiles : (s.updSlot i f).tiles = s.tiles := rfl
@[simp] theorem State.updSlot_mesh : (s.updSlot i f).mesh = s.mesh := rfl
@[simp] theorem State.updSlot_locket : (s.updSlot i f).locket = s.locket := rfl
@[simp] theorem State.updSlot_tether : (s.updSlot i f).tether = s.tether := rfl
@[simp] theorem State.updSlot_pwr : (s.updSlot i f).pwr = s.pwr := rfl
@[simp] theorem State.updSlot_therm : (s.updSlot i f).therm = s.therm := rfl
@[simp] theorem State.updSlot_keel : (s.updSlot i f).keel = s.keel := rfl
@[simp] theorem State.updSlot_dbg : (s.updSlot i f).dbg = s.dbg := rfl
@[simp] theorem State.updSlot_sites : (s.updSlot i f).sites = s.sites := rfl
@[simp] theorem State.updSlot_out : (s.updSlot i f).out = s.out := rfl
@[simp] theorem State.updSlot_free : (s.updSlot i f).free = s.free := rfl
@[simp] theorem State.updSlot_pending : (s.updSlot i f).pending = s.pending := rfl
end

/-! `State.casketErr` -/

section
variable (s : State) (sl : Nat) (f : CasketErr → CasketErr)
@[simp] theorem State.casketErr_tick : (s.casketErr sl f).tick = s.tick := rfl
@[simp] theorem State.casketErr_ctl : (s.casketErr sl f).ctl = s.ctl := rfl
@[simp] theorem State.casketErr_host : (s.casketErr sl f).host = s.host := rfl
@[simp] theorem State.casketErr_work : (s.casketErr sl f).work = s.work := rfl
@[simp] theorem State.casketErr_clasps : (s.casketErr sl f).clasps = s.clasps := rfl
@[simp] theorem State.casketErr_evt : (s.casketErr sl f).evt = s.evt := rfl
@[simp] theorem State.casketErr_mbox : (s.casketErr sl f).mbox = s.mbox := rfl
@[simp] theorem State.casketErr_xlat : (s.casketErr sl f).xlat = s.xlat := rfl
@[simp] theorem State.casketErr_sail : (s.casketErr sl f).sail = s.sail := rfl
@[simp] theorem State.casketErr_mem : (s.casketErr sl f).mem = s.mem := rfl
@[simp] theorem State.casketErr_care : (s.casketErr sl f).care = s.care := rfl
@[simp] theorem State.casketErr_tiles : (s.casketErr sl f).tiles = s.tiles := rfl
@[simp] theorem State.casketErr_mesh : (s.casketErr sl f).mesh = s.mesh := rfl
@[simp] theorem State.casketErr_locket : (s.casketErr sl f).locket = s.locket := rfl
@[simp] theorem State.casketErr_tether : (s.casketErr sl f).tether = s.tether := rfl
@[simp] theorem State.casketErr_pwr : (s.casketErr sl f).pwr = s.pwr := rfl
@[simp] theorem State.casketErr_therm : (s.casketErr sl f).therm = s.therm := rfl
@[simp] theorem State.casketErr_keel : (s.casketErr sl f).keel = s.keel := rfl
@[simp] theorem State.casketErr_dbg : (s.casketErr sl f).dbg = s.dbg := rfl
@[simp] theorem State.casketErr_sites : (s.casketErr sl f).sites = s.sites := rfl
@[simp] theorem State.casketErr_out : (s.casketErr sl f).out = s.out := rfl
@[simp] theorem State.casketErr_free : (s.casketErr sl f).free = s.free := rfl
@[simp] theorem State.casketErr_pending : (s.casketErr sl f).pending = s.pending := rfl
end

/-! `State.writeCasket` -/

section
variable (s : State) (a : Nat) (bs : List (Byte × Bool))
@[simp] theorem State.writeCasket_tick : (s.writeCasket a bs).tick = s.tick := rfl
@[simp] theorem State.writeCasket_ctl : (s.writeCasket a bs).ctl = s.ctl := rfl
@[simp] theorem State.writeCasket_host : (s.writeCasket a bs).host = s.host := rfl
@[simp] theorem State.writeCasket_work : (s.writeCasket a bs).work = s.work := rfl
@[simp] theorem State.writeCasket_clasps : (s.writeCasket a bs).clasps = s.clasps := rfl
@[simp] theorem State.writeCasket_evt : (s.writeCasket a bs).evt = s.evt := rfl
@[simp] theorem State.writeCasket_mbox : (s.writeCasket a bs).mbox = s.mbox := rfl
@[simp] theorem State.writeCasket_xlat : (s.writeCasket a bs).xlat = s.xlat := rfl
@[simp] theorem State.writeCasket_sail : (s.writeCasket a bs).sail = s.sail := rfl
@[simp] theorem State.writeCasket_mem : (s.writeCasket a bs).mem = s.mem := rfl
@[simp] theorem State.writeCasket_care : (s.writeCasket a bs).care = s.care := rfl
@[simp] theorem State.writeCasket_tiles : (s.writeCasket a bs).tiles = s.tiles := rfl
@[simp] theorem State.writeCasket_mesh : (s.writeCasket a bs).mesh = s.mesh := rfl
@[simp] theorem State.writeCasket_locket : (s.writeCasket a bs).locket = s.locket := rfl
@[simp] theorem State.writeCasket_tether : (s.writeCasket a bs).tether = s.tether := rfl
@[simp] theorem State.writeCasket_pwr : (s.writeCasket a bs).pwr = s.pwr := rfl
@[simp] theorem State.writeCasket_therm : (s.writeCasket a bs).therm = s.therm := rfl
@[simp] theorem State.writeCasket_keel : (s.writeCasket a bs).keel = s.keel := rfl
@[simp] theorem State.writeCasket_dbg : (s.writeCasket a bs).dbg = s.dbg := rfl
@[simp] theorem State.writeCasket_sites : (s.writeCasket a bs).sites = s.sites := rfl
@[simp] theorem State.writeCasket_out : (s.writeCasket a bs).out = s.out := rfl
@[simp] theorem State.writeCasket_free : (s.writeCasket a bs).free = s.free := rfl
@[simp] theorem State.writeCasket_pending : (s.writeCasket a bs).pending = s.pending := rfl
end

/-! `State.zeroCasket` -/

section
variable (s : State) (a n : Nat)
@[simp] theorem State.zeroCasket_tick : (s.zeroCasket a n).tick = s.tick := rfl
@[simp] theorem State.zeroCasket_ctl : (s.zeroCasket a n).ctl = s.ctl := rfl
@[simp] theorem State.zeroCasket_host : (s.zeroCasket a n).host = s.host := rfl
@[simp] theorem State.zeroCasket_work : (s.zeroCasket a n).work = s.work := rfl
@[simp] theorem State.zeroCasket_clasps : (s.zeroCasket a n).clasps = s.clasps := rfl
@[simp] theorem State.zeroCasket_evt : (s.zeroCasket a n).evt = s.evt := rfl
@[simp] theorem State.zeroCasket_mbox : (s.zeroCasket a n).mbox = s.mbox := rfl
@[simp] theorem State.zeroCasket_xlat : (s.zeroCasket a n).xlat = s.xlat := rfl
@[simp] theorem State.zeroCasket_sail : (s.zeroCasket a n).sail = s.sail := rfl
@[simp] theorem State.zeroCasket_mem : (s.zeroCasket a n).mem = s.mem := rfl
@[simp] theorem State.zeroCasket_care : (s.zeroCasket a n).care = s.care := rfl
@[simp] theorem State.zeroCasket_tiles : (s.zeroCasket a n).tiles = s.tiles := rfl
@[simp] theorem State.zeroCasket_mesh : (s.zeroCasket a n).mesh = s.mesh := rfl
@[simp] theorem State.zeroCasket_locket : (s.zeroCasket a n).locket = s.locket := rfl
@[simp] theorem State.zeroCasket_tether : (s.zeroCasket a n).tether = s.tether := rfl
@[simp] theorem State.zeroCasket_pwr : (s.zeroCasket a n).pwr = s.pwr := rfl
@[simp] theorem State.zeroCasket_therm : (s.zeroCasket a n).therm = s.therm := rfl
@[simp] theorem State.zeroCasket_keel : (s.zeroCasket a n).keel = s.keel := rfl
@[simp] theorem State.zeroCasket_dbg : (s.zeroCasket a n).dbg = s.dbg := rfl
@[simp] theorem State.zeroCasket_sites : (s.zeroCasket a n).sites = s.sites := rfl
@[simp] theorem State.zeroCasket_out : (s.zeroCasket a n).out = s.out := rfl
@[simp] theorem State.zeroCasket_free : (s.zeroCasket a n).free = s.free := rfl
@[simp] theorem State.zeroCasket_pending : (s.zeroCasket a n).pending = s.pending := rfl
end

/-! `State.updTile` -/

section
variable (s : State) (t : Nat) (f : Tile → Tile)
@[simp] theorem State.updTile_tick : (s.updTile t f).tick = s.tick := rfl
@[simp] theorem State.updTile_ctl : (s.updTile t f).ctl = s.ctl := rfl
@[simp] theorem State.updTile_host : (s.updTile t f).host = s.host := rfl
@[simp] theorem State.updTile_work : (s.updTile t f).work = s.work := rfl
@[simp] theorem State.updTile_clasps : (s.updTile t f).clasps = s.clasps := rfl
@[simp] theorem State.updTile_evt : (s.updTile t f).evt = s.evt := rfl
@[simp] theorem State.updTile_mbox : (s.updTile t f).mbox = s.mbox := rfl
@[simp] theorem State.updTile_xlat : (s.updTile t f).xlat = s.xlat := rfl
@[simp] theorem State.updTile_sail : (s.updTile t f).sail = s.sail := rfl
@[simp] theorem State.updTile_casket : (s.updTile t f).casket = s.casket := rfl
@[simp] theorem State.updTile_mem : (s.updTile t f).mem = s.mem := rfl
@[simp] theorem State.updTile_care : (s.updTile t f).care = s.care := rfl
@[simp] theorem State.updTile_mesh : (s.updTile t f).mesh = s.mesh := rfl
@[simp] theorem State.updTile_locket : (s.updTile t f).locket = s.locket := rfl
@[simp] theorem State.updTile_tether : (s.updTile t f).tether = s.tether := rfl
@[simp] theorem State.updTile_pwr : (s.updTile t f).pwr = s.pwr := rfl
@[simp] theorem State.updTile_therm : (s.updTile t f).therm = s.therm := rfl
@[simp] theorem State.updTile_keel : (s.updTile t f).keel = s.keel := rfl
@[simp] theorem State.updTile_dbg : (s.updTile t f).dbg = s.dbg := rfl
@[simp] theorem State.updTile_sites : (s.updTile t f).sites = s.sites := rfl
@[simp] theorem State.updTile_out : (s.updTile t f).out = s.out := rfl
@[simp] theorem State.updTile_free : (s.updTile t f).free = s.free := rfl
@[simp] theorem State.updTile_pending : (s.updTile t f).pending = s.pending := rfl
end

/-! `State.updFlight` -/

section
variable (s : State) (f : Nat) (g : Flight → Flight)
@[simp] theorem State.updFlight_tick : (s.updFlight f g).tick = s.tick := rfl
@[simp] theorem State.updFlight_ctl : (s.updFlight f g).ctl = s.ctl := rfl
@[simp] theorem State.updFlight_host : (s.updFlight f g).host = s.host := rfl
@[simp] theorem State.updFlight_clasps : (s.updFlight f g).clasps = s.clasps := rfl
@[simp] theorem State.updFlight_evt : (s.updFlight f g).evt = s.evt := rfl
@[simp] theorem State.updFlight_mbox : (s.updFlight f g).mbox = s.mbox := rfl
@[simp] theorem State.updFlight_xlat : (s.updFlight f g).xlat = s.xlat := rfl
@[simp] theorem State.updFlight_sail : (s.updFlight f g).sail = s.sail := rfl
@[simp] theorem State.updFlight_casket : (s.updFlight f g).casket = s.casket := rfl
@[simp] theorem State.updFlight_mem : (s.updFlight f g).mem = s.mem := rfl
@[simp] theorem State.updFlight_care : (s.updFlight f g).care = s.care := rfl
@[simp] theorem State.updFlight_tiles : (s.updFlight f g).tiles = s.tiles := rfl
@[simp] theorem State.updFlight_mesh : (s.updFlight f g).mesh = s.mesh := rfl
@[simp] theorem State.updFlight_locket : (s.updFlight f g).locket = s.locket := rfl
@[simp] theorem State.updFlight_tether : (s.updFlight f g).tether = s.tether := rfl
@[simp] theorem State.updFlight_pwr : (s.updFlight f g).pwr = s.pwr := rfl
@[simp] theorem State.updFlight_therm : (s.updFlight f g).therm = s.therm := rfl
@[simp] theorem State.updFlight_keel : (s.updFlight f g).keel = s.keel := rfl
@[simp] theorem State.updFlight_dbg : (s.updFlight f g).dbg = s.dbg := rfl
@[simp] theorem State.updFlight_sites : (s.updFlight f g).sites = s.sites := rfl
@[simp] theorem State.updFlight_out : (s.updFlight f g).out = s.out := rfl
@[simp] theorem State.updFlight_free : (s.updFlight f g).free = s.free := rfl
@[simp] theorem State.updFlight_pending : (s.updFlight f g).pending = s.pending := rfl
end

/-! `State.useCtl` -/

section
variable (s : State) (ls : List Nat)
@[simp] theorem State.useCtl_tick : (s.useCtl ls).tick = s.tick := rfl
@[simp] theorem State.useCtl_ctl : (s.useCtl ls).ctl = s.ctl := rfl
@[simp] theorem State.useCtl_work : (s.useCtl ls).work = s.work := rfl
@[simp] theorem State.useCtl_clasps : (s.useCtl ls).clasps = s.clasps := rfl
@[simp] theorem State.useCtl_evt : (s.useCtl ls).evt = s.evt := rfl
@[simp] theorem State.useCtl_mbox : (s.useCtl ls).mbox = s.mbox := rfl
@[simp] theorem State.useCtl_xlat : (s.useCtl ls).xlat = s.xlat := rfl
@[simp] theorem State.useCtl_sail : (s.useCtl ls).sail = s.sail := rfl
@[simp] theorem State.useCtl_casket : (s.useCtl ls).casket = s.casket := rfl
@[simp] theorem State.useCtl_mem : (s.useCtl ls).mem = s.mem := rfl
@[simp] theorem State.useCtl_care : (s.useCtl ls).care = s.care := rfl
@[simp] theorem State.useCtl_tiles : (s.useCtl ls).tiles = s.tiles := rfl
@[simp] theorem State.useCtl_mesh : (s.useCtl ls).mesh = s.mesh := rfl
@[simp] theorem State.useCtl_locket : (s.useCtl ls).locket = s.locket := rfl
@[simp] theorem State.useCtl_tether : (s.useCtl ls).tether = s.tether := rfl
@[simp] theorem State.useCtl_pwr : (s.useCtl ls).pwr = s.pwr := rfl
@[simp] theorem State.useCtl_therm : (s.useCtl ls).therm = s.therm := rfl
@[simp] theorem State.useCtl_keel : (s.useCtl ls).keel = s.keel := rfl
@[simp] theorem State.useCtl_dbg : (s.useCtl ls).dbg = s.dbg := rfl
@[simp] theorem State.useCtl_sites : (s.useCtl ls).sites = s.sites := rfl
@[simp] theorem State.useCtl_out : (s.useCtl ls).out = s.out := rfl
@[simp] theorem State.useCtl_free : (s.useCtl ls).free = s.free := rfl
@[simp] theorem State.useCtl_pending : (s.useCtl ls).pending = s.pending := rfl
end

/-! `State.queueWrite` -/

section
variable (s : State) (w : OrderedWrite)
@[simp] theorem State.queueWrite_tick : (s.queueWrite w).tick = s.tick := rfl
@[simp] theorem State.queueWrite_ctl : (s.queueWrite w).ctl = s.ctl := rfl
@[simp] theorem State.queueWrite_work : (s.queueWrite w).work = s.work := rfl
@[simp] theorem State.queueWrite_clasps : (s.queueWrite w).clasps = s.clasps := rfl
@[simp] theorem State.queueWrite_evt : (s.queueWrite w).evt = s.evt := rfl
@[simp] theorem State.queueWrite_mbox : (s.queueWrite w).mbox = s.mbox := rfl
@[simp] theorem State.queueWrite_xlat : (s.queueWrite w).xlat = s.xlat := rfl
@[simp] theorem State.queueWrite_sail : (s.queueWrite w).sail = s.sail := rfl
@[simp] theorem State.queueWrite_casket : (s.queueWrite w).casket = s.casket := rfl
@[simp] theorem State.queueWrite_mem : (s.queueWrite w).mem = s.mem := rfl
@[simp] theorem State.queueWrite_care : (s.queueWrite w).care = s.care := rfl
@[simp] theorem State.queueWrite_tiles : (s.queueWrite w).tiles = s.tiles := rfl
@[simp] theorem State.queueWrite_mesh : (s.queueWrite w).mesh = s.mesh := rfl
@[simp] theorem State.queueWrite_locket : (s.queueWrite w).locket = s.locket := rfl
@[simp] theorem State.queueWrite_tether : (s.queueWrite w).tether = s.tether := rfl
@[simp] theorem State.queueWrite_pwr : (s.queueWrite w).pwr = s.pwr := rfl
@[simp] theorem State.queueWrite_therm : (s.queueWrite w).therm = s.therm := rfl
@[simp] theorem State.queueWrite_keel : (s.queueWrite w).keel = s.keel := rfl
@[simp] theorem State.queueWrite_dbg : (s.queueWrite w).dbg = s.dbg := rfl
@[simp] theorem State.queueWrite_sites : (s.queueWrite w).sites = s.sites := rfl
@[simp] theorem State.queueWrite_out : (s.queueWrite w).out = s.out := rfl
@[simp] theorem State.queueWrite_free : (s.queueWrite w).free = s.free := rfl
@[simp] theorem State.queueWrite_pending : (s.queueWrite w).pending = s.pending := rfl
end

/-! `State.dropWrites` -/

section
variable (s : State) (why : WritePurpose)
@[simp] theorem State.dropWrites_tick : (s.dropWrites why).tick = s.tick := rfl
@[simp] theorem State.dropWrites_ctl : (s.dropWrites why).ctl = s.ctl := rfl
@[simp] theorem State.dropWrites_work : (s.dropWrites why).work = s.work := rfl
@[simp] theorem State.dropWrites_clasps : (s.dropWrites why).clasps = s.clasps := rfl
@[simp] theorem State.dropWrites_evt : (s.dropWrites why).evt = s.evt := rfl
@[simp] theorem State.dropWrites_mbox : (s.dropWrites why).mbox = s.mbox := rfl
@[simp] theorem State.dropWrites_xlat : (s.dropWrites why).xlat = s.xlat := rfl
@[simp] theorem State.dropWrites_sail : (s.dropWrites why).sail = s.sail := rfl
@[simp] theorem State.dropWrites_casket : (s.dropWrites why).casket = s.casket := rfl
@[simp] theorem State.dropWrites_mem : (s.dropWrites why).mem = s.mem := rfl
@[simp] theorem State.dropWrites_care : (s.dropWrites why).care = s.care := rfl
@[simp] theorem State.dropWrites_tiles : (s.dropWrites why).tiles = s.tiles := rfl
@[simp] theorem State.dropWrites_mesh : (s.dropWrites why).mesh = s.mesh := rfl
@[simp] theorem State.dropWrites_locket : (s.dropWrites why).locket = s.locket := rfl
@[simp] theorem State.dropWrites_tether : (s.dropWrites why).tether = s.tether := rfl
@[simp] theorem State.dropWrites_pwr : (s.dropWrites why).pwr = s.pwr := rfl
@[simp] theorem State.dropWrites_therm : (s.dropWrites why).therm = s.therm := rfl
@[simp] theorem State.dropWrites_keel : (s.dropWrites why).keel = s.keel := rfl
@[simp] theorem State.dropWrites_dbg : (s.dropWrites why).dbg = s.dbg := rfl
@[simp] theorem State.dropWrites_sites : (s.dropWrites why).sites = s.sites := rfl
@[simp] theorem State.dropWrites_out : (s.dropWrites why).out = s.out := rfl
@[simp] theorem State.dropWrites_free : (s.dropWrites why).free = s.free := rfl
@[simp] theorem State.dropWrites_pending : (s.dropWrites why).pending = s.pending := rfl
end

/-! `State.generated` -/

section
variable (s : State)
@[simp] theorem State.generated_tick : (s.generated).tick = s.tick := rfl
@[simp] theorem State.generated_ctl : (s.generated).ctl = s.ctl := rfl
@[simp] theorem State.generated_host : (s.generated).host = s.host := rfl
@[simp] theorem State.generated_work : (s.generated).work = s.work := rfl
@[simp] theorem State.generated_clasps : (s.generated).clasps = s.clasps := rfl
@[simp] theorem State.generated_evt : (s.generated).evt = s.evt := rfl
@[simp] theorem State.generated_mbox : (s.generated).mbox = s.mbox := rfl
@[simp] theorem State.generated_xlat : (s.generated).xlat = s.xlat := rfl
@[simp] theorem State.generated_sail : (s.generated).sail = s.sail := rfl
@[simp] theorem State.generated_casket : (s.generated).casket = s.casket := rfl
@[simp] theorem State.generated_mem : (s.generated).mem = s.mem := rfl
@[simp] theorem State.generated_care : (s.generated).care = s.care := rfl
@[simp] theorem State.generated_tiles : (s.generated).tiles = s.tiles := rfl
@[simp] theorem State.generated_mesh : (s.generated).mesh = s.mesh := rfl
@[simp] theorem State.generated_tether : (s.generated).tether = s.tether := rfl
@[simp] theorem State.generated_pwr : (s.generated).pwr = s.pwr := rfl
@[simp] theorem State.generated_therm : (s.generated).therm = s.therm := rfl
@[simp] theorem State.generated_keel : (s.generated).keel = s.keel := rfl
@[simp] theorem State.generated_dbg : (s.generated).dbg = s.dbg := rfl
@[simp] theorem State.generated_sites : (s.generated).sites = s.sites := rfl
@[simp] theorem State.generated_out : (s.generated).out = s.out := rfl
@[simp] theorem State.generated_pending : (s.generated).pending = s.pending := rfl
end

/-! `State.updScrub` -/

section
variable (s : State) (n : Nat) (f : Scrub → Scrub)
@[simp] theorem State.updScrub_tick : (s.updScrub n f).tick = s.tick := rfl
@[simp] theorem State.updScrub_ctl : (s.updScrub n f).ctl = s.ctl := rfl
@[simp] theorem State.updScrub_host : (s.updScrub n f).host = s.host := rfl
@[simp] theorem State.updScrub_work : (s.updScrub n f).work = s.work := rfl
@[simp] theorem State.updScrub_clasps : (s.updScrub n f).clasps = s.clasps := rfl
@[simp] theorem State.updScrub_evt : (s.updScrub n f).evt = s.evt := rfl
@[simp] theorem State.updScrub_mbox : (s.updScrub n f).mbox = s.mbox := rfl
@[simp] theorem State.updScrub_xlat : (s.updScrub n f).xlat = s.xlat := rfl
@[simp] theorem State.updScrub_sail : (s.updScrub n f).sail = s.sail := rfl
@[simp] theorem State.updScrub_casket : (s.updScrub n f).casket = s.casket := rfl
@[simp] theorem State.updScrub_mem : (s.updScrub n f).mem = s.mem := rfl
@[simp] theorem State.updScrub_tiles : (s.updScrub n f).tiles = s.tiles := rfl
@[simp] theorem State.updScrub_mesh : (s.updScrub n f).mesh = s.mesh := rfl
@[simp] theorem State.updScrub_locket : (s.updScrub n f).locket = s.locket := rfl
@[simp] theorem State.updScrub_tether : (s.updScrub n f).tether = s.tether := rfl
@[simp] theorem State.updScrub_pwr : (s.updScrub n f).pwr = s.pwr := rfl
@[simp] theorem State.updScrub_therm : (s.updScrub n f).therm = s.therm := rfl
@[simp] theorem State.updScrub_keel : (s.updScrub n f).keel = s.keel := rfl
@[simp] theorem State.updScrub_dbg : (s.updScrub n f).dbg = s.dbg := rfl
@[simp] theorem State.updScrub_sites : (s.updScrub n f).sites = s.sites := rfl
@[simp] theorem State.updScrub_out : (s.updScrub n f).out = s.out := rfl
@[simp] theorem State.updScrub_free : (s.updScrub n f).free = s.free := rfl
@[simp] theorem State.updScrub_pending : (s.updScrub n f).pending = s.pending := rfl
end

/-! `State.updCe` -/

section
variable (s : State) (b : Nat) (f : CeBucket → CeBucket)
@[simp] theorem State.updCe_tick : (s.updCe b f).tick = s.tick := rfl
@[simp] theorem State.updCe_ctl : (s.updCe b f).ctl = s.ctl := rfl
@[simp] theorem State.updCe_host : (s.updCe b f).host = s.host := rfl
@[simp] theorem State.updCe_work : (s.updCe b f).work = s.work := rfl
@[simp] theorem State.updCe_clasps : (s.updCe b f).clasps = s.clasps := rfl
@[simp] theorem State.updCe_evt : (s.updCe b f).evt = s.evt := rfl
@[simp] theorem State.updCe_mbox : (s.updCe b f).mbox = s.mbox := rfl
@[simp] theorem State.updCe_xlat : (s.updCe b f).xlat = s.xlat := rfl
@[simp] theorem State.updCe_sail : (s.updCe b f).sail = s.sail := rfl
@[simp] theorem State.updCe_casket : (s.updCe b f).casket = s.casket := rfl
@[simp] theorem State.updCe_mem : (s.updCe b f).mem = s.mem := rfl
@[simp] theorem State.updCe_tiles : (s.updCe b f).tiles = s.tiles := rfl
@[simp] theorem State.updCe_mesh : (s.updCe b f).mesh = s.mesh := rfl
@[simp] theorem State.updCe_locket : (s.updCe b f).locket = s.locket := rfl
@[simp] theorem State.updCe_tether : (s.updCe b f).tether = s.tether := rfl
@[simp] theorem State.updCe_pwr : (s.updCe b f).pwr = s.pwr := rfl
@[simp] theorem State.updCe_therm : (s.updCe b f).therm = s.therm := rfl
@[simp] theorem State.updCe_keel : (s.updCe b f).keel = s.keel := rfl
@[simp] theorem State.updCe_dbg : (s.updCe b f).dbg = s.dbg := rfl
@[simp] theorem State.updCe_sites : (s.updCe b f).sites = s.sites := rfl
@[simp] theorem State.updCe_out : (s.updCe b f).out = s.out := rfl
@[simp] theorem State.updCe_free : (s.updCe b f).free = s.free := rfl
@[simp] theorem State.updCe_pending : (s.updCe b f).pending = s.pending := rfl
end

/-! `State.updGroup` -/

section
variable (s : State) (n : Nat) (f : Group → Group)
@[simp] theorem State.updGroup_tick : (s.updGroup n f).tick = s.tick := rfl
@[simp] theorem State.updGroup_ctl : (s.updGroup n f).ctl = s.ctl := rfl
@[simp] theorem State.updGroup_host : (s.updGroup n f).host = s.host := rfl
@[simp] theorem State.updGroup_work : (s.updGroup n f).work = s.work := rfl
@[simp] theorem State.updGroup_clasps : (s.updGroup n f).clasps = s.clasps := rfl
@[simp] theorem State.updGroup_evt : (s.updGroup n f).evt = s.evt := rfl
@[simp] theorem State.updGroup_mbox : (s.updGroup n f).mbox = s.mbox := rfl
@[simp] theorem State.updGroup_xlat : (s.updGroup n f).xlat = s.xlat := rfl
@[simp] theorem State.updGroup_sail : (s.updGroup n f).sail = s.sail := rfl
@[simp] theorem State.updGroup_casket : (s.updGroup n f).casket = s.casket := rfl
@[simp] theorem State.updGroup_care : (s.updGroup n f).care = s.care := rfl
@[simp] theorem State.updGroup_tiles : (s.updGroup n f).tiles = s.tiles := rfl
@[simp] theorem State.updGroup_mesh : (s.updGroup n f).mesh = s.mesh := rfl
@[simp] theorem State.updGroup_locket : (s.updGroup n f).locket = s.locket := rfl
@[simp] theorem State.updGroup_tether : (s.updGroup n f).tether = s.tether := rfl
@[simp] theorem State.updGroup_pwr : (s.updGroup n f).pwr = s.pwr := rfl
@[simp] theorem State.updGroup_therm : (s.updGroup n f).therm = s.therm := rfl
@[simp] theorem State.updGroup_keel : (s.updGroup n f).keel = s.keel := rfl
@[simp] theorem State.updGroup_dbg : (s.updGroup n f).dbg = s.dbg := rfl
@[simp] theorem State.updGroup_sites : (s.updGroup n f).sites = s.sites := rfl
@[simp] theorem State.updGroup_out : (s.updGroup n f).out = s.out := rfl
@[simp] theorem State.updGroup_free : (s.updGroup n f).free = s.free := rfl
@[simp] theorem State.updGroup_pending : (s.updGroup n f).pending = s.pending := rfl
end

/-! `State.setGranule` -/

section
variable (s : State) (g : Nat) (v : Bool)
@[simp] theorem State.setGranule_tick : (s.setGranule g v).tick = s.tick := rfl
@[simp] theorem State.setGranule_ctl : (s.setGranule g v).ctl = s.ctl := rfl
@[simp] theorem State.setGranule_host : (s.setGranule g v).host = s.host := rfl
@[simp] theorem State.setGranule_work : (s.setGranule g v).work = s.work := rfl
@[simp] theorem State.setGranule_clasps : (s.setGranule g v).clasps = s.clasps := rfl
@[simp] theorem State.setGranule_evt : (s.setGranule g v).evt = s.evt := rfl
@[simp] theorem State.setGranule_mbox : (s.setGranule g v).mbox = s.mbox := rfl
@[simp] theorem State.setGranule_xlat : (s.setGranule g v).xlat = s.xlat := rfl
@[simp] theorem State.setGranule_sail : (s.setGranule g v).sail = s.sail := rfl
@[simp] theorem State.setGranule_casket : (s.setGranule g v).casket = s.casket := rfl
@[simp] theorem State.setGranule_care : (s.setGranule g v).care = s.care := rfl
@[simp] theorem State.setGranule_tiles : (s.setGranule g v).tiles = s.tiles := rfl
@[simp] theorem State.setGranule_mesh : (s.setGranule g v).mesh = s.mesh := rfl
@[simp] theorem State.setGranule_locket : (s.setGranule g v).locket = s.locket := rfl
@[simp] theorem State.setGranule_tether : (s.setGranule g v).tether = s.tether := rfl
@[simp] theorem State.setGranule_pwr : (s.setGranule g v).pwr = s.pwr := rfl
@[simp] theorem State.setGranule_therm : (s.setGranule g v).therm = s.therm := rfl
@[simp] theorem State.setGranule_keel : (s.setGranule g v).keel = s.keel := rfl
@[simp] theorem State.setGranule_dbg : (s.setGranule g v).dbg = s.dbg := rfl
@[simp] theorem State.setGranule_sites : (s.setGranule g v).sites = s.sites := rfl
@[simp] theorem State.setGranule_out : (s.setGranule g v).out = s.out := rfl
@[simp] theorem State.setGranule_free : (s.setGranule g v).free = s.free := rfl
@[simp] theorem State.setGranule_pending : (s.setGranule g v).pending = s.pending := rfl
end

/-! `State.wakeMemory` -/

section
variable (s : State)
@[simp] theorem State.wakeMemory_tick : (s.wakeMemory).tick = s.tick := rfl
@[simp] theorem State.wakeMemory_ctl : (s.wakeMemory).ctl = s.ctl := rfl
@[simp] theorem State.wakeMemory_host : (s.wakeMemory).host = s.host := rfl
@[simp] theorem State.wakeMemory_work : (s.wakeMemory).work = s.work := rfl
@[simp] theorem State.wakeMemory_clasps : (s.wakeMemory).clasps = s.clasps := rfl
@[simp] theorem State.wakeMemory_evt : (s.wakeMemory).evt = s.evt := rfl
@[simp] theorem State.wakeMemory_mbox : (s.wakeMemory).mbox = s.mbox := rfl
@[simp] theorem State.wakeMemory_xlat : (s.wakeMemory).xlat = s.xlat := rfl
@[simp] theorem State.wakeMemory_sail : (s.wakeMemory).sail = s.sail := rfl
@[simp] theorem State.wakeMemory_casket : (s.wakeMemory).casket = s.casket := rfl
@[simp] theorem State.wakeMemory_mem : (s.wakeMemory).mem = s.mem := rfl
@[simp] theorem State.wakeMemory_care : (s.wakeMemory).care = s.care := rfl
@[simp] theorem State.wakeMemory_tiles : (s.wakeMemory).tiles = s.tiles := rfl
@[simp] theorem State.wakeMemory_mesh : (s.wakeMemory).mesh = s.mesh := rfl
@[simp] theorem State.wakeMemory_locket : (s.wakeMemory).locket = s.locket := rfl
@[simp] theorem State.wakeMemory_tether : (s.wakeMemory).tether = s.tether := rfl
@[simp] theorem State.wakeMemory_therm : (s.wakeMemory).therm = s.therm := rfl
@[simp] theorem State.wakeMemory_keel : (s.wakeMemory).keel = s.keel := rfl
@[simp] theorem State.wakeMemory_dbg : (s.wakeMemory).dbg = s.dbg := rfl
@[simp] theorem State.wakeMemory_sites : (s.wakeMemory).sites = s.sites := rfl
@[simp] theorem State.wakeMemory_out : (s.wakeMemory).out = s.out := rfl
@[simp] theorem State.wakeMemory_free : (s.wakeMemory).free = s.free := rfl
@[simp] theorem State.wakeMemory_pending : (s.wakeMemory).pending = s.pending := rfl
end

/-! `State.updBucket` -/

section
variable (s : State) (b : Nat) (f : Bucket → Bucket)
@[simp] theorem State.updBucket_tick : (s.updBucket b f).tick = s.tick := rfl
@[simp] theorem State.updBucket_ctl : (s.updBucket b f).ctl = s.ctl := rfl
@[simp] theorem State.updBucket_host : (s.updBucket b f).host = s.host := rfl
@[simp] theorem State.updBucket_work : (s.updBucket b f).work = s.work := rfl
@[simp] theorem State.updBucket_clasps : (s.updBucket b f).clasps = s.clasps := rfl
@[simp] theorem State.updBucket_evt : (s.updBucket b f).evt = s.evt := rfl
@[simp] theorem State.updBucket_mbox : (s.updBucket b f).mbox = s.mbox := rfl
@[simp] theorem State.updBucket_xlat : (s.updBucket b f).xlat = s.xlat := rfl
@[simp] theorem State.updBucket_sail : (s.updBucket b f).sail = s.sail := rfl
@[simp] theorem State.updBucket_casket : (s.updBucket b f).casket = s.casket := rfl
@[simp] theorem State.updBucket_care : (s.updBucket b f).care = s.care := rfl
@[simp] theorem State.updBucket_tiles : (s.updBucket b f).tiles = s.tiles := rfl
@[simp] theorem State.updBucket_mesh : (s.updBucket b f).mesh = s.mesh := rfl
@[simp] theorem State.updBucket_locket : (s.updBucket b f).locket = s.locket := rfl
@[simp] theorem State.updBucket_tether : (s.updBucket b f).tether = s.tether := rfl
@[simp] theorem State.updBucket_pwr : (s.updBucket b f).pwr = s.pwr := rfl
@[simp] theorem State.updBucket_therm : (s.updBucket b f).therm = s.therm := rfl
@[simp] theorem State.updBucket_keel : (s.updBucket b f).keel = s.keel := rfl
@[simp] theorem State.updBucket_dbg : (s.updBucket b f).dbg = s.dbg := rfl
@[simp] theorem State.updBucket_sites : (s.updBucket b f).sites = s.sites := rfl
@[simp] theorem State.updBucket_out : (s.updBucket b f).out = s.out := rfl
@[simp] theorem State.updBucket_free : (s.updBucket b f).free = s.free := rfl
@[simp] theorem State.updBucket_pending : (s.updBucket b f).pending = s.pending := rfl
end

/-! `State.updSched` -/

section
variable (s : State) (p : Nat) (f : Sched → Sched)
@[simp] theorem State.updSched_tick : (s.updSched p f).tick = s.tick := rfl
@[simp] theorem State.updSched_ctl : (s.updSched p f).ctl = s.ctl := rfl
@[simp] theorem State.updSched_host : (s.updSched p f).host = s.host := rfl
@[simp] theorem State.updSched_work : (s.updSched p f).work = s.work := rfl
@[simp] theorem State.updSched_clasps : (s.updSched p f).clasps = s.clasps := rfl
@[simp] theorem State.updSched_evt : (s.updSched p f).evt = s.evt := rfl
@[simp] theorem State.updSched_mbox : (s.updSched p f).mbox = s.mbox := rfl
@[simp] theorem State.updSched_xlat : (s.updSched p f).xlat = s.xlat := rfl
@[simp] theorem State.updSched_sail : (s.updSched p f).sail = s.sail := rfl
@[simp] theorem State.updSched_casket : (s.updSched p f).casket = s.casket := rfl
@[simp] theorem State.updSched_mem : (s.updSched p f).mem = s.mem := rfl
@[simp] theorem State.updSched_care : (s.updSched p f).care = s.care := rfl
@[simp] theorem State.updSched_tiles : (s.updSched p f).tiles = s.tiles := rfl
@[simp] theorem State.updSched_locket : (s.updSched p f).locket = s.locket := rfl
@[simp] theorem State.updSched_tether : (s.updSched p f).tether = s.tether := rfl
@[simp] theorem State.updSched_pwr : (s.updSched p f).pwr = s.pwr := rfl
@[simp] theorem State.updSched_therm : (s.updSched p f).therm = s.therm := rfl
@[simp] theorem State.updSched_keel : (s.updSched p f).keel = s.keel := rfl
@[simp] theorem State.updSched_dbg : (s.updSched p f).dbg = s.dbg := rfl
@[simp] theorem State.updSched_sites : (s.updSched p f).sites = s.sites := rfl
@[simp] theorem State.updSched_out : (s.updSched p f).out = s.out := rfl
@[simp] theorem State.updSched_free : (s.updSched p f).free = s.free := rfl
@[simp] theorem State.updSched_pending : (s.updSched p f).pending = s.pending := rfl
end

/-! `State.stopProgs` -/

section
variable (s : State) (f : Nat)
@[simp] theorem State.stopProgs_tick : (s.stopProgs f).tick = s.tick := rfl
@[simp] theorem State.stopProgs_ctl : (s.stopProgs f).ctl = s.ctl := rfl
@[simp] theorem State.stopProgs_host : (s.stopProgs f).host = s.host := rfl
@[simp] theorem State.stopProgs_work : (s.stopProgs f).work = s.work := rfl
@[simp] theorem State.stopProgs_clasps : (s.stopProgs f).clasps = s.clasps := rfl
@[simp] theorem State.stopProgs_evt : (s.stopProgs f).evt = s.evt := rfl
@[simp] theorem State.stopProgs_mbox : (s.stopProgs f).mbox = s.mbox := rfl
@[simp] theorem State.stopProgs_xlat : (s.stopProgs f).xlat = s.xlat := rfl
@[simp] theorem State.stopProgs_sail : (s.stopProgs f).sail = s.sail := rfl
@[simp] theorem State.stopProgs_casket : (s.stopProgs f).casket = s.casket := rfl
@[simp] theorem State.stopProgs_mem : (s.stopProgs f).mem = s.mem := rfl
@[simp] theorem State.stopProgs_care : (s.stopProgs f).care = s.care := rfl
@[simp] theorem State.stopProgs_mesh : (s.stopProgs f).mesh = s.mesh := rfl
@[simp] theorem State.stopProgs_locket : (s.stopProgs f).locket = s.locket := rfl
@[simp] theorem State.stopProgs_tether : (s.stopProgs f).tether = s.tether := rfl
@[simp] theorem State.stopProgs_pwr : (s.stopProgs f).pwr = s.pwr := rfl
@[simp] theorem State.stopProgs_therm : (s.stopProgs f).therm = s.therm := rfl
@[simp] theorem State.stopProgs_keel : (s.stopProgs f).keel = s.keel := rfl
@[simp] theorem State.stopProgs_dbg : (s.stopProgs f).dbg = s.dbg := rfl
@[simp] theorem State.stopProgs_sites : (s.stopProgs f).sites = s.sites := rfl
@[simp] theorem State.stopProgs_out : (s.stopProgs f).out = s.out := rfl
@[simp] theorem State.stopProgs_free : (s.stopProgs f).free = s.free := rfl
@[simp] theorem State.stopProgs_pending : (s.stopProgs f).pending = s.pending := rfl
end

/-! `State.countMoved` -/

section
variable (s : State) (p n : Nat)
@[simp] theorem State.countMoved_tick : (s.countMoved p n).tick = s.tick := rfl
@[simp] theorem State.countMoved_ctl : (s.countMoved p n).ctl = s.ctl := rfl
@[simp] theorem State.countMoved_host : (s.countMoved p n).host = s.host := rfl
@[simp] theorem State.countMoved_work : (s.countMoved p n).work = s.work := rfl
@[simp] theorem State.countMoved_clasps : (s.countMoved p n).clasps = s.clasps := rfl
@[simp] theorem State.countMoved_evt : (s.countMoved p n).evt = s.evt := rfl
@[simp] theorem State.countMoved_mbox : (s.countMoved p n).mbox = s.mbox := rfl
@[simp] theorem State.countMoved_xlat : (s.countMoved p n).xlat = s.xlat := rfl
@[simp] theorem State.countMoved_sail : (s.countMoved p n).sail = s.sail := rfl
@[simp] theorem State.countMoved_mem : (s.countMoved p n).mem = s.mem := rfl
@[simp] theorem State.countMoved_care : (s.countMoved p n).care = s.care := rfl
@[simp] theorem State.countMoved_tiles : (s.countMoved p n).tiles = s.tiles := rfl
@[simp] theorem State.countMoved_mesh : (s.countMoved p n).mesh = s.mesh := rfl
@[simp] theorem State.countMoved_locket : (s.countMoved p n).locket = s.locket := rfl
@[simp] theorem State.countMoved_tether : (s.countMoved p n).tether = s.tether := rfl
@[simp] theorem State.countMoved_pwr : (s.countMoved p n).pwr = s.pwr := rfl
@[simp] theorem State.countMoved_therm : (s.countMoved p n).therm = s.therm := rfl
@[simp] theorem State.countMoved_keel : (s.countMoved p n).keel = s.keel := rfl
@[simp] theorem State.countMoved_dbg : (s.countMoved p n).dbg = s.dbg := rfl
@[simp] theorem State.countMoved_sites : (s.countMoved p n).sites = s.sites := rfl
@[simp] theorem State.countMoved_out : (s.countMoved p n).out = s.out := rfl
@[simp] theorem State.countMoved_free : (s.countMoved p n).free = s.free := rfl
@[simp] theorem State.countMoved_pending : (s.countMoved p n).pending = s.pending := rfl
end

/-! `State.arrive` -/

section
variable (s : State) (t : Nat)
@[simp] theorem State.arrive_ctl : (s.arrive t).ctl = s.ctl := rfl
@[simp] theorem State.arrive_host : (s.arrive t).host = s.host := rfl
@[simp] theorem State.arrive_work : (s.arrive t).work = s.work := rfl
@[simp] theorem State.arrive_clasps : (s.arrive t).clasps = s.clasps := rfl
@[simp] theorem State.arrive_evt : (s.arrive t).evt = s.evt := rfl
@[simp] theorem State.arrive_mbox : (s.arrive t).mbox = s.mbox := rfl
@[simp] theorem State.arrive_xlat : (s.arrive t).xlat = s.xlat := rfl
@[simp] theorem State.arrive_sail : (s.arrive t).sail = s.sail := rfl
@[simp] theorem State.arrive_casket : (s.arrive t).casket = s.casket := rfl
@[simp] theorem State.arrive_mem : (s.arrive t).mem = s.mem := rfl
@[simp] theorem State.arrive_care : (s.arrive t).care = s.care := rfl
@[simp] theorem State.arrive_tiles : (s.arrive t).tiles = s.tiles := rfl
@[simp] theorem State.arrive_mesh : (s.arrive t).mesh = s.mesh := rfl
@[simp] theorem State.arrive_locket : (s.arrive t).locket = s.locket := rfl
@[simp] theorem State.arrive_tether : (s.arrive t).tether = s.tether := rfl
@[simp] theorem State.arrive_pwr : (s.arrive t).pwr = s.pwr := rfl
@[simp] theorem State.arrive_therm : (s.arrive t).therm = s.therm := rfl
@[simp] theorem State.arrive_keel : (s.arrive t).keel = s.keel := rfl
@[simp] theorem State.arrive_dbg : (s.arrive t).dbg = s.dbg := rfl
@[simp] theorem State.arrive_sites : (s.arrive t).sites = s.sites := rfl
@[simp] theorem State.arrive_out : (s.arrive t).out = s.out := rfl
@[simp] theorem State.arrive_free : (s.arrive t).free = s.free := rfl
@[simp] theorem State.arrive_pending : (s.arrive t).pending = s.pending := rfl
end

/-! `State.atEdge` -/

section
variable (s : State) (edge : Nat)
@[simp] theorem State.atEdge_ctl : (s.atEdge edge).ctl = s.ctl := rfl
@[simp] theorem State.atEdge_host : (s.atEdge edge).host = s.host := rfl
@[simp] theorem State.atEdge_work : (s.atEdge edge).work = s.work := rfl
@[simp] theorem State.atEdge_clasps : (s.atEdge edge).clasps = s.clasps := rfl
@[simp] theorem State.atEdge_evt : (s.atEdge edge).evt = s.evt := rfl
@[simp] theorem State.atEdge_mbox : (s.atEdge edge).mbox = s.mbox := rfl
@[simp] theorem State.atEdge_xlat : (s.atEdge edge).xlat = s.xlat := rfl
@[simp] theorem State.atEdge_sail : (s.atEdge edge).sail = s.sail := rfl
@[simp] theorem State.atEdge_casket : (s.atEdge edge).casket = s.casket := rfl
@[simp] theorem State.atEdge_mem : (s.atEdge edge).mem = s.mem := rfl
@[simp] theorem State.atEdge_care : (s.atEdge edge).care = s.care := rfl
@[simp] theorem State.atEdge_tiles : (s.atEdge edge).tiles = s.tiles := rfl
@[simp] theorem State.atEdge_mesh : (s.atEdge edge).mesh = s.mesh := rfl
@[simp] theorem State.atEdge_locket : (s.atEdge edge).locket = s.locket := rfl
@[simp] theorem State.atEdge_tether : (s.atEdge edge).tether = s.tether := rfl
@[simp] theorem State.atEdge_pwr : (s.atEdge edge).pwr = s.pwr := rfl
@[simp] theorem State.atEdge_therm : (s.atEdge edge).therm = s.therm := rfl
@[simp] theorem State.atEdge_keel : (s.atEdge edge).keel = s.keel := rfl
@[simp] theorem State.atEdge_dbg : (s.atEdge edge).dbg = s.dbg := rfl
@[simp] theorem State.atEdge_sites : (s.atEdge edge).sites = s.sites := rfl
@[simp] theorem State.atEdge_out : (s.atEdge edge).out = s.out := rfl
@[simp] theorem State.atEdge_free : (s.atEdge edge).free = s.free := rfl
@[simp] theorem State.atEdge_pending : (s.atEdge edge).pending = s.pending := rfl
end

/-! `State.countClocks` -/

section
variable (s : State)
@[simp] theorem State.countClocks_tick : (s.countClocks).tick = s.tick := rfl
@[simp] theorem State.countClocks_ctl : (s.countClocks).ctl = s.ctl := rfl
@[simp] theorem State.countClocks_host : (s.countClocks).host = s.host := rfl
@[simp] theorem State.countClocks_work : (s.countClocks).work = s.work := rfl
@[simp] theorem State.countClocks_clasps : (s.countClocks).clasps = s.clasps := rfl
@[simp] theorem State.countClocks_evt : (s.countClocks).evt = s.evt := rfl
@[simp] theorem State.countClocks_mbox : (s.countClocks).mbox = s.mbox := rfl
@[simp] theorem State.countClocks_xlat : (s.countClocks).xlat = s.xlat := rfl
@[simp] theorem State.countClocks_sail : (s.countClocks).sail = s.sail := rfl
@[simp] theorem State.countClocks_casket : (s.countClocks).casket = s.casket := rfl
@[simp] theorem State.countClocks_mem : (s.countClocks).mem = s.mem := rfl
@[simp] theorem State.countClocks_care : (s.countClocks).care = s.care := rfl
@[simp] theorem State.countClocks_tiles : (s.countClocks).tiles = s.tiles := rfl
@[simp] theorem State.countClocks_locket : (s.countClocks).locket = s.locket := rfl
@[simp] theorem State.countClocks_tether : (s.countClocks).tether = s.tether := rfl
@[simp] theorem State.countClocks_therm : (s.countClocks).therm = s.therm := rfl
@[simp] theorem State.countClocks_keel : (s.countClocks).keel = s.keel := rfl
@[simp] theorem State.countClocks_dbg : (s.countClocks).dbg = s.dbg := rfl
@[simp] theorem State.countClocks_sites : (s.countClocks).sites = s.sites := rfl
@[simp] theorem State.countClocks_out : (s.countClocks).out = s.out := rfl
@[simp] theorem State.countClocks_free : (s.countClocks).free = s.free := rfl
@[simp] theorem State.countClocks_pending : (s.countClocks).pending = s.pending := rfl
end

/-! `State.emit` -/

section
variable (s : State) (o : Out)
@[simp] theorem State.emit_tick : (s.emit o).tick = s.tick := rfl
@[simp] theorem State.emit_ctl : (s.emit o).ctl = s.ctl := rfl
@[simp] theorem State.emit_host : (s.emit o).host = s.host := rfl
@[simp] theorem State.emit_work : (s.emit o).work = s.work := rfl
@[simp] theorem State.emit_clasps : (s.emit o).clasps = s.clasps := rfl
@[simp] theorem State.emit_evt : (s.emit o).evt = s.evt := rfl
@[simp] theorem State.emit_mbox : (s.emit o).mbox = s.mbox := rfl
@[simp] theorem State.emit_xlat : (s.emit o).xlat = s.xlat := rfl
@[simp] theorem State.emit_sail : (s.emit o).sail = s.sail := rfl
@[simp] theorem State.emit_casket : (s.emit o).casket = s.casket := rfl
@[simp] theorem State.emit_mem : (s.emit o).mem = s.mem := rfl
@[simp] theorem State.emit_care : (s.emit o).care = s.care := rfl
@[simp] theorem State.emit_tiles : (s.emit o).tiles = s.tiles := rfl
@[simp] theorem State.emit_mesh : (s.emit o).mesh = s.mesh := rfl
@[simp] theorem State.emit_locket : (s.emit o).locket = s.locket := rfl
@[simp] theorem State.emit_tether : (s.emit o).tether = s.tether := rfl
@[simp] theorem State.emit_pwr : (s.emit o).pwr = s.pwr := rfl
@[simp] theorem State.emit_therm : (s.emit o).therm = s.therm := rfl
@[simp] theorem State.emit_keel : (s.emit o).keel = s.keel := rfl
@[simp] theorem State.emit_dbg : (s.emit o).dbg = s.dbg := rfl
@[simp] theorem State.emit_sites : (s.emit o).sites = s.sites := rfl
@[simp] theorem State.emit_free : (s.emit o).free = s.free := rfl
@[simp] theorem State.emit_pending : (s.emit o).pending = s.pending := rfl
end

/-! `State.emitAll` -/

section
variable (s : State) (os : List Out)
@[simp] theorem State.emitAll_tick : (s.emitAll os).tick = s.tick := rfl
@[simp] theorem State.emitAll_ctl : (s.emitAll os).ctl = s.ctl := rfl
@[simp] theorem State.emitAll_host : (s.emitAll os).host = s.host := rfl
@[simp] theorem State.emitAll_work : (s.emitAll os).work = s.work := rfl
@[simp] theorem State.emitAll_clasps : (s.emitAll os).clasps = s.clasps := rfl
@[simp] theorem State.emitAll_evt : (s.emitAll os).evt = s.evt := rfl
@[simp] theorem State.emitAll_mbox : (s.emitAll os).mbox = s.mbox := rfl
@[simp] theorem State.emitAll_xlat : (s.emitAll os).xlat = s.xlat := rfl
@[simp] theorem State.emitAll_sail : (s.emitAll os).sail = s.sail := rfl
@[simp] theorem State.emitAll_casket : (s.emitAll os).casket = s.casket := rfl
@[simp] theorem State.emitAll_mem : (s.emitAll os).mem = s.mem := rfl
@[simp] theorem State.emitAll_care : (s.emitAll os).care = s.care := rfl
@[simp] theorem State.emitAll_tiles : (s.emitAll os).tiles = s.tiles := rfl
@[simp] theorem State.emitAll_mesh : (s.emitAll os).mesh = s.mesh := rfl
@[simp] theorem State.emitAll_locket : (s.emitAll os).locket = s.locket := rfl
@[simp] theorem State.emitAll_tether : (s.emitAll os).tether = s.tether := rfl
@[simp] theorem State.emitAll_pwr : (s.emitAll os).pwr = s.pwr := rfl
@[simp] theorem State.emitAll_therm : (s.emitAll os).therm = s.therm := rfl
@[simp] theorem State.emitAll_keel : (s.emitAll os).keel = s.keel := rfl
@[simp] theorem State.emitAll_dbg : (s.emitAll os).dbg = s.dbg := rfl
@[simp] theorem State.emitAll_sites : (s.emitAll os).sites = s.sites := rfl
@[simp] theorem State.emitAll_free : (s.emitAll os).free = s.free := rfl
@[simp] theorem State.emitAll_pending : (s.emitAll os).pending = s.pending := rfl
end

/-! `State.useFree` -/

section
variable (s : State)
@[simp] theorem State.useFree_tick : (s.useFree).tick = s.tick := rfl
@[simp] theorem State.useFree_ctl : (s.useFree).ctl = s.ctl := rfl
@[simp] theorem State.useFree_host : (s.useFree).host = s.host := rfl
@[simp] theorem State.useFree_work : (s.useFree).work = s.work := rfl
@[simp] theorem State.useFree_clasps : (s.useFree).clasps = s.clasps := rfl
@[simp] theorem State.useFree_evt : (s.useFree).evt = s.evt := rfl
@[simp] theorem State.useFree_mbox : (s.useFree).mbox = s.mbox := rfl
@[simp] theorem State.useFree_xlat : (s.useFree).xlat = s.xlat := rfl
@[simp] theorem State.useFree_sail : (s.useFree).sail = s.sail := rfl
@[simp] theorem State.useFree_casket : (s.useFree).casket = s.casket := rfl
@[simp] theorem State.useFree_mem : (s.useFree).mem = s.mem := rfl
@[simp] theorem State.useFree_care : (s.useFree).care = s.care := rfl
@[simp] theorem State.useFree_tiles : (s.useFree).tiles = s.tiles := rfl
@[simp] theorem State.useFree_mesh : (s.useFree).mesh = s.mesh := rfl
@[simp] theorem State.useFree_locket : (s.useFree).locket = s.locket := rfl
@[simp] theorem State.useFree_tether : (s.useFree).tether = s.tether := rfl
@[simp] theorem State.useFree_pwr : (s.useFree).pwr = s.pwr := rfl
@[simp] theorem State.useFree_therm : (s.useFree).therm = s.therm := rfl
@[simp] theorem State.useFree_keel : (s.useFree).keel = s.keel := rfl
@[simp] theorem State.useFree_dbg : (s.useFree).dbg = s.dbg := rfl
@[simp] theorem State.useFree_sites : (s.useFree).sites = s.sites := rfl
@[simp] theorem State.useFree_out : (s.useFree).out = s.out := rfl
@[simp] theorem State.useFree_pending : (s.useFree).pending = s.pending := rfl
end

/-! `State.post` -/

section
variable (s : State) (code severity part unit dt : Nat)
@[simp] theorem State.post_tick : (s.post code severity part unit dt).tick = s.tick := rfl
@[simp] theorem State.post_ctl : (s.post code severity part unit dt).ctl = s.ctl := rfl
@[simp] theorem State.post_host : (s.post code severity part unit dt).host = s.host := rfl
@[simp] theorem State.post_work : (s.post code severity part unit dt).work = s.work := rfl
@[simp] theorem State.post_clasps : (s.post code severity part unit dt).clasps = s.clasps := rfl
@[simp] theorem State.post_mbox : (s.post code severity part unit dt).mbox = s.mbox := rfl
@[simp] theorem State.post_xlat : (s.post code severity part unit dt).xlat = s.xlat := rfl
@[simp] theorem State.post_sail : (s.post code severity part unit dt).sail = s.sail := rfl
@[simp] theorem State.post_casket : (s.post code severity part unit dt).casket = s.casket := rfl
@[simp] theorem State.post_mem : (s.post code severity part unit dt).mem = s.mem := rfl
@[simp] theorem State.post_care : (s.post code severity part unit dt).care = s.care := rfl
@[simp] theorem State.post_tiles : (s.post code severity part unit dt).tiles = s.tiles := rfl
@[simp] theorem State.post_mesh : (s.post code severity part unit dt).mesh = s.mesh := rfl
@[simp] theorem State.post_locket : (s.post code severity part unit dt).locket = s.locket := rfl
@[simp] theorem State.post_tether : (s.post code severity part unit dt).tether = s.tether := rfl
@[simp] theorem State.post_pwr : (s.post code severity part unit dt).pwr = s.pwr := rfl
@[simp] theorem State.post_therm : (s.post code severity part unit dt).therm = s.therm := rfl
@[simp] theorem State.post_keel : (s.post code severity part unit dt).keel = s.keel := rfl
@[simp] theorem State.post_dbg : (s.post code severity part unit dt).dbg = s.dbg := rfl
@[simp] theorem State.post_sites : (s.post code severity part unit dt).sites = s.sites := rfl
@[simp] theorem State.post_out : (s.post code severity part unit dt).out = s.out := rfl
@[simp] theorem State.post_free : (s.post code severity part unit dt).free = s.free := rfl
@[simp] theorem State.post_pending : (s.post code severity part unit dt).pending = s.pending := rfl
end

/-! `State.updPart` -/

section
variable (s : State) (p : Nat) (f : Part → Part)
@[simp] theorem State.updPart_tick : (s.updPart p f).tick = s.tick := rfl
@[simp] theorem State.updPart_ctl : (s.updPart p f).ctl = s.ctl := rfl
@[simp] theorem State.updPart_host : (s.updPart p f).host = s.host := rfl
@[simp] theorem State.updPart_clasps : (s.updPart p f).clasps = s.clasps := rfl
@[simp] theorem State.updPart_evt : (s.updPart p f).evt = s.evt := rfl
@[simp] theorem State.updPart_mbox : (s.updPart p f).mbox = s.mbox := rfl
@[simp] theorem State.updPart_xlat : (s.updPart p f).xlat = s.xlat := rfl
@[simp] theorem State.updPart_sail : (s.updPart p f).sail = s.sail := rfl
@[simp] theorem State.updPart_casket : (s.updPart p f).casket = s.casket := rfl
@[simp] theorem State.updPart_mem : (s.updPart p f).mem = s.mem := rfl
@[simp] theorem State.updPart_care : (s.updPart p f).care = s.care := rfl
@[simp] theorem State.updPart_tiles : (s.updPart p f).tiles = s.tiles := rfl
@[simp] theorem State.updPart_mesh : (s.updPart p f).mesh = s.mesh := rfl
@[simp] theorem State.updPart_locket : (s.updPart p f).locket = s.locket := rfl
@[simp] theorem State.updPart_tether : (s.updPart p f).tether = s.tether := rfl
@[simp] theorem State.updPart_pwr : (s.updPart p f).pwr = s.pwr := rfl
@[simp] theorem State.updPart_therm : (s.updPart p f).therm = s.therm := rfl
@[simp] theorem State.updPart_keel : (s.updPart p f).keel = s.keel := rfl
@[simp] theorem State.updPart_dbg : (s.updPart p f).dbg = s.dbg := rfl
@[simp] theorem State.updPart_sites : (s.updPart p f).sites = s.sites := rfl
@[simp] theorem State.updPart_out : (s.updPart p f).out = s.out := rfl
@[simp] theorem State.updPart_free : (s.updPart p f).free = s.free := rfl
@[simp] theorem State.updPart_pending : (s.updPart p f).pending = s.pending := rfl
end

/-! `State.mboxEnd` -/

section
variable (s : State) (code : Nat) (out : Bytes)
@[simp] theorem State.mboxEnd_tick : (s.mboxEnd code out).tick = s.tick := rfl
@[simp] theorem State.mboxEnd_ctl : (s.mboxEnd code out).ctl = s.ctl := rfl
@[simp] theorem State.mboxEnd_host : (s.mboxEnd code out).host = s.host := rfl
@[simp] theorem State.mboxEnd_work : (s.mboxEnd code out).work = s.work := rfl
@[simp] theorem State.mboxEnd_clasps : (s.mboxEnd code out).clasps = s.clasps := rfl
@[simp] theorem State.mboxEnd_evt : (s.mboxEnd code out).evt = s.evt := rfl
@[simp] theorem State.mboxEnd_xlat : (s.mboxEnd code out).xlat = s.xlat := rfl
@[simp] theorem State.mboxEnd_sail : (s.mboxEnd code out).sail = s.sail := rfl
@[simp] theorem State.mboxEnd_casket : (s.mboxEnd code out).casket = s.casket := rfl
@[simp] theorem State.mboxEnd_mem : (s.mboxEnd code out).mem = s.mem := rfl
@[simp] theorem State.mboxEnd_care : (s.mboxEnd code out).care = s.care := rfl
@[simp] theorem State.mboxEnd_tiles : (s.mboxEnd code out).tiles = s.tiles := rfl
@[simp] theorem State.mboxEnd_mesh : (s.mboxEnd code out).mesh = s.mesh := rfl
@[simp] theorem State.mboxEnd_locket : (s.mboxEnd code out).locket = s.locket := rfl
@[simp] theorem State.mboxEnd_tether : (s.mboxEnd code out).tether = s.tether := rfl
@[simp] theorem State.mboxEnd_pwr : (s.mboxEnd code out).pwr = s.pwr := rfl
@[simp] theorem State.mboxEnd_therm : (s.mboxEnd code out).therm = s.therm := rfl
@[simp] theorem State.mboxEnd_keel : (s.mboxEnd code out).keel = s.keel := rfl
@[simp] theorem State.mboxEnd_dbg : (s.mboxEnd code out).dbg = s.dbg := rfl
@[simp] theorem State.mboxEnd_sites : (s.mboxEnd code out).sites = s.sites := rfl
@[simp] theorem State.mboxEnd_out : (s.mboxEnd code out).out = s.out := rfl
@[simp] theorem State.mboxEnd_free : (s.mboxEnd code out).free = s.free := rfl
@[simp] theorem State.mboxEnd_pending : (s.mboxEnd code out).pending = s.pending := rfl
end

/-! `State.setDomain` -/

section
variable (s : State) (d : Nat) (off : Bool)
@[simp] theorem State.setDomain_tick : (s.setDomain d off).tick = s.tick := rfl
@[simp] theorem State.setDomain_ctl : (s.setDomain d off).ctl = s.ctl := rfl
@[simp] theorem State.setDomain_host : (s.setDomain d off).host = s.host := rfl
@[simp] theorem State.setDomain_work : (s.setDomain d off).work = s.work := rfl
@[simp] theorem State.setDomain_clasps : (s.setDomain d off).clasps = s.clasps := rfl
@[simp] theorem State.setDomain_evt : (s.setDomain d off).evt = s.evt := rfl
@[simp] theorem State.setDomain_mbox : (s.setDomain d off).mbox = s.mbox := rfl
@[simp] theorem State.setDomain_xlat : (s.setDomain d off).xlat = s.xlat := rfl
@[simp] theorem State.setDomain_sail : (s.setDomain d off).sail = s.sail := rfl
@[simp] theorem State.setDomain_casket : (s.setDomain d off).casket = s.casket := rfl
@[simp] theorem State.setDomain_mem : (s.setDomain d off).mem = s.mem := rfl
@[simp] theorem State.setDomain_care : (s.setDomain d off).care = s.care := rfl
@[simp] theorem State.setDomain_tiles : (s.setDomain d off).tiles = s.tiles := rfl
@[simp] theorem State.setDomain_mesh : (s.setDomain d off).mesh = s.mesh := rfl
@[simp] theorem State.setDomain_locket : (s.setDomain d off).locket = s.locket := rfl
@[simp] theorem State.setDomain_tether : (s.setDomain d off).tether = s.tether := rfl
@[simp] theorem State.setDomain_therm : (s.setDomain d off).therm = s.therm := rfl
@[simp] theorem State.setDomain_keel : (s.setDomain d off).keel = s.keel := rfl
@[simp] theorem State.setDomain_dbg : (s.setDomain d off).dbg = s.dbg := rfl
@[simp] theorem State.setDomain_sites : (s.setDomain d off).sites = s.sites := rfl
@[simp] theorem State.setDomain_out : (s.setDomain d off).out = s.out := rfl
@[simp] theorem State.setDomain_free : (s.setDomain d off).free = s.free := rfl
@[simp] theorem State.setDomain_pending : (s.setDomain d off).pending = s.pending := rfl
end

/-! `State.updRing` -/

section
variable (s : State) (i : Nat) (f : Ring → Ring)
@[simp] theorem State.updRing_tick : (s.updRing i f).tick = s.tick := rfl
@[simp] theorem State.updRing_ctl : (s.updRing i f).ctl = s.ctl := rfl
@[simp] theorem State.updRing_host : (s.updRing i f).host = s.host := rfl
@[simp] theorem State.updRing_clasps : (s.updRing i f).clasps = s.clasps := rfl
@[simp] theorem State.updRing_evt : (s.updRing i f).evt = s.evt := rfl
@[simp] theorem State.updRing_mbox : (s.updRing i f).mbox = s.mbox := rfl
@[simp] theorem State.updRing_xlat : (s.updRing i f).xlat = s.xlat := rfl
@[simp] theorem State.updRing_sail : (s.updRing i f).sail = s.sail := rfl
@[simp] theorem State.updRing_casket : (s.updRing i f).casket = s.casket := rfl
@[simp] theorem State.updRing_mem : (s.updRing i f).mem = s.mem := rfl
@[simp] theorem State.updRing_care : (s.updRing i f).care = s.care := rfl
@[simp] theorem State.updRing_tiles : (s.updRing i f).tiles = s.tiles := rfl
@[simp] theorem State.updRing_mesh : (s.updRing i f).mesh = s.mesh := rfl
@[simp] theorem State.updRing_locket : (s.updRing i f).locket = s.locket := rfl
@[simp] theorem State.updRing_tether : (s.updRing i f).tether = s.tether := rfl
@[simp] theorem State.updRing_pwr : (s.updRing i f).pwr = s.pwr := rfl
@[simp] theorem State.updRing_therm : (s.updRing i f).therm = s.therm := rfl
@[simp] theorem State.updRing_keel : (s.updRing i f).keel = s.keel := rfl
@[simp] theorem State.updRing_dbg : (s.updRing i f).dbg = s.dbg := rfl
@[simp] theorem State.updRing_sites : (s.updRing i f).sites = s.sites := rfl
@[simp] theorem State.updRing_out : (s.updRing i f).out = s.out := rfl
@[simp] theorem State.updRing_free : (s.updRing i f).free = s.free := rfl
@[simp] theorem State.updRing_pending : (s.updRing i f).pending = s.pending := rfl
end

/-! `State.updCRing` -/

section
variable (s : State) (c : Nat) (f : CRing → CRing)
@[simp] theorem State.updCRing_tick : (s.updCRing c f).tick = s.tick := rfl
@[simp] theorem State.updCRing_ctl : (s.updCRing c f).ctl = s.ctl := rfl
@[simp] theorem State.updCRing_host : (s.updCRing c f).host = s.host := rfl
@[simp] theorem State.updCRing_clasps : (s.updCRing c f).clasps = s.clasps := rfl
@[simp] theorem State.updCRing_evt : (s.updCRing c f).evt = s.evt := rfl
@[simp] theorem State.updCRing_mbox : (s.updCRing c f).mbox = s.mbox := rfl
@[simp] theorem State.updCRing_xlat : (s.updCRing c f).xlat = s.xlat := rfl
@[simp] theorem State.updCRing_sail : (s.updCRing c f).sail = s.sail := rfl
@[simp] theorem State.updCRing_casket : (s.updCRing c f).casket = s.casket := rfl
@[simp] theorem State.updCRing_mem : (s.updCRing c f).mem = s.mem := rfl
@[simp] theorem State.updCRing_care : (s.updCRing c f).care = s.care := rfl
@[simp] theorem State.updCRing_tiles : (s.updCRing c f).tiles = s.tiles := rfl
@[simp] theorem State.updCRing_mesh : (s.updCRing c f).mesh = s.mesh := rfl
@[simp] theorem State.updCRing_locket : (s.updCRing c f).locket = s.locket := rfl
@[simp] theorem State.updCRing_tether : (s.updCRing c f).tether = s.tether := rfl
@[simp] theorem State.updCRing_pwr : (s.updCRing c f).pwr = s.pwr := rfl
@[simp] theorem State.updCRing_therm : (s.updCRing c f).therm = s.therm := rfl
@[simp] theorem State.updCRing_keel : (s.updCRing c f).keel = s.keel := rfl
@[simp] theorem State.updCRing_dbg : (s.updCRing c f).dbg = s.dbg := rfl
@[simp] theorem State.updCRing_sites : (s.updCRing c f).sites = s.sites := rfl
@[simp] theorem State.updCRing_out : (s.updCRing c f).out = s.out := rfl
@[simp] theorem State.updCRing_free : (s.updCRing c f).free = s.free := rfl
@[simp] theorem State.updCRing_pending : (s.updCRing c f).pending = s.pending := rfl
end

/-! `State.syncKeel` -/

section
variable (s : State)
@[simp] theorem State.syncKeel_tick : (s.syncKeel).tick = s.tick := rfl
@[simp] theorem State.syncKeel_ctl : (s.syncKeel).ctl = s.ctl := rfl
@[simp] theorem State.syncKeel_host : (s.syncKeel).host = s.host := rfl
@[simp] theorem State.syncKeel_work : (s.syncKeel).work = s.work := rfl
@[simp] theorem State.syncKeel_clasps : (s.syncKeel).clasps = s.clasps := rfl
@[simp] theorem State.syncKeel_evt : (s.syncKeel).evt = s.evt := rfl
@[simp] theorem State.syncKeel_mbox : (s.syncKeel).mbox = s.mbox := rfl
@[simp] theorem State.syncKeel_xlat : (s.syncKeel).xlat = s.xlat := rfl
@[simp] theorem State.syncKeel_sail : (s.syncKeel).sail = s.sail := rfl
@[simp] theorem State.syncKeel_casket : (s.syncKeel).casket = s.casket := rfl
@[simp] theorem State.syncKeel_mem : (s.syncKeel).mem = s.mem := rfl
@[simp] theorem State.syncKeel_care : (s.syncKeel).care = s.care := rfl
@[simp] theorem State.syncKeel_tiles : (s.syncKeel).tiles = s.tiles := rfl
@[simp] theorem State.syncKeel_mesh : (s.syncKeel).mesh = s.mesh := rfl
@[simp] theorem State.syncKeel_locket : (s.syncKeel).locket = s.locket := rfl
@[simp] theorem State.syncKeel_tether : (s.syncKeel).tether = s.tether := rfl
@[simp] theorem State.syncKeel_pwr : (s.syncKeel).pwr = s.pwr := rfl
@[simp] theorem State.syncKeel_therm : (s.syncKeel).therm = s.therm := rfl
@[simp] theorem State.syncKeel_dbg : (s.syncKeel).dbg = s.dbg := rfl
@[simp] theorem State.syncKeel_sites : (s.syncKeel).sites = s.sites := rfl
@[simp] theorem State.syncKeel_out : (s.syncKeel).out = s.out := rfl
@[simp] theorem State.syncKeel_free : (s.syncKeel).free = s.free := rfl
@[simp] theorem State.syncKeel_pending : (s.syncKeel).pending = s.pending := rfl
end

/-! `State.fullCooling` -/

section
variable (s : State)
@[simp] theorem State.fullCooling_tick : (s.fullCooling).tick = s.tick := rfl
@[simp] theorem State.fullCooling_ctl : (s.fullCooling).ctl = s.ctl := rfl
@[simp] theorem State.fullCooling_host : (s.fullCooling).host = s.host := rfl
@[simp] theorem State.fullCooling_work : (s.fullCooling).work = s.work := rfl
@[simp] theorem State.fullCooling_clasps : (s.fullCooling).clasps = s.clasps := rfl
@[simp] theorem State.fullCooling_evt : (s.fullCooling).evt = s.evt := rfl
@[simp] theorem State.fullCooling_mbox : (s.fullCooling).mbox = s.mbox := rfl
@[simp] theorem State.fullCooling_xlat : (s.fullCooling).xlat = s.xlat := rfl
@[simp] theorem State.fullCooling_sail : (s.fullCooling).sail = s.sail := rfl
@[simp] theorem State.fullCooling_casket : (s.fullCooling).casket = s.casket := rfl
@[simp] theorem State.fullCooling_mem : (s.fullCooling).mem = s.mem := rfl
@[simp] theorem State.fullCooling_care : (s.fullCooling).care = s.care := rfl
@[simp] theorem State.fullCooling_tiles : (s.fullCooling).tiles = s.tiles := rfl
@[simp] theorem State.fullCooling_mesh : (s.fullCooling).mesh = s.mesh := rfl
@[simp] theorem State.fullCooling_locket : (s.fullCooling).locket = s.locket := rfl
@[simp] theorem State.fullCooling_tether : (s.fullCooling).tether = s.tether := rfl
@[simp] theorem State.fullCooling_pwr : (s.fullCooling).pwr = s.pwr := rfl
@[simp] theorem State.fullCooling_keel : (s.fullCooling).keel = s.keel := rfl
@[simp] theorem State.fullCooling_dbg : (s.fullCooling).dbg = s.dbg := rfl
@[simp] theorem State.fullCooling_sites : (s.fullCooling).sites = s.sites := rfl
@[simp] theorem State.fullCooling_out : (s.fullCooling).out = s.out := rfl
@[simp] theorem State.fullCooling_free : (s.fullCooling).free = s.free := rfl
@[simp] theorem State.fullCooling_pending : (s.fullCooling).pending = s.pending := rfl
end

/-! `State.restartDue` -/

section
variable (s : State)
@[simp] theorem State.restartDue_tick : (s.restartDue).tick = s.tick := rfl
@[simp] theorem State.restartDue_host : (s.restartDue).host = s.host := rfl
@[simp] theorem State.restartDue_work : (s.restartDue).work = s.work := rfl
@[simp] theorem State.restartDue_clasps : (s.restartDue).clasps = s.clasps := rfl
@[simp] theorem State.restartDue_evt : (s.restartDue).evt = s.evt := rfl
@[simp] theorem State.restartDue_mbox : (s.restartDue).mbox = s.mbox := rfl
@[simp] theorem State.restartDue_xlat : (s.restartDue).xlat = s.xlat := rfl
@[simp] theorem State.restartDue_sail : (s.restartDue).sail = s.sail := rfl
@[simp] theorem State.restartDue_casket : (s.restartDue).casket = s.casket := rfl
@[simp] theorem State.restartDue_mem : (s.restartDue).mem = s.mem := rfl
@[simp] theorem State.restartDue_care : (s.restartDue).care = s.care := rfl
@[simp] theorem State.restartDue_tiles : (s.restartDue).tiles = s.tiles := rfl
@[simp] theorem State.restartDue_mesh : (s.restartDue).mesh = s.mesh := rfl
@[simp] theorem State.restartDue_locket : (s.restartDue).locket = s.locket := rfl
@[simp] theorem State.restartDue_tether : (s.restartDue).tether = s.tether := rfl
@[simp] theorem State.restartDue_pwr : (s.restartDue).pwr = s.pwr := rfl
@[simp] theorem State.restartDue_therm : (s.restartDue).therm = s.therm := rfl
@[simp] theorem State.restartDue_keel : (s.restartDue).keel = s.keel := rfl
@[simp] theorem State.restartDue_dbg : (s.restartDue).dbg = s.dbg := rfl
@[simp] theorem State.restartDue_sites : (s.restartDue).sites = s.sites := rfl
@[simp] theorem State.restartDue_out : (s.restartDue).out = s.out := rfl
@[simp] theorem State.restartDue_free : (s.restartDue).free = s.free := rfl
@[simp] theorem State.restartDue_pending : (s.restartDue).pending = s.pending := rfl
end

/-! `State.countMacs` -/

section
variable (s : State) (e n : Nat)
@[simp] theorem State.countMacs_tick : (s.countMacs e n).tick = s.tick := rfl
@[simp] theorem State.countMacs_ctl : (s.countMacs e n).ctl = s.ctl := rfl
@[simp] theorem State.countMacs_host : (s.countMacs e n).host = s.host := rfl
@[simp] theorem State.countMacs_work : (s.countMacs e n).work = s.work := rfl
@[simp] theorem State.countMacs_clasps : (s.countMacs e n).clasps = s.clasps := rfl
@[simp] theorem State.countMacs_evt : (s.countMacs e n).evt = s.evt := rfl
@[simp] theorem State.countMacs_mbox : (s.countMacs e n).mbox = s.mbox := rfl
@[simp] theorem State.countMacs_xlat : (s.countMacs e n).xlat = s.xlat := rfl
@[simp] theorem State.countMacs_casket : (s.countMacs e n).casket = s.casket := rfl
@[simp] theorem State.countMacs_mem : (s.countMacs e n).mem = s.mem := rfl
@[simp] theorem State.countMacs_care : (s.countMacs e n).care = s.care := rfl
@[simp] theorem State.countMacs_tiles : (s.countMacs e n).tiles = s.tiles := rfl
@[simp] theorem State.countMacs_mesh : (s.countMacs e n).mesh = s.mesh := rfl
@[simp] theorem State.countMacs_locket : (s.countMacs e n).locket = s.locket := rfl
@[simp] theorem State.countMacs_tether : (s.countMacs e n).tether = s.tether := rfl
@[simp] theorem State.countMacs_pwr : (s.countMacs e n).pwr = s.pwr := rfl
@[simp] theorem State.countMacs_therm : (s.countMacs e n).therm = s.therm := rfl
@[simp] theorem State.countMacs_keel : (s.countMacs e n).keel = s.keel := rfl
@[simp] theorem State.countMacs_dbg : (s.countMacs e n).dbg = s.dbg := rfl
@[simp] theorem State.countMacs_sites : (s.countMacs e n).sites = s.sites := rfl
@[simp] theorem State.countMacs_out : (s.countMacs e n).out = s.out := rfl
@[simp] theorem State.countMacs_free : (s.countMacs e n).free = s.free := rfl
@[simp] theorem State.countMacs_pending : (s.countMacs e n).pending = s.pending := rfl
end

/-! `State.updSite` -/

section
variable (s : State) (q : Nat) (f : Site → Site)
@[simp] theorem State.updSite_tick : (s.updSite q f).tick = s.tick := rfl
@[simp] theorem State.updSite_ctl : (s.updSite q f).ctl = s.ctl := rfl
@[simp] theorem State.updSite_host : (s.updSite q f).host = s.host := rfl
@[simp] theorem State.updSite_work : (s.updSite q f).work = s.work := rfl
@[simp] theorem State.updSite_clasps : (s.updSite q f).clasps = s.clasps := rfl
@[simp] theorem State.updSite_evt : (s.updSite q f).evt = s.evt := rfl
@[simp] theorem State.updSite_mbox : (s.updSite q f).mbox = s.mbox := rfl
@[simp] theorem State.updSite_xlat : (s.updSite q f).xlat = s.xlat := rfl
@[simp] theorem State.updSite_sail : (s.updSite q f).sail = s.sail := rfl
@[simp] theorem State.updSite_casket : (s.updSite q f).casket = s.casket := rfl
@[simp] theorem State.updSite_mem : (s.updSite q f).mem = s.mem := rfl
@[simp] theorem State.updSite_care : (s.updSite q f).care = s.care := rfl
@[simp] theorem State.updSite_tiles : (s.updSite q f).tiles = s.tiles := rfl
@[simp] theorem State.updSite_mesh : (s.updSite q f).mesh = s.mesh := rfl
@[simp] theorem State.updSite_locket : (s.updSite q f).locket = s.locket := rfl
@[simp] theorem State.updSite_tether : (s.updSite q f).tether = s.tether := rfl
@[simp] theorem State.updSite_pwr : (s.updSite q f).pwr = s.pwr := rfl
@[simp] theorem State.updSite_therm : (s.updSite q f).therm = s.therm := rfl
@[simp] theorem State.updSite_keel : (s.updSite q f).keel = s.keel := rfl
@[simp] theorem State.updSite_dbg : (s.updSite q f).dbg = s.dbg := rfl
@[simp] theorem State.updSite_out : (s.updSite q f).out = s.out := rfl
@[simp] theorem State.updSite_free : (s.updSite q f).free = s.free := rfl
@[simp] theorem State.updSite_pending : (s.updSite q f).pending = s.pending := rfl
end

/-! `State.siteStatusFor` -/

section
variable (s : State) (f status : Nat)
@[simp] theorem State.siteStatusFor_tick : (s.siteStatusFor f status).tick = s.tick := rfl
@[simp] theorem State.siteStatusFor_ctl : (s.siteStatusFor f status).ctl = s.ctl := rfl
@[simp] theorem State.siteStatusFor_host : (s.siteStatusFor f status).host = s.host := rfl
@[simp] theorem State.siteStatusFor_clasps : (s.siteStatusFor f status).clasps = s.clasps := rfl
@[simp] theorem State.siteStatusFor_evt : (s.siteStatusFor f status).evt = s.evt := rfl
@[simp] theorem State.siteStatusFor_mbox : (s.siteStatusFor f status).mbox = s.mbox := rfl
@[simp] theorem State.siteStatusFor_xlat : (s.siteStatusFor f status).xlat = s.xlat := rfl
@[simp] theorem State.siteStatusFor_sail : (s.siteStatusFor f status).sail = s.sail := rfl
@[simp] theorem State.siteStatusFor_casket : (s.siteStatusFor f status).casket = s.casket := rfl
@[simp] theorem State.siteStatusFor_mem : (s.siteStatusFor f status).mem = s.mem := rfl
@[simp] theorem State.siteStatusFor_care : (s.siteStatusFor f status).care = s.care := rfl
@[simp] theorem State.siteStatusFor_tiles : (s.siteStatusFor f status).tiles = s.tiles := rfl
@[simp] theorem State.siteStatusFor_mesh : (s.siteStatusFor f status).mesh = s.mesh := rfl
@[simp] theorem State.siteStatusFor_locket : (s.siteStatusFor f status).locket = s.locket := rfl
@[simp] theorem State.siteStatusFor_tether : (s.siteStatusFor f status).tether = s.tether := rfl
@[simp] theorem State.siteStatusFor_pwr : (s.siteStatusFor f status).pwr = s.pwr := rfl
@[simp] theorem State.siteStatusFor_therm : (s.siteStatusFor f status).therm = s.therm := rfl
@[simp] theorem State.siteStatusFor_keel : (s.siteStatusFor f status).keel = s.keel := rfl
@[simp] theorem State.siteStatusFor_dbg : (s.siteStatusFor f status).dbg = s.dbg := rfl
@[simp] theorem State.siteStatusFor_sites : (s.siteStatusFor f status).sites = s.sites := rfl
@[simp] theorem State.siteStatusFor_out : (s.siteStatusFor f status).out = s.out := rfl
@[simp] theorem State.siteStatusFor_free : (s.siteStatusFor f status).free = s.free := rfl
@[simp] theorem State.siteStatusFor_pending : (s.siteStatusFor f status).pending = s.pending := rfl
end

/-! `State.dropPrefetch` -/

section
variable (s : State) (f : Nat)
@[simp] theorem State.dropPrefetch_tick : (s.dropPrefetch f).tick = s.tick := rfl
@[simp] theorem State.dropPrefetch_ctl : (s.dropPrefetch f).ctl = s.ctl := rfl
@[simp] theorem State.dropPrefetch_host : (s.dropPrefetch f).host = s.host := rfl
@[simp] theorem State.dropPrefetch_work : (s.dropPrefetch f).work = s.work := rfl
@[simp] theorem State.dropPrefetch_clasps : (s.dropPrefetch f).clasps = s.clasps := rfl
@[simp] theorem State.dropPrefetch_evt : (s.dropPrefetch f).evt = s.evt := rfl
@[simp] theorem State.dropPrefetch_mbox : (s.dropPrefetch f).mbox = s.mbox := rfl
@[simp] theorem State.dropPrefetch_xlat : (s.dropPrefetch f).xlat = s.xlat := rfl
@[simp] theorem State.dropPrefetch_sail : (s.dropPrefetch f).sail = s.sail := rfl
@[simp] theorem State.dropPrefetch_mem : (s.dropPrefetch f).mem = s.mem := rfl
@[simp] theorem State.dropPrefetch_care : (s.dropPrefetch f).care = s.care := rfl
@[simp] theorem State.dropPrefetch_tiles : (s.dropPrefetch f).tiles = s.tiles := rfl
@[simp] theorem State.dropPrefetch_mesh : (s.dropPrefetch f).mesh = s.mesh := rfl
@[simp] theorem State.dropPrefetch_locket : (s.dropPrefetch f).locket = s.locket := rfl
@[simp] theorem State.dropPrefetch_tether : (s.dropPrefetch f).tether = s.tether := rfl
@[simp] theorem State.dropPrefetch_pwr : (s.dropPrefetch f).pwr = s.pwr := rfl
@[simp] theorem State.dropPrefetch_therm : (s.dropPrefetch f).therm = s.therm := rfl
@[simp] theorem State.dropPrefetch_keel : (s.dropPrefetch f).keel = s.keel := rfl
@[simp] theorem State.dropPrefetch_dbg : (s.dropPrefetch f).dbg = s.dbg := rfl
@[simp] theorem State.dropPrefetch_sites : (s.dropPrefetch f).sites = s.sites := rfl
@[simp] theorem State.dropPrefetch_out : (s.dropPrefetch f).out = s.out := rfl
@[simp] theorem State.dropPrefetch_free : (s.dropPrefetch f).free = s.free := rfl
end

/-! `State.unitReport` -/

section
variable (s : State) (kind unit off given applied : Nat)
@[simp] theorem State.unitReport_tick : (s.unitReport kind unit off given applied).tick = s.tick := rfl
@[simp] theorem State.unitReport_host : (s.unitReport kind unit off given applied).host = s.host := rfl
@[simp] theorem State.unitReport_work : (s.unitReport kind unit off given applied).work = s.work := rfl
@[simp] theorem State.unitReport_clasps : (s.unitReport kind unit off given applied).clasps = s.clasps := rfl
@[simp] theorem State.unitReport_evt : (s.unitReport kind unit off given applied).evt = s.evt := rfl
@[simp] theorem State.unitReport_mbox : (s.unitReport kind unit off given applied).mbox = s.mbox := rfl
@[simp] theorem State.unitReport_xlat : (s.unitReport kind unit off given applied).xlat = s.xlat := rfl
@[simp] theorem State.unitReport_sail : (s.unitReport kind unit off given applied).sail = s.sail := rfl
@[simp] theorem State.unitReport_casket : (s.unitReport kind unit off given applied).casket = s.casket := rfl
@[simp] theorem State.unitReport_mem : (s.unitReport kind unit off given applied).mem = s.mem := rfl
@[simp] theorem State.unitReport_care : (s.unitReport kind unit off given applied).care = s.care := rfl
@[simp] theorem State.unitReport_tiles : (s.unitReport kind unit off given applied).tiles = s.tiles := rfl
@[simp] theorem State.unitReport_mesh : (s.unitReport kind unit off given applied).mesh = s.mesh := rfl
@[simp] theorem State.unitReport_locket : (s.unitReport kind unit off given applied).locket = s.locket := rfl
@[simp] theorem State.unitReport_tether : (s.unitReport kind unit off given applied).tether = s.tether := rfl
@[simp] theorem State.unitReport_pwr : (s.unitReport kind unit off given applied).pwr = s.pwr := rfl
@[simp] theorem State.unitReport_therm : (s.unitReport kind unit off given applied).therm = s.therm := rfl
@[simp] theorem State.unitReport_keel : (s.unitReport kind unit off given applied).keel = s.keel := rfl
@[simp] theorem State.unitReport_dbg : (s.unitReport kind unit off given applied).dbg = s.dbg := rfl
@[simp] theorem State.unitReport_sites : (s.unitReport kind unit off given applied).sites = s.sites := rfl
@[simp] theorem State.unitReport_out : (s.unitReport kind unit off given applied).out = s.out := rfl
@[simp] theorem State.unitReport_free : (s.unitReport kind unit off given applied).free = s.free := rfl
@[simp] theorem State.unitReport_pending : (s.unitReport kind unit off given applied).pending = s.pending := rfl
end

/-! `State.setVote` -/

section
variable (s : State) (v : Vote)
@[simp] theorem State.setVote_tick : (s.setVote v).tick = s.tick := rfl
@[simp] theorem State.setVote_ctl : (s.setVote v).ctl = s.ctl := rfl
@[simp] theorem State.setVote_host : (s.setVote v).host = s.host := rfl
@[simp] theorem State.setVote_work : (s.setVote v).work = s.work := rfl
@[simp] theorem State.setVote_clasps : (s.setVote v).clasps = s.clasps := rfl
@[simp] theorem State.setVote_evt : (s.setVote v).evt = s.evt := rfl
@[simp] theorem State.setVote_mbox : (s.setVote v).mbox = s.mbox := rfl
@[simp] theorem State.setVote_xlat : (s.setVote v).xlat = s.xlat := rfl
@[simp] theorem State.setVote_sail : (s.setVote v).sail = s.sail := rfl
@[simp] theorem State.setVote_casket : (s.setVote v).casket = s.casket := rfl
@[simp] theorem State.setVote_mem : (s.setVote v).mem = s.mem := rfl
@[simp] theorem State.setVote_care : (s.setVote v).care = s.care := rfl
@[simp] theorem State.setVote_tiles : (s.setVote v).tiles = s.tiles := rfl
@[simp] theorem State.setVote_mesh : (s.setVote v).mesh = s.mesh := rfl
@[simp] theorem State.setVote_locket : (s.setVote v).locket = s.locket := rfl
@[simp] theorem State.setVote_pwr : (s.setVote v).pwr = s.pwr := rfl
@[simp] theorem State.setVote_therm : (s.setVote v).therm = s.therm := rfl
@[simp] theorem State.setVote_keel : (s.setVote v).keel = s.keel := rfl
@[simp] theorem State.setVote_dbg : (s.setVote v).dbg = s.dbg := rfl
@[simp] theorem State.setVote_sites : (s.setVote v).sites = s.sites := rfl
@[simp] theorem State.setVote_out : (s.setVote v).out = s.out := rfl
@[simp] theorem State.setVote_free : (s.setVote v).free = s.free := rfl
@[simp] theorem State.setVote_pending : (s.setVote v).pending = s.pending := rfl
end

/-! `State.updPort` -/

section
variable (s : State) (p : Nat) (f : Port → Port)
@[simp] theorem State.updPort_tick : (s.updPort p f).tick = s.tick := rfl
@[simp] theorem State.updPort_ctl : (s.updPort p f).ctl = s.ctl := rfl
@[simp] theorem State.updPort_host : (s.updPort p f).host = s.host := rfl
@[simp] theorem State.updPort_work : (s.updPort p f).work = s.work := rfl
@[simp] theorem State.updPort_clasps : (s.updPort p f).clasps = s.clasps := rfl
@[simp] theorem State.updPort_evt : (s.updPort p f).evt = s.evt := rfl
@[simp] theorem State.updPort_mbox : (s.updPort p f).mbox = s.mbox := rfl
@[simp] theorem State.updPort_xlat : (s.updPort p f).xlat = s.xlat := rfl
@[simp] theorem State.updPort_sail : (s.updPort p f).sail = s.sail := rfl
@[simp] theorem State.updPort_casket : (s.updPort p f).casket = s.casket := rfl
@[simp] theorem State.updPort_mem : (s.updPort p f).mem = s.mem := rfl
@[simp] theorem State.updPort_care : (s.updPort p f).care = s.care := rfl
@[simp] theorem State.updPort_tiles : (s.updPort p f).tiles = s.tiles := rfl
@[simp] theorem State.updPort_mesh : (s.updPort p f).mesh = s.mesh := rfl
@[simp] theorem State.updPort_locket : (s.updPort p f).locket = s.locket := rfl
@[simp] theorem State.updPort_pwr : (s.updPort p f).pwr = s.pwr := rfl
@[simp] theorem State.updPort_therm : (s.updPort p f).therm = s.therm := rfl
@[simp] theorem State.updPort_keel : (s.updPort p f).keel = s.keel := rfl
@[simp] theorem State.updPort_dbg : (s.updPort p f).dbg = s.dbg := rfl
@[simp] theorem State.updPort_sites : (s.updPort p f).sites = s.sites := rfl
@[simp] theorem State.updPort_out : (s.updPort p f).out = s.out := rfl
@[simp] theorem State.updPort_free : (s.updPort p f).free = s.free := rfl
@[simp] theorem State.updPort_pending : (s.updPort p f).pending = s.pending := rfl
end

/-! `State.updLane` -/

section
variable (s : State) (l : Nat) (f : TetherLane → TetherLane)
@[simp] theorem State.updLane_tick : (s.updLane l f).tick = s.tick := rfl
@[simp] theorem State.updLane_ctl : (s.updLane l f).ctl = s.ctl := rfl
@[simp] theorem State.updLane_host : (s.updLane l f).host = s.host := rfl
@[simp] theorem State.updLane_work : (s.updLane l f).work = s.work := rfl
@[simp] theorem State.updLane_clasps : (s.updLane l f).clasps = s.clasps := rfl
@[simp] theorem State.updLane_evt : (s.updLane l f).evt = s.evt := rfl
@[simp] theorem State.updLane_mbox : (s.updLane l f).mbox = s.mbox := rfl
@[simp] theorem State.updLane_xlat : (s.updLane l f).xlat = s.xlat := rfl
@[simp] theorem State.updLane_sail : (s.updLane l f).sail = s.sail := rfl
@[simp] theorem State.updLane_casket : (s.updLane l f).casket = s.casket := rfl
@[simp] theorem State.updLane_mem : (s.updLane l f).mem = s.mem := rfl
@[simp] theorem State.updLane_care : (s.updLane l f).care = s.care := rfl
@[simp] theorem State.updLane_tiles : (s.updLane l f).tiles = s.tiles := rfl
@[simp] theorem State.updLane_mesh : (s.updLane l f).mesh = s.mesh := rfl
@[simp] theorem State.updLane_locket : (s.updLane l f).locket = s.locket := rfl
@[simp] theorem State.updLane_pwr : (s.updLane l f).pwr = s.pwr := rfl
@[simp] theorem State.updLane_therm : (s.updLane l f).therm = s.therm := rfl
@[simp] theorem State.updLane_keel : (s.updLane l f).keel = s.keel := rfl
@[simp] theorem State.updLane_dbg : (s.updLane l f).dbg = s.dbg := rfl
@[simp] theorem State.updLane_sites : (s.updLane l f).sites = s.sites := rfl
@[simp] theorem State.updLane_out : (s.updLane l f).out = s.out := rfl
@[simp] theorem State.updLane_free : (s.updLane l f).free = s.free := rfl
@[simp] theorem State.updLane_pending : (s.updLane l f).pending = s.pending := rfl
end

/-! `State.setRemote` -/

section
variable (s : State) (r : Remote)
@[simp] theorem State.setRemote_tick : (s.setRemote r).tick = s.tick := rfl
@[simp] theorem State.setRemote_ctl : (s.setRemote r).ctl = s.ctl := rfl
@[simp] theorem State.setRemote_host : (s.setRemote r).host = s.host := rfl
@[simp] theorem State.setRemote_work : (s.setRemote r).work = s.work := rfl
@[simp] theorem State.setRemote_clasps : (s.setRemote r).clasps = s.clasps := rfl
@[simp] theorem State.setRemote_evt : (s.setRemote r).evt = s.evt := rfl
@[simp] theorem State.setRemote_mbox : (s.setRemote r).mbox = s.mbox := rfl
@[simp] theorem State.setRemote_xlat : (s.setRemote r).xlat = s.xlat := rfl
@[simp] theorem State.setRemote_sail : (s.setRemote r).sail = s.sail := rfl
@[simp] theorem State.setRemote_casket : (s.setRemote r).casket = s.casket := rfl
@[simp] theorem State.setRemote_mem : (s.setRemote r).mem = s.mem := rfl
@[simp] theorem State.setRemote_care : (s.setRemote r).care = s.care := rfl
@[simp] theorem State.setRemote_tiles : (s.setRemote r).tiles = s.tiles := rfl
@[simp] theorem State.setRemote_mesh : (s.setRemote r).mesh = s.mesh := rfl
@[simp] theorem State.setRemote_locket : (s.setRemote r).locket = s.locket := rfl
@[simp] theorem State.setRemote_pwr : (s.setRemote r).pwr = s.pwr := rfl
@[simp] theorem State.setRemote_therm : (s.setRemote r).therm = s.therm := rfl
@[simp] theorem State.setRemote_keel : (s.setRemote r).keel = s.keel := rfl
@[simp] theorem State.setRemote_dbg : (s.setRemote r).dbg = s.dbg := rfl
@[simp] theorem State.setRemote_sites : (s.setRemote r).sites = s.sites := rfl
@[simp] theorem State.setRemote_out : (s.setRemote r).out = s.out := rfl
@[simp] theorem State.setRemote_free : (s.setRemote r).free = s.free := rfl
@[simp] theorem State.setRemote_pending : (s.setRemote r).pending = s.pending := rfl
end

/-! `State.dropRemote` -/

section
variable (s : State) (f : Nat)
@[simp] theorem State.dropRemote_tick : (s.dropRemote f).tick = s.tick := rfl
@[simp] theorem State.dropRemote_ctl : (s.dropRemote f).ctl = s.ctl := rfl
@[simp] theorem State.dropRemote_host : (s.dropRemote f).host = s.host := rfl
@[simp] theorem State.dropRemote_work : (s.dropRemote f).work = s.work := rfl
@[simp] theorem State.dropRemote_clasps : (s.dropRemote f).clasps = s.clasps := rfl
@[simp] theorem State.dropRemote_evt : (s.dropRemote f).evt = s.evt := rfl
@[simp] theorem State.dropRemote_mbox : (s.dropRemote f).mbox = s.mbox := rfl
@[simp] theorem State.dropRemote_xlat : (s.dropRemote f).xlat = s.xlat := rfl
@[simp] theorem State.dropRemote_sail : (s.dropRemote f).sail = s.sail := rfl
@[simp] theorem State.dropRemote_casket : (s.dropRemote f).casket = s.casket := rfl
@[simp] theorem State.dropRemote_mem : (s.dropRemote f).mem = s.mem := rfl
@[simp] theorem State.dropRemote_care : (s.dropRemote f).care = s.care := rfl
@[simp] theorem State.dropRemote_tiles : (s.dropRemote f).tiles = s.tiles := rfl
@[simp] theorem State.dropRemote_mesh : (s.dropRemote f).mesh = s.mesh := rfl
@[simp] theorem State.dropRemote_locket : (s.dropRemote f).locket = s.locket := rfl
@[simp] theorem State.dropRemote_pwr : (s.dropRemote f).pwr = s.pwr := rfl
@[simp] theorem State.dropRemote_therm : (s.dropRemote f).therm = s.therm := rfl
@[simp] theorem State.dropRemote_keel : (s.dropRemote f).keel = s.keel := rfl
@[simp] theorem State.dropRemote_dbg : (s.dropRemote f).dbg = s.dbg := rfl
@[simp] theorem State.dropRemote_sites : (s.dropRemote f).sites = s.sites := rfl
@[simp] theorem State.dropRemote_out : (s.dropRemote f).out = s.out := rfl
@[simp] theorem State.dropRemote_free : (s.dropRemote f).free = s.free := rfl
@[simp] theorem State.dropRemote_pending : (s.dropRemote f).pending = s.pending := rfl
end

/-! `State.setDuty` -/

section
variable (s : State) (k d : Nat)
@[simp] theorem State.setDuty_tick : (s.setDuty k d).tick = s.tick := rfl
@[simp] theorem State.setDuty_ctl : (s.setDuty k d).ctl = s.ctl := rfl
@[simp] theorem State.setDuty_host : (s.setDuty k d).host = s.host := rfl
@[simp] theorem State.setDuty_work : (s.setDuty k d).work = s.work := rfl
@[simp] theorem State.setDuty_clasps : (s.setDuty k d).clasps = s.clasps := rfl
@[simp] theorem State.setDuty_evt : (s.setDuty k d).evt = s.evt := rfl
@[simp] theorem State.setDuty_mbox : (s.setDuty k d).mbox = s.mbox := rfl
@[simp] theorem State.setDuty_xlat : (s.setDuty k d).xlat = s.xlat := rfl
@[simp] theorem State.setDuty_sail : (s.setDuty k d).sail = s.sail := rfl
@[simp] theorem State.setDuty_casket : (s.setDuty k d).casket = s.casket := rfl
@[simp] theorem State.setDuty_care : (s.setDuty k d).care = s.care := rfl
@[simp] theorem State.setDuty_tiles : (s.setDuty k d).tiles = s.tiles := rfl
@[simp] theorem State.setDuty_mesh : (s.setDuty k d).mesh = s.mesh := rfl
@[simp] theorem State.setDuty_locket : (s.setDuty k d).locket = s.locket := rfl
@[simp] theorem State.setDuty_tether : (s.setDuty k d).tether = s.tether := rfl
@[simp] theorem State.setDuty_pwr : (s.setDuty k d).pwr = s.pwr := rfl
@[simp] theorem State.setDuty_therm : (s.setDuty k d).therm = s.therm := rfl
@[simp] theorem State.setDuty_keel : (s.setDuty k d).keel = s.keel := rfl
@[simp] theorem State.setDuty_dbg : (s.setDuty k d).dbg = s.dbg := rfl
@[simp] theorem State.setDuty_sites : (s.setDuty k d).sites = s.sites := rfl
@[simp] theorem State.setDuty_out : (s.setDuty k d).out = s.out := rfl
@[simp] theorem State.setDuty_free : (s.setDuty k d).free = s.free := rfl
@[simp] theorem State.setDuty_pending : (s.setDuty k d).pending = s.pending := rfl
end

/-! `State.updGen` -/

section
variable (s : State) (c : Nat) (f : TrafficGen → TrafficGen)
@[simp] theorem State.updGen_tick : (s.updGen c f).tick = s.tick := rfl
@[simp] theorem State.updGen_ctl : (s.updGen c f).ctl = s.ctl := rfl
@[simp] theorem State.updGen_host : (s.updGen c f).host = s.host := rfl
@[simp] theorem State.updGen_work : (s.updGen c f).work = s.work := rfl
@[simp] theorem State.updGen_clasps : (s.updGen c f).clasps = s.clasps := rfl
@[simp] theorem State.updGen_evt : (s.updGen c f).evt = s.evt := rfl
@[simp] theorem State.updGen_mbox : (s.updGen c f).mbox = s.mbox := rfl
@[simp] theorem State.updGen_xlat : (s.updGen c f).xlat = s.xlat := rfl
@[simp] theorem State.updGen_sail : (s.updGen c f).sail = s.sail := rfl
@[simp] theorem State.updGen_casket : (s.updGen c f).casket = s.casket := rfl
@[simp] theorem State.updGen_care : (s.updGen c f).care = s.care := rfl
@[simp] theorem State.updGen_tiles : (s.updGen c f).tiles = s.tiles := rfl
@[simp] theorem State.updGen_mesh : (s.updGen c f).mesh = s.mesh := rfl
@[simp] theorem State.updGen_locket : (s.updGen c f).locket = s.locket := rfl
@[simp] theorem State.updGen_tether : (s.updGen c f).tether = s.tether := rfl
@[simp] theorem State.updGen_pwr : (s.updGen c f).pwr = s.pwr := rfl
@[simp] theorem State.updGen_therm : (s.updGen c f).therm = s.therm := rfl
@[simp] theorem State.updGen_keel : (s.updGen c f).keel = s.keel := rfl
@[simp] theorem State.updGen_dbg : (s.updGen c f).dbg = s.dbg := rfl
@[simp] theorem State.updGen_sites : (s.updGen c f).sites = s.sites := rfl
@[simp] theorem State.updGen_out : (s.updGen c f).out = s.out := rfl
@[simp] theorem State.updGen_free : (s.updGen c f).free = s.free := rfl
@[simp] theorem State.updGen_pending : (s.updGen c f).pending = s.pending := rfl
end

end Sys2Proof.Machine
end

