-- ==== Sys2Proof/Laws/Memory.lean ====
section
/-! SUPPORT. Memory: every operation that changes what the stacks, their buffers or the Casket hold keeps the canonical form of the
contents (`State.memoryCanonical`), and what a store leaves at each address. -/

namespace Sys2Proof.Machine

/-! ### What does not touch the contents -/

/-- Memory is canonical where the contents are those of a canonical memory. -/
theorem State.canonical_of_same {s t : State} (h : s.memoryCanonical = true) (hm : t.mem = s.mem) (hc : t.casket = s.casket) :
    t.memoryCanonical = true := by
  simpa [State.memoryCanonical, hm, hc] using h

/-- A fold keeps the canonical form if each of its steps does. -/
theorem State.canonical_foldl {α : Type} {f : State → α → State} (l : List α)
    (hf : ∀ (s : State) a, s.memoryCanonical = true → (f s a).memoryCanonical = true) :
    ∀ s : State, s.memoryCanonical = true → (l.foldl f s).memoryCanonical = true := by
  induction l with
  | nil => exact fun s h => h
  | cons a l ih => exact fun s h => ih _ (hf s a h)

@[simp] theorem State.chargeCe_mem (s : State) (b k u : Nat) : (s.chargeCe b k u).mem = s.mem := by
  unfold State.chargeCe; dsimp only; split
  · rfl
  · split <;> rfl
@[simp] theorem State.chargeCe_casket (s : State) (b k u : Nat) : (s.chargeCe b k u).casket = s.casket := by
  unfold State.chargeCe; dsimp only; split
  · rfl
  · split <;> rfl
@[simp] theorem State.postGroupState_mem (s : State) (n o w : Nat) (d : Option Nat) (x : Bool) (l : Nat) :
    (s.postGroupState n o w d x l).mem = s.mem := rfl
@[simp] theorem State.postGroupState_casket (s : State) (n o w : Nat) (d : Option Nat) (x : Bool) (l : Nat) :
    (s.postGroupState n o w d x l).casket = s.casket := rfl
@[simp] theorem State.startReset_mem (s : State) (p c u : Nat) : (s.startReset p c u).mem = s.mem := by
  unfold State.startReset; dsimp only; split
  · rfl
  · split <;> rfl
@[simp] theorem State.startReset_casket (s : State) (p c u : Nat) : (s.startReset p c u).casket = s.casket := by
  unfold State.startReset; dsimp only; split
  · rfl
  · split <;> rfl
@[simp] theorem State.charge_casket (s : State) (b n : Nat) : (s.charge b n).casket = s.casket := by
  unfold State.charge; split <;> rfl
@[simp] theorem State.reportWb_mem (s : State) (l : WcbLine) (b : Nat) (r : Bool) : (s.reportWb l b r).mem = s.mem := by
  unfold State.reportWb; dsimp only; split <;> simp
@[simp] theorem State.reportWb_casket (s : State) (l : WcbLine) (b : Nat) (r : Bool) : (s.reportWb l b r).casket = s.casket := by
  unfold State.reportWb; dsimp only; split <;> simp

/-! ### The stacks -/

/-- A granule's valid bit. -/
theorem State.setGranule_canonical {s : State} (g : Nat) (v : Bool) (h : s.memoryCanonical = true) :
    (s.setGranule g v).memoryCanonical = true := by
  simp only [State.memoryCanonical, Mem.wf, Bool.and_eq_true] at h ⊢
  exact ⟨⟨⟨h.1.1.1, SMap.wf_set _ _ _ _ h.1.1.2⟩, h.1.2⟩, h.2⟩

/-- A change of a group's state. -/
theorem State.updGroup_canonical {s : State} (n : Nat) (f : Group → Group) (h : s.memoryCanonical = true) :
    (s.updGroup n f).memoryCanonical = true := h

/-- The donor of a slab takes its valid bits. -/
theorem State.beginSlab_canonical {s : State} (n j d : Nat) (h : s.memoryCanonical = true) : (s.beginSlab n j d).memoryCanonical = true := by
  refine State.canonical_foldl _ (fun u i hu => ?_) s h
  dsimp only
  split
  · exact hu
  · exact State.setGranule_canonical _ _ hu

theorem State.mappedOut_canonical {s : State} (n : Nat) (h : s.memoryCanonical = true) : (s.mappedOut n).memoryCanonical = true := h

theorem State.startEvac_canonical {s : State} (n : Nat) (f : Option Nat) (h : s.memoryCanonical = true) :
    (s.startEvac n f).memoryCanonical = true := by
  unfold State.startEvac; dsimp only; split
  · exact h
  · exact State.beginSlab_canonical _ _ _ h

theorem State.secondFault_canonical {s : State} (n : Nat) (h : s.memoryCanonical = true) : (s.secondFault n).memoryCanonical = true := by
  unfold State.secondFault; split
  · exact State.startEvac_canonical _ _ h
  · exact h

theorem State.dieLocated_canonical {s : State} (n a st : Nat) (h : s.memoryCanonical = true) :
    (s.dieLocated n a st).memoryCanonical = true := by
  have hu : ∀ u : State, u.memoryCanonical = true →
      (if (u.group n).state = 0 then u.dieDead n a
        else if (u.group n).state = 3 ∧ (u.group n).deadDie ≠ some a then u.secondFault n else u).memoryCanonical = true := by
    intro u hu
    split
    · exact hu
    · split
      · exact State.secondFault_canonical _ hu
      · exact hu
  unfold State.dieLocated; dsimp only
  split
  · exact hu _ h
  · exact hu _ h

theorem State.undecodable_canonical {s : State} (k : Nat) (h : s.memoryCanonical = true) : (s.undecodable k).memoryCanonical = true := by
  unfold State.undecodable; dsimp only; split
  · exact State.secondFault_canonical _ h
  · exact h

/-! Reads: what they report keeps the contents. -/

theorem State.heedSetting_canonical {s : State} (st : Nat) (h : s.memoryCanonical = true) : (s.heedSetting st).memoryCanonical = true := by
  unfold State.heedSetting; split
  · exact h
  · dsimp only; split
    · exact State.canonical_of_same h (by simp) (by simp)
    · exact State.dieLocated_canonical _ _ _ h
    · exact h

theorem State.heedBeat_canonical {s : State} (k : Nat) (h : s.memoryCanonical = true) : (s.heedBeat k).memoryCanonical = true := by
  unfold State.heedBeat; split
  · exact h
  · dsimp only; split
    · simpa [State.memoryCanonical, Mem.wf] using h
    · exact h

theorem State.heedBuffered_canonical {s : State} (st i : Nat) (h : s.memoryCanonical = true) :
    (s.heedBuffered st i).memoryCanonical = true := by
  unfold State.heedBuffered; split
  · exact h
  · dsimp only; split
    · exact h
    · split
      · exact h
      · split
        · exact h
        · simpa [State.memoryCanonical, Mem.wf] using h

theorem State.heed_canonical {s : State} (d n : Nat) (h : s.memoryCanonical = true) : (s.heed d n).memoryCanonical = true := by
  unfold State.heed; split
  · exact h
  · refine State.canonical_foldl _ (fun u r hu => ?_) s h
    dsimp only; split
    · exact hu
    · rename_i k0 _
      have hb := State.canonical_foldl (List.range r.2) (f := fun s i => s.heedBuffered (u.redirect k0 / 1024) ((u.redirect k0 + i) % 1024))
        (fun v i hv => State.heedBuffered_canonical _ _ hv) u hu
      split
      · exact hb
      · split
        · exact State.heedSetting_canonical _ hb
        · exact State.canonical_foldl _ (fun v b hv => State.heedBeat_canonical b hv) _ hb

/-! Stores. -/

/-- Beats stored with their checks, or as poison. -/
theorem Mem.storeStack_wf {m : Mem} (k : Nat) (bs : Bytes) (bad good : List Nat) (h : m.wf = true) : (m.storeStack k bs bad good).wf = true := by
  simp only [Mem.wf, Bool.and_eq_true] at h ⊢
  have hf : ∀ (x : Nat) (l : List Nat) (c : SMap Nat), SMap.wf 0 c = true → SMap.wf 0 (l.foldl (fun p b => SMap.set 0 p b x) c) = true := by
    intro x l
    induction l with
    | nil => exact fun c hc => hc
    | cons b l ih => exact fun c hc => ih _ (SMap.wf_set _ _ _ _ hc)
  exact ⟨⟨SMap.wf_setList _ _ _ _ h.1.1, hf _ _ _ (hf _ _ _ h.1.2)⟩, h.2⟩

/-- A setting as a sender gives it. -/
theorem Mem.holdSetting_wf {m : Mem} (w : Bool) (st : Nat) (raw : List Bytes) (h : m.wf = true) : (m.holdSetting w st raw).wf = true := by
  simp only [Mem.wf, Bool.and_eq_true] at h ⊢
  have hf : ∀ (g : Nat → Nat) (l : List Nat) (c : SMap Nat), SMap.wf 0 c = true →
      SMap.wf 0 (l.foldl (fun c b => SMap.set 0 c (16 * st + b) (g b)) c) = true := by
    intro g l
    induction l with
    | nil => exact fun c hc => hc
    | cons b l ih => exact fun c hc => ih _ (SMap.wf_set _ _ _ _ hc)
  exact ⟨⟨SMap.wf_setList _ _ _ _ h.1.1, hf _ _ _ h.1.2⟩, h.2⟩

/-- A range of storage zeroed. -/
theorem State.zeroStorage_canonical {s : State} (k n : Nat) (h : s.memoryCanonical = true) : (s.zeroStorage k n).memoryCanonical = true := by
  simp only [State.memoryCanonical, Mem.wf, Bool.and_eq_true] at h ⊢
  exact ⟨⟨⟨⟨SMap.wf_clear _ _ _ _ h.1.1.1.1, SMap.wf_clear _ _ _ _ h.1.1.1.2⟩, h.1.1.2⟩, h.1.2⟩, h.2⟩

theorem State.markRebuild_canonical {s : State} (g : Nat) (h : s.memoryCanonical = true) : (s.markRebuild g).memoryCanonical = true := by
  unfold State.markRebuild; dsimp only; split <;> exact h

/-- The first write to a granule. -/
theorem State.touchGranule_canonical {s : State} (g : Nat) (h : s.memoryCanonical = true) : (s.touchGranule g).memoryCanonical = true := by
  unfold State.touchGranule; split
  · exact h
  · apply State.markRebuild_canonical
    have h := State.setGranule_canonical g true h
    simp only [State.memoryCanonical, Mem.wf, Bool.and_eq_true] at h ⊢
    exact ⟨⟨⟨⟨SMap.wf_clear _ _ _ _ h.1.1.1.1, SMap.wf_clear _ _ _ _ h.1.1.1.2⟩, h.1.1.2⟩, h.1.2⟩, h.2⟩

theorem State.wroteBack_canonical {s : State} (l : WcbLine) (p : List Nat) (h : s.memoryCanonical = true) :
    (s.wroteBack l p).memoryCanonical = true := by
  have hc : ∀ (u : State) b n, u.memoryCanonical = true → (u.charge b n).memoryCanonical = true := by
    intro u b n hu; unfold State.charge; split <;> exact hu
  unfold State.wroteBack; dsimp only; split
  · exact h
  · split
    · exact hc _ _ _ h
    · exact h

/-- A buffer line written back. -/
theorem State.writeback_canonical {s : State} (l : WcbLine) (h : s.memoryCanonical = true) : (s.writeback l).memoryCanonical = true := by
  have hr : ∀ (fs : List Nat) (f : Nat → Bool) (l : WcbLine) (u : State), u.memoryCanonical = true →
      (fs.foldl (fun s b => s.reportWb l b (f b)) u).memoryCanonical = true := fun fs f l u hu =>
    State.canonical_foldl fs (fun v b hv => State.canonical_of_same hv (by simp) (by simp)) u hu
  have hm : ∀ (ms : List (Nat × List (Byte × Bool))) (k : Nat) (m : Mem), m.wf = true →
      (ms.foldl (fun mm x => mm.storeStack (k + 64 * x.1) (x.2.map (fun y => y.1)) [] [k / 64 + x.1]) m).wf = true := by
    intro ms k
    induction ms with
    | nil => exact fun m hm => hm
    | cons x ms ih => exact fun m hm => ih _ (Mem.storeStack_wf _ _ _ _ hm)
  have h1 := State.canonical_foldl l.errs (f := fun s e => s.heedBuffered l.setting e.1) (fun v e hv => State.heedBuffered_canonical _ _ hv) s h
  unfold State.writeback
  dsimp only
  apply hr
  apply State.markRebuild_canonical
  apply State.wroteBack_canonical
  have key : ∀ u : State, u.memoryCanonical = true → ∀ (ms : List (Nat × List (Byte × Bool))) (k : Nat) (bb : List Nat),
      ({ u with mem :=
        (ms.foldl (fun mm x => mm.storeStack (k + 64 * x.1) (x.2.map (fun y => y.1)) [] [k / 64 + x.1]) u.mem).storeStack k [] bb [] } : State).memoryCanonical = true := by
    intro u hu ms k bb
    simp only [State.memoryCanonical, Bool.and_eq_true] at hu ⊢
    exact ⟨⟨Mem.storeStack_wf _ _ _ _ (hm _ _ _ hu.1.1), hu.1.2⟩, hu.2⟩
  apply key
  have hu : ∀ (c : Prop) [Decidable c] (u : State) (k : Nat), u.memoryCanonical = true →
      (if c then u.undecodable k else u).memoryCanonical = true := by
    intro c _ u k hu
    split
    · exact State.undecodable_canonical _ hu
    · exact hu
  apply hu
  split
  · exact h1
  · split
    · exact State.heedSetting_canonical _ h1
    · exact State.canonical_foldl _ (fun v b hv => State.heedBeat_canonical _ hv) _ h1

theorem State.writebackAll_canonical {s : State} (p : WcbLine → Bool) (h : s.memoryCanonical = true) :
    (s.writebackAll p).memoryCanonical = true :=
  State.canonical_foldl _ (fun _ l hu => State.writeback_canonical l hu) s h

theorem State.writebackFull_canonical {s : State} (n : Nat) (h : s.memoryCanonical = true) : (s.writebackFull n).memoryCanonical = true := by
  unfold State.writebackFull; split
  · exact State.writebackAll_canonical _ h
  · exact h

theorem State.makeWay_canonical {s : State} (st : Nat) (h : s.memoryCanonical = true) : (s.makeWay st).memoryCanonical = true := by
  unfold State.makeWay; split
  · exact h
  · dsimp only; split
    · exact h
    · split
      · exact h
      · exact State.writeback_canonical _ h

/-- Bytes entered into the buffer of one setting. -/
theorem State.writeLine_canonical {s : State} (k : Nat) (bs : List (Byte × Bool)) (w : Nat) (h : s.memoryCanonical = true) :
    (s.writeLine k bs w).memoryCanonical = true := by
  have h2 := State.makeWay_canonical (k / 1024) (State.touchGranule_canonical (k / 1024 / 64) h)
  unfold State.writeLine; dsimp only; split
  · exact State.writebackFull_canonical _ h2
  · exact h2

theorem State.writeSetting_canonical {s : State} (k : Nat) (bs : List (Byte × Bool)) (w : Nat) (h : s.memoryCanonical = true) :
    (s.writeSetting k bs w).memoryCanonical = true := by
  unfold State.writeSetting; dsimp only; split
  · exact State.writeLine_canonical _ _ _ (State.writeLine_canonical _ _ _ h)
  · exact State.writeLine_canonical _ _ _ h

/-- A write to device memory. -/
theorem State.writeDev_canonical {s : State} (d : Nat) (bs : List (Byte × Bool)) (w : Nat) (h : s.memoryCanonical = true) :
    (s.writeDev d bs w).memoryCanonical = true := by
  have key : ∀ (rs : List (Nat × Nat)) (a : State × List (Byte × Bool)), a.1.memoryCanonical = true →
      (rs.foldl (fun (a : State × List (Byte × Bool)) r =>
        match storageOf r.1 with
        | none => (a.1, a.2.drop r.2)
        | some k => (a.1.writeSetting (a.1.redirect k) (a.2.take r.2) w, a.2.drop r.2)) a).1.memoryCanonical = true := by
    intro rs
    induction rs with
    | nil => exact fun a ha => ha
    | cons r rs ih =>
      intro a ha
      rw [List.foldl_cons]
      apply ih
      split
      · exact ha
      · exact State.writeSetting_canonical _ _ _ ha
  exact key _ _ h

/-! ### The Casket -/

theorem State.writeCasket_canonical {s : State} (a : Nat) (bs : List (Byte × Bool)) (h : s.memoryCanonical = true) :
    (s.writeCasket a bs).memoryCanonical = true := by
  simp only [State.memoryCanonical, Bool.and_eq_true] at h ⊢
  exact ⟨⟨h.1.1, SMap.wf_setList _ _ _ _ h.1.2⟩, SMap.wf_setList _ _ _ _ h.2⟩

theorem State.zeroCasket_canonical {s : State} (a n : Nat) (h : s.memoryCanonical = true) : (s.zeroCasket a n).memoryCanonical = true := by
  simp only [State.memoryCanonical, Bool.and_eq_true] at h ⊢
  exact ⟨⟨h.1.1, SMap.wf_clear _ _ _ _ h.1.2⟩, SMap.wf_clear _ _ _ _ h.2⟩

theorem State.spoilCasket_canonical {s : State} (a : Nat) (h : s.memoryCanonical = true) : (s.spoilCasket a).memoryCanonical = true := by
  simp only [State.memoryCanonical, Bool.and_eq_true] at h ⊢
  exact ⟨h.1, SMap.wf_set false s.casket.bad a true h.2⟩

theorem State.heedCasketByte_canonical {s : State} (a : Nat) (h : s.memoryCanonical = true) : (s.heedCasketByte a).memoryCanonical = true := by
  unfold State.heedCasketByte; split
  · dsimp only
    simp only [State.memoryCanonical, Bool.and_eq_true] at h
    simp only [State.memoryCanonical, State.chargeCe_mem, State.chargeCe_casket, State.casketErr, Bool.and_eq_true]
    exact ⟨⟨h.1.1, SMap.wf_set _ _ _ _ h.1.2⟩, h.2⟩
  · exact h

theorem State.heedCasket_canonical {s : State} (a n : Nat) (h : s.memoryCanonical = true) : (s.heedCasket a n).memoryCanonical = true := by
  unfold State.heedCasket
  generalize List.filter _ _ = l
  induction l generalizing s with
  | nil => exact h
  | cons e l ih => rw [List.foldl_cons]; exact ih (State.heedCasketByte_canonical _ h)

/-- A write puts its bytes in the Casket, each with its mark, and every other byte stays (R208). -/
theorem State.writeCasket_holds (s : State) (a i : Nat) (bs : List (Byte × Bool)) (h : i < bs.length) :
    SMap.get 0 (s.writeCasket a bs).casket.bytes (a + i) = (bs.getD i (0, false)).1 ∧
      SMap.get false (s.writeCasket a bs).casket.bad (a + i) = (bs.getD i (0, false)).2 := by
  have h1 := SMap.get_setList_in (0 : Byte) (plain bs) s.casket.bytes a i (by simpa [plain] using h)
  have h2 := SMap.get_setList_in false (bs.map (fun b => b.2)) s.casket.bad a i (by simpa using h)
  refine ⟨?_, ?_⟩
  · simpa [State.writeCasket, plain, h] using h1
  · simpa [State.writeCasket, h] using h2

theorem State.writeCasket_same (s : State) (a : Nat) (bs : List (Byte × Bool)) : casketSameOutside s (s.writeCasket a bs) a bs.length := by
  intro i hi
  exact ⟨SMap.get_setList_out _ _ _ _ _ (by simpa [plain] using hi), SMap.get_setList_out _ _ _ _ _ (by simpa using hi)⟩

/-- Zeroing leaves good zeros in its range and every other byte as it was (R212, R213). -/
theorem State.zeroCasket_same (s : State) (a n : Nat) : casketSameOutside s (s.zeroCasket a n) a n := by
  intro i hi
  have hn : ¬ (a ≤ i ∧ i < a + n) := by omega
  exact ⟨by simp [State.zeroCasket, SMap.get_clear, hn], by simp [State.zeroCasket, SMap.get_clear, hn]⟩

end Sys2Proof.Machine
end

