-- ==== Sys2Proof/Laws/Ops.lean ====
section
/-! SUPPORT. What each shared operation can do, said once: steps, register writes, mailbox commands, flights and their ends, messages. -/

namespace Sys2Proof.Machine

/-! ### Steps and outcomes -/

@[simp] theorem step_cons (s : State) (c : Instr) (rest : List Instr) (h : s.pending = c :: rest) :
    step s = exec c { s with pending := rest } := by simp [step, h]

@[simp] theorem step_nil (s : State) (h : s.pending = []) : step s = .next s.edge := by simp [step, h]

/-- A guarded command completes where its operands are those of the device, and is refused by name elsewhere. -/
theorem guarded_eq (m : String) (ok : Bool) (t : State) :
    (ok = true → guarded m ok t = .next t) ∧ (ok = false → guarded m ok t = .refused (.illFormed m)) :=
  ⟨fun h => by simp [guarded, h], fun h => by simp [guarded, h]⟩

@[simp] theorem guarded_true (m : String) (t : State) : guarded m true t = .next t := rfl
@[simp] theorem guarded_false (m : String) (t : State) : guarded m false t = .refused (.illFormed m) := rfl

theorem completesWith_next {t : State} {P : State → Prop} (h : P t) : completesWith (.next t) P := ⟨t, rfl, h⟩

/-- A component that is not among those named is the same, and so is the queue. -/
theorem unchangedBut.trans {cs : List Comp} {s t u : State} (h : unchangedBut cs s t) (k : unchangedBut cs t u) : unchangedBut cs s u := by
  refine ⟨fun c hc => ?_, k.2.trans h.2⟩
  have a := h.1 c hc
  have b := k.1 c hc
  cases c <;> exact b.trans a

theorem unchangedBut.refl (cs : List Comp) (s : State) : unchangedBut cs s s := ⟨fun c _ => by cases c <;> rfl, rfl⟩

theorem unchangedBut.mono {cs ds : List Comp} {s t : State} (h : unchangedBut cs s t) (hd : ∀ c, c ∈ cs → c ∈ ds) : unchangedBut ds s t :=
  ⟨fun c hc => h.1 c (fun hm => hc (hd c hm)), h.2⟩

/-! ### Register writes and the mailbox -/

@[simp] theorem State.regWrite_open (s : State) (k : State → State) (h : s.regOpen = true) : s.regWrite k = k s := by
  simp [State.regWrite, h]
@[simp] theorem State.regWrite_closed (s : State) (k : State → State) (h : s.regOpen = false) : s.regWrite k = s := by
  simp [State.regWrite, h]

/-- A mailbox command that runs and passes its length, life-cycle and field checks has its effect (R307, R439). -/
theorem State.mailboxLc_runs {s : State} {op : Nat} {b : Bytes} {lenOk : Nat → Bool} {states : List Nat}
    {checks : Bytes → List (Nat × Bool)} {k : Bytes → State} (h : s.mboxRuns op b) (hl : lenOk b.length = true)
    (hs : states.contains s.locket.lc = true) (hc : firstFail (checks b) = none) : s.mailboxLc op lenOk states checks k = k b := by
  obtain ⟨c, hb, ho, hp, hcl, -⟩ := h
  subst ho; subst hp
  simp [State.mailboxLc, hb, hcl, hl, hc, List.elem_iff.mp hs]

/-- All that `mailboxLc` can do: nothing (no such command runs), one of the four refusals of R307, or the effect. -/
theorem State.mailboxLc_cases (s : State) (op : Nat) (lenOk : Nat → Bool) (states : List Nat) (checks : Bytes → List (Nat × Bool))
    (k : Bytes → State) :
    s.mailboxLc op lenOk states checks k = s ∨
    (∃ code out, s.mailboxLc op lenOk states checks k = s.mboxEnd code out) ∨
    ∃ b, s.mbox.busy = some b ∧ b.opcode = op ∧ s.mailboxClosed op = false ∧ lenOk b.payload.length = true ∧
      firstFail (checks b.payload) = none ∧ s.mailboxLc op lenOk states checks k = k b.payload := by
  unfold State.mailboxLc
  split
  · exact .inl rfl
  · rename_i b hb
    split
    · exact .inl rfl
    · rename_i ho
      split
      · exact .inr (.inl ⟨_, _, rfl⟩)
      · rename_i hcl
        split
        · exact .inr (.inl ⟨_, _, rfl⟩)
        · rename_i hl
          split
          · exact .inr (.inl ⟨_, _, rfl⟩)
          · split
            · exact .inr (.inl ⟨_, _, rfl⟩)
            · rename_i hc
              exact .inr (.inr ⟨b, hb, by simpa using ho, by simpa using hcl, by simpa using hl, hc, rfl⟩)

/-! ### Flights -/

/-- Flight `f` after a change that keeps its number. -/
theorem State.flight_updFlight (s : State) (f : Nat) (g : Flight → Flight) (hg : ∀ x : Flight, (g x).id = x.id) :
    (s.updFlight f g).flight f = (s.flight f).map g := by
  simp only [State.flight, State.updFlight]
  induction s.work.flights with
  | nil => rfl
  | cons x l ih =>
    by_cases h : x.id = f
    · simp [h, hg]
    · simpa [h] using ih

/-- The other flights after it. -/
theorem State.flight_updFlight_other (s : State) (f k : Nat) (g : Flight → Flight) (hg : ∀ x : Flight, (g x).id = x.id) (h : k ≠ f) :
    (s.updFlight f g).flight k = s.flight k := by
  simp only [State.flight, State.updFlight]
  induction s.work.flights with
  | nil => rfl
  | cons x l ih =>
    by_cases hx : x.id = f
    · have : (x.id == k) = false := by simp [hx, Ne.symm h]
      simp only [List.map_cons, hx, beq_self_eq_true, if_true, List.find?_cons, hg] at ih ⊢
      rw [show (f == k) = false by simpa using Ne.symm h]
      simpa using ih
    · simp only [List.map_cons, beq_iff_eq, hx, if_false, List.find?_cons] at ih ⊢
      split
      · rfl
      · exact ih

@[simp] theorem State.updStrand_unchanged (s : State) (f j : Nat) (g : Strand → Strand) : unchangedBut [.work] s (s.updStrand f j g) :=
  ⟨fun c hc => by cases c <;> first | rfl | simp at hc, rfl⟩

@[simp] theorem State.updFlight_unchanged (s : State) (f : Nat) (g : Flight → Flight) : unchangedBut [.work] s (s.updFlight f g) :=
  ⟨fun c hc => by cases c <;> first | rfl | simp at hc, rfl⟩

@[simp] theorem State.unpinIf_flight (s : State) (p : Nat × Nat → Bool) (f : Nat) : (s.unpinIf p).flight f = s.flight f := rfl

/-- A control-plane descriptor that is ready: what that says of its flight. -/
theorem State.controlReady_some {s : State} {f key : Nat} {x : Flight} (h : s.controlReady f key = some x) :
    s.flight f = some x ∧ dKey x.desc = key ∧ x.state = .eligible ∧ x.worked = false ∧ s.stagingDone x = true := by
  unfold State.controlReady at h
  split at h
  · cases h
  · split at h
    · rename_i hx hc
      cases h
      exact ⟨hx, hc.1, hc.2.1, by simpa using hc.2.2.1, hc.2.2.2⟩
    · cases h

/-- A descriptor whose strand works: what that says of its flight. -/
theorem State.working_some {s : State} {f j key : Nat} {x : Flight} (h : s.working f j key = some x) :
    s.flight f = some x ∧ dKey x.desc = key ∧ (x.strand j).pinned = true ∧ (x.strand j).worked = false ∧ x.worked = false ∧
      (SMap.get none s.care.resets x.part : Option PartReset) = none ∧
      ∃ n, (x.strand j).state = .running n ∧ ¬ (x.classified = true ∧ s.deadline n < s.tick.time) := by
  unfold State.working at h
  split at h
  · cases h
  · rename_i hx
    dsimp only at h
    split at h
    · rename_i hc
      split at h
      · rename_i n hn
        split at h
        · cases h
        · rename_i hd
          cases h
          exact ⟨hx, hc.1, hc.2.1, by simpa using hc.2.2.1, by simpa using hc.2.2.2.1, by simpa using hc.2.2.2.2, n, hn, hd⟩
      · cases h
    · cases h

/-- A load whose images are to be staged. -/
theorem State.staging_some {s : State} {f key : Nat} {x : Flight} (h : s.staging f key = some x) :
    s.flight f = some x ∧ dKey x.desc = key ∧ x.unstarted = true ∧ (x.strand 0).pinned = true ∧ x.staged = false := by
  unfold State.staging at h
  split at h
  · cases h
  · split at h
    · rename_i hx hc
      cases h
      exact ⟨hx, hc.1, hc.2.1, hc.2.2.1, by simpa using hc.2.2.2⟩
    · cases h

/-- A load or run that can start. -/
theorem State.canStart_some {s : State} {f key : Nat} {tiles : Flight → List Nat} {x : Flight} (h : s.canStart f key tiles = some x) :
    s.flight f = some x ∧ dKey x.desc = key ∧ x.staged = true ∧ s.stagingDone x = true ∧ x.unstarted = true ∧ s.tick.phase = 1 ∧
      s.allIdle (tiles x) = true := by
  unfold State.canStart at h
  split at h
  · cases h
  · split at h
    · rename_i hx hc
      cases h
      exact ⟨hx, hc.1, hc.2.1, hc.2.2.1, hc.2.2.2.1, hc.2.2.2.2.1, hc.2.2.2.2.2⟩
    · cases h

/-- The flight that was found has the number that was asked for. -/
theorem State.flight_id {s : State} {f : Nat} {x : Flight} (h : s.flight f = some x) : x.id = f := by
  simpa using List.find?_some h

/-- Work that runs on no engine ends without a change of the engines' counters. -/
theorem State.accrueFlight_none {s : State} {x : Flight} (h : x.onEngines = false) : s.accrueFlight x = s := by
  simp [State.accrueFlight, State.accrue, h]

/-- All that ending a descriptor that runs on no engine does (R338): its flight has its status and its detail and completes in the Settle
phase that R338 gives it, nothing of it is pinned, and nothing but the flights and the pins changes. -/
theorem State.endFlight_ended {s : State} {f : Nat} {x : Flight} (h : s.flight f = some x) (he : x.onEngines = false) (st dt : Nat) :
    endedWith s (s.endFlight f st dt) f x st (s.detailOf x dt) ∧ unchangedBut [.work, .xlat] s (s.endFlight f st dt) := by
  have hid := State.flight_id h
  simp only [State.endFlight, h, State.accrueFlight_none he, State.unpin]
  refine ⟨⟨?_, ?_⟩, ?_⟩
  · refine ⟨{ (x.finish st (s.detailOf x dt) s.settleTick) with
        strands := (x.finish st (s.detailOf x dt) s.settleTick).strands.map (fun y => { y with pinned := false, issued := 0 }) }, ?_, rfl, rfl,
      rfl, rfl, rfl, rfl, ?_⟩
    · refine (State.flight_updFlight _ _ _ ?_).trans ?_
      · intro _; rfl
      · rw [State.unpinIf_flight]
        refine (congrArg _ ((State.flight_updFlight _ _ _ ?_).trans (congrArg _ h))).trans rfl
        intro _; rfl
    · intro z hz
      simp only [Flight.finish, List.map_map, List.mem_map] at hz
      obtain ⟨y, -, rfl⟩ := hz
      exact ⟨rfl, rfl⟩
  · intro g hg
    refine (State.flight_updFlight_other _ _ _ _ ?_ hg).trans ?_
    · intro _; rfl
    · rw [State.unpinIf_flight]
      refine State.flight_updFlight_other _ _ _ _ ?_ hg
      intro _; rfl
  · exact ⟨fun c hc => by cases c <;> first | rfl | simp at hc, rfl⟩

/-- All that `workDone` does: the flight's work is done with this status, unless a site ended it first; the other flights stay. -/
theorem State.workDone_worked {s : State} {f : Nat} {x : Flight} (h : s.flight f = some x) (st dt : Nat) :
    workedWith (s.workDone f st dt) f x st ∧ (∀ g, g ≠ f → (s.workDone f st dt).flight g = s.flight g) ∧
      unchangedBut [.work] s (s.workDone f st dt) := by
  refine ⟨⟨_, (State.flight_updFlight _ _ _ ?_).trans (congrArg _ h), rfl, rfl, rfl, rfl⟩, fun g hg => ?_, ?_⟩
  · intro _; rfl
  · refine State.flight_updFlight_other _ _ _ _ ?_ hg
    intro _; rfl
  · exact State.updFlight_unchanged _ _ _

/-! ### Messages -/

/-- A message at the head of virtual channel 2 of a port, of the kind asked for. -/
theorem State.localMsg_some {s : State} {p op : Nat} {m : TetherMsg} (h : s.localMsg p op = some m) : s.vcHead p 2 = some m ∧ m.op = op := by
  unfold State.localMsg at h
  split at h
  · rename_i m' hm
    split at h
    · rename_i ho; cases h; exact ⟨hm, ho⟩
    · cases h
  · cases h

/-- A message for this device at the head of a virtual channel. -/
theorem State.ownMsg_some {s : State} {p vc op : Nat} {m : TetherMsg} (h : s.ownMsg p vc op = some m) :
    s.vcHead p vc = some m ∧ m.op = op ∧ m.dest = s.tether.ownId := by
  unfold State.ownMsg at h
  split at h
  · rename_i m' hm
    split at h
    · rename_i ho; cases h; exact ⟨hm, ho.1, ho.2⟩
    · cases h
  · cases h

end Sys2Proof.Machine
end

