-- ==== Sys2Proof/Machine/ConfigSpace.lean ====
section
/-! DEFINITION. The host port's configuration space: the header, the capability and DVSEC lists and what they hold (R296 to R299, R331,
Tables 9.1, 9.2 and 10.2), and what a configuration read returns. -/

namespace Sys2Proof.Machine

/-- A register of configuration space: its offset, its size in bytes, and its value. -/
structure CfgReg where
  at_ : Nat
  bytes : Nat
  value : Nat
  deriving DecidableEq, Repr

/-- The configuration header (Table 9.1); BAR0 is a 64-bit, non-prefetchable memory BAR, and the Status register tells of the capability
list. [PRESUMED, log 113] -/
def State.cfgHeader (s : State) : List CfgReg :=
  [⟨0x00, 2, 0x1F3A⟩, ⟨0x02, 2, 0x0B68⟩, ⟨0x06, 2, 0x0010⟩, ⟨0x08, 1, 0xA1⟩, ⟨0x09, 3, 0x120000⟩, ⟨0x0E, 1, 0⟩,
   ⟨0x10, 8, s.host.cfg.bar0 / 0x4000000 * 0x4000000 + 4⟩, ⟨0x18, 16, 0⟩, ⟨0x2C, 2, s.ctl.cfg.subsysVendor⟩, ⟨0x2E, 2, s.ctl.cfg.subsysId⟩,
   ⟨0x34, 1, 0x40⟩, ⟨0x3D, 1, 0⟩]

/-- The capabilities of the first list, as (offset, id), in its order (Table 9.2). -/
def capList : List (Nat × Nat) := [(0x40, 0x01), (0x50, 0x10)]

/-- The extended capabilities, as (offset, id, version), in the order of Table 9.2; a DVSEC's id is 0x0023. [PRESUMED, log 113] -/
def extCapList : List (Nat × Nat × Nat) :=
  [(0x100, 0x0001, 2), (0x148, 0x0023, 1), (0x180, 0x0023, 1), (0x1A0, 0x0023, 1), (0x1C0, 0x000F, 1), (0x1C8, 0x0013, 1),
   (0x1D8, 0x001B, 1), (0x1E0, 0x002E, 1), (0x200, 0x0030, 1)]

/-- The DVSECs, as (offset, DVSEC id, revision, length) (R298); every one carries the CXL vendor id. [PRESUMED, log 113] -/
def dvsecList : List (Nat × Nat × Nat × Nat) := [(0x148, 0, 1, 0x38), (0x180, 7, 1, 0x14), (0x1A0, 8, 0, 0x1C)]

/-- The headers of a list: each names the structure that stands after it, the last one none. -/
def chained {α : Type} (f : α → Nat → CfgReg) (place : α → Nat) : List α → List CfgReg
  | [] => []
  | [x] => [f x 0]
  | x :: y :: r => f x (place y) :: chained f place (y :: r)

/-- The headers of both capability lists and of the DVSECs (R298). -/
def cfgHeads : List CfgReg :=
  chained (fun x next => ⟨x.1, 2, x.2 + next * 2 ^ 8⟩) (fun x => x.1) capList ++
  chained (fun x next => ⟨x.1, 4, x.2.1 + x.2.2 * 2 ^ 16 + next * 2 ^ 20⟩) (fun x => x.1) extCapList ++
  dvsecList.flatMap (fun x => [⟨x.1 + 4, 4, 0x1E98 + x.2.2.1 * 2 ^ 16 + x.2.2.2 * 2 ^ 20⟩, ⟨x.1 + 8, 2, x.2.1⟩])

/-- The code of a link rate in GT/s. [PRESUMED, log 113] -/
def rateCode (gts : Nat) : Nat := if gts = 32 then 5 else if gts = 16 then 4 else if gts = 8 then 3 else 0

/-- Power Management and PCI Express (Table 9.2): the power state; an endpoint of at most 512 B payloads and no FLR; links to x16 at 32
GT/s and what the link has trained to (R296); 10-bit tags. [PRESUMED, log 113] -/
def State.cfgExpress (s : State) : List CfgReg :=
  [⟨0x44, 2, if s.host.d3hot then 3 else 0⟩, ⟨0x52, 2, 2⟩, ⟨0x54, 4, 2⟩, ⟨0x5C, 4, rateCode 32 + 16 * 2 ^ 4⟩,
   ⟨0x62, 2, rateCode s.host.rate + s.host.width * 2 ^ 4⟩, ⟨0x74, 4, 3 * 2 ^ 16⟩]

/-- The content of the DVSECs (Table 9.2, R299): cache, IO and memory capable with two HDM ranges; all three protocols enabled; the two
entries of the Register Locator; IDE on the link. [PRESUMED, log 113] -/
def cfgDvsecs : List CfgReg :=
  [⟨0x148 + 0xA, 2, 0x7 + 2 * 2 ^ 4⟩, ⟨0x180 + 0xA, 2, 7⟩, ⟨0x180 + 0xC, 2, 7⟩, ⟨0x180 + 0xE, 2, 7⟩,
   ⟨0x1A0 + 0xC, 4, 0x180000 + 1 * 2 ^ 8⟩, ⟨0x1A0 + 0x10, 4, 0⟩, ⟨0x1A0 + 0x14, 4, 0xFF * 2 ^ 8⟩, ⟨0x1A0 + 0x18, 4, 0⟩, ⟨0x200 + 4, 4, 1⟩]

/-- ATS, Page Request and PASID (Table 10.2): their capabilities, their enables and the allocation that the host has set (R331, R339). [PRESUMED, log 113] -/
def State.cfgTranslation (s : State) : List CfgReg :=
  let h := s.host.cfg
  [⟨0x1C0 + 4, 2, 2 ^ 5⟩, ⟨0x1C0 + 6, 2, flag h.ats * 2 ^ 15⟩,
   ⟨0x1C8 + 4, 2, flag h.pri⟩, ⟨0x1C8 + 6, 2, flag s.xlat.halted + 2 ^ 15⟩, ⟨0x1C8 + 8, 4, 2048⟩, ⟨0x1C8 + 12, 4, h.allocation⟩,
   ⟨0x1D8 + 4, 2, 20 * 2 ^ 8⟩, ⟨0x1D8 + 6, 2, flag h.pasid⟩]

/-- Every register of configuration space whose value the spec gives; the others have their base values (R297). -/
def State.cfgRegs (s : State) : List CfgReg := s.cfgHeader ++ cfgHeads ++ s.cfgExpress ++ cfgDvsecs ++ s.cfgTranslation

/-- Byte `k` of configuration space as it reads; a register that none of the lists names reads zero. [PRESUMED, log 113] -/
def State.cfgByte (s : State) (k : Nat) : Nat :=
  match s.cfgRegs.find? (fun r => decide (r.at_ ≤ k) && decide (k < r.at_ + r.bytes)) with
  | none => 0
  | some r => r.value / 2 ^ (8 * (k - r.at_)) % 256

/-- A configuration read of `n` bytes at offset `k`: the host reads the port's configuration space once its link is up. -/
def State.cfgRead (s : State) (k n : Nat) : Option Nat :=
  if s.host.linkUp && decide (k + n ≤ 4096) then some (((List.range n).map (fun i => s.cfgByte (k + i) * 2 ^ (8 * i))).sum) else none

end Sys2Proof.Machine
end

