-- ==== Sys2Proof/Tests/Slice0.lean ====
section
/-! SUPPORT. The author's tests: a witness for the hypotheses of every clause of the statements, an ill-formed term for every check of
WellFormed, and values the spec works out. -/

set_option Elab.async false

namespace Sys2Proof.Tests

open Sys2Proof Sys2Proof.Machine

/-! ### States to test on -/

/-- A released device with its host link up. -/
def up : State := { ctl := { pwrgood := true, perstN := true, released := true, step := 13 }, host := { linkUp := true } }

/-- The device runs the mailbox command `op` with payload `b`. -/
def withMbox (s : State) (op : Nat) (b : Bytes) : State := { s with mbox := { state := 1, busy := some ⟨op, 1, b⟩ } }

theorem mboxRuns_withMbox (s : State) (op : Nat) (b : Bytes) (h : s.mailboxClosed op = false) (hl : s.locket.lc ≤ 5) :
    (withMbox s op b).mboxRuns op b := ⟨⟨op, 1, b⟩, rfl, rfl, rfl, h, hl⟩

/-- Bytes with these fields, given as offset, length and value, and zeros elsewhere. -/
def bytesOf (size : Nat) (fs : List (Nat × Nat × Nat)) : Bytes :=
  (List.range size).map (fun i =>
    ((fs.find? (fun f => decide (f.1 ≤ i) && decide (i < f.1 + f.2.1))).map (fun f => BitVec.ofNat 8 (f.2.2 / 256 ^ (i - f.1)))).getD 0)

/-- A descriptor of this class and opcode with these fields. -/
def descOf (cls opcode size : Nat) (fs : List (Nat × Nat × Nat)) : Bytes := bytesOf size ((0, 1, 1) :: (1, 1, cls) :: (2, 2, opcode) :: fs)

/-- A flight that holds this descriptor. -/
def flightOf (f : Nat) (d : Bytes) (st : FState) : Flight :=
  { id := f, desc := d, ring := 0, pos := 0, cring := 0, part := 0, admTick := 0, state := st, strands := [{ state := st }], eligTick := 0
    worked := false, status := 0, detail := 0, settleAt := none, held := [], blob := [], snapL := 0, snapP := 0, confirmed := true
    endTick := 0, consumer := none, staged := false, stage := [], beads := [], segs := [], slabs := [], windows := [], events := []
    failed := false, cleared := true }

/-- A state with one flight. -/
def withFlight (s : State) (x : Flight) : State := { s with work := { s.work with flights := [x] } }

/-- Flight 7 of this descriptor, whose one strand runs its first piece with its pages pinned. -/
def busyFlight (d : Bytes) : Flight := { flightOf 7 d .eligible with strands := [{ state := .running 0, pinned := true }] }

/-- A state whose one flight, 7, does the work of this descriptor. -/
def busy (s : State) (d : Bytes) : State := withFlight s (busyFlight d)

/-- A state whose one flight, 7, is eligible. -/
def ready (s : State) (d : Bytes) : State := withFlight s (flightOf 7 d .eligible)

/-- Every member of an explicit list: for use where a decision procedure needs the list evaluated. -/
theorem forall_of_all {α : Type} {l : List α} {p : α → Prop} [DecidablePred p] (h : l.all (fun a => decide (p a)) = true) :
    ∀ a, a ∈ l → p a := by
  intro a ha; simpa using List.all_eq_true.mp h a ha

/-! ### Operands in a Casket without a fault -/

/-- The place lies in the Casket. -/
def inCasket (x : Place × Nat) : Bool :=
  match x.1 with
  | .casket _ => true
  | _ => false

theorem inCasket_iff {x : Place × Nat} (h : inCasket x = true) : ∃ a n, x = (.casket a, n) := by
  obtain ⟨p, n⟩ := x
  cases p <;> simp [inCasket] at h ⊢

theorem readCasket_clean (s : State) (a n : Nat) (h : s.casket.bad = []) (he : s.casket.errs = []) :
    ∀ b, b ∈ s.readCasket a n → b.2 = false := by
  intro b hb
  simp only [State.readCasket, List.mem_map] at hb
  obtain ⟨i, _, rfl⟩ := hb
  simp [State.badInLine, State.casketByte, h, he, upsetByte]

theorem readLinesOf_clean (s : State) (h : s.casket.bad = []) (he : s.casket.errs = []) (ps : List (Place × Nat)) (hp : ps.all inCasket = true) :
    poisoned (s.readLinesOf ps) = false := by
  have hb : ∀ a n, s.badLines (.casket a, n) = [] := by
    intro a n
    have : ∀ l, poisoned (s.readPlace ((Place.casket a).move l) 64) = false := by
      intro l
      simpa [poisoned, State.readPlace, Place.move] using readCasket_clean s l 64 h he
    simp [State.badLines, this]
  simp only [poisoned, List.any_eq_false, State.readLinesOf, List.mem_flatten, List.mem_map]
  rintro b ⟨l, ⟨x, hx, rfl⟩, hl⟩
  obtain ⟨a, n, rfl⟩ := inCasket_iff (List.all_eq_true.mp hp x hx)
  simp only [State.readLines, hb, List.mem_mapIdx, State.readPlace] at hl
  obtain ⟨i, hi, rfl⟩ := hl
  simp [readCasket_clean s a n h he _ (List.getElem_mem hi)]

/-- Nothing that an access waits for stands in the way of one to the Casket. -/
theorem casket_access (s : State) (ps : List (Place × Nat)) (hp : ps.all inCasket = true) :
    s.missingLines ps = [] ∧ s.missingSite ps = [] ∧ s.tilesBusy ps = false ∧ s.placesHeld ps = false ∧ s.placesRepaired ps = false ∧
    s.accessCosts ps [] = [] ∧ s.accessCosts [] ps = [] := by
  induction ps with
  | nil => simp [State.missingLines, State.missingSite, State.tilesBusy, State.placesHeld, State.placesRepaired, State.accessCosts]
  | cons p ps ih =>
    simp only [List.all_cons, Bool.and_eq_true] at hp
    obtain ⟨a, n, rfl⟩ := inCasket_iff hp.1
    have := ih hp.2
    simpa [State.missingLines, State.missingSite, State.tilesBusy, State.placesHeld, State.placesRepaired, State.accessCosts] using this

/-- Operands in a Casket without a fault are fetched. -/
theorem fetch_casket (s : State) (x : Flight) (j : Nat) (ins outs : List Opnd) (ips ops : List (List (Place × Nat)))
    (h : s.casket.bad = []) (he : s.casket.errs = []) (hi : ins.mapM (s.opndPlaces x.part) = some ips)
    (ho : outs.mapM (s.opndPlaces x.part) = some ops) (hc : ins.filter (fun o => o.check) = [])
    (hp : ips.flatten.all inCasket = true) (hq : ops.flatten.all inCasket = true) :
    s.fetch x j ins outs [] [] = .go (s.took ips.flatten) := by
  obtain ⟨i1, i2, i3, i4, _, i6, _⟩ := casket_access s _ hp
  obtain ⟨_, _, o3, _, o5, _, o7⟩ := casket_access s _ hq
  have b3 : s.tilesBusy (ips.flatten ++ ops.flatten) = false := by
    simp only [State.tilesBusy, List.any_append] at i3 o3 ⊢; simp [i3, o3]
  have hk : s.accessCosts ips.flatten ops.flatten = [] := by
    have e : s.accessCosts ips.flatten ops.flatten = s.accessCosts ips.flatten [] ++ s.accessCosts [] ops.flatten := by simp [State.accessCosts]
    rw [e, i6, o7]; rfl
  have ha : s.access x j ips.flatten ops.flatten = .go s := by
    simp only [State.access, i1, i2, b3, i4, o5, hk, List.drop_nil, State.issueAll]
    simp
  have hr : poisoned (s.readLinesOf ips.flatten) = false := readLinesOf_clean s h he _ hp
  simp only [State.fetch, hi, ho, hc, List.map_nil, List.flatten_nil, List.append_nil, ha]
  simp [hr]
/-! ### Witnesses: registers of the host blocks -/

/-- For SubmissionRingControl, CompletionAndEventRingControl. -/
theorem witness_ring_control :
    (up.regOpen = true ∧ 255 < 256 ∧ (up.ring 255).enable = false) ∧
    ((up.updCRing 255 (fun c => { c with state := 1 })).regOpen = true ∧
      ((up.updCRing 255 (fun c => { c with state := 1 })).cring 255).state = 1) ∧
    (((up.updCRing 0 (fun c => { c with state := 2 })).cring 0).state = 2 ∧
      ((up.updCRing 0 (fun c => { c with state := 2 })).cring 0).held = 0 ∧
      (∀ e, e ∈ (up.updCRing 0 (fun c => { c with state := 2 })).work.rings → e.2.cring = 0 → e.2.enable = false ∧ e.2.state = 0)) ∧
    ((up.cring 255).state = 0 ∧ up.evt.enable = false) := by decide +kernel
/-- For MemoryRegisterWrites, MailboxRegisterWrites, RegisterWrites, UnsupportedAccessHasNoEffect, HdmDecoderCommits. -/
theorem witness_register_writes :
    (up.regOpen = true ∧ 17 < 18 ∧ 11 < 12 ∧ 575 < 576 ∧ (∀ e, e ∈ up.sail.slots → e.2.partition = 15 → e.2.state = 0)) ∧
    (up.mbox.state ≠ 1 ∧ (withMbox up 0x40 []).mbox.state = 1) ∧
    ((up.ring 255).enable = false ∧ 0x3FFFFF8 % 8 = 0 ∧ 0x3FFFFF8 < 0x4000000 ∧ 0x3FFFFF8 / 0x100000 ∉ [4, 6, 7, 9, 10, 11, 12, 19, 20, 21]) ∧
    (let s : State := { ctl := { pwrgood := true }, host := { linkUp := true } }
     s.ctl.pwrgood = true ∧ s.ctl.released = false ∧ s.host.linkUp = true ∧ s.regOpen = false) ∧
    (0x200004 < 0x4000000 ∧ ¬ ((2 = 4 ∨ 2 = 8) ∧ 0x200004 % 2 = 0)) ∧
    (1 < 2 ∧ 0x10000000 % 2 ^ 28 = 0 ∧ 0xC000000000 % 2 ^ 28 = 0 ∧ 0x10000000 + 0xC000000000 ≤ 2 ^ 64) := by decide +kernel
/-- PART_SET for partition 15 with no resources. -/
def partSetBody : Bytes := 1 :: 15 :: 0 :: 0 :: natLe 4 4096 ++ zeros 632
/-- A device none of whose tiles belongs to a partition has no tile conflict. -/
theorem tileTaken_up (o : Nat) (b p : Bytes) : (withMbox up o b).tileTaken p = none := by
  unfold State.tileTaken
  rw [List.find?_eq_none]
  intro t _
  have h : ((withMbox up o b).tile t).partition = none := rfl
  simp [h]
theorem partConflict_none (s : State) (b : Bytes) (h1 : s.claspTaken b = none) (h2 : s.engineTaken b = none) (h3 : s.tileTaken b = none)
    (h4 : s.roleTaken b = none) : s.partConflict b = none := by
  simp only [State.partConflict, h1, h2, h3, h4, Option.map_none]
/-- For PartitionCommands. -/
theorem witness_partition_commands :
    ((withMbox up 0x31 (natLe 8 0x010F)).mboxRuns 0x31 (natLe 8 0x010F) ∧ byteAt (natLe 8 0x010F) 0 < 16 ∧ byteAt (natLe 8 0x010F) 1 < 2 ∧
      (∀ i, 2 ≤ i → i < 8 → byteAt (natLe 8 0x010F) i = 0)) ∧
    ((withMbox up 0x30 partSetBody).mboxRuns 0x30 partSetBody ∧ partSetBody.length = 640 ∧ byteAt partSetBody 0 = 1 ∧
      firstFail (partSetChecks partSetBody) = none ∧ (up.part (byteAt partSetBody 1)).enabled = false ∧
      (∀ x, x ∈ up.work.flights → x.part ≠ byteAt partSetBody 1) ∧ (withMbox up 0x30 partSetBody).partConflict partSetBody = none) := by
  refine ⟨⟨mboxRuns_withMbox _ _ _ rfl (by decide), by decide⟩, mboxRuns_withMbox _ _ _ rfl (by decide), by decide +kernel,
    by decide +kernel, by decide +kernel, by decide +kernel, by decide +kernel, ?_⟩
  exact partConflict_none _ _ (by decide +kernel) (by decide +kernel) (tileTaken_up _ _ _) (by decide +kernel)

/-! ### Witnesses: descriptors -/

/-- A NOP, a CLASP_SET of clasp 5, a KV_SETTLE and a SLOT_CLOSE of slot 0. -/
def nopDesc : Bytes := descOf 8 1 64 []
def claspSetDesc : Bytes := descOf 8 2 64 [(32, 4, 5), (40, 8, 9)]
def kvSettleDesc : Bytes := descOf 2 9 64 [(36, 4, 3)]
def closeDesc : Bytes := descOf 2 7 64 []
/-- For ControlDescriptorsEnd, ClaspSetsAndSignals, SlotCloseClosesTheSlot, KvSettleMovesThePencil. -/
theorem witness_control_descriptors :
    (ready up nopDesc).controlReady 7 0x80001 = some (flightOf 7 nopDesc .eligible) ∧
    (ready up claspSetDesc).controlReady 7 0x80002 = some (flightOf 7 claspSetDesc .eligible) ∧
    ((ready up closeDesc).controlReady 7 0x20007 = some (flightOf 7 closeDesc .eligible) ∧
      (ready up closeDesc).closeDue (flightOf 7 closeDesc .eligible) = true) ∧
    ((ready (up.updSlot 0 (fun y => { y with pencil := 3 })) kvSettleDesc).controlReady 7 0x20009 = some (flightOf 7 kvSettleDesc .eligible) ∧
      fieldLe kvSettleDesc 36 4 ≤ ((up.updSlot 0 (fun y => { y with pencil := 3 })).slot (dSlot kvSettleDesc)).pencil) ∧
    ((ready up kvSettleDesc).controlReady 7 0x20009 = some (flightOf 7 kvSettleDesc .eligible) ∧
      (up.slot (dSlot kvSettleDesc)).pencil < fieldLe kvSettleDesc 36 4) ∧
    ((2 ^ 64 - 1 < 2 ^ 64) ∧ (∀ g, g ∈ [(⟨3, 1, false⟩ : Signal)] → g.clasp ≠ 2)) := by decide +kernel
/-- FILL of 4096 bytes at 8192 of the Casket. -/
def fillDesc : Bytes := descOf 1 2 64 [(32, 1, 1), (40, 8, 4096), (48, 8, 8192), (56, 8, 0x0123456789ABCDEF)]
/-- COPY of one row of 64 bytes from 0 to the last line of the Casket. -/
def copyDesc : Bytes := descOf 1 1 128 [(32, 1, 1), (33, 1, 1), (36, 4, 1), (40, 4, 64), (48, 8, 0), (56, 8, 0x11FFFFC0), (64, 8, 64), (72, 8, 64)]
/-- CRCGEN (3) or CRCVERIFY (4) of the first two blocks. -/
def crcDesc (op : Nat) : Bytes := descOf 1 op 64 [(32, 1, 1), (40, 8, 8192)]
/-- For FillAndCopyWriteTheCasket: FILL and COPY. -/
theorem witness_movers :
    ((busy up fillDesc).working 7 0 0x10002 = some (busyFlight fillDesc) ∧ linSpace fillDesc = 1 ∧ bit (byteAt fillDesc 33) 1 = false ∧
      (linPieces fillDesc)[((busyFlight fillDesc).strand 0).piece]? = some (8192, 4096)) ∧
    ((busy up copyDesc).working 7 0 0x10001 = some (busyFlight copyDesc) ∧ copySrcSpace copyDesc = 1 ∧ copyDstSpace copyDesc = 1 ∧
      copySrcCheck copyDesc = false ∧ copyDstGen copyDesc = false ∧ dSpeculative copyDesc = false ∧
      (copyPieces copyDesc)[((busyFlight copyDesc).strand 0).piece]? = some [(0, 0x11FFFFC0, 64)] ∧
      (busy up copyDesc).copyOverlaps 0 copyDesc = false ∧ (busy up copyDesc).casket.errs = []) := by decide +kernel
/-- A device whose first Casket block has its checksum. -/
def crcState : State := { busy up (crcDesc 4) with casket := { side := [(0, some (crc64 (plain (up.readCasket 0 4096))))] } }
/-- For ChecksumMovers. -/
theorem witness_checksums :
    ((busy up (crcDesc 3)).working 7 0 0x10003 = some (busyFlight (crcDesc 3)) ∧ linSpace (crcDesc 3) = 1 ∧
      (linPieces (crcDesc 3))[((busyFlight (crcDesc 3)).strand 0).piece]? = some (0, 4096) ∧ (busy up (crcDesc 3)).casket.errs = []) ∧
    (∀ b, b ∈ (busy up (crcDesc 3)).readCasket 0 4096 → b.2 = false) ∧
    (crcState.working 7 0 0x10004 = some (busyFlight (crcDesc 4)) ∧ linSpace (crcDesc 4) = 1 ∧
      (linPieces (crcDesc 4))[((busyFlight (crcDesc 4)).strand 0).piece]? = some (0, 4096) ∧ crcState.casket.errs = []) ∧
    (∀ b, b ∈ crcState.readCasket 0 4096 → b.2 = false) ∧
    SMap.get none crcState.casket.side (0 / 4096) = some (crc64 (plain (crcState.readCasket 0 4096))) ∧
    ((busy up (crcDesc 4)).working 7 0 0x10004 = some (busyFlight (crcDesc 4)) ∧
      SMap.get none (busy up (crcDesc 4)).casket.side (0 / 4096) ≠ some (crc64 (plain ((busy up (crcDesc 4)).readCasket 0 4096)))) :=
  ⟨by decide +kernel, readCasket_clean _ _ _ rfl rfl, ⟨by decide +kernel, by decide +kernel, by decide +kernel, rfl⟩,
    readCasket_clean _ _ _ rfl rfl, rfl, by decide +kernel, by simp [busy, withFlight, up, SMap.get]⟩
/-- A GEMM of one FP32 element: A, B and D in the Casket. -/
def gemmDesc : Bytes := descOf 2 1 128 [(34, 1, 0xFF), (40, 4, 1), (44, 4, 1), (48, 4, 1), (56, 8, nearCasket), (64, 8, nearCasket + 64),
  (80, 8, nearCasket + 128), (88, 4, 16), (92, 4, 16), (100, 4, 16)]
/-- A REDUCE of two FP32 vectors of one element, a SFU of one element, a SCAN of one query over one row of 32, and one of 33 queries over 129 rows of 32. -/
def reduceDesc : Bytes := descOf 2 4 128 [(36, 1, 2), (40, 8, 1), (48, 8, nearCasket + 128), (56, 8, nearCasket), (64, 8, nearCasket + 64)]
def sfuDesc : Bytes := descOf 2 5 128 [(40, 4, 1), (44, 4, 1), (56, 8, nearCasket), (64, 8, nearCasket + 64), (80, 4, 16), (84, 4, 16)]
def scanDesc : Bytes := descOf 2 3 128 [(37, 1, 1), (38, 2, 1), (40, 4, 32), (56, 8, 1), (64, 8, nearCasket), (72, 8, nearCasket + 128),
  (112, 8, nearCasket + 256), (120, 4, 128)]
def scanLong : Bytes := descOf 2 3 128 [(32, 1, 3), (33, 1, 3), (37, 1, 1), (38, 2, 33), (40, 4, 32), (56, 8, 129), (64, 8, nearCasket)
  , (72, 8, nearCasket + 2048), (112, 8, nearCasket + 0x10000), (120, 4, 32)]
/-- For SailDescriptorsWriteTheirResults: GEMM and REDUCE. -/
theorem witness_gemm_reduce :
    ((busy up gemmDesc).working 7 0 0x20001 = some (busyFlight gemmDesc) ∧
      (busy up gemmDesc).opndsOverlap 0 [gemmD gemmDesc] (gemmApart gemmDesc) = false ∧
      ∃ s1, (busy up gemmDesc).fetch (busyFlight gemmDesc) 0 (gemmTileIns gemmDesc 0) [gemmTileD gemmDesc 0]
          ((List.range 0).map (gemmTileD gemmDesc)) [] = .go s1 ∧ s1.opndPlaces 0 (gemmTileD gemmDesc 0) = some [(.casket 128, 4)]) ∧
    ((busy up reduceDesc).working 7 0 0x20004 = some (busyFlight reduceDesc) ∧
      (busy up reduceDesc).opndsOverlap 0 [reduceOut reduceDesc] (reduceApart reduceDesc) = false ∧
      ∃ s1, (busy up reduceDesc).fetch (busyFlight reduceDesc) 0 (reduceTileIns reduceDesc 0) [reduceTileOut reduceDesc 0]
          ((List.range 0).map (reduceTileOut reduceDesc)) [] = .go s1 ∧
        s1.opndPlaces 0 (reduceTileOut reduceDesc 0) = some [(.casket 128, 4)]) :=
  ⟨⟨by decide +kernel, by decide +kernel, ⟨_, fetch_casket _ _ _ _ _ [[(.casket 0, 4)], [(.casket 64, 4)]] [[(.casket 128, 4)]] rfl rfl (by decide +kernel) (by decide +kernel) (by decide +kernel) rfl rfl, by decide +kernel⟩⟩,
    by decide +kernel, by decide +kernel, ⟨_, fetch_casket _ _ _ _ _ [[(.casket 0, 4)], [(.casket 64, 4)]] [[(.casket 128, 4)]] rfl rfl (by decide +kernel) (by decide +kernel) (by decide +kernel) rfl rfl, by decide +kernel⟩⟩
/-- For SailDescriptorsWriteTheirResults: SFU and SCAN. -/
theorem witness_sfu_scan :
    ((busy up sfuDesc).working 7 0 0x20005 = some (busyFlight sfuDesc) ∧ fOut sfuDesc ≤ 4 ∧ sfuParts sfuDesc 0 = [(0, 0, 1)] ∧
      (busy up sfuDesc).opndsOverlap 0 (sfuOuts sfuDesc) (sfuApart sfuDesc) = false ∧
      ∃ s1, (busy up sfuDesc).fetch (busyFlight sfuDesc) 0 (sfuTileIns sfuDesc 0) (sfuTileOuts sfuDesc 0)
          (((List.range 0).map (sfuTileOuts sfuDesc)).flatten) [] = .go s1 ∧
        s1.opndPlaces 0 (sfuPartY sfuDesc (0, 0, 1)) = some [(.casket 64, 4)]) ∧
    ((busy up scanDesc).working 7 0 0x20003 = some (busyFlight scanDesc) ∧ sMetric scanDesc = 0 ∧ bit (sFlags scanDesc) 0 = false ∧
      isMx (sQFmt scanDesc) = false ∧ isMx (sTFmt scanDesc) = false ∧ 0 + 1 = scanPieces scanDesc ∧
      (busy up scanDesc).opndsOverlap 0 [scanOut scanDesc] (scanIns scanDesc) = false ∧
      ∃ s1, (busy up scanDesc).fetch (busyFlight scanDesc) 0 (scanTileIns scanDesc 0) [scanOut scanDesc] [] [] = .go s1 ∧
        s1.opndPlaces 0 (scanOut scanDesc) = some [(.casket 256, 16)]) ∧
    ((busy up scanLong).working 7 0 0x20003 = some (busyFlight scanLong) ∧ 0 + 1 < scanPieces scanLong ∧
      ∃ s1, (busy up scanLong).fetch (busyFlight scanLong) 0 (scanTileIns scanLong 0) [] [] [] = .go s1) :=
  ⟨⟨by decide +kernel, by decide +kernel, by decide +kernel, by decide +kernel, ⟨_, fetch_casket _ _ _ _ _ [[(.casket 0, 4)]] [[(.casket 64, 4)]] rfl rfl (by decide +kernel) (by decide +kernel) (by decide +kernel) rfl rfl, by decide +kernel⟩⟩,
    ⟨by decide +kernel, by decide +kernel, by decide +kernel, by decide +kernel, by decide +kernel, by decide +kernel, by decide +kernel,
      ⟨_, fetch_casket _ _ _ _ _ [[(.casket 0, 128)], [(.casket 128, 128)]] [[(.casket 256, 16)]] rfl rfl (by decide +kernel) (by decide +kernel) (by decide +kernel) rfl rfl, by decide +kernel⟩⟩,
    by decide +kernel, by decide +kernel,
    _, fetch_casket _ _ _ _ _ [[(.casket 0, 1056)], [(.casket 2048, 4096)]] [] rfl rfl (by decide +kernel) (by decide +kernel) (by decide +kernel)
      rfl rfl⟩

/-- A slot record of partition 0: MXFP8, one layer, one head of 64, one group, 64 tokens a page, at most 192 tokens. -/
def slotRecord : Bytes := bytesOf 256 ([(0, 1, 1), (1, 1, 8), (2, 1, 1), (3, 1, 1), (4, 2, 1), (6, 2, 1), (8, 2, 64), (16, 4, 192)] ++
  (List.range 31).map (fun j => (65 + j, 1, 0xFF)))
/-- A device whose slot 1023 is open with that record. -/
def slotOpenState : State := up.updSlot 1023 (fun y => { y with state := 1, record := slotRecord })
def kvwDesc : Bytes := descOf 2 8 128 [(6, 2, 2), (32, 2, 1023), (36, 2, 1), (48, 8, nearCasket), (56, 8, nearCasket + 256), (64, 4, 256), (68, 4, 256)]
/-- An ATTEND with partial records as its output. -/
def attDesc : Bytes := descOf 2 2 256 [(32, 2, 1023), (38, 2, 1), (42, 1, 1), (43, 1, 1), (72, 8, nearCasket), (80, 8, nearCasket + 512),
  (104, 4, 256)]
/-- For CacheResultsAreHeld: KV_WRITE, and ATTEND before any token has been written. -/
theorem witness_cache :
    ((busy slotOpenState kvwDesc).working 7 0 0x20008 = some (busyFlight kvwDesc) ∧
      ((busy slotOpenState kvwDesc).slot (dSlot kvwDesc)).record = slotRecord ∧
      smoothPlaces slotRecord (kLayer kvwDesc) 0 (recH slotRecord) = [] ∧
      ∃ s1, (busy slotOpenState kvwDesc).fetch (busyFlight kvwDesc) 0 [kvSrc kvwDesc slotRecord false, kvSrc kvwDesc slotRecord true]
          [] [] [] = .go s1 ∧ (busy slotOpenState kvwDesc).metaBad s1 (busyFlight kvwDesc) 0 [] = none) ∧
    ((busy slotOpenState attDesc).working 7 0 0x20002 = some (busyFlight attDesc) ∧
      attCarry attDesc slotRecord false = [] ∧ attPages attDesc slotRecord (attHorizon (busyFlight attDesc)) 0 = [] ∧
      smoothPlaces slotRecord (aLayer attDesc) (aHead attDesc) (aHeads attDesc) = [] ∧
      ∃ s1, (busy slotOpenState attDesc).fetch (busyFlight attDesc) 0 [attQ attDesc slotRecord]
          (attOut attDesc slotRecord ++ attCarry attDesc slotRecord true) [] [] = .go s1 ∧
        (busy slotOpenState attDesc).metaBad s1 (busyFlight attDesc) 0 [] = none) :=
  ⟨⟨by decide +kernel, by decide +kernel, by decide +kernel, _, fetch_casket _ _ _ _ _ [[(.casket 0, 256)], [(.casket 256, 256)]] []
      rfl rfl (by decide +kernel) (by decide +kernel) (by decide +kernel) rfl rfl, rfl⟩, by decide +kernel, by decide +kernel,
    by decide +kernel, by decide +kernel, _, fetch_casket _ _ _ _ _ [[(.casket 0, 256)]] [[(.casket 512, 320)]]
      rfl rfl (by decide +kernel) (by decide +kernel) (by decide +kernel) rfl rfl, rfl⟩
/-- The slot with a directory of three pages of 64 tokens, its group being mapped out; the second page holds one token. -/
def pagedState : State :=
  let s := slotOpenState.updSlot 1023 (fun y => { y with len := 192, moved := [0] })
  let s : State := { s with sail := { s.sail with kvrLimit := [(0, 2 ^ 38)] } }
  let s := (s.writeDev 0 (clean (natLe 8 0x200001 ++ natLe 8 0x204001 ++ natLe 8 0x208001)) 0).writeDev 0x204000 (clean (pageHeader 1023 0 0 1 1)) 0
  { s with mem := { s.mem with filling := [] } }
/-- An ATTEND at position 191, which has worked its first page. -/
def pagedDesc : Bytes := descOf 2 2 256 [(32, 2, 1023), (38, 2, 1), (42, 1, 1), (43, 1, 1), (48, 4, 191), (72, 8, nearCasket)
  , (80, 8, nearCasket + 512), (104, 4, 256)]
def pagedFlight : Flight :=
  { flightOf 7 pagedDesc .eligible with strands := [{ state := .running 0, pinned := true, piece := 1 }], snapL := 192 }
def pagedView : PageView := ⟨1, 0x204000, 1, 0, true⟩
/-- The operands can be fetched, into a state of which `p` holds. -/
def Fetch.onGo (p : State → Bool) (r : Fetch) : Bool :=
  match r with
  | .go s => p s
  | _ => false
theorem goCheck {r : Fetch} (p : State → Bool) (h : Fetch.onGo p r = true) : ∃ s1, r = .go s1 ∧ p s1 = true := by
  cases r with
  | go s1 => exact ⟨s1, rfl, h⟩
  | wait => cases h
  | stop => cases h
/-- For CacheResultsAreHeld: a page that a part sees. -/
theorem witness_page :
    (withFlight pagedState pagedFlight).working 7 0 0x20002 = some pagedFlight ∧ ((withFlight pagedState pagedFlight).slot 1023).record = slotRecord ∧
    (attPages pagedDesc slotRecord (attHorizon pagedFlight) 0)[1]? = some 1 ∧ 1 + 1 < (attPages pagedDesc slotRecord (attHorizon pagedFlight) 0).length ∧
    (withFlight pagedState pagedFlight).pageView 1023 pagedDesc 0 1 = pagedView ∧
    ∃ s1, (withFlight pagedState pagedFlight).fetch pagedFlight 0 [] [] [] (pagedView.places pagedDesc slotRecord (attHorizon pagedFlight)) = .go s1 ∧
      ((withFlight pagedState pagedFlight).metaBad s1 pagedFlight 0
        (pagedView.places pagedDesc slotRecord (attHorizon pagedFlight))).isNone = true :=
  ⟨by decide +kernel, by decide +kernel, by decide +kernel, by decide +kernel, by decide +kernel, goCheck _ (by decide +kernel)⟩
def openDesc : Bytes := descOf 2 6 64 [(32, 2, 1023), (40, 8, 0xBFFFFFFF00)]
/-- The accesses of a piece have been issued, and its bytes carry no poison. -/
def Access.clean (ps : List (Place × Nat)) (r : Access) : Bool :=
  match r with
  | .go s => !poisoned (s.readLinesOf ps)
  | _ => false
theorem access_clean {r : Access} {ps : List (Place × Nat)} (h : Access.clean ps r = true) :
    ∃ s1, r = .go s1 ∧ poisoned (s1.readLinesOf ps) = false := by
  cases r with
  | go s1 => exact ⟨s1, rfl, by simpa [Access.clean] using h⟩
  | wait => cases h
/-- For SlotOpenReadsTheRecord. -/
theorem witness_slot_open :
    openAddr openDesc = 0xBFFFFFFF00 ∧ (ready up openDesc).controlReady 7 0x20006 = some (flightOf 7 openDesc .eligible) ∧
    ∃ s0, (ready up openDesc).access (flightOf 7 openDesc .eligible) 0 [(.dev 0xBFFFFFFF00, 256)] [] = .go s0 ∧
      poisoned (s0.readLinesOf [(.dev 0xBFFFFFFF00, 256)]) = false :=
  ⟨by decide +kernel, by decide +kernel, access_clean (by decide +kernel)⟩
/-- The slot's record at address 0 of the device memory, and partition 0 with engine 0. -/
def recordState : State := { (up.updPart 0 (fun y => { y with engines := 1 })) with
  mem := { up.mem with bytes := SMap.setList 0 [] 0 slotRecord, flipped := [(0, true)] } }
def openGood : Bytes := descOf 2 6 64 [(32, 2, 1023)]
/-- The accesses of a piece have been issued, and its bytes carry no poison and are these. -/
def Access.reads (ps : List (Place × Nat)) (bs : Bytes) (r : Access) (p : State → Bool) : Bool :=
  match r with
  | .go s => !poisoned (s.readLinesOf ps) && plain (s.readLinesOf ps) == bs && p s
  | _ => false
/-- For SlotOpenReadsTheRecord: a record that passes; and for CacheResultsAreHeld: a KV_WRITE that commits. -/
theorem witness_slot_opens :
    ((ready recordState openGood).controlReady 7 0x20006 = some (flightOf 7 openGood .eligible) ∧
      ((ready recordState openGood).slot (dSlot openGood)).state = 0 ∧
      Access.reads [(.dev 0, 256)] slotRecord
        ((ready recordState openGood).access (flightOf 7 openGood .eligible) 0 [(.dev (openAddr openGood), 256)] [])
        (fun s0 => s0.openChecks 0 (dSlot openGood) slotRecord == (0, 0)) = true) ∧
    (let s := pagedState.updSlot 1023 (fun y => { y with len := 0 })
     let sl := s.slot (dSlot kvwDesc)
     sl.len ≤ kPos kvwDesc ∧ kPos kvwDesc + kN kvwDesc - sl.len ≤ 4095 ∧ kPos kvwDesc % recT sl.record = 0 ∧
       s.pageEntry sl.record (kLayer kvwDesc) (kPos kvwDesc / recT sl.record) = some 0x200000 ∧
       s.placed sl (partOf sl.record (kPos kvwDesc / recT sl.record) (kLayer kvwDesc)) 0x200000 = true) := by
  decide +kernel

/-! ### Witnesses: the tick, slices, speculation -/

/-- For TickPhasesFollow, PhasesKeepTheirTurn. -/
theorem witness_tick_phases :
    (let s : State := { up with tick := { phase := 2 } }
     s.ctl.released = true ∧ s.tick.phase = 2 ∧ s.firstEdge s.tickEnd 20000 = true ∧ s.firstEdge s.tickEnd 19999 = false ∧
       s.firstEdge s.tickEnd 20010 = false) ∧
    (up.ctl.released = true ∧ up.tick.phase = 0 ∧ up.firstEdge up.runStart 1009 = true ∧ up.firstEdge up.runStart 999 = false) ∧
    (let s : State := { up with tick := { phase := 1 } }
     s.ctl.released = true ∧ s.tick.phase = 1 ∧ s.firstEdge s.settleStart 19000 = true ∧ s.firstEdge s.settleStart 19010 = false ∧
       s.ctl.warm = none ∧ s.ctl.warmDue = none) ∧
    (let x := flightOf 7 fillDesc .queued
     (withFlight up x).flight 7 = some x ∧ x.consumer = none ∧ dClass x.desc = 1 ∧ dSpeculative x.desc = false ∧ dThreshold x.desc = 0) := by
  decide +kernel
/-- For PiecesStart: a FILL of the Casket, and one of host pages that nothing has translated. -/
def farDesc : Bytes := descOf 1 2 64 [(40, 8, 4096), (48, 8, 8192)]
theorem witness_piece_start :
    (let s : State := { ready up fillDesc with tick := { phase := 1 }, casket := { own := [(0, ⟨0x100000000, 0x100000000⟩)] } }
     let x := flightOf 7 fillDesc .eligible
     let y : Strand := { state := .eligible }
     s.flight 7 = some x ∧ x.state = .eligible ∧ x.worked = false ∧ x.strands = [y] ∧ y.pinned = false ∧ y.worked = false ∧
     (SMap.get none s.care.resets x.part : Option PartReset) = none ∧ dClass x.desc = 1 ∧ s.stagingDone x = true ∧ s.tick.phase = 1 ∧
     s.dealtUnit x = some 0 ∧ (needsOf (s.pieceRanges x y.piece)).all (s.pageReady (x.tlb 0) (s.part x.part).pasid) = true ∧
     s.tooManyPins x.part (countedPins (s.pieceRanges x y.piece)) = false ∧
     s.pieceStatus x (s.pieceRanges x y.piece) (y.piece == 0) = 0) ∧
    (let s : State := { ready up farDesc with tick := { phase := 1 } }
     let x := flightOf 7 farDesc .eligible
     s.flight 7 = some x ∧ s.stagingDone x = true ∧ s.dealtUnit x = some 0 ∧
     (needsOf (s.pieceRanges x 0)).all (s.pageReady (x.tlb 0) (s.part x.part).pasid) = false) := by decide +kernel
/-- For SlicesEnd. -/
theorem witness_slices :
    (let y : Strand := { state := .running 0, pinned := true, worked := true }
     let x := { busyFlight fillDesc with worked := true, strands := [y] }
     let s : State := { withFlight up x with tick := { phase := 1 } }
     s.flight 7 = some x ∧ y.state = .running 0 ∧ dClass x.desc = 1 ∧ x.consumer = none ∧ x.worked = true ∧ y.worked = true ∧
      (∀ q, q < 6 → (s.site q).writing = []) ∧ 18999 ≤ s.sliceDeadline x 0 ∧ 18999 < s.phaseEnd ∧
      max s.tick.time 18999 < s.tickAt 0 + 19 * s.period / 20) ∧
    (let s : State := { busy up fillDesc with tick := { count := 1, phase := 1 } }
     s.flight 7 = some (busyFlight fillDesc) ∧ dSpeculative fillDesc = false ∧ s.sliceDeadline (busyFlight fillDesc) 0 ≤ 22000 ∧
      22000 < s.phaseEnd ∧ (s.sched 0).run = none) := by decide +kernel
/-- A speculative descriptor that waits for clasp 5, unconfirmed, whose work ended in tick 0; it is tick 3. -/
def specFlight (cls op : Nat) (st : FState) : Flight :=
  { flightOf 7 (descOf cls op 256 [(6, 2, 1), (8, 4, 5), (16, 8, 1)]) st with confirmed := false }
def specState (cls op : Nat) (st : FState) : State := { withFlight up (specFlight cls op st) with tick := { count := 3 } }
/-- For UnconfirmedSpeculationIsDiscarded. -/
theorem witness_speculation :
    ((specState 2 2 .ended).unconfirmed 7 = some (specFlight 2 2 .ended) ∧ dKey (specFlight 2 2 .ended).desc = 0x20002 ∧
      (specState 2 2 .ended).confirmDue (specFlight 2 2 .ended) = true) ∧
    ((specState 1 1 .ended).unconfirmed 7 = some (specFlight 1 1 .ended) ∧ dKey (specFlight 1 1 .ended).desc = 0x10001 ∧
      (specState 1 1 .ended).confirmDue (specFlight 1 1 .ended) = true) ∧
    (let s : State := { specState 2 2 .eligible with xlat := { faults := [⟨0, 0, [⟨.piece 7 0, true, false, 0, 0, true⟩], none, true, false⟩] } }
     s.unconfirmed 7 = some (specFlight 2 2 .eligible) ∧ s.faultDue (specFlight 2 2 .eligible) = true) := by decide +kernel

/-! ### Witnesses: start-up, resets, the safe state, debug -/

/-- For SafeStateEntries, PassingChecksChangeNothingElse. -/
theorem witness_keel_checks :
    (up.ctl.pwrgood = true ∧ up.keel.safe = false ∧ up.keel.newCause = false) ∧
    (((-5000 : Int).natAbs ≤ 5000 ∨ (1 : Int).natAbs ≤ 5000) ∧ 5000 < ((-5000 : Int) - 1).natAbs) ∧
    (1 ≤ 1 ∧ (759 < 760 ∨ 840 < 759)) ∧
    (let s : State := { up with keel := { copy := ⟨[767], [], []⟩ } }; s.keel.copy ≠ s.sealMap) ∧ (up.keel.copy = up.sealMap) ∧
    (3 < 4) ∧ (true ≠ up.therm.fault) ∧ (760 ≤ 840 ∧ 840 ≤ 840) := by decide +kernel
def passing : Transfer := ⟨.tether 8, true, 767, 15, false, false, true, none, none⟩
/-- For EgressGate. -/
theorem witness_egress :
    (transferPasses passing up.sealMap = true ∧ transferPasses passing up.keel.copy = true ∧ passing.slab < 768 ∧ passing.part < 16) ∧
    (let s : State := { up with keel := { safe := true } }; s.keel.safe = true ∧ passing.record = false) ∧
    (let s : State := { up with locket := { regions := [(63, ⟨1, 15, 0, [767], false⟩)] }, keel := { copy := ⟨[767], [15], []⟩ } }
     transferPasses passing s.sealMap = false ∧ transferPasses passing s.keel.copy = false) := by decide +kernel
def bootInput : BootInput := ⟨false, true, true, [0, 1, 2, 3, 0, 0], true, none, List.replicate 8 ⟨true, [], [], [], [], [], [], []⟩, [], [],
  [], [], [], [], true⟩
/-- For ResetsComeAndGo. -/
theorem witness_resets :
    ((withMbox up 0x40 []).mboxRuns 0x40 [] ∧ (withMbox up 0x40 []).ctl.released = true ∧ (withMbox up 0x40 []).ctl.warmDue = none ∧
      (withMbox up 0x40 []).ctl.warm = none) ∧
    (let s : State := { up with ctl := { up.ctl with warmDue := some 2 } }; s.ctl.warmDue = some 2) ∧
    (let s : State := { up with ctl := { up.ctl with warm := some 4 } }; s.ctl.warm = some 4) ∧
    (State.reset.ctl.pwrgood = false ∧ bootInput.straps.length = 6 ∧ (∀ x, x ∈ bootInput.straps → x < 4) ∧ bootInput.hbm.length = 8) ∧
    (let s : State := { up with ctl := { up.ctl with restartDue := true } }; s.ctl.restartDue = true) :=
  ⟨⟨mboxRuns_withMbox _ _ _ rfl (by decide), by decide⟩, by decide +kernel⟩
/-- For ReleaseBeginsTickZero, HostLinkEvents. -/
theorem witness_release_and_link :
    (let s : State := { ctl := { pwrgood := true, step := 8 } }
     s.ctl.pwrgood = true ∧ s.ctl.released = false ∧ s.ctl.halted = false ∧ s.keel.safe = false ∧ 8 ≤ s.ctl.step ∧ s.sitesPending = false) ∧
    (let s : State := { ctl := { pwrgood := true, perstN := true } }; s.ctl.pwrgood = true ∧ s.ctl.perstN = true ∧ s.ctl.released = false) ∧
    (up.ctl.perstN = true ∧ up.ctl.released = true ∧ up.ctl.warmDue = none ∧ up.ctl.warm = none ∧ up.host.linkUp = true) ∧
    (let s : State := { ctl := { pwrgood := true } }; s.ctl.pwrgood = true ∧ s.ctl.perstN = false) := by decide +kernel
def recovering : State := { up with ctl := { up.ctl with recovery := true } }
/-- For LevelAndReportCommands, RecoveryCommands. -/
theorem witness_level_report_recovery :
    ((withMbox up 0x10 (natLe 8 1)).mboxRuns 0x10 (natLe 8 1) ∧ (natLe 8 1).length = 8 ∧ byteAt (natLe 8 1) 0 = 1 ∧
      (∀ i, 1 ≤ i → i < 8 → byteAt (natLe 8 1) i = 0) ∧ up.ctl.level = 0) ∧
    ((withMbox up 0x20 (natLe 8 0x100000000)).mboxRuns 0x20 (natLe 8 0x100000000) ∧ fieldLe (natLe 8 0x100000000) 0 4 < up.report.length ∧
      1 ≤ fieldLe (natLe 8 0x100000000) 4 4 ∧ fieldLe (natLe 8 0x100000000) 4 4 ≤ 4096 ∧
      fieldLe (natLe 8 0x100000000) 0 4 + fieldLe (natLe 8 0x100000000) 4 4 ≤ up.report.length) ∧
    ((withMbox recovering 0xB00 (natLe 8 67108864)).mboxRuns 0xB00 (natLe 8 67108864) ∧ 8192 ≤ fieldLe (natLe 8 67108864) 0 4 ∧
      fieldLe (natLe 8 67108864) 0 4 ≤ 67108864 ∧ fieldLe (natLe 8 67108864) 0 4 % 16 = 0 ∧
      (∀ i, 4 ≤ i → i < 8 → byteAt (natLe 8 67108864) i = 0) ∧ recovering.ctl.recovery = true ∧ recovering.ctl.staging.state ≠ 2) ∧
    (let s : State := { recovering with ctl := { recovering.ctl with staging := ⟨1, 16, []⟩ } }
     (withMbox s 0xB01 (zeros 24)).mboxRuns 0xB01 (zeros 24) ∧ 24 ≤ (zeros 24).length ∧ (zeros 24).length % 16 = 8 ∧ s.ctl.staging.state = 1 ∧
      fieldLe (zeros 24) 0 4 = s.ctl.staging.bytes.length ∧ s.ctl.staging.bytes.length + ((zeros 24).length - 8) ≤ s.ctl.staging.length ∧
      (∀ i, 4 ≤ i → i < 8 → byteAt (zeros 24) i = 0)) ∧
    (let s : State := { recovering with ctl := { recovering.ctl with staging := ⟨1, 16, zeros 16⟩ } }
     (withMbox s 0xB02 []).mboxRuns 0xB02 [] ∧ s.ctl.staging.state = 1 ∧ s.ctl.staging.bytes.length = s.ctl.staging.length ∧
      imgCheck s.locket.lc s.locket.imageKeyHash s.ctl.staging.bytes = some (2, 0)) ∧
    ((withMbox recovering 0xB03 (natLe 8 1)).mboxRuns 0xB03 (natLe 8 1) ∧ (∀ p, p < 16 → (recovering.part p).enabled = false)) ∧
    (withMbox recovering 0xB04 []).mboxRuns 0xB04 [] := by
  refine ⟨⟨mboxRuns_withMbox _ _ _ rfl (by decide), by decide +kernel⟩, ⟨mboxRuns_withMbox _ _ _ rfl (by decide), by decide +kernel⟩,
    ⟨mboxRuns_withMbox _ _ _ rfl (by decide), by decide +kernel⟩, ⟨mboxRuns_withMbox _ _ _ rfl (by decide), by decide +kernel⟩,
    ⟨mboxRuns_withMbox _ _ _ rfl (by decide), by decide +kernel, by decide +kernel, rfl⟩, ⟨mboxRuns_withMbox _ _ _ rfl (by decide), by decide +kernel⟩,
    mboxRuns_withMbox _ _ _ rfl (by decide)⟩
/-- For DebugAndDiscovery. -/
theorem witness_debug :
    (let g : TrafficGen := { busy := true, stopping := true, mode := 1, raw := true, first := 3, last := 3 }
     let s : State := { up with mem := { tg := [(511, g), (0, { g with progress := 1 })] } }
     s.regOpen = true ∧ s.gen 511 = g ∧ g.busy = true ∧ g.stopping = true ∧ g.passes = 0 ∧ g.reads 0 = false ∧ g.beatAt (g.place 0) = 3 ∧
       3 ≤ lastBeat ∧ (s.gen 0).progress = 1 ∧ (s.gen 0).reads 1 = true ∧ (s.gen 0).mode ≠ 0 ∧ (s.gen 0).beatAt ((s.gen 0).place 1) = 3) ∧
    (bit ((0 : W64).toNat ||| 1) 1 = false ∧ up.genRefused 511 ((up.gen 511).control ((0 : W64).toNat ||| 1)) = false) ∧
    (up.claimDropped 4607 = false) ∧ (JtagInstr.idcode = .idcode) := by decide +kernel

/-! ### Witnesses: the stacks, their care and the host's accesses -/

/-- A device whose group 31 stands in this state. -/
def withGroup (g : Group) : State := { up with mem := { groups := [(31, g)] } }
/-- For StackUpkeep. -/
theorem witness_stack_upkeep :
    (33 < 34 ∧ 12582911 < 12582912 ∧ up.memoryRests = false) ∧ (511 < 512 ∧ 63 < 64 ∧ (up.group (511 / 16)).state ≠ 1) ∧ up.mem.wcb = [] ∧
    (15 < 16 ∧ (up.group 31).state = 0 ∧ ∀ l, l ∈ up.mem.wcb → l.setting / settingsPerGroup ≠ 31) := by decide +kernel
/-- For GroupStates. -/
theorem witness_group_states :
    (SMap.get 0 up.mem.failures 511 < 2) ∧
    (let s : State := { up with mem := { failures := [(511, 2)] } }
     2 ≤ SMap.get 0 s.mem.failures 511 ∧ (s.group (511 / 16)).state = 0 ∧ ∀ l, l ∈ s.mem.wcb → l.setting / settingsPerGroup ≠ 511 / 16) ∧
    (((withGroup { state := 1 }).group 31).state = 1 ∧ ∀ l, l ∈ (withGroup { state := 1 }).mem.wcb → l.setting / settingsPerGroup ≠ 31) ∧
    (let s := withGroup { state := 2, rejoining := true }
     (s.group 31).wide = true ∧ (s.group 31).state = 2 ∧ (s.group 31).rejoining = true ∧ s.memoryRests = false) ∧
    (let s := withGroup { wide := false, state := 2 }
     (s.group (511 / 16)).wide = false ∧ (s.group (511 / 16)).state = 2 ∧ (s.group (511 / 16)).deadDie ≠ some (511 % 16) ∧ s.memoryRests = false) ∧
    (let s := withGroup { wide := false }
     (s.group (511 / 16)).wide = false ∧ (s.group (511 / 16)).state = 0 ∧ (s.group (511 / 16)).deadDie ≠ some (511 % 16) ∧
      s.memoryRests = false ∧ s.canaryIntact 511 = true) := by decide +kernel
def zeroSetting : List Bytes := List.replicate 16 (zeros 72)
/-- Every granule is written, and the scrub of group 31 stands at the last setting but one, or at the last. -/
def scrubbing (st : Nat) : State := { up with mem := { filled := true }, care := { scrub := [(31, { pos := st })] } }
/-- A buffer line whose 1,024 bytes are all valid. -/
def fullLine : WcbLine := { setting := settingsPerGroup * 31, bytes := (List.range 1024).map (fun i => (i, some (7, false))), writer := 0, tick := 0 }
/-- For ScrubAndWriteback: the zero codeword is what the stack holds. -/
theorem witness_scrub : ∀ st, st = settingsPerGroup - 2 ∨ st = settingsPerGroup - 1 →
    31 < 32 ∧ st < settingsPerGroup ∧ zeroSetting.length = 16 ∧ (∀ b, b ∈ zeroSetting → b.length = 72) ∧
      ((scrubbing st).group 31).wide = true ∧ (scrubbing st).nextWritten 31 ((scrubbing st).scrub 31).pos = some st ∧
      (scrubbing st).scrubWaits 31 ((31 * settingsPerGroup + st) * 1024) = false := by
  rintro st (rfl | rfl) <;> decide +kernel
/-- Group 31's first setting, once the zero codeword has been read there. -/
def heldZero : State :=
  { scrubbing (settingsPerGroup - 2) with
    mem := (scrubbing (settingsPerGroup - 2)).mem.holdSetting true (31 * settingsPerGroup + (settingsPerGroup - 2)) zeroSetting }
theorem columnChecks_zero : columnChecks (List.replicate 16 0) = (0, 0) := by decide +kernel
theorem leNat_zeros (n : Nat) : leNat (List.replicate n 0) = 0 := by
  induction n with
  | zero => rfl
  | succ n ih => rw [List.replicate_succ, leNat, ih]; rfl
theorem byteAt_zeros (n i : Nat) : byteAt (List.replicate n 0) i = 0 := by
  simp only [byteAt, Machine.fieldLe, slice, List.drop_replicate, List.take_replicate, leNat_zeros]
theorem getList_empty (k n : Nat) : SMap.getList (0 : Byte) [] k n = List.replicate n 0 := by
  induction n generalizing k with
  | zero => rfl
  | succ n ih => rw [List.replicate_succ, ← ih (k + 1)]; rfl
theorem wideChecks_zero (b : Nat) : wideChecks (List.replicate 1024 0) b = 0 := by
  have h : ∀ c, (List.range 16).map (fun i => byteAt (List.replicate 1024 0) (64 * i + c)) = List.replicate 16 0 := by
    intro c
    simp only [byteAt_zeros]
    rfl
  simp only [wideChecks, h, columnChecks_zero]
  rfl
theorem zeroSetting_bytes :
    SMap.setList 0 ([] : SMap Byte) (1024 * (31 * settingsPerGroup + (settingsPerGroup - 2)))
      ((zeroSetting.map (fun (b : Bytes) => b.take 64)).flatten) = [] := by decide +kernel
theorem heldZero_sound : heldZero.mem.sound (31 * settingsPerGroup + (settingsPerGroup - 2)) = true := by
  have hd : ∀ k, Mem.dataChecks { filled := true, bytes := [] } true k = 0 := by
    intro k
    have : Mem.settingData { filled := true, bytes := [] } (k / 16) = List.replicate 1024 0 := getList_empty _ _
    simp only [Mem.dataChecks, this, wideChecks_zero, ite_true]
  have hm : heldZero.mem = (scrubbing 0).mem.holdSetting true (31 * settingsPerGroup + (settingsPerGroup - 2)) zeroSetting := rfl
  rw [hm]
  simp only [Mem.holdSetting, scrubbing, zeroSetting_bytes, hd]
  decide +kernel
theorem witness_scrub_clean : ∃ data, heldZero.readSetting (31 * settingsPerGroup + (settingsPerGroup - 2)) = .clean data :=
  ⟨_, if_pos heldZero_sound⟩
theorem witness_writeback :
    let s : State := { up with mem := { wcb := [fullLine] } }
    0 < settingsPerGroup ∧ s.mem.wcb.find? (fun x => x.setting == settingsPerGroup * 31 + 0) = some fullLine ∧
      s.mem.wcb.any (fun x => x.setting == settingsPerGroup * 31 + 0 && s.lineHeld x) = false ∧ fullLine.errs = [] ∧
      SMap.get none fullLine.bytes 1023 = some (7, false) := by decide +kernel
def hppr : Bytes := descOf 6 2 64 [(32, 1, 7), (33, 1, 63), (34, 1, 2)]
def sppr : Bytes := descOf 6 2 64 [(32, 1, 7), (33, 1, 63), (34, 1, 1)]
def mapOutDesc : Bytes := descOf 6 3 64 [(32, 1, 31)]
/-- Group 31 is being evacuated to these donors, from its slab `j` on. -/
def evacuating (j : Nat) : State :=
  { withFlight (withGroup { state := 4 }) (flightOf 7 mapOutDesc (.running 0)) with
    care := { evac := [(31, { current := some j, donors := [0, 1], flight := some 7 })] } }
/-- A REPAIR holds its granule, in a group in this state. -/
def repairing (d : Bytes) (g : Group) : State :=
  { withFlight (withGroup g) (flightOf 7 d (.running 0)) with care := { repairHold := [(repGranule d, 7)] } }
/-- For EvacuationMovesSlabs. -/
theorem witness_evacuation :
    (31 < 32 ∧ ((evacuating 0).evac 31).current = some 0 ∧ ((evacuating 0).group 31).state = 4 ∧ 0 + 1 < ((evacuating 0).evac 31).donors.length ∧
      (evacuating 0).mem.wcb = []) ∧
    (((evacuating 1).evac 31).current = some 1 ∧ ((evacuating 1).group 31).state = 4 ∧ ((evacuating 1).evac 31).donors.length ≤ 1 + 1 ∧
      (evacuating 1).mem.wcb = [] ∧ ((evacuating 1).evac 31).flight = some 7 ∧
      (evacuating 1).flight 7 = some (flightOf 7 mapOutDesc (.running 0))) := by decide +kernel
/-- For RepairAndMapOut. -/
theorem witness_repair :
    ((ready up hppr).controlReady 7 0x60002 = some (flightOf 7 hppr .eligible) ∧ (up.group (repGroup hppr)).state = 0 ∧ repKind hppr = 2) ∧
    ((ready up sppr).controlReady 7 0x60002 = some (flightOf 7 sppr .eligible) ∧ (up.group (repGroup sppr)).state = 0 ∧ repKind sppr = 1) ∧
    (let s := repairing sppr { state := 1 }
     s.flight 7 = some (flightOf 7 sppr (.running 0)) ∧ (repGranule sppr, 7) ∈ s.care.repairHold ∧ (s.group (repGroup sppr)).state = 1) ∧
    (let s := repairing hppr { state := 2 }
     s.flight 7 = some (flightOf 7 hppr (.running 0)) ∧ (repGranule hppr, 7) ∈ s.care.repairHold ∧ repKind hppr ≠ 1 ∧
      (s.group (repGroup hppr)).wide = true) ∧
    (let s : State := { ready up mapOutDesc with care := { donor := [(0, 0xFFFFFF)] } }
     s.controlReady 7 0x60003 = some (flightOf 7 mapOutDesc .eligible) ∧ (s.group (byteAt mapOutDesc 32)).state = 0 ∧
      24 ≤ (s.eligibleDonors (byteAt mapOutDesc 32)).length) ∧
    (let s : State := { ready up mapOutDesc with care := { donor := [(0, 0x7FFFFF)] } }
     s.controlReady 7 0x60003 = some (flightOf 7 mapOutDesc .eligible) ∧ (s.eligibleDonors (byteAt mapOutDesc 32)).length < 24) := by
  decide +kernel
/-- For CasketOwnershipAndScrub. -/
theorem witness_casket_care :
    (up.tick.phase = 0 ∧ up.work.flights = []) ∧ (575 < 576 ∧ 0x7FFFF < 0x80000 ∧ hammingDecode 1 = some (0, true)) := by decide +kernel
/-- A host that maps the whole striped view at 2^28. -/
def mapped : State := { up with host := { up.host with hdm0 := some (0x10000000, 0xC000000000) } }
def scatterDesc : Bytes := descOf 6 1 64 [(34, 1, 1), (36, 4, 1), (56, 8, 0)]
def scatterOne : Bytes := descOf 6 1 64 [(34, 1, 1), (36, 4, 1), (56, 8, 1)]
/-- The one page of a partition is the first page of the stacks, and a record of SCATTER_ADD has been fetched. -/
def scattering : State :=
  { mapped with
    work := { mapped.work with flights := [{ busyFlight scatterOne with strands := [{ state := .running 0, pinned := true, blob := zeros 16 }] }] }
    xlat := { l2 := [{ pasid := 0, va := 0, log2 := 12, addr := 0x10000000, read := true, write := true, epoch := 0, doomed := false
                       pins := [(7, 0)] }] } }
/-- For HostMemoryAccesses. -/
theorem witness_host_accesses :
    (0x10000000 % 64 = 0 ∧ 0x10000000 < 2 ^ 64 ∧ mapped.placeOfHpa 0xC00FFFFFC0 = .dev 0xBFFFFFFFC0 ∧ mapped.keel.safe = false ∧
      mapped.accessStop 0xBFFFFFFFC0 64 1 0xFF = none ∧ mapped.memoryRests = false ∧ mapped.readHeld 0xBFFFFFFFC0 64 = false ∧
      mapped.mayIssue 16 = true ∧ poisoned (mapped.readDev 0xBFFFFFFFC0 64) = false) ∧
    (let s : State := { mapped with sail := { kvrLimit := [(0, 0x200000)] } }
     s.placeOfHpa 0x10000000 = .dev 0 ∧ s.keel.safe = false ∧ ∃ s', s.accessStop 0 64 1 0xFF = some s') ∧
    ((zeros 64).length = 64 ∧ mapped.accessStop 0xBFFFFFFFC0 64 2 0xFF = none ∧ mapped.repairHeld 0xBFFFFFFFC0 64 = false ∧
      (∃ k, storageOf 0xBFFFFFFFC0 = some k ∧ mapped.movingTo k = none) ∧ 0xBFFFFFFFC0 % 64 = 0 ∧ mapped.mem.slabs = [] ∧
      mapped.mem.wcb = []) :=
  ⟨by decide +kernel, ⟨by decide +kernel, by decide +kernel, ⟨_, rfl⟩⟩, ⟨by decide +kernel, by decide +kernel, by decide +kernel,
    ⟨_, rfl, by decide +kernel⟩, by decide, rfl, rfl⟩⟩
/-- For ScatterAddRuns. -/
theorem witness_scatter :
    (let s := busy up scatterDesc
     s.working 7 0 0x60001 = some (busyFlight scatterDesc) ∧ bit (xFlags scatterDesc) 1 = false ∧
      s.endPlaces 0 (xFrom scatterDesc).1 (xRun scatterDesc (scatterTile scatterDesc 0).1 (scatterTile scatterDesc 0).2) true false =
        some [(.casket 0, 16)] ∧
      poisoned (s.readLinesOf [(.casket 0, 16)]) = false ∧
      (∀ r, r ∈ chunks 16 (scatterTile scatterDesc 0).2 (plain (s.readLinesOf [(.casket 0, 16)])) → xElems scatterDesc ≤ fieldLe r 0 8)) ∧
    (let s := scattering
     (s.working 7 0 0x60001).isSome ∧ xSize (xFmt scatterOne) = 4 ∧ s.placeOfVa (s.part 0).pasid 0 false true = some (.dev 0) ∧
      storageOf 0 = some 0 ∧ fieldLe (zeros 16) 0 8 < xElems scatterOne ∧ s.readHeld 0 4 = false ∧ s.mayIssue 0 = true ∧
      poisoned (s.readDev 0 4) = false ∧ s.mem.checks = [] ∧ s.mem.slabs = [] ∧ s.movingTo 0 = none ∧ s.mem.wcb = []) := by
  decide +kernel
theorem witness_scatter_access : (busy up scatterDesc).access (busyFlight scatterDesc) 0 [(.casket 0, 16)] [] = .go (busy up scatterDesc) := by
  rfl
/-- For ViewsAreOneToOne, CorrectableErrorBuckets. -/
theorem witness_views :
    (0xBFFFFFFFFF < 0xC000000000 ∧ 0x10000000000 ≤ 0x1BFFFFFFFFF ∧ 0x1BFFFFFFFFF < 0x1C000000000) ∧
    (32 * settingsPerGroup * 1024 - 1 < 32 * settingsPerGroup * 1024) := by decide +kernel

/-! ### Witnesses: the Locket and the life cycle -/

/-- A Locket descriptor of `n` bytes in chunks of 512, from 0 to 512 of the Casket, with its tags at virtual address 0. -/
def lockDesc (op n : Nat) : Bytes := descOf 5 op 128 [(32, 1, 1), (33, 1, 1), (35, 1, 9), (40, 8, n), (56, 8, 512)]
/-- SHAKE256 of a byte, to 256 bytes. -/
def shakeDesc : Bytes := descOf 5 5 128 [(32, 1, 1), (33, 1, 1), (34, 1, 1), (35, 1, 9), (38, 2, 256), (40, 8, 1), (56, 8, 512)]
/-- A FIELD device with a key of each algorithm in slot 0, and virtual page 0 of PASID 0 at device memory 0. -/
def lockState (d : Bytes) : State :=
  { busy up d with
    locket := { lc := 3, seed := some (zeros 32), drbgOk := true, keys := [(0, some ⟨1, 0, 0, 31, zeros 64⟩)] }
    host := { up.host with hdm0 := some (0x10000000, 0xC000000000) }
    xlat := { l2 := [⟨0, 0, 12, 0x10000000, true, true, 0, false, [], false⟩] } }
theorem chunkRuns_lock (d : Bytes) (op : Nat) (h : (lockState d).working 7 0 (0x50000 + op) = some (busyFlight d))
    (h2 : dOpcode d = op ∧ kSrcSpace d = 1 ∧ kDstSpace d = 1 ∧ 0 < kChunks d) : chunkRuns (lockState d) 7 op (busyFlight d) 0 :=
  ⟨h, h2.1, h2.2.1, h2.2.2.1, rfl, h2.2.2.2, rfl, rfl, readCasket_clean _ _ _ rfl rfl⟩
/-- For LocketChunksWithoutTags. -/
theorem witness_locket_chunks :
    (chunkRuns (lockState (lockDesc 3 512)) 7 3 (busyFlight (lockDesc 3 512)) 0 ∧
      (lockState (lockDesc 3 512)).keySlot (kSlot (lockDesc 3 512)) = some ⟨1, 0, 0, 31, zeros 64⟩) ∧
    chunkRuns (lockState (lockDesc 4 512)) 7 4 (busyFlight (lockDesc 4 512)) 0 ∧
    (chunkRuns (lockState (lockDesc 5 1)) 7 5 (busyFlight (lockDesc 5 1)) 0 ∧ kKind (lockDesc 5 1) = 0) ∧
    (chunkRuns (lockState shakeDesc) 7 5 (busyFlight shakeDesc) 0 ∧ kKind shakeDesc = 1) ∧
    chunkRuns (lockState (lockDesc 6 1)) 7 6 (busyFlight (lockDesc 6 1)) 0 := by
  refine ⟨⟨chunkRuns_lock _ _ ?_ ?_, ?_⟩, chunkRuns_lock _ _ ?_ ?_, ⟨chunkRuns_lock _ _ ?_ ?_, ?_⟩, ⟨chunkRuns_lock _ _ ?_ ?_, ?_⟩,
    chunkRuns_lock _ _ ?_ ?_⟩ <;> decide +kernel
/-- The places of the tag. -/
def tagPlaces : List (Place × Nat) := [(.dev 0, 16)]
/-- The tag of 16 zero bytes. -/
def zeroTag : Bytes := gcmTag (roundKeys (zeros 64)) (chunkIv (lockDesc 1 16) 0) (chunkAad (lockDesc 1 16) 0) (zeros 16)
/-- The same state with that tag in memory. -/
def tagged (op : Nat) : State :=
  { lockState (lockDesc op 16) with mem := { flipped := [(0, true)], bytes := SMap.setList 0 [] 0 zeroTag } }
theorem chunkRuns_tagged : chunkRuns (tagged 1) 7 1 (busyFlight (lockDesc 1 16)) 0 :=
  ⟨by decide +kernel, by decide +kernel, by decide +kernel, by decide +kernel, rfl, by decide +kernel, rfl, rfl, readCasket_clean _ _ _ rfl rfl⟩
/-- A piece goes on: the state in which it does is the one it stands in, but for the buckets. -/
def goes (a : Access) : Bool :=
  match a with
  | .go _ => true
  | .wait _ => false
/-- For GcmChunks. -/
theorem witness_gcm :
    ((tagged 1).endPlaces 0 0 (kTags (lockDesc 1 16) + 16 * 0, 16) true false = some tagPlaces ∧
      goes ((tagged 1).access (busyFlight (lockDesc 1 16)) 0 ((Place.casket 0, 16) :: tagPlaces) [(.casket 512, 16)]) = true ∧
      kFrom (lockDesc 1 16) + (chunkFrom (lockDesc 1 16) 0).1 = 0 ∧ (chunkFrom (lockDesc 1 16) 0).2 = 16 ∧
      kTo (lockDesc 1 16) + (chunkFrom (lockDesc 1 16) 0).1 = 512 ∧ kIndex (lockDesc 1 16) = 0 ∧
      plain ((tagged 1).readLinesOf tagPlaces) = zeroTag) ∧
    (let s := lockState (lockDesc 1 16)
     s.endPlaces 0 0 (kTags (lockDesc 1 16) + 16 * 0, 16) true false = some tagPlaces ∧
      goes (s.access (busyFlight (lockDesc 1 16)) 0 ((Place.casket 0, 16) :: tagPlaces) [(.casket 512, 16)]) = true ∧
      plain (s.readLinesOf tagPlaces) ≠ zeroTag) ∧
    (let s := lockState (lockDesc 2 512)
     s.endPlaces 0 0 (kTags (lockDesc 2 512) + 16 * 0, 16) false true = some tagPlaces ∧
      goes (s.access (busyFlight (lockDesc 2 512)) 0 [(Place.casket 0, 512)] [(.casket 512, 512), (.dev 0, 16)]) = true ∧
      storageOf 0 = some 0 ∧ s.mem.slabs = [] ∧ s.movingTo 0 = none ∧ s.mem.wcb = []) := by
  decide +kernel
theorem witness_gcm_runs : chunkRuns (lockState (lockDesc 1 16)) 7 1 (busyFlight (lockDesc 1 16)) 0 ∧
    chunkRuns (lockState (lockDesc 2 512)) 7 2 (busyFlight (lockDesc 2 512)) 0 := by
  refine ⟨chunkRuns_lock _ _ ?_ ?_, chunkRuns_lock _ _ ?_ ?_⟩ <;> decide +kernel
/-- A FIELD device. -/
def field : State :=
  { up with
    locket := { lc := 3, seed := some (zeros 32), drbgOk := true, nonce := some (zeros 32)
                keys := [(4094, some ⟨1, 15, 2 ^ 63, 31, zeros 32⟩)], negotiated := true, chain := [1, 2, 3]
                sessions := [⟨1, zeros 32, false, 0⟩, ⟨2, zeros 32, true, 0⟩] } }
/-- For KeyCommands. -/
theorem witness_keys :
    ((withMbox field 0x700 (zeros 1312)).mboxRuns 0x700 (zeros 1312) ∧ field.locket.lc = 3 ∧ (zeros 1312).length = 1312 ∧ field.locket.owner = none) ∧
    ((withMbox field 0x701 []).mboxRuns 0x701 [] ∧ field.locket.drbgOk = true) ∧
    ((withMbox field 0x702 (zeros 3652)).mboxRuns 0x702 (zeros 3652) ∧ (zeros 3652).length = 3652 ∧ field.importFail (zeros 3652) = some 0) ∧
    ((withMbox field 0x703 (natLe 8 4095)).mboxRuns 0x703 (natLe 8 4095) ∧ fieldLe (natLe 8 4095) 0 2 < 4096 ∧
      (∀ i, 2 ≤ i → i < 8 → byteAt (natLe 8 4095) i = 0)) ∧
    ((withMbox field 0x704 []).mboxRuns 0x704 [] ∧ ∃ dz, field.kemSeed = some dz) :=
  ⟨⟨mboxRuns_withMbox _ _ _ rfl (by decide), by decide +kernel⟩, ⟨mboxRuns_withMbox _ _ _ rfl (by decide), by decide +kernel⟩,
    ⟨mboxRuns_withMbox _ _ _ rfl (by decide), by decide +kernel, rfl⟩, ⟨mboxRuns_withMbox _ _ _ rfl (by decide), by decide +kernel⟩,
    mboxRuns_withMbox _ _ _ rfl (by decide), ⟨_, rfl⟩⟩
/-- Region 63, partition 15, key slot 4094, slab 767. -/
def sealPayload : Bytes := bytesOf 104 [(0, 1, 63), (1, 1, 15), (2, 2, 4094), (103, 1, 128)]
/-- For SealedRegions. -/
theorem witness_sealed_regions :
    ((withMbox field 0x705 sealPayload).mboxRuns 0x705 sealPayload ∧ sealPayload.length = 104 ∧ firstFail (field.sealChecks sealPayload) = none ∧
      field.locket.sealDue = [] ∧ (∀ i, i ∈ sealSlabs sealPayload → field.sealTaken i = false) ∧ (field.region (byteAt sealPayload 0)).state = 0) ∧
    (let q : SealReq := ⟨63, 15, 4094, [767]⟩
     let s : State := { field with locket := { field.locket with sealDue := [q] } }
     s.locket.sealDue = [q] ∧ q.region = 63 ∧ s.mbox.busy = none ∧ s.sealReady q = true) ∧
    (let s : State := { field with locket := { field.locket with regions := [(63, ⟨1, 15, 4094, [767], false⟩)] } }
     (withMbox s 0x706 (natLe 8 63)).mboxRuns 0x706 (natLe 8 63) ∧ byteAt (natLe 8 63) 0 < 64 ∧
      (∀ i, 1 ≤ i → i < 8 → byteAt (natLe 8 63) i = 0) ∧ ((withMbox s 0x706 (natLe 8 63)).region 63).state = 1) ∧
    (let s : State := { field with locket := { field.locket with regions := [(63, ⟨3, 15, 0xFFFF, [767], false⟩)] } }
     (s.region 63).state = 3 ∧ (s.region 63).wasBound = false ∧ s.memoryRests = false) :=
  ⟨⟨mboxRuns_withMbox _ _ _ rfl (by decide), by decide +kernel⟩, by decide +kernel, ⟨mboxRuns_withMbox _ _ _ rfl (by decide), by decide +kernel⟩,
    by decide +kernel⟩
/-- A device whose site 5 is linked and being attested. -/
def attesting : State := { field with sites := [(5, { state := 3, attest := some ⟨0, 1⟩ })] }
/-- For AttestationAndEntropy. -/
theorem witness_attestation :
    ((withMbox attesting 0x707 (natLe 8 5)).mboxRuns 0x707 (natLe 8 5) ∧ byteAt (natLe 8 5) 0 < 6 ∧
      (∀ i, 1 ≤ i → i < 8 → byteAt (natLe 8 5) i = 0) ∧ (attesting.site (byteAt (natLe 8 5) 0)).state = 3) ∧
    (5 < 6 ∧ (attesting.site 5).attest = some ⟨0, 1⟩ ∧ (⟨1, true, [], [], [], [], [], [], []⟩ : AttestAnswer).seq = (⟨0, 1⟩ : Attest).seq) ∧
    (2 = 1 ∨ 2 = 2) :=
  ⟨⟨mboxRuns_withMbox _ _ _ rfl (by decide), by decide +kernel⟩, by decide +kernel⟩
/-- For LifeCycleMoves. -/
theorem witness_life_cycle :
    (let s : State := { field with locket := { field.locket with lc := 2 } }; (withMbox s 0x710 []).mboxRuns 0x710 [] ∧ s.locket.lc = 2) ∧
    ((withMbox field 0x711 (zeros 2468)).mboxRuns 0x711 (zeros 2468) ∧ (zeros 2468).length = 2468 ∧ field.locket.returning = false ∧
      fieldLe (zeros 2468) 0 16 = field.locket.uid ∧ field.locket.nonce = some (slice (zeros 2468) 16 32)) ∧
    (let s : State := { field with locket := { field.locket with lc := 4 } }
     (withMbox s 0x712 (zeros 8)).mboxRuns 0x712 (zeros 8) ∧ s.locket.lc ≤ 4 ∧ fieldLe (zeros 8) 0 8 = s.locket.uid % 2 ^ 64) ∧
    (let s : State := { up with locket := { lc := 1, entropyOk := true, drbgOk := true } }
     s.locket.lc = 1 ∧ s.locket.entropyOk = true ∧ s.locket.drbgOk = true) ∧
    (({} : Locket).lc = 0 ∧ (let s : State := { up with locket := { lc := 1 } }; s.locket.lc ≤ 1 ∧ fieldLe (zeros 8) 0 8 = s.locket.uid % 2 ^ 64)) :=
  ⟨⟨mboxRuns_withMbox _ _ _ rfl (by decide), by decide +kernel⟩, ⟨mboxRuns_withMbox _ _ _ rfl (by decide), by decide +kernel⟩,
    ⟨mboxRuns_withMbox _ _ _ rfl (by decide), by decide +kernel⟩, by decide +kernel, by decide +kernel⟩
/-- For SpdmAnswers, SpdmSessions. -/
theorem witness_spdm :
    (field.host.linkUp = true ∧ field.spdmUp = true ∧ field.locket.negotiated = true ∧ 2 < field.locket.chain.length ∧ field.locket.drbgOk = true ∧
      field.locket.sessions.length < 4) ∧ (∃ xi, field.deviceXi = some xi) ∧ ((zeros 1184).length = 1184) ∧
    (field.session 1 = some ⟨1, zeros 32, false, 0⟩ ∧ field.session 2 = some ⟨2, zeros 32, true, 0⟩ ∧ field.session 3 = none) :=
  ⟨by decide +kernel, ⟨_, rfl⟩, by decide +kernel, by decide +kernel⟩

/-! ### Witnesses: lines, translation and invalidation -/

/-- For HostLinesAndOrderedWrites, TranslationCompletionInstalls. -/
theorem witness_lines_translation :
    (let s : State := { up with host := { up.host with asked := [5] } }
     (zeros 64).length = 64 ∧ s.host.asked.contains 5 = true ∧ s.host.ctlAsked.contains 5 = false) ∧
    ((zeros 64).length = 64 ∧ up.host.asked.contains 5 = false ∧ up.host.ctlAsked.contains 5 = false) ∧
    (let s : State := { up with tick := { phase := 1 }, host := { up.host with writes := [.toHost 0 0 [1] false true] } }
     s.tick.phase ≠ 0 ∧ s.host.writes = [.toHost 0 0 [1] false true]) ∧
    (let s : State := { up with tick := { phase := 1 }, host := { up.host with writes := [.toHost 0 0 [1] false true, .toHost 0 64 [2] true false] } }
     s.tick.phase ≠ 0 ∧ s.host.writes = [.toHost 0 0 [1] false true, .toHost 0 64 [2] true false]) ∧
    (let q : XlatReq := ⟨5, 0x1FF000, false, 0, true, false, [⟨.ring 255, true, false, 0, 0, false⟩], false⟩
     let c : TransCompletion := { pasid := 5, va := 0x1FF000, addr := 0x40000000, log2 := 21, read := true, write := false, untranslatedOnly := false }
     let s : State := { up with tick := { phase := 1 }, xlat := { reqs := [q] } }
     s.tick.phase ≠ 0 ∧ s.host.writes = [] ∧ s.xlat.reqs = [q] ∧ q.sent = true ∧ q.pasid = c.pasid ∧ q.page = c.va / 4096 * 4096 ∧
      q.discard = false ∧ q.hold = false ∧ q.epoch = SMap.get 0 s.xlat.epochs 49 ∧ (c.read = true ∨ c.write = true) ∧
      c.untranslatedOnly = false ∧ (∀ w, w ∈ q.waits → (w.read = true → c.read = true) ∧ (w.write = true → c.write = true)) ∧ (∃ w, w ∈ q.waits ∧ w.isAhead = false)) := by
  decide +kernel
/-- One page request group, 511, is outstanding for PASID 5; it times out in tick 500. -/
def asking : State := { up with xlat := { groups := [⟨511, 5, 1, 500⟩] } }
/-- For PageRequestsEnd. -/
theorem witness_page_requests :
    (up.xlat.groups.find? (fun x => x.index == 511 && x.pasid == 5) = none) ∧
    (asking.xlat.groups.find? (fun x => x.index == 511 && x.pasid == 5) = some ⟨511, 5, 1, 500⟩ ∧ asking.xlat.faults = []) ∧
    (asking.xlat.groups.find? (fun x => x.index == 511) = some ⟨511, 5, 1, 500⟩ ∧ asking.tick.count < 500) ∧
    (let s : State := { asking with tick := { count := 500, phase := 2 } }
     s.xlat.groups.find? (fun x => x.index == 511) = some ⟨511, 5, 1, 500⟩ ∧ 500 = s.tick.count ∧ s.tick.phase = 2 ∧ s.xlat.faults = []) ∧
    (let s : State := { up with xlat := { halted := true } }; (withMbox s 0x401 []).mboxRuns 0x401 [] ∧ s.xlat.halted = true) ∧
    ((withMbox up 0x401 []).mboxRuns 0x401 [] ∧ up.xlat.halted = false) :=
  ⟨by decide +kernel, by decide +kernel, by decide +kernel, by decide +kernel, ⟨mboxRuns_withMbox _ _ _ rfl (by decide), rfl⟩,
    mboxRuns_withMbox _ _ _ rfl (by decide), rfl⟩
def invDesc : Bytes := descOf 8 0x10 64 [(32, 1, 1)]
/-- For InvalidationsRemoveAndDrain. -/
theorem witness_invalidations :
    (up.host.linkUp = true ∧ up.invCount true < 32) ∧
    ((ready up invDesc).controlReady 7 0x80010 = some (flightOf 7 invDesc .eligible) ∧ (ready up invDesc).invCount false < 32) ∧
    (let b := bytesOf 24 [(0, 4, 0xFFFFF), (4, 1, 1)]
     (withMbox up 0x400 b).mboxRuns 0x400 b ∧ b.length = 24 ∧ up.invCount false < 32 ∧ (∀ i, i ∈ up.xlat.invs → i.source ≠ .mailbox) ∧
      fieldLe b 0 4 < 2 ^ 20 ∧ byteAt b 4 = 1 ∧ (∀ k, 5 ≤ k → k < 24 → byteAt b k = 0)) ∧
    (let r : InvRange := ⟨5, true, 0, 0⟩
     let s : State := { up with xlat := { invs := [⟨.ats 31, r, 1, 0, []⟩] } }
     s.xlat.invs[0]? = some ⟨.ats 31, r, 1, 0, []⟩ ∧ s.hostWritesOut = false) ∧
    (let r : InvRange := ⟨5, true, 0, 0⟩
     let s : State := { withFlight up (flightOf 7 invDesc (.running 0)) with xlat := { invs := [⟨.descriptor 7, r, 1, 0, []⟩] } }
     s.xlat.invs[0]? = some ⟨.descriptor 7, r, 1, 0, []⟩ ∧ s.hostWritesOut = false ∧ s.flight 7 = some (flightOf 7 invDesc (.running 0)) ∧ dKey invDesc = 0x80010) :=
  ⟨by decide +kernel, by decide +kernel, ⟨mboxRuns_withMbox _ _ _ rfl (by decide), by decide +kernel⟩, by decide +kernel, by decide +kernel⟩

/-! ### Witnesses: launches and Filigree schedules -/

/-- A device of 4,096 beads with one stage segment of partition 0 in Casket slice 0. -/
def staged : State := { up with mesh := { beads := 4096 }, casket := { own := [(0, ⟨0x10100000000, 0x10100000000⟩)] } }
/-- Flight 7 waits, its pages pinned, for its images. -/
def stageFlight (d : Bytes) : Flight := { flightOf 7 d .eligible with strands := [{ pinned := true }] }
/-- Flight 7 has its images. -/
def stagedFlight (d blob : Bytes) : Flight := { flightOf 7 d .eligible with staged := true, blob := blob }
/-- A LAUNCH of one bead, bead 0, with an instruction image of 4 bytes at 0x80000 of the Casket. -/
def launchDesc : Bytes := descOf 3 1 128 [(34, 2, 1), (36, 2, 1024), (44, 4, 4), (48, 8, nearCasket + 0x80000), (112, 4, 0xFFFFFFFF)]
/-- For LaunchesStageAndStart. -/
theorem witness_launch :
    (let s := withFlight staged (stageFlight launchDesc)
     s.staging 7 0x30001 = some (stageFlight launchDesc) ∧ s.stageBusy (stageFlight launchDesc) = false) ∧
    (let s : State := { withFlight staged (stagedFlight launchDesc [1, 2, 3, 4]) with tick := { phase := 1 } }
     s.canStart 7 0x30001 (fun x => s.setTiles x.part x.desc) = some (stagedFlight launchDesc [1, 2, 3, 4]) ∧
      (s.setTiles 0 launchDesc)[0]? = some 0 ∧ (s.setTiles 0 launchDesc).Nodup ∧ bit (lFlags launchDesc) 0 = false) := by
  decide +kernel
theorem witness_launch_staging : ∃ s1,
    (withFlight staged (stageFlight launchDesc)).fetch (stageFlight launchDesc) 0
      ((withFlight staged (stageFlight launchDesc)).imageOpnds 0 launchDesc) [] [] [] = .go s1 ∧ s1.flight 7 = some (stageFlight launchDesc) :=
  ⟨_, fetch_casket _ _ _ _ [] [[(.casket 0x80000, 4)]] [] rfl rfl (by decide +kernel) rfl (by decide +kernel) rfl rfl, by decide +kernel⟩
/-- A Filigree image of one router-only tile, tile 0, whose one slot is empty. -/
def imageFields : List (Nat × Nat × Nat) := [(0, 4, 0x52474C46), (4, 2, 0x101), (8, 4, 128), (12, 2, 1), (14, 2, 1), (16, 4, 1), (24, 2, 72), (26, 2, 64),
  (64, 2, 1), (66, 1, 1), (68, 4, 1), (72, 4, 80), (76, 4, 24), (82, 2, 0xFFFF)]
def goodImage : Bytes := bytesOf 128 ((32, 8, crc64 (bytesOf 128 imageFields)) :: imageFields)
def loadDesc : Bytes := descOf 4 1 64 [(32, 8, nearCasket + 0x80000), (40, 4, 128)]
/-- The image is at 0x80000 of the Casket; tile 0 is of partition 0, and the schedule of partition 0 is being loaded by flight 7. -/
def loading (x : Flight) (g : Bytes) : State :=
  { withFlight staged x with
    tiles := [(0, { partition := some 0 })]
    mesh := { beads := 4096, scheds := [(0, { state := 0 })] }
    casket := { staged.casket with bytes := SMap.setList 0 [] 0x80000 g } }
/-- Its LOAD, with the one page place of its image. -/
theorem fetch_image (g : Bytes) :
    (loading (stageFlight loadDesc) g).fetch (stageFlight loadDesc) 0 ((loading (stageFlight loadDesc) g).imageOpnds 0 loadDesc) [] [] [] =
      .go ((loading (stageFlight loadDesc) g).took [(.casket 0x80000, 128)]) :=
  fetch_casket _ _ _ _ [] [[(.casket 0x80000, 128)]] [] rfl rfl rfl rfl rfl rfl rfl
/-- For LoadsCheckAndWriteTables. -/
theorem witness_loads :
    (let s := loading (stageFlight loadDesc) (zeros 128)
     let s1 := s.took [(.casket 0x80000, 128)]
     s.staging 7 0x40001 = some (stageFlight loadDesc) ∧ s.stageBusy (stageFlight loadDesc) = false ∧ s1.flight 7 = some (stageFlight loadDesc) ∧
      (s1.unpin 7).loadCheck 0 7 (oLen loadDesc) (zeros 128) = some ⟨1, 6, 0xFFFF, 0, 0⟩) ∧
    (let s := loading (stageFlight loadDesc) goodImage
     let s1 := s.took [(.casket 0x80000, 128)]
     s.staging 7 0x40001 = some (stageFlight loadDesc) ∧ s.stageBusy (stageFlight loadDesc) = false ∧ s1.flight 7 = some (stageFlight loadDesc) ∧
      (s1.unpin 7).loadCheck 0 7 (oLen loadDesc) goodImage = none ∧ (s1.unpin 7).stageFits 0 (loadNeed goodImage) = true ∧
      (s1.unpin 7).stageBusy { stageFlight loadDesc with stage := loadNeed goodImage } = false) ∧
    (imgHeaderBad (zeros 128) 128 = some 0) ∧
    (let s : State := { loading (stagedFlight loadDesc goodImage) goodImage with tick := { phase := 1 } }
     s.canStart 7 0x40001 (fun x => (imgTiles x.blob).map (fun e => e.tile)) = some (stagedFlight loadDesc goodImage)) := by
  decide +kernel
/-- The bytes that these LOADs stage. -/
theorem witness_loaded_bytes : ∀ g, g = zeros 128 ∨ g = goodImage →
    (((loading (stageFlight loadDesc) g).imageOpnds 0 loadDesc).map (fun o => ((loading (stageFlight loadDesc) g).opndRows 0 o).flatten)).flatten = g := by
  rintro g (rfl | rfl) <;> decide +kernel
def runDesc : Bytes := descOf 4 2 128 [(32, 4, 1)]
def runImages : Bytes := descOf 4 2 128 [(32, 4, 1), (44, 4, 16), (52, 4, 64)]
/-- The schedule of partition 15 is loaded, or runs between two frames. -/
def schedState (c : Sched) (x : Flight) : State := { withFlight up x with mesh := { beads := 4096, scheds := [(0, c), (15, c)] }, tick := { phase := 1 } }
def runState : RunState := { flight := 7, startTick := 0, ticks := 1, frameTick := 0, phases := [(0, 0)] }
/-- For RunsStartAndEnd. -/
theorem witness_runs :
    ((schedState {} (stageFlight runDesc)).staging 7 0x40002 = some (stageFlight runDesc) ∧ ((schedState {} (stageFlight runDesc)).sched 0).state < 2) ∧
    (let s := schedState { state := 2 } (stageFlight runDesc)
     s.staging 7 0x40002 = some (stageFlight runDesc) ∧ 2 ≤ (s.sched 0).state ∧ s.stageFits 0 (s.needOf (stageFlight runDesc)) = true ∧
      uPLen runDesc = 0) ∧
    (let s := schedState { state := 2 } (stageFlight runImages)
     s.staging 7 0x40002 = some (stageFlight runImages) ∧ s.stageFits 0 (s.needOf (stageFlight runImages)) = true ∧ uPLen runImages ≠ 0 ∧
      s.stageBusy (stageFlight runImages) = false) ∧
    (let s := schedState { state := 2, tiles := [(4607, 0)], programs := [(0, 4)] } (stagedFlight runDesc [])
     s.canStart 7 0x40002 (fun x => (s.sched x.part).tiles.map (fun e => e.1)) = some (stagedFlight runDesc []) ∧ (s.sched 0).state = 2 ∧
      4607 ∈ (s.sched 0).programTiles) ∧
    ((ready up (descOf 4 3 64 [])).controlReady 7 0x40003 = some (flightOf 7 (descOf 4 3 64 []) .eligible)) ∧
    (let s := schedState { state := 3, run := some runState } (stagedFlight runDesc [])
     15 < 16 ∧ (∀ x, x ∈ [(⟨0, 4607, 7⟩ : MeshFault)] → x.tile < 4608 ∧ 1 ≤ x.kind ∧ x.kind ≤ 7) ∧ (s.sched 15).run = some runState ∧
      runState.inFrame = false ∧ runState.frameTick ≤ s.tick.count ∧ runState.frameTick < runState.startTick + runState.ticks ∧
      runState.firstCycle (s.sched 15).offset = some 0) := by
  decide +kernel
theorem witness_run_images :
    (schedState { state := 2 } (stageFlight runImages)).fetch (stageFlight runImages) 0
      ((schedState { state := 2 } (stageFlight runImages)).imageOpnds 0 runImages) [] [] [] = .go ((schedState { state := 2 } (stageFlight runImages)).took []) :=
  fetch_casket _ _ _ _ [] [] [] rfl rfl rfl rfl rfl rfl rfl

/-! ### Witnesses: Bead cores -/

/-- Encodings by format. -/
def encR (op f3 f7 rd rs1 rs2 : Nat) : Nat := op + rd * 2 ^ 7 + f3 * 2 ^ 12 + rs1 * 2 ^ 15 + rs2 * 2 ^ 20 + f7 * 2 ^ 25
def encI (op f3 rd rs1 imm : Nat) : Nat := op + rd * 2 ^ 7 + f3 * 2 ^ 12 + rs1 * 2 ^ 15 + imm * 2 ^ 20
def encS (op f3 rs1 rs2 imm : Nat) : Nat := op + imm % 32 * 2 ^ 7 + f3 * 2 ^ 12 + rs1 * 2 ^ 15 + rs2 * 2 ^ 20 + imm / 32 * 2 ^ 25
/-- A core that runs a LAUNCH program with this instruction at pc 0, a trap handler at 0x100, and these registers and DMEM bytes. -/
def core (w : Nat) (regs : SMap W32) (dmem : Bytes) : Tile :=
  { state := 2, imem := SMap.setList 0 [] 0 (natLe 4 w), dmem := SMap.setList 0 [] 0 dmem, mtvec := 0x100, regs := regs }
/-- The last tile of the mesh is this core; partition 0 owns the first segment of its Casket slice and 16 clasps. -/
def coreOn (x : Tile) : State :=
  { up with
    tiles := [(4607, x)], mesh := { beads := 4096 }, casket := { own := [(575, ⟨0x100000000, 0x100000000⟩)] },
    work := { parts := [(0, { claspBase := 0, claspCount := 16 })] } }
/-- `beadAt` of a core that only holds one instruction. -/
abbrev Fetches (x : Tile) (i : BeadInstr) (w : Nat) : Prop := (coreOn x).beadAt 4607 i w 4

theorem fetches_of (x : Tile) (i : BeadInstr) (w : Nat)
    (h : (4607 < 4608 ∧ ((coreOn x).tile 4607).state = 2 ∧ ((coreOn x).tile 4607).stall = .none ∧
      ((coreOn x).tile 4607).coreFenced = false ∧ (coreOn x).ahead 4607 = false) ∧ ((coreOn x).core 4607).fetch = .inl (i, w, 4) ∧
      (wordsMet ((coreOn x).core 4607).pc.toNat 4).all (fun q => decide (SMap.get false ((coreOn x).core 4607).imemBad q = false)) = true) :
    Fetches x i w := ⟨h.1, h.2.1, forall_of_all h.2.2⟩

/-- The core meets its instruction as these tiles stand. -/
theorem core_coreOn (x : Tile) (hr : x.rx = []) (hw : x.weak = []) (hc : x.corrected = 0) : (coreOn x).core 4607 = x := by
  have h : (coreOn x).tile 4607 = x := rfl
  rw [State.core_eq _ _ (fun c _ => by rw [h, Tile.rxCh, hr]; rfl) (by rw [h, hw]) (by rw [h, hc]; decide), h]

/-- For BeadIntegerInstructions. -/
theorem witness_integer_instructions :
    Fetches (core 0xFFFFF0B7 [] []) (.lui 1 0xFFFFF000) 0xFFFFF0B7 ∧ Fetches (core 0xFFFFF097 [] []) (.auipc 1 0xFFFFF000) 0xFFFFF097 ∧
    Fetches (core (encI 0x13 0 1 31 0xFFF) [] []) (.opImm 0 false 1 31 0xFFFFFFFF) (encI 0x13 0 1 31 0xFFF) ∧
    Fetches (core (encR 0x33 5 0x20 0 1 31) [] []) (.opReg 5 true 0 1 31) (encR 0x33 5 0x20 0 1 31) ∧
    Fetches (core 0x80000063 [] []) (.branch 0 0 0 0xFFFFF000) 0x80000063 ∧
    Fetches (core 0x7FFFF0EF [] []) (.jal 1 0xFFFFE) 0x7FFFF0EF ∧
    Fetches (core (encI 0x67 0 1 1 0x7FF) [] []) (.jalr 1 1 0x7FF) (encI 0x67 0 1 1 0x7FF) ∧
    Fetches (core (encR 0x33 3 1 1 2 3) [] []) (.mulDiv 3 1 2 3) (encR 0x33 3 1 1 2 3) ∧
    Fetches (core (encR 0x33 4 1 1 2 3) [] []) (.mulDiv 4 1 2 3) (encR 0x33 4 1 1 2 3) ∧
    Fetches (core 0x0000000F [] []) .fence 0x0000000F ∧ Fetches (core 0x30200073 [] []) .mret 0x30200073 ∧
    (Fetches (core (encI 0x73 2 1 0 0xC00) [] []) (.csr 2 1 0xC00 0) (encI 0x73 2 1 0 0xC00) ∧
      (coreOn (core (encI 0x73 2 1 0 0xC00) [] [])).csrRead 4607 (core (encI 0x73 2 1 0 0xC00) [] []) 0xC00 = some 0 ∧
      csrWrites 2 0 = false) ∧
    (Fetches (core (encI 0x73 7 1 31 0x340) [] []) (.csr 7 1 0x340 31) (encI 0x73 7 1 31 0x340) ∧
      (coreOn (core (encI 0x73 7 1 31 0x340) [] [])).csrRead 4607 (core (encI 0x73 7 1 31 0x340) [] []) 0x340 = some 0 ∧
      csrWrites 7 31 = true) := by
  refine ⟨fetches_of _ _ _ ?_, fetches_of _ _ _ ?_, fetches_of _ _ _ ?_, fetches_of _ _ _ ?_, fetches_of _ _ _ ?_, fetches_of _ _ _ ?_,
    fetches_of _ _ _ ?_, fetches_of _ _ _ ?_, fetches_of _ _ _ ?_, fetches_of _ _ _ ?_, fetches_of _ _ _ ?_,
    ⟨fetches_of _ _ _ ?_, ?_⟩, ⟨fetches_of _ _ _ ?_, ?_⟩⟩ <;> decide +kernel
/-- A tile that waits at WFI since tick 3. -/
def waiting (now : Nat) : State := { coreOn { core 0x10500073 [] [] with stall := .wfi 3 } with tick := { count := now } }
/-- For BeadTrapsAndEnds. -/
theorem witness_traps_and_ends :
    (Fetches (core 0x73 [] []) .ecall 0x73 ∧ (core 0x73 [] []).inRun = false ∧ (core 0x73 [] []).reg 17 = 0 ∧ (core 0x73 [] []).prog = none) ∧
    (Fetches (core 0x73 [(17, 1)] []) .ecall 0x73 ∧ (core 0x73 [(17, 1)] []).reg 17 ≠ 0) ∧
    (Fetches (core 0x100073 [] []) .ebreak 0x100073 ∧ (coreOn (core 0x100073 [] [])).dbg.claim = false) ∧
    (let s : State := { coreOn (core 0x100073 [] []) with dbg := { claim := true, tile := 4607 } }
     s.coreRuns 4607 ∧ (s.core 4607).fetch = .inl (.ebreak, 0x100073, 4) ∧ s.beadHaltOpen = true ∧ s.locket.lc ≠ 3) ∧
    Fetches (core 0x10500073 [] []) .wfi 0x10500073 ∧
    (((waiting 3).tile 4607).state = 2 ∧ ((waiting 3).tile 4607).stall = .wfi 3 ∧ (waiting 3).tick.count ≤ 3) ∧
    (((waiting 4).tile 4607).state = 2 ∧ ((waiting 4).tile 4607).stall = .wfi 3 ∧ 3 < (waiting 4).tick.count) ∧
    Fetches (core 0xFFFFFFFF [] []) .illegal 0xFFFFFFFF ∧
    ((coreOn { core 0 [] [] with pc := 0x4000 }).coreRuns 4607 ∧ ((coreOn { core 0 [] [] with pc := 0x4000 }).tile 4607).fetch = .inr 0x4000) ∧
    (Fetches (core (encI 0x73 1 1 1 0xFFF) [] []) (.csr 1 1 0xFFF 1) (encI 0x73 1 1 1 0xFFF) ∧
      (coreOn (core (encI 0x73 1 1 1 0xFFF) [] [])).csrRead 4607 (core (encI 0x73 1 1 1 0xFFF) [] []) 0xFFF = none) ∧
    ((core 0 [] []).mtvec ≠ 0 ∧ (core 0 [] []).trapActive = false) := by
  refine ⟨⟨fetches_of _ _ _ ?_, ?_⟩, ⟨fetches_of _ _ _ ?_, ?_⟩, ⟨fetches_of _ _ _ ?_, ?_⟩, ?_, fetches_of _ _ _ ?_, ?_, ?_,
    fetches_of _ _ _ ?_, ?_, ⟨fetches_of _ _ _ ?_, ?_⟩, ?_⟩ <;> (try unfold State.coreRuns) <;> decide +kernel
/-- For BeadMemoryInstructions. -/
theorem witness_memory_instructions :
    (let x := core (encI 0x03 1 1 2 0) [(2, 0x1FFFE)] []
     Fetches x (.load 1 1 2 0) (encI 0x03 1 1 2 0) ∧ x.addr 2 0 % accessSize 1 = 0 ∧ inDmem (x.addr 2 0) (accessSize 1) = true ∧
      poisoned (x.readDmem (x.addr 2 0 - 0x10000) (accessSize 1)) = false) ∧
    (let x := core (encI 0x03 2 1 2 0) [(2, 0x1000FFFC)] []
     Fetches x (.load 2 1 2 0) (encI 0x03 2 1 2 0) ∧ x.addr 2 0 % accessSize 2 = 0 ∧ inWindow (x.addr 2 0) (accessSize 2) = true ∧
      (coreOn x).casketAllowed x.progPart (windowAddr 4607 (x.addr 2 0)) (accessSize 2) = true ∧
      (coreOn x).casket.errs = [] ∧
      poisoned ((coreOn x).windowRead 4607 (windowAddr 4607 (x.addr 2 0)) (accessSize 2)) = false) ∧
    (let x := core (encI 0x03 2 1 2 0) [(2, 0x10001)] []
     Fetches x (.load 2 1 2 0) (encI 0x03 2 1 2 0) ∧ portReg (x.addr 2 0) (accessSize 2) = .none ∧ x.addr 2 0 % accessSize 2 ≠ 0) ∧
    (let x := core (encS 0x23 0 2 1 0) [(2, 0x1FFFF)] []
     Fetches x (.store 0 2 1 0) (encS 0x23 0 2 1 0) ∧ x.addr 2 0 % accessSize 0 = 0 ∧ inDmem (x.addr 2 0) (accessSize 0) = true ∧
      (wordsMet (x.addr 2 0 - 0x10000) (accessSize 0)).all (fun q => decide (SMap.get false x.dmemBad q = false)) = true) ∧
    (let x := core (encS 0x23 2 2 1 0) [(2, 0x10000000)] []
     Fetches x (.store 2 2 1 0) (encS 0x23 2 2 1 0) ∧ x.inRun = false ∧ x.addr 2 0 % accessSize 2 = 0 ∧
      inWindow (x.addr 2 0) (accessSize 2) = true ∧ (coreOn x).casketAllowed x.progPart (windowAddr 4607 (x.addr 2 0)) (accessSize 2) = true) ∧
    (let x := core (encI 0x0B 3 15 2 0) [(2, 0x1FFF0)] []
     Fetches x (.vld 15 2 0) (encI 0x0B 3 15 2 0) ∧ x.addr 2 0 % 8 = 0 ∧ inDmem (x.addr 2 0) 16 = true ∧
      poisoned (x.readDmem (x.addr 2 0 - 0x10000) 16) = false) ∧
    (let x := core (encS 0x0B 4 2 15 0) [(2, 0x10008)] []
     Fetches x (.vst 15 2 0) (encS 0x0B 4 2 15 0) ∧ x.addr 2 0 % 8 = 0 ∧ inDmem (x.addr 2 0) 16 = true ∧
      (wordsMet (x.addr 2 0 - 0x10000) 16).all (fun q => decide (SMap.get false x.dmemBad q = false)) = true) ∧
    (let x := core (encI 0x0B 3 15 2 0) [(2, 0x10004)] []
     Fetches x (.vld 15 2 0) (encI 0x0B 3 15 2 0) ∧ x.addr 2 0 % 8 ≠ 0) := by
  refine ⟨⟨fetches_of _ _ _ ?_, ?_⟩, ⟨fetches_of _ _ _ ?_, ?_⟩, ⟨fetches_of _ _ _ ?_, ?_⟩, ⟨fetches_of _ _ _ ?_, ?_⟩,
    ⟨fetches_of _ _ _ ?_, ?_⟩, ⟨fetches_of _ _ _ ?_, ?_⟩, ⟨fetches_of _ _ _ ?_, ?_⟩, ⟨fetches_of _ _ _ ?_, ?_⟩⟩ <;> decide +kernel
/-- A trie node with the one edge 0x41 to offset 8 (R134), and a list of capacity 1 with no entry (R135). -/
def trieNode : Bytes := natLe 4 (1 * 2 ^ 23) ++ natLe 4 (0x41 * 2 ^ 24 + 8)
def topkList : Bytes := natLe 2 1 ++ zeros 30 ++ natLe 4 7 ++ zeros 4 ++ natLe 4 0x3F800000 ++ natLe 2 0 ++ natLe 2 1
/-- Two legal records of 64 dimensions (R137). -/
def twoRecords : Bytes := (1 : Byte) :: zeros 319 ++ (1 : Byte) :: zeros 319
/-- Registers 2 and 3 hold two addresses. -/
def ptrs (a b : Nat) : SMap W32 := [(2, BitVec.ofNat 32 a), (3, BitVec.ofNat 32 b)]
/-- For BeadVectorInstructions, FkeyKeys. -/
theorem witness_vector_instructions :
    ((List.range 15).all (fun f => ((coreOn (core (encR 0x0B 0 f 15 1 2) [] [])).tile 4607).fetch == .inl (.vv f 15 1 2, encR 0x0B 0 f 15 1 2, 4)) = true ∧
      (coreOn (core 0 [] [])).coreRuns 4607) ∧
    (let x := core (encR 0x2B 0 0 0 2 0) [(2, 23)] []
     Fetches x (.kround 2) (encR 0x2B 0 0 0 2 0) ∧ x.reg 2 % 32 < 24) ∧
    (let x := core (encR 0x2B 0 0 0 2 0) [(2, 24)] []
     Fetches x (.kround 2) (encR 0x2B 0 0 0 2 0) ∧ 24 ≤ x.reg 2 % 32) ∧
    (let x := core (encR 0x2B 1 0 1 2 3) (ptrs 0x10000 0x41) trieNode
     Fetches x (.tstep 1 2 3) (encR 0x2B 1 0 1 2 3) ∧ x.reg 2 % 4 = 0 ∧ inDmem (x.reg 2) 4 = true ∧
      poisoned (x.readDmem (x.reg 2 - 0x10000) (4 + 4 * 1)) = false ∧
      bits (fieldLe (plain (x.readDmem (x.reg 2 - 0x10000) (4 + 4 * 1))) 0 4) 31 23 = 1 ∧ inDmem (x.reg 2) (4 + 4 * 1) = true) ∧
    (let x := core (encR 0x2B 2 0 1 2 3) (ptrs 0x10000 0x10020) topkList
     let h := plain (x.readDmem (x.reg 2 - 0x10000) (16 + 16 * 0))
     let c := plain (x.readDmem (x.reg 3 - 0x10000) 16)
     Fetches x (.topk 1 2 3) (encR 0x2B 2 0 1 2 3) ∧ x.reg 2 % 16 = 0 ∧ x.reg 3 % 16 = 0 ∧ inDmem (x.reg 2) (16 + 16 * 1) = true ∧
      inDmem (x.reg 3) 16 = true ∧ poisoned (x.readDmem (x.reg 2 - 0x10000) (16 + 16 * 0)) = false ∧
      poisoned (x.readDmem (x.reg 3 - 0x10000) 16) = false ∧ fieldLe h 0 2 = 1 ∧ fieldLe h 2 2 = 0 ∧ allZero (slice h 4 12) = true ∧
      topkInsert 1 (chunks 16 0 (h.drop 16)) c = some ([c], 0)) ∧
    (let x : Tile := { core (encR 0x5B 0 0 0 2 3) (ptrs 0x10000 0x10140) twoRecords with lseCfg := 64 }
     Fetches x (.lsec 2 3) (encR 0x5B 0 0 0 2 3) ∧ x.lseOk = true ∧ x.reg 2 % 16 = 0 ∧ x.reg 3 % 16 = 0 ∧
      inDmem (x.reg 2) (4 * x.lseD + 64) = true ∧ inDmem (x.reg 3) (4 * x.lseD + 64) = true ∧
      poisoned (x.readDmem (x.reg 2 - 0x10000) (4 * x.lseD + 64)) = false ∧ poisoned (x.readDmem (x.reg 3 - 0x10000) (4 * x.lseD + 64)) = false ∧
      recordOk (plain (x.readDmem (x.reg 2 - 0x10000) (4 * x.lseD + 64))) = true ∧
      recordOk (plain (x.readDmem (x.reg 3 - 0x10000) (4 * x.lseD + 64))) = true) ∧
    (let x : Tile := { core (encR 0x5B 0 1 0 2 3) (ptrs 0x10000 0x10140) twoRecords with lseCfg := 64, lseSmooth := 0x80000000 }
     Fetches x (.lsef 2 3) (encR 0x5B 0 1 0 2 3) ∧ x.lseOk = true ∧ x.reg 2 % 16 = 0 ∧ x.reg 3 % (fmtBits x.lseFmt / 8) = 0 ∧
      bit x.lseSmooth.toNat 31 = true ∧ inDmem (x.reg 2) (4 * x.lseD + 64) = true ∧ inDmem (x.reg 3) (fmtBits x.lseFmt / 8 * x.lseD) = true ∧
      poisoned (x.readDmem (x.reg 2 - 0x10000) (4 * x.lseD + 64)) = false ∧
      recordOk (plain (x.readDmem (x.reg 2 - 0x10000) (4 * x.lseD + 64))) = true) ∧
    ((List.range 6).all (fun f => ((coreOn (core (encR 0x5B 1 f 1 2 0) [] [])).tile 4607).fetch == .inl (.fp f 1 2 0, encR 0x5B 1 f 1 2 0, 4)) = true) := by
  refine ⟨⟨?_, ?_⟩, ⟨fetches_of _ _ _ ?_, ?_⟩, ⟨fetches_of _ _ _ ?_, ?_⟩, ⟨fetches_of _ _ _ ?_, ?_⟩, ⟨fetches_of _ _ _ ?_, ?_⟩,
    ⟨fetches_of _ _ _ ?_, ?_⟩, ⟨fetches_of _ _ _ ?_, ?_⟩, ?_⟩ <;> (try unfold State.coreRuns) <;> decide +kernel
/-- For ScalarVectorMoves, FkeyKeys: the largest indices, a NaN and an infinity. -/
theorem witness_scalar_vector_moves :
    Fetches (core (encR 0x0B 1 0 1 15 0) [] []) (.vmsk 1 15) (encR 0x0B 1 0 1 15 0) ∧
    Fetches (core (encR 0x0B 1 1 1 15 3) [] []) (.vextW 1 15 3) (encR 0x0B 1 1 1 15 3) ∧
    Fetches (core (encR 0x0B 2 0 15 31 0) [] []) (.vsplatB 15 31) (encR 0x0B 2 0 15 31 0) ∧
    Fetches (core (encR 0x0B 2 1 15 31 3) [] []) (.vinsW 15 31 3) (encR 0x0B 2 1 15 31 3) ∧
    ((f32 0x7FC00000).isNaN = true ∧ (f32 0).isNaN = false ∧ (f32 0xFF800000).isNaN = false) := by
  refine ⟨fetches_of _ _ _ ?_, fetches_of _ _ _ ?_, fetches_of _ _ _ ?_, fetches_of _ _ _ ?_, ?_⟩ <;> decide +kernel
/-- A bead of a RUN of partition 0, whose program runs with barrier 15 of members 4607 and 0, the barrier as given, in a frame that
starts at cycle 100. -/
def runCore (x : Tile) (b : Barrier) (r : Option RunState) : State :=
  { coreOn { x with inRun := true } with mesh := { beads := 4096, scheds := [(0, { state := 3, run := r.map (fun r => { r with barriers := [b] }) })] } }
def theRun : RunState := { flight := 7, startTick := 0, ticks := 1, frameTick := 0, inFrame := true, frameStart := 100 }
def theBarrier : Barrier := { index := 15, members := [4607, 0] }
abbrev RunFetches (x : Tile) (b : Barrier) (r : Option RunState) (i : BeadInstr) (w : Nat) : Prop :=
  ((4607 < 4608 ∧ ((runCore x b r).tile 4607).state = 2 ∧ ((runCore x b r).tile 4607).stall = .none ∧
    ((runCore x b r).tile 4607).coreFenced = false ∧ (runCore x b r).ahead 4607 = false) ∧
    ((runCore x b r).core 4607).fetch = .inl (i, w, 4) ∧
    (wordsMet ((runCore x b r).core 4607).pc.toNat 4).all
      (fun q => decide (SMap.get false ((runCore x b r).core 4607).imemBad q = false)) = true) ∧ ((runCore x b r).core 4607).inRun = true
theorem beadAt_of_runFetches {x : Tile} {b : Barrier} {r : Option RunState} {i : BeadInstr} {w : Nat} (h : RunFetches x b r i w) :
    (runCore x b r).beadAt 4607 i w 4 := ⟨h.1.1, h.1.2.1, forall_of_all h.1.2.2⟩
/-- SW x1 to, and LW x1 from, the address in x2. -/
def sw : Nat := encS 0x23 2 2 1 0
def lw : Nat := encI 0x03 2 1 2 0
def word : MeshWord := { data := zeros 32, flow := 0, poison := false }
/-- For BeadClaspsAndPorts. -/
theorem witness_clasps_and_ports :
    (Fetches (core (encI 0x73 1 1 1 0x7C3) [] []) (.csr 1 1 0x7C3 1) (encI 0x73 1 1 1 0x7C3) ∧
      (let s : State := { coreOn (core (encI 0x73 1 1 1 0x7C3) [] []) with tick := { count := 1 } }
       s.coreRuns 4607 ∧ (s.core 4607).fetch = .inl (.csr 1 1 0x7C3 1, encI 0x73 1 1 1 0x7C3, 4) ∧ csrWrites 1 1 = true ∧
        s.claspOk (s.tile 4607) = true ∧ (s.tile 4607).signalTick ≠ s.tick.count ∧ s.sealedPart (s.tile 4607).progPart = false)) ∧
    (Fetches (core (encI 0x73 2 1 0 0xFC6) [] []) (.csr 2 1 0xFC6 0) (encI 0x73 2 1 0 0xFC6) ∧ csrWrites 2 0 = false ∧
      (coreOn (core (encI 0x73 2 1 0 0xFC6) [] [])).claspOk (core (encI 0x73 2 1 0 0xFC6) [] []) = true) ∧
    (RunFetches (core sw [(2, 0x20058)] []) theBarrier (some theRun) (.store 2 2 1 0) sw ∧ portReg 0x20058 4 = .tx 1 24) ∧
    (RunFetches { core sw [(2, 0x2001C)] [] with tx := [(0, { fifo := [(0, word), (0, word), (0, word), (0, word)] })] } theBarrier (some theRun)
        (.store 2 2 1 0) sw ∧ portReg 0x2001C 4 = .tx 0 28) ∧
    (RunFetches (core sw [(2, 0x2001C)] []) theBarrier (some theRun) (.store 2 2 1 0) sw ∧ ((core sw [(2, 0x2001C)] []).txCh 0).dmemMode = false ∧
      ((core sw [(2, 0x2001C)] []).txCh 0).fifo.length < 4) ∧
    (RunFetches { core lw [(2, 0x2011C)] [] with rx := [(0, { fifo := [(0, word)] })] } theBarrier (some theRun) (.load 2 1 2 0) lw ∧
      portReg 0x2011C 4 = .rx 0 28) ∧
    (RunFetches { core lw [(2, 0x20118)] [] with rx := [(0, { fifo := [(0, word)] })] } theBarrier (some theRun) (.load 2 1 2 0) lw ∧
      portReg 0x20118 4 = .rx 0 24) ∧
    (RunFetches (core lw [(2, 0x20118)] []) theBarrier (some theRun) (.load 2 1 2 0) lw) ∧
    (RunFetches (core sw [(1, 0x10000), (2, 0x20200)] []) theBarrier (some theRun) (.store 2 2 1 0) sw ∧ portReg 0x20200 4 = .txCfg 0 ∧
      cfgOk 0x10000 = true) ∧
    (RunFetches (core sw [(1, 0x88000000), (2, 0x20204)] []) theBarrier (some theRun) (.store 2 2 1 0) sw ∧ portReg 0x20204 4 = .rxCfg 0 ∧
      cfgOk 0x88000000 = true) ∧
    (RunFetches (core sw [(2, 0x20308)] []) theBarrier (some theRun) (.store 2 2 1 0) sw ∧ portReg 0x20308 4 = .await 0) ∧
    (let s := runCore (core sw [(2, 0x20878)] []) theBarrier (some theRun)
     RunFetches (core sw [(2, 0x20878)] []) theBarrier (some theRun) (.store 2 2 1 0) sw ∧ portReg 0x20878 4 = .barrier 15 ∧
      s.barrierOf (s.tile 4607) 15 = some theBarrier ∧ 4607 ∈ theBarrier.members ∧ theBarrier.arrived = []) ∧
    (let b := { theBarrier with passed := [4607] }
     let s := runCore (core lw [(2, 0x20878)] []) b (some theRun)
     RunFetches (core lw [(2, 0x20878)] []) b (some theRun) (.load 2 1 2 0) lw ∧ s.barrierOf (s.tile 4607) 15 = some b ∧ 4607 ∈ b.passed) ∧
    (let s := runCore (core lw [(2, 0x20878)] []) theBarrier (some theRun)
     RunFetches (core lw [(2, 0x20878)] []) theBarrier (some theRun) (.load 2 1 2 0) lw ∧ s.barrierOf (s.tile 4607) 15 = some theBarrier ∧
      4607 ∉ theBarrier.passed) ∧
    (let b := { theBarrier with arrived := [(0, 5), (4607, 9)] }
     (((runCore (core lw [] []) b (some theRun)).sched 0).run = some { theRun with barriers := [b] }) ∧
      ([b].find? (fun z => z.index == 15)) = some b ∧ (∀ m, m ∈ b.members → ∃ z, z ∈ b.arrived ∧ z.1 = m)) ∧
    ((((runCore (core lw [] []) theBarrier (some theRun)).sched 0).run = some { theRun with barriers := [theBarrier] }) ∧
      0 ∈ theBarrier.members) ∧
    (let s := runCore (core lw [(2, 0x20900)] []) theBarrier (some theRun)
     RunFetches (core lw [(2, 0x20900)] []) theBarrier (some theRun) (.load 2 1 2 0) lw ∧ portReg 0x20900 4 = .frame ∧
      s.runOf (s.tile 4607) = some { theRun with barriers := [theBarrier] } ∧ (s.tile 4607).cycle ≤ theRun.frameStart) ∧
    (let s := runCore (core lw [(2, 0x20900)] []) theBarrier none
     RunFetches (core lw [(2, 0x20900)] []) theBarrier none (.load 2 1 2 0) lw ∧ s.runOf (s.tile 4607) = none) := by
  refine ⟨⟨fetches_of _ _ _ ?_, ?_⟩, ⟨fetches_of _ _ _ ?_, ?_⟩, ?_, ?_, ?_, ?_, ?_, ?_, ?_, ?_, ?_, ?_, ?_, ?_, ?_, ?_, ?_, ?_⟩ <;>
    (try unfold State.coreRuns) <;> decide +kernel

/-! ### Witnesses: Tether -/

/-- A message with these header fields, given as offset, length and value. -/
def msgOf (op : Nat) (fs : List (Nat × Nat × Nat)) (data : Bytes) : TetherMsg := ⟨bytesOf 32 ((0, 1, 1) :: (1, 1, op) :: fs), data⟩
/-- The last Tether port is this port. -/
def withPort (x : Port) : State := { up with tether := { ports := [(8, x)] } }
/-- The last lane is this lane, of port 8. -/
def withLane (x : Port) (y : TetherLane) : State := { up with tether := { ports := [(8, x)], lanes := [(71, y)] } }
/-- Port 8 with this message at the head of what it has received. -/
def portWith (m : TetherMsg) (x : Port) : State := withPort { x with rx := [m] }
/-- The payload of TETHER_PORT_SET for port 8: action and argument. -/
def portSet (a v : Nat) : Bytes := bytesOf 8 [(0, 1, 8), (1, 1, a), (2, 1, v)]
/-- For TetherPortsTrainAndLink. -/
theorem witness_ports_train :
    ((withMbox up 0x502 (portSet 3 1)).mboxRuns 0x502 (portSet 3 1) ∧ (withMbox up 0x502 (portSet 1 0)).mboxRuns 0x502 (portSet 1 0) ∧
      (withMbox (withPort { state := 3, enabled := true }) 0x502 (portSet 0 0)).mboxRuns 0x502 (portSet 0 0) ∧
      (withMbox (withPort { state := 3, enabled := true }) 0x502 (portSet 2 0)).mboxRuns 0x502 (portSet 2 0) ∧
      ∀ a, a ∈ [0, 1, 2, 3] → (portSet a 1).length = 8 ∧ byteAt (portSet a 1) 0 = 8 ∧ byteAt (portSet a 1) 1 = a ∧ byteAt (portSet a 1) 2 = 1 ∧
        ∀ k, 3 ≤ k → k < 8 → byteAt (portSet a 1) k = 0) ∧
    ((up.port 8).enabled = false ∧ up.portOn 8 = true ∧ ((withPort { state := 3 }).port 8).state = 3) ∧
    (trainingWordOf 0 = none ∧ trainingWordOf (trainingLevels 1) = some 1 ∧ trainingLevels (2 ^ 64 - 1) < 4 ^ 64 ∧
      crc8 56 (1 / 256) 0 ≠ 1 % 256) ∧
    (let s := withPort { state := 1, step := 1 }
     trainingWordOf (flipLevels 64 (trainingLevels 0)) = some 0 ∧ flipLevels 64 (trainingLevels 0) < 4 ^ 64 ∧
      crc8 56 (0 / 256) 0 = 0 % 256 ∧ (s.port (71 / 8)).state = 1 ∧ (s.port (71 / 8)).step ≤ 3 ∧
      bits 0 42 41 ≠ 1 ∧ bit 0 43 = false ∧ (s.port (71 / 8)).readyTheirs ≠ 0xFF ∧
      bit (s.port (71 / 8)).readyTheirs (71 % 8) = false) ∧
    (let s := withLane { state := 1, step := 5 } { commas := 1, commaUi := 5 }
     commaFieldOf (commaLevels 0) = some 0 ∧ commaLevels (2 ^ 24 - 1) < 4 ^ 64 ∧ (s.lane 71).inverted = false ∧
      crc8 16 (0 / 256) 0 = 0 % 256 ∧ (s.lane 71).commas ≠ 0 ∧ 44564549 = (s.lane 71).commaUi + 44564544) ∧
    (let s := withLane { state := 3 } { comma := true, state := 2 }
     (s.lane 71).comma = true ∧ (s.lane 71).state = 2 ∧ (s.port (71 / 8)).state = 3) ∧
    (let s := withLane { state := 1, step := 5, lanes := 0x80 } { comma := true, fecLock := true }
     (s.port 8).state = 1 ∧ (s.port 8).step = 5 ∧
      ∀ l, l ∈ lanesOf 8 → bit (s.port 8).lanes (l % 8) = true → (s.lane l).comma = true ∧ (s.lane l).fecLock = true ∧ (s.lane l).commaUi = 0) ∧
    (let m := msgOf 0x16 [(8, 1, 3), (10, 1, 1), (12, 2, 77)] []
     let s := portWith m { state := 1, step := 6, width := some 3 }
     s.localMsg 8 0x16 = some m ∧ (s.port 8).state = 1 ∧ (s.port 8).step = 6 ∧ (s.port 8).width = some (byteAt m.head 8) ∧ byteAt m.head 9 ≤ 1 ∧
      1 ≤ byteAt m.head 10) ∧
    (((withPort { state := 1, failures := 0 }).port 8).state = 1 ∧ ((withPort { state := 1, failures := 2 }).port 8).failures = 2) ∧
    (let s := withPort { state := 5, enabled := true, failures := 3 }
     (s.port 8).state = 5 ∧ (s.port 8).enabled = true ∧ s.portOn 8 = true) :=
  ⟨⟨mboxRuns_withMbox _ _ _ rfl (by decide), mboxRuns_withMbox _ _ _ rfl (by decide), mboxRuns_withMbox _ _ _ rfl (by decide),
    mboxRuns_withMbox _ _ _ rfl (by decide), by decide +kernel⟩, by decide +kernel, by decide +kernel, by decide +kernel, by decide +kernel,
    by decide +kernel, by decide +kernel, by decide +kernel, by decide +kernel, by decide +kernel⟩
/-- A flit of sequence number 0 with no message, and the same with a wrong checksum. -/
def goodFlit : Bytes := tetherFlitOf [] 0 false 0 0 [0, 0, 0]
def badFlit : Bytes := goodFlit.take 255 ++ [goodFlit.getD 255 0 + 1]
def loopBody : Bytes := bytesOf 8 [(0, 1, 8), (1, 1, 1), (2, 1, 0x80), (4, 4, 60000)]
/-- Port 8, a member, uses its last lane only, which holds the slices of this flit. -/
def arrived (b : Bytes) : State := withLane { state := 3, lanes := 0x80 } { state := 2, slices := (chunks 32 8 b).map (fun c => (c, true)) }
theorem nextFlit_arrived (b : Bytes) (h : b.length = 256) : (arrived b).nextFlit 8 = some (b, true) := by
  have hc : ∀ (k : Nat) (l : Bytes), l.length = 32 * k → (chunks 32 k l).length = k ∧ (chunks 32 k l).flatten = l := by
    intro k
    induction k with
    | zero => intro l hl; have : l = [] := List.length_eq_zero_iff.mp (by omega); simp [chunks, this]
    | succ k ih =>
      intro l hl
      have hn : l ≠ [] := by intro e; simp [e] at hl
      obtain ⟨h1, h2⟩ := ih (l.drop 32) (by simp; omega)
      simp [chunks, hn, h1, h2]
  obtain ⟨hl, hf⟩ := hc 8 b (by omega)
  have : (arrived b).nextFlit 8 = if (chunks 32 8 b).length < 8 then none
      else some ((List.range 8).flatMap (fun i => (((chunks 32 8 b).map (fun c => (c, true))).getD i ([], false)).1),
        (List.range 8).all (fun i => (((chunks 32 8 b).map (fun c => (c, true))).getD i ([], false)).2)) := by
    simp [State.nextFlit, State.usedLanes, arrived, withLane, State.lane, State.port, lanesOf, SMap.get, List.range, List.range.loop, bit]
  rw [this, hl]
  generalize chunks 32 8 b = c at hl hf
  match c, hl with
  | [_, _, _, _, _, _, _, _], _ => simp [← hf, List.range, List.range.loop]
/-- For TetherLinksCarryFlits, with nextFlit_arrived. -/
theorem witness_links :
    (let s := withLane { state := 3 } { state := 2 }
     (s.lane 71).state = 2 ∧ (s.port (71 / 8)).state = 3) ∧
    (let s := withLane { state := 3 } { state := 2, low := 15 }
     (s.lane 71).state = 2 ∧ (s.port (71 / 8)).state = 3 ∧ (s.lane 71).low = 15) ∧
    (((withPort {}).port 8).receives = false ∧ ∀ w : LaneWord, w ∈ [⟨7, 4 ^ 2720 - 1⟩] → w.lane < 8 ∧ w.levels < 4 ^ 2720) ∧
    (let s := withLane { state := 1, step := 5, lanes := 0xC0 } { state := 2 }
     (s.port 8).receives = true ∧ bit (s.port 8).lanes 7 = true ∧ bit (s.port 8).lanes 6 = true ∧ (s.lane 70).slices = [] ∧
      (s.lane 71).inverted = false ∧ (s.lane 71).badTimes = [] ∧ (decodeLane (s.lane 71).rxHist 0).2.2.good = true) ∧
    (((arrived badFlit).port 8).carries = true ∧ badFlit.length = 256 ∧
      crc64 (badFlit.take 248) ≠ fieldLe badFlit 248 8 ∧ ((arrived badFlit).port 8).nakking = false) ∧
    (((arrived goodFlit).port 8).state = 3 ∧ goodFlit.length = 256 ∧
      crc64 (goodFlit.take 248) = fieldLe goodFlit 248 8 ∧ bits (fieldLe goodFlit 0 8) 59 58 = 0 ∧
      (∀ e, e ∈ flitSlots goodFlit → e.1 ≠ 3) ∧ bits (fieldLe goodFlit 0 8) 55 44 = ((arrived goodFlit).port 8).rxSeq) ∧
    (let s := withPort { state := 3, replay := [(0, goodFlit)], stuck := 14 }
     (s.port 8).carries = true ∧ (s.port 8).replay ≠ [] ∧ (s.port 8).stuck < 15) ∧
    ((withMbox up 0x503 loopBody).mboxRuns 0x503 loopBody ∧ loopBody.length = 8 ∧ byteAt loopBody 0 = 8 ∧ byteAt loopBody 1 = 1 ∧
      byteAt loopBody 3 = 0 ∧ fieldLe loopBody 4 4 = 60000 ∧ (up.port 8).state ≠ 3) ∧
    (let s := withLane { state := 4 } { loopBusy := true }
     (s.port 8).state = 4 ∧ 71 ∈ lanesOf 8 ∧ (s.lane 71).loopBusy = true ∧ (List.replicate 8 (⟨true, 3⟩ : LoopResult)).length = 8) :=
  ⟨by decide +kernel, by decide +kernel, by decide +kernel, by decide +kernel, by decide +kernel, by decide +kernel, by decide +kernel,
    ⟨mboxRuns_withMbox _ _ _ rfl (by decide), by decide +kernel⟩, by decide +kernel⟩
def routeBody : Bytes := bytesOf 5 [(0, 2, 4095), (2, 2, 1), (4, 1, 8)]
/-- A member link of device 1 on port 8 with this message received, at tick `n`. -/
def member (n : Nat) (m : TetherMsg) (t : Tether) : State :=
  { up with tick := { count := n }, tether := { t with ports := [(8, { state := 3, rx := [m] })] } }
def noMsg : TetherMsg := msgOf 0 [] []
/-- For TetherFabricAgrees. -/
theorem witness_fabric :
    (let b := bytesOf 8 [(0, 2, 4095), (2, 2, 4095), (4, 1, 1)]
     (withMbox up 0x500 b).mboxRuns 0x500 b ∧ b.length = 8 ∧ fieldLe b 0 2 < 4096 ∧ byteAt b 4 ≤ 1 ∧ (∀ k, 5 ≤ k → k < 8 → byteAt b k = 0) ∧
      up.memberPorts = []) ∧
    ((withMbox up 0x501 routeBody).mboxRuns 0x501 routeBody ∧ routeBody.length = 4 + fieldLe routeBody 2 2 ∧ fieldLe routeBody 0 2 < 4096 ∧
      fieldLe routeBody 0 2 + fieldLe routeBody 2 2 ≤ 4096 ∧ (∀ i, i < fieldLe routeBody 2 2 → byteAt routeBody (4 + i) ≤ 8)) ∧
    (withMbox up 0x504 []).mboxRuns 0x504 [] ∧
    (let m := msgOf 0x14 [(4, 2, 2), (24, 2, 20), (26, 2, 1), (28, 1, 1), (29, 1, 1), (30, 1, 1)] []
     let s : State := { up with tether := { ownId := 1, refId := 1, joinEnable := true, ports := [(8, { state := 2, rx := [m] })] } }
     s.localMsg 8 0x14 = some m ∧ (s.port 8).state = 2 ∧ s.joinReason 8 m = 0) ∧
    (let m := msgOf 0x14 [(4, 2, 2), (24, 2, 21)] []
     (portWith m { state := 2 }).localMsg 8 0x14 = some m ∧ ((portWith m { state := 2 }).port 8).state = 2 ∧ (portWith m { state := 2 }).joinReason 8 m ≠ 0) ∧
    (let m := msgOf 0x15 [(8, 8, 1)] []
     (member 0 m {}).localMsg 8 0x15 = some m ∧ ((member 0 m {}).port 8).state = 3 ∧ (member 0 m {}).work.flights = [] ∧
      (member 0 m {}).tick.count < fieldLe m.head 8 8) ∧
    ((member 0 noMsg { parent := 8 }).tether.parent ≠ 0xF ∧ ((member 0 noMsg { parent := 8 }).port 8).state = 3) ∧
    ((member 0 (msgOf 0x10 [] []) {}).localMsg 8 0x10 = some (msgOf 0x10 [] []) ∧ ((member 0 (msgOf 0x10 [] []) {}).port 8).state = 3) ∧
    (let m := msgOf 0x11 [] []
     let s : State := { up with tether := { parent := 8, ports := [(8, { state := 3, rx := [m], t1 := some (0, 7) })] } }
     s.localMsg 8 0x11 = some m ∧ (s.port 8).state = 3 ∧ 8 = s.tether.parent ∧ (s.port 8).t1 = some (0, 7)) ∧
    (let m := msgOf 0x12 [(8, 8, 5), (16, 1, 2)] []
     (member 5 m {}).localMsg 8 0x12 = some m ∧ (member 5 m {}).voteClosed (fieldLe m.head 8 8) = false) ∧
    (let s := member 8 noMsg { votes := [⟨5, 3, [8], [8]⟩] }
     s.memberPorts ≠ [] ∧ 3 ≤ s.tick.count ∧ s.voteClosed (s.tick.count - 3) = false ∧
      (∀ p, p ∈ (s.voteOf (s.tick.count - 3)).links → p ∈ (s.voteOf (s.tick.count - 3)).got) ∧ (s.voteOf (s.tick.count - 3)).links ≠ []) ∧
    (let s := member 8 noMsg { votes := [⟨5, 3, [], [8]⟩] }
     s.memberPorts ≠ [] ∧ s.voteClosed (s.tick.count - 3) = false ∧ 8 ∈ (s.voteOf (s.tick.count - 3)).links ∧
      8 ∉ (s.voteOf (s.tick.count - 3)).got ∧ (s.port 8).state = 3 ∧ (s.port 8).memberSince ≤ s.tick.count - 3) ∧
    ((member 0 (msgOf 0x13 [] []) {}).localMsg 8 0x13 = some (msgOf 0x13 [] []) ∧ ((member 0 (msgOf 0x13 [] []) {}).port 8).state = 3) ∧
    (up.foreign 8 = none) ∧
    (let m := msgOf 2 [(2, 2, 9), (9, 1, 1)] []
     let s := member 0 m { routes := [(9, 8)] }
     s.foreign 8 = some m ∧ m.hops ≠ 0 ∧ (s.takeMsg 8 m.vc).routeUp m.dest = some 8) :=
  ⟨⟨mboxRuns_withMbox _ _ _ rfl (by decide), by decide +kernel⟩, ⟨mboxRuns_withMbox _ _ _ rfl (by decide), by decide +kernel⟩,
    mboxRuns_withMbox _ _ _ rfl (by decide), by decide +kernel, by decide +kernel, by decide +kernel, by decide +kernel, by decide +kernel,
    by decide +kernel, by decide +kernel, by decide +kernel, by decide +kernel, by decide +kernel, by decide +kernel, by decide +kernel⟩
/-- Device 1, whose window 63 lets device 2 do everything in the first mebibyte of memory and with clasps 0 to 15 of partition 0. -/
def served (m : TetherMsg) : State :=
  { up with
    tether := { ownId := 1, windowsNow := [(63, { base := 0, limit := 0x100000, ctl := 0x1F + 15 * 2 ^ 26 + 2 * 2 ^ 40 + 2 * 2 ^ 52 })],
                ports := [(8, { state := 3, rx := [m] })] }
    work := { parts := [(0, { claspBase := 0, claspCount := 16 })] } }
/-- A request of device 2 for device 1. -/
def request (op : Nat) (fs : List (Nat × Nat × Nat)) (data : Bytes) : TetherMsg := msgOf op ((2, 2, 1) :: (4, 2, 2) :: fs) data
/-- The first page of PASID 0 lies in device memory. -/
def paged : State :=
  { up with
    host := { up.host with hdm0 := some (0x10000000, 0x10000000) }
    xlat := { l2 := [⟨0, 0, 12, 0x10000000, true, true, 0, false, [], false⟩] } }
/-- One request, tag 5, of flight 7 is outstanding, and this message has come. -/
def answered (d : Bytes) (m : TetherMsg) : State :=
  { busy paged d with
    tether := { ownId := 1, requests := [⟨5, 7, 0, 8, 64, 0⟩], remotes := [⟨7, 1, []⟩], ports := [(8, { state := 3, rx := [m] })], routes := [(9, 8)] } }
/-- Flight 7 has sent nothing; device 9 is reached by port 8. -/
def sending (d : Bytes) : State := { busy paged d with tether := { ownId := 1, ports := [(8, { state := 3 })], routes := [(9, 8)] } }
/-- A remote descriptor to device 9 of these bytes at the end of that page. -/
def remDesc (op n : Nat) : Bytes := descOf 7 op 128 [(32, 2, 9), (40, 8, 0x1000 - n), (48, 8, 0), (56, 8, n)]
/-- What the statements about RREAD (2), RWRITE (1) and RADD (3) ask. -/
abbrev sendReady (op : Nat) (d : Bytes) : Prop :=
  let x := busyFlight d
  let ns := needsOf (remotePiece x.windows d 0)
  let u := (sending d).pinNeeds (7, 1) 48 0 ns
  (sending d).working 7 0 (0x70000 + op) = some x ∧ (sending d).remote 7 = ⟨7, 0, []⟩ ∧ (sending d).remoteOut 7 = [] ∧
  (sending d).tether.requests.length < 4096 ∧ (sending d).routeUp (rDest d) = some 8 ∧ dOpcode d = op ∧ remoteData d = 1 ∧
  rSignalAfter d = false ∧ rSrcCheck d = false ∧ ns.all ((sending d).pageReady 48 0) = true ∧
  worst ((remotePiece x.windows d 0).map (u.rangePlaced 0)) = 0 ∧
  (op = 2 ∨ ∃ ps, u.opndPlaces 0 ⟨rLocal d + (remoteCut d 0).2.1, 1, (remoteCut d 0).2.2, (remoteCut d 0).2.2, false, false⟩ = some ps ∧
    (match u.access x 0 ps [] with
      | .go v => v.badReads ps == []
      | .wait _ => false) = true)
/-- For TetherOperations. -/
theorem witness_operations :
    (let m := request 1 [(24, 8, 16)] []
     (served m).ownMsg 8 0 1 = some m ∧ (served m).remoteCheck 8 m (64 * m.value) = (0, served m) ∧ (served m).readHeld m.addr (64 * m.value) = false ∧
      bit (served m).pwr.idle 2 = false ∧ (served m).mayIssue 17 = true ∧ poisoned ((served m).readDev m.addr (64 * m.value)) = false) ∧
    (let m := request 1 [(24, 8, 17)] []
     (served m).ownMsg 8 0 1 = some m ∧ tetherMalformed m = true) ∧
    (let m := request 3 [(8, 1, 1)] (zeros 64)
     (served m).ownMsg 8 0 3 = some m ∧ (served m).remoteCheck 8 m (64 * m.lines) = (0, served m) ∧ (served m).repairHeld m.addr (64 * m.lines) = false ∧
      m.data.length = 64 * m.lines) ∧
    (let m := request 4 [(8, 1, 1)] (zeros 64)
     (served m).ownMsg 8 0 4 = some m ∧ (served m).remoteCheck 8 m (64 * m.lines) = (0, served m) ∧ (served m).repairHeld m.addr 64 = false ∧
      (maskedBytes (BitVec.ofNat 64 m.value) m.data).length ≠ 64) ∧
    (let m := request 5 [(8, 1, 1), (11, 1, 0x30)] (zeros 64)
     (served m).ownMsg 8 0 5 = some m ∧ (served m).remoteCheck 8 m (64 * m.lines) = (0, served m) ∧ bit m.flags 0 = false ∧
      (served m).readHeld m.addr (64 * m.lines) = false ∧ (served m).repairHeld m.addr (64 * m.lines) = false ∧
      poisoned ((served m).readDev m.addr (64 * m.lines)) = false ∧
      let u (i : Nat) : State := (List.range i).foldl (fun (u : State) j => u.writeDev (m.addr + j * 8) (clean (natLe 8 (scatterAdd 0x11 (bit m.flags 1)
        (leNat (plain (u.readDev (m.addr + j * 8) 8))) (fieldLe m.data (j * 8) 8)).1)) 17)
        (((served m).charge 17 ((served m).readCost m.addr (64 * m.lines) + writeCost (64 * m.lines))).heed m.addr (64 * m.lines))
      (List.range 8).all (fun i => poisoned ((u i).readDev ((m.addr + i * 8) / 64 * 64) 64) == false) = true) ∧
    (let m := request 5 [(8, 1, 16), (11, 1, 1)] (zeros 1024)
     (served m).ownMsg 8 0 5 = some m ∧ (served m).remoteCheck 8 m (64 * m.lines) = (0, served m) ∧ bit m.flags 0 = true ∧
      (served m).readHeld m.addr (64 * m.lines) = false ∧ (served m).repairHeld m.addr (64 * m.lines) = false ∧ 0 < m.lines) ∧
    (let m := request 6 [(12, 4, 15), (24, 8, 1)] []
     (served m).ownMsg 8 0 6 = some m ∧ (served m).remoteCheck 8 m (64 * m.lines) = (0, served m)) ∧
    (∀ op, op ∈ [2, 7] → (served (request op [] [])).ownMsg 8 1 op = some (request op [] []) ∧
      (served (request op [] [])).tether.requests.find? (fun r => r.tag == (request op [] []).tag) = none) ∧
    (let m := request 7 [(6, 2, 5)] []
     let s := answered (remDesc 1 64) m
     s.ownMsg 8 1 7 = some m ∧ s.tether.requests.find? (fun r => r.tag == m.tag) = some ⟨5, 7, 0, 8, 64, 0⟩ ∧
      s.flight 7 = some (busyFlight (remDesc 1 64)) ∧ s.remote 7 = ⟨7, 1, []⟩ ∧ remoteCount (remDesc 1 64) = 1) ∧
    (let m := request 2 [(6, 2, 5), (10, 1, 3)] []
     let s := answered (remDesc 2 64) m
     s.ownMsg 8 1 2 = some m ∧ s.tether.requests.find? (fun r => r.tag == m.tag) = some ⟨5, 7, 0, 8, 64, 0⟩ ∧
      s.flight 7 = some (busyFlight (remDesc 2 64)) ∧ s.remote 7 = ⟨7, 1, []⟩ ∧ remoteCount (remDesc 2 64) = 1 ∧ m.status ≠ 0) ∧
    (let m := request 2 [(6, 2, 5)] (zeros 64)
     let d := remDesc 2 64
     let s := answered d m
     s.ownMsg 8 1 2 = some m ∧ s.tether.requests.find? (fun r => r.tag == m.tag) = some ⟨5, 7, 0, 8, 64, 0⟩ ∧ m.status = 0 ∧
      s.placesOfVa (s.part 0).pasid (rLocal d + (remoteCut d 0).2.1) (remoteCut d 0).2.2 false true = some [(.dev 0xFC0, 64)] ∧
      s.placesRepaired [(.dev 0xFC0, 64)] = false ∧ s.mayIssue 0 = true) ∧
    (let d := remDesc 4 0
     (sending d).working 7 0 0x70004 = some (busyFlight d) ∧ (sending d).remote 7 = ⟨7, 0, []⟩ ∧ (sending d).remoteOut 7 = [] ∧
      (sending d).tether.requests.length < 4096 ∧ (sending d).routeUp (rDest d) = some 8 ∧ dOpcode d = 4 ∧ rLength d = 0) ∧
    sendReady 2 (remDesc 2 1024) ∧ sendReady 1 (remDesc 1 64) ∧ sendReady 3 (remDesc 3 64) := by
  refine ⟨?_, ?_, ?_, ?_, ?_, ?_, ?_, ?_, ?_, ?_, ?_, ?_, ⟨?_, ?_, ?_, ?_, ?_, ?_, ?_, ?_, ?_, ?_, ?_, ?_⟩,
    ⟨?_, ?_, ?_, ?_, ?_, ?_, ?_, ?_, ?_, ?_, ?_, Or.inr ⟨_, rfl, ?_⟩⟩, ⟨?_, ?_, ?_, ?_, ?_, ?_, ?_, ?_, ?_, ?_, ?_, Or.inr ⟨_, rfl, ?_⟩⟩⟩ <;>
    decide +kernel
/-- For LaneCodewordsRoundTrip: the longest runs of zeros and of ones, and what a code block does with them. -/
theorem test_block_code :
    decodeBlock (encodeBlock 0) = 0 ∧ encodeBlock 0 % 2 = 0 ∧ encodeBlock (2 ^ 256 - 1) = 2 ^ 257 - 1 ∧
    decodeBlock (encodeBlock (2 ^ 255 + 1)) = 2 ^ 255 + 1 ∧ (List.replicate 20 (zeros 32)).length = 20 ∧ (zeros 32).length = 32 := by decide +kernel

/-! ### Witnesses: die sites -/

/-- Site 5, or site 0, is this. -/
def withSite (q : Nat) (x : Site) : State := { up with sites := [(q, x)] }
/-- A discovery message of 28 bytes with its CRC. -/
def sealDisc (b : Bytes) : Bytes := b ++ natLe 4 (crc32 b)
/-- For SitesTrain. -/
theorem witness_sites_train :
    (((withSite 5 { state := 2 }).site 5).step = 0 ∧ (SMap.get {} (withSite 5 { state := 2 }).pwr.domains 18 : Domain).off = false) ∧
    ((withSite 5 { state := 2, step := 1 }).site 5).step = 1 ∧
    (let m := discMsg 1 1 0 0 []
     (discCrcOk m = true ∧ byteAt m 0 = 1 ∧ byteAt m 1 = 1) ∧ ((withSite 5 { state := 2, step := 2 }).site 5).step = 2 ∧ byteAt m 4 ≤ 1 ∧ 1 ≤ byteAt m 5) ∧
    (let m := sealDisc (bytesOf 28 [(0, 1, 1), (1, 1, 1), (4, 1, 2), (5, 1, 3)])
     (discCrcOk m = true ∧ byteAt m 0 = 1 ∧ byteAt m 1 = 1) ∧ 1 < byteAt m 4) ∧
    (((withSite 5 { state := 2, step := 6 }).site 5).failures = 0 ∧ 2 ≤ ((withSite 5 { state := 2, step := 5, failures := 2 }).site 5).failures) ∧
    discCrcOk (zeros 31) = false ∧
    (let s := withSite 5 { state := 2, step := 4 }
     (List.replicate 4 ([] : List Nat)).length = siteWays 5 ∧ (s.site 5).state = 2 ∧ (s.site 5).step = 4 ∧ (s.site 5).reported ≠ 2 ^ siteWays 5 - 1) ∧
    (let m := sealDisc (bytesOf 28 [(0, 1, 1), (1, 1, 2), (16, 1, 3), (17, 1, 8)])
     (discCrcOk m = true ∧ byteAt m 0 = 1 ∧ byteAt m 1 = 2) ∧ byteAt m 16 < siteWays 5 ∧
      ((withSite 5 { state := 2, step := 4 }).site 5).tested ≠ 2 ^ siteWays 5 - 1) ∧
    (let m := discMsg 4 1 0 0xF []
     (discCrcOk m = true ∧ byteAt m 0 = 1 ∧ byteAt m 1 = 4) ∧ fieldLe m 16 2 = ((withSite 5 { state := 2, step := 5, chanMask := 0xF }).site 5).chanMask) ∧
    ((withSite 5 { state := 3 }).site 5).state = 3 := by
  decide +kernel
/-- Site 0 is linked on channel 15, on which this message has been received. -/
def linked (m : SiteMsg) : State :=
  { up with
    sites := [(0, { state := 3, chanMask := 0x8000, chans := [(15, { rx := [m] })],
                    entries := [(15, { enable := true, read := true, write := true, base := 0, limit := 4096 })] })] }
def siteMsgOf (op tag count addr : Nat) (data : Bytes) : SiteMsg := ⟨siteHead op tag count 0 0 0 addr, data⟩
/-- A frame of sequence number 0 with no unit. -/
def emptyFrame : Bytes := zeros 264 ++ natLe 8 373605029771630600
theorem crcRun_append (c : Nat) (a b : Bytes) : crcRun c (a ++ b) = crcRun (crcRun c a) b := by simp [crcRun, List.foldl_append]
theorem crc64_emptyFrame : crc64 (zeros 264) = 373605029771630600 := by
  have h : zeros 264 = zeros 132 ++ zeros 132 := by decide +kernel
  have h1 : crcRun 0xFFFFFFFFFFFFFFFF (zeros 132) = 15780588288013277902 := by decide +kernel
  have h2 : crcRun 15780588288013277902 (zeros 132) = 18073139043937921015 := by decide +kernel
  rw [crc64, h, crcRun_append, h1, h2]
  decide +kernel
def spoiltFrame : Bytes := zeros 272
/-- The payload of SITE_SET for site 0. -/
def siteSet (a : Nat) : Bytes := bytesOf 8 [(1, 1, a)]
/-- For SitesExchange. -/
theorem witness_sites_exchange :
    (emptyFrame.length = 272 ∧ bit ((withSite 0 {}).site 0).chanMask 15 = false) ∧
    (spoiltFrame.length = 272 ∧ bit ((linked (siteMsgOf 1 0 1 0 [])).site 0).chanMask 15 = true ∧
      ((linked (siteMsgOf 1 0 1 0 [])).site 0).state = 3 ∧ crc64 (zeros 264) ≠ fieldLe spoiltFrame 264 8 ∧ spoiltFrame.take 264 = zeros 264 ∧
      (((linked (siteMsgOf 1 0 1 0 [])).site 0).chan 15).nakking = false) ∧
    (crc64 (zeros 264) = fieldLe emptyFrame 264 8 ∧ emptyFrame.take 264 = zeros 264 ∧ bits (fieldLe emptyFrame 256 4) 31 30 = 0 ∧
      bits (fieldLe emptyFrame 256 4) 19 10 = (((linked (siteMsgOf 1 0 1 0 [])).site 0).chan 15).rxSeq ∧ bit (fieldLe emptyFrame 256 4) 29 = false) ∧
    (let s := withSite 5 { state := 3, chans := [(3, { replay := [(0, emptyFrame)], stuck := 14 })] }
     3 < siteWays 5 ∧ (s.site 5).state = 3 ∧ ((s.site 5).chan 3).replay ≠ [] ∧ ((s.site 5).chan 3).stuck < 15) ∧
    (let m := siteMsgOf 1 9 4 3840 []
     let s := linked m
     let e : Bezel := { enable := true, read := true, write := true, base := 0, limit := 4096 }
     s.siteHeadMsg 0 15 0 = some m ∧ m.op = siteReadOp ∧ s.bezelCheck 0 m false = (0, s, e) ∧ bit s.pwr.idle 2 = false ∧ s.readHeld m.addr (64 * m.count) = false ∧
      s.mayIssue e.partition = true) ∧
    (let m := siteMsgOf 3 9 1 0 (zeros 64)
     let s := linked m
     let e : Bezel := { enable := true, read := true, write := true, base := 0, limit := 4096 }
     s.siteHeadMsg 0 15 0 = some m ∧ m.op = siteWriteOp ∧ s.bezelCheck 0 m true = (0, s, e) ∧ bit s.pwr.idle 2 = false ∧ s.repairHeld m.addr (64 * m.count) = false ∧
      s.mayIssue e.partition = true) ∧
    (let m := siteMsgOf 1 9 5 0 []
     (linked m).siteHeadMsg 0 15 0 = some m ∧ m.op = siteReadOp ∧ 4 < m.count) ∧
    (let m := siteMsgOf 2 9 1 0 (zeros 64)
     let s : State := { up with sites := [(0, { state := 3, chanMask := 0x8000, chans := [(15, { rx := [m] })], asked := [(9, 77)] })] }
     s.siteHeadMsg 0 15 1 = some m ∧ m.op = siteReadDataOp ∧ (s.site 0).asked.find? (fun a => a.1 == m.tag) = some (m.tag, 77)) ∧
    (let m := siteMsgOf 5 9 0 0 []
     let w : SiteWrite := ⟨9, 7, siteMsgOf 3 9 1 0 (zeros 64)⟩
     let s : State := { up with sites := [(0, { state := 3, chanMask := 0x8000, chans := [(15, { rx := [m] })], writing := [w] })] }
     s.siteHeadMsg 0 15 1 = some m ∧ m.op = siteDoneOp ∧ (s.site 0).writing.find? (fun w => w.tag == m.tag) = some w ∧ m.status = 0) := by
  rw [crc64_emptyFrame]
  refine ⟨?_, ?_, ?_, ?_, ?_, ?_, ?_, ?_, ?_⟩ <;> decide +kernel
/-- For SitesExchange, the mailbox commands. -/
theorem witness_site_commands :
    (∀ a, a < 4 → (siteSet a).length = 8 ∧ byteAt (siteSet a) 0 = 0 ∧ byteAt (siteSet a) 1 = a ∧ ∀ k, 2 ≤ k → k < 8 → byteAt (siteSet a) k = 0) ∧
    (withMbox (withSite 0 { strap := 1, state := 3 }) 0x600 (siteSet 0)).mboxRuns 0x600 (siteSet 0) ∧
    (withMbox (withSite 0 { strap := 1, state := 1 }) 0x600 (siteSet 1)).mboxRuns 0x600 (siteSet 1) ∧
    (withMbox (withSite 0 { strap := 1, state := 3 }) 0x600 (siteSet 2)).mboxRuns 0x600 (siteSet 2) ∧
    (withMbox (withSite 0 { strap := 1, state := 4 }) 0x600 (siteSet 3)).mboxRuns 0x600 (siteSet 3) ∧
    (∀ a, a < 2 → let b := bytesOf 8 [(0, 1, 5), (1, 1, a), (2, 2, 0xFFFF)]
      (withMbox (withSite 5 {}) 0x601 b).mboxRuns 0x601 b ∧ b.length = 8 ∧ byteAt b 0 = 5 ∧ byteAt b 1 = a ∧
        (∀ k, 4 ≤ k → k < 8 → byteAt b k = 0) ∧ ((withSite 5 {}).site 5).attested = false ∧
        ∀ e, e < 16 → (((withSite 5 {}).site 5).entrySet e).enable = false) ∧
    (let b := bytesOf 32 [(0, 1, 5), (1, 1, 15), (2, 1, 15), (3, 1, 15), (8, 8, 0x10000000000), (16, 8, 0x1C000000000)]
     let s := withSite 5 { grantDue := some (0x8000, false) }
     (withMbox s 0x602 b).mboxRuns 0x602 b ∧ b.length = 32 ∧ bit (s.site 5).maskSet (byteAt b 3) = true ∧ (∀ k, 4 ≤ k → k < 8 → byteAt b k = 0) ∧
      (∀ k, 24 ≤ k → k < 32 → byteAt b k = 0) ∧ fieldLe b 8 8 % 4096 = 0 ∧ fieldLe b 16 8 % 4096 = 0 ∧ fieldLe b 8 8 < fieldLe b 16 8 ∧
      backed (fieldLe b 8 8) 1 = true ∧ backed (fieldLe b 8 8) (fieldLe b 16 8 - fieldLe b 8 8) = true) ∧
    (let b := bytesOf 8 [(0, 1, 5)]
     (withMbox up 0x603 b).mboxRuns 0x603 b ∧ byteAt b 0 < 6 ∧ ∀ k, 1 ≤ k → k < 8 → byteAt b k = 0) := by
  refine ⟨by decide +kernel, mboxRuns_withMbox _ _ _ rfl (by decide), mboxRuns_withMbox _ _ _ rfl (by decide),
    mboxRuns_withMbox _ _ _ rfl (by decide), mboxRuns_withMbox _ _ _ rfl (by decide), ?_,
    ⟨mboxRuns_withMbox _ _ _ rfl (by decide), by decide +kernel⟩, ⟨mboxRuns_withMbox _ _ _ rfl (by decide), by decide +kernel⟩⟩
  intro a h
  refine ⟨mboxRuns_withMbox _ _ _ rfl (by decide), ?_⟩
  have : a = 0 ∨ a = 1 := by omega
  rcases this with rfl | rfl <;> decide +kernel

/-! ### Witnesses: power and heat -/

def withPwr (p : Pwr) : State := { up with pwr := p }
/-- The East half is stretched since the tick began. -/
def stretched : State := { withPwr { stretchEast := some ⟨0, 0, 0, 7, false⟩ } with tick := { phase := 1 } }
/-- For PowerEventsAndSettings. -/
theorem witness_power_events :
    (up.pwr.alertLow = false ∧ up.ctl.pwrgood = true ∧ State.reset.ctl.pwrgood = false ∧ (withPwr { alertLow := true }).pwr.alertLow = true) ∧
    (let s := withPwr { alertLimit := 7, alertNext := 5 }; s.pwr.alertLimit = 7 ∧ s.pwr.alertNext ≠ 0 ∧ s.pwr.faultLimit = 0) ∧
    ((up.rail 1).reached = true ∧ ((withPwr { rails := [(1, { reached := false })] }).rail 1).reached = false) ∧
    (List.replicate 4 (⟨800000, 1000, 50⟩ : RailReading)).length = 4 ∧
    (7 < 8 ∧ 0 < up.tickEnd) ∧
    (stretched.stretchOf 1 = some ⟨0, 0, 0, 7, false⟩ ∧ 0 + 32 * clockUnit ≤ (stretched.arrive 4001).clockNow 1 ∧
      0 + 16 * clockUnit ≤ (stretched.arrive 4001).clockNow 1 ∧ (stretched.arrive 1).clockNow 1 < 0 + 32 * clockUnit ∧
      0 + 4000 < (stretched.arrive 4001).tick.time) := by
  decide +kernel
/-- The payload of a power command: its first two bytes. -/
def two (a b : Nat) : Bytes := bytesOf 8 [(0, 1, a), (1, 1, b)]
/-- A schedule of partition 0 that crosses the half seam is loaded. -/
def crossing : State := { up with mesh := { scheds := [(0, { state := 2, seam := true })] } }
/-- For PowerEventsAndSettings, the mailbox commands and the idle modes. -/
theorem witness_power_settings :
    ((withMbox up 0x800 (two 8 2)).mboxRuns 0x800 (two 8 2) ∧ fieldLe (two 8 2) 0 2 = 520 ∧ ∀ k, 2 ≤ k → k < 8 → byteAt (two 8 2) k = 0) ∧
    (withMbox up 0x801 []).mboxRuns 0x801 [] ∧
    ((withMbox up 0x802 (two 1 7)).mboxRuns 0x802 (two 1 7) ∧ byteAt (two 1 7) 0 < 2 ∧ byteAt (two 1 7) 1 < 8 ∧
      (∀ k, 2 ≤ k → k < 8 → byteAt (two 1 7) k = 0) ∧ up.crossings = false ∧ up.offerBothHalves = false) ∧
    ((withMbox crossing 0x802 (two 1 7)).mboxRuns 0x802 (two 1 7) ∧ crossing.crossings = true) ∧
    ((withMbox up 0x803 (two 15 0)).mboxRuns 0x803 (two 15 0) ∧ byteAt (two 15 0) 0 < 16 ∧ (∀ k, 1 ≤ k → k < 8 → byteAt (two 15 0) k = 0) ∧
      up.work.flights = [] ∧ up.mesh.scheds = [] ∧ up.memberPorts = []) ∧
    (bit (withPwr { idle := 8 }).pwr.idle 3 = true ∧ bit (withPwr { idle := 8 }).pwr.waking 3 = false ∧ bit up.pwr.waking 3 = false) ∧
    (let s := withPwr { idle := 1, waking := 1, leaving := 1 }; bit s.pwr.waking 0 = true ∧ bit s.pwr.leaving 0 = true) :=
  ⟨⟨mboxRuns_withMbox _ _ _ rfl (by decide), by decide +kernel⟩, mboxRuns_withMbox _ _ _ rfl (by decide),
    ⟨mboxRuns_withMbox _ _ _ rfl (by decide), by decide +kernel⟩, ⟨mboxRuns_withMbox _ _ _ rfl (by decide), by decide +kernel⟩,
    ⟨mboxRuns_withMbox _ _ _ rfl (by decide), by decide +kernel⟩, by decide +kernel, by decide +kernel⟩
/-- Stack 7 is this hot, and stands in this phase of R462. -/
def stackAt (temp phase : Nat) : State :=
  { up with mem := { hbm := [(7, { tempC := temp })] }, therm := { hbm := [(7, { phase := phase })] } }
def hintDesc : Bytes := descOf 8 0x20 64 []
/-- For HeatEventsAndSettings. -/
theorem witness_heat :
    (let v : List Int := List.replicate 96 1695
     v.length = 96 ∧ up.ctl.pwrgood = true ∧ (∀ x, x ∈ v → x = v.headD 0) ∧ 0 ≤ v.headD 0 ∧ v.headD 0 < 1696) ∧
    (∀ n, (up.sensor n).failed = false ∧ (up.sensor n).far = 0) ∧
    (up.keel.safe = false ∧ up.keel.newCause = false) ∧
    (ready up hintDesc).controlReady 7 0x80020 = some (flightOf 7 hintDesc .eligible) ∧
    (SMap.get none ({ up with therm := { hints := [(15, some 9)] } } : State).therm.hints 15 : Option Nat) = some 9 ∧
    (82 < up.ctl.cfg.tst ∧ up.ctl.cfg.tst ≤ up.ctl.cfg.tsh ∧ up.ctl.cfg.tsh < 255) ∧
    (((stackAt 60 1).thermStack 7).phase = 1 ∧ (SMap.get {} (stackAt 60 1).mem.hbm 7 : Stack).tempC < (stackAt 60 1).ctl.cfg.tst) ∧
    (let t := up.ctl.cfg.tst
     t < up.ctl.cfg.tsh ∧ ((stackAt t 1).thermStack 7).phase = 1 ∧ (SMap.get {} (stackAt t 1).mem.hbm 7 : Stack).tempC = t) ∧
    (let s : State := { up with keel := { safe := true } }; s.ctl.pwrgood = true ∧ s.keel.safe = true) ∧
    ((withMbox up 0x900 (two 0 5)).mboxRuns 0x900 (two 0 5) ∧ fieldLe (two 0 5) 0 2 = 1280 ∧ ∀ k, 2 ≤ k → k < 8 → byteAt (two 0 5) k = 0) :=
  ⟨by decide +kernel, fun _ => ⟨rfl, rfl⟩, by decide +kernel, by decide +kernel, by decide +kernel, by decide +kernel, by decide +kernel,
    by decide +kernel, by decide +kernel, mboxRuns_withMbox _ _ _ rfl (by decide), by decide +kernel⟩

/-! ### Witnesses: the block as a whole -/

/-- The outcome is a next state that satisfies this. -/
def answersNext (p : State → Bool) (o : Host.Outcome State Fault Refusal) : Bool :=
  match o with
  | .next t => p t
  | _ => false
/-- A device with these commands waiting. -/
def waitingFor (cs : List Instr) : State := { up with pending := cs }
/-- For AStepRunsTheFrontCommand, StepsTakeOneCommand, StepsKeepMemoryCanonical, LifeCycleTransitions. -/
theorem witness_queue :
    (waitingFor [.vrAlert, .vrAlertRelease]).pending = .vrAlert :: [.vrAlertRelease] ∧ up.pending = [] ∧
    answersNext (fun t => decide (t = up)) (step (waitingFor [.setpointTimeout 0])) = true ∧ State.reset.memoryCanonical = true := by decide +kernel
/-- For WellFormedCommandsComplete: one command is well-formed, one is not. -/
theorem witness_well_formed : Instr.wf .vrAlert = true ∧ Instr.wf (.idleWake 4) = false := by decide +kernel
/-- For SignsOfZeroSumsAndProducts: a sum of zeros of both signs, and a product of a negative and a positive number. -/
theorem witness_zero_sums :
    sumExact [.fin true 0 0, .fin false 0 0] = .fin false 0 0 ∧ ((FVal.fin true 3 0).mul (.fin false 5 0)).isNaN = false := by decide +kernel
/-- For TheSafeStateStays: a step of a device in the safe state. -/
theorem witness_safe_step :
    (let s : State := { waitingFor [.setpointTimeout 0] with keel := { safe := true } }
     answersNext (fun t => t.keel.safe && t.pending.isEmpty) (step s) = true ∧ s.keel.safe = true) ∧
    (waitingFor [.setpointTimeout 0]).pending.head? ≠ some .pwrgoodFall ∧
    (∀ b, (waitingFor [.setpointTimeout 0]).pending.head? ≠ some (.pwrgoodRise b)) ∧
    (∀ b, (waitingFor [.setpointTimeout 0]).pending.head? ≠ some (.internalColdRestart b)) :=
  ⟨by decide +kernel, by simp [waitingFor], by intro b; simp [waitingFor], by intro b; simp [waitingFor]⟩
/-- The program of partition 15 runs on tile 4607. -/
def resettable : State :=
  { up with tiles := [(4607, { state := 2, progPart := 15, partition := some 15 })], casket := { own := [(575, ⟨0x10F0000000F, 0x10F0000000F⟩)] } }
/-- For PartitionResets. -/
theorem witness_partition_resets :
    (3 < 4 ∧ 2 ≤ (resettable.tile 4607).state ∧ (resettable.tile 4607).progPart = 15 ∧ SMap.get none resettable.care.resets 15 = none) ∧
    (let s : State := { resettable with care := { resets := [(15, some ⟨1, 4607, 0, 0, false⟩)] } }
     casketSize - 1 < casketSize ∧ SMap.get none s.care.resets 15 = some ⟨1, 4607, 0, 0, false⟩ ∧ (∀ x, x ∈ s.work.flights → x.part ≠ 15) ∧ (s.sched 15).run = none ∧
      (s.tile 4607).failing = [] ∧ 4607 ∉ [0] ∧
      (s.tile 4607).partition = some 15 ∧ (∀ e, e ∈ s.tiles → e.1 = 0 → e.2.partition ≠ some 15) ∧
      segOwner (s.casketOwn 575).current 0 = some (15, true)) := by
  decide +kernel

/-! ### Values the spec works out -/

/-- R214: the check value over "123456789". -/
theorem test_block_checksum : crc64 [0x31, 0x32, 0x33, 0x34, 0x35, 0x36, 0x37, 0x38, 0x39] = 0x995DC9BBDF1939FA := by decide +kernel
/-- The example of Table 4.4: TOPK x10, x11, x12 is 0x00C5_A52B. -/
theorem test_topk_encoding : decodeWord32 0x00C5A52B = .topk 10 11 12 := by decide +kernel
/-- Example 2.2: three products of 2^-24 added to 1.0 in one chunk give 0x3F80_0002; a single one ties to even. -/
theorem test_chunk_rounding :
    code32 (accChunk false (f32 0x3F800000) [.fin false 1 (-24), .fin false 1 (-24), .fin false 1 (-24)]).1 = 0x3F800002 ∧
    code32 (accChunk false (f32 0x3F800000) [.fin false 1 (-24)]).1 = 0x3F800000 := by decide +kernel
/-- Example 2.1: 0.3, 5.0, -1.2 and 2.6 as E2M1. -/
theorem test_e2m1 :
    [f32 0x3E99999A, f32 0x40A00000, f32 0xBF99999A, f32 0x40266666].map (MxElem.quantise (.flt e2m1)) = [1, 6, 10, 5] := by decide +kernel
/-- Example 3.2: 2^0, 2^-2 and 1 / 2. -/
theorem test_functions :
    code32 (exp2 (f32 0)) = 0x3F800000 ∧ code32 (exp2 (f32 0xC0000000)) = 0x3E800000 ∧ code32 (rcp (f32 0x40000000)) = 0x3F000000 := by decide +kernel
/-- Example 7.1: the striped address 0x0012_3456_7890 and its local alias are one byte, in beat 2 of setting 2,386,092 of group 27. -/
theorem test_striped_address :
    storageOf 0x001234567890 = some ((27 * settingsPerGroup + 2386092) * 1024 + 144) ∧
    storageOf 0x0116D1A2B090 = storageOf 0x001234567890 ∧ pcUnit ((27 * settingsPerGroup + 2386092) * 1024 + 144) = 0x31B2 := by decide +kernel
/-- Example 8.1: slab 5 of group 27, served by slab 23 of group 5, reads there. -/
theorem test_evacuated_slab :
    let s : State := { up with mem := { slabs := [(24 * 27 + 5, { movedTo := some (24 * 5 + 23) })] } }
    storageOf 0x1B940000000 = some (s.redirect (slabBase (24 * 27 + 5))) := by decide +kernel
/-- The example of R206: a bead of tile 760 sees Casket address 0x0321_2345 at window offset 0x1_2345. -/
theorem test_casket_window : sliceOfTile 760 = 100 ∧ halfOfSlice 100 = 1 ∧ windowAddr 760 0x10012345 = 0x03212345 := by decide +kernel
/-- Example 11.1: the offset to the reference is reported as -40 ns. -/
theorem test_alignment_exchange :
    let m := msgOf 0x11 [(8, 8, 5000), (16, 4, 5157 * 256 + 64), (20, 4, 412 * 256), (26, 2, 3)] []
    let s : State := { up with tick := { count := 5000 }, tether := { parent := 8, ports := [(8, { state := 3, rx := [m], t1 := some (5000, 5000 * 256) })] } }
    answersNext (fun t => t.tick.offsetNs == -40 && (t.port 8).delayNs == 200) (exec (.syncRsp 8 5000 (5811 * 256 + 192)) s) = true := by decide +kernel
/-- FIPS 197, C.3: AES-256 of 00112233…ff under the key 000102…1f (R421 names the cipher). -/
theorem test_aes :
    aesEncrypt (roundKeys ((List.range 32).map (BitVec.ofNat 8))) ((List.range 16).map (fun i => BitVec.ofNat 8 (17 * i))) =
      [0x8e, 0xa2, 0xb7, 0xca, 0x51, 0x67, 0x45, 0xbf, 0xea, 0xfc, 0x49, 0x90, 0x4b, 0x49, 0x60, 0x89] := by decide +kernel
/-- VCMPEQ.B, VCMPLTU.B and VADDSU.B on one byte (Table 4.5). -/
theorem test_vector_bytes : vvByte 10 0 7 7 = 0xFF ∧ vvByte 11 0 10 12 = 0xFF ∧ vvByte 2 0 250 10 = 255 := by decide +kernel

/-! ### Ill-formed commands, which the check refuses: one for each check of WellFormed -/

theorem test_ill_formed_1 :
    ([.meshOfferDrop 16, .hintExpiry 16, .sealTakeEffect 64, .unsealZeroDone 64, .idleWake 4, .idleExitDone 4, .ringEnable 256 0,
     .ringDisable 256, .cringEnable 256 0, .cringDisable 256, .cringDrained 256, .casketOwnWrite 576 .full 0, .casketOwnApply 576,
     .kvrWrite 16 false .full 0, .memRegWrite 18 .full 0, .donorWrite 12 .full 0, .tgStart 512 0, .tgStop 512, .cdatRead 2,
     .tetherReplayTimeout 9, .commaLockLoss 72, .adaptationTimeout 9, .portBringupTimeout 9, .portRetryTimer 9, .lanesLocked 9, .hello 9,
     .join 9, .adopt 9, .syncReq 9 0 0 0, .syncRsp 9 0 0, .vote 9, .slowNotice 9, .messageForward 9, .tetherRead 9, .tetherWrite 9,
     .tetherWritePartial 9, .tetherAdd 9, .tetherSignal 9, .tetherReadData 9,
     .tetherDone 9] : List Instr).all (fun i => !i.wf) = true := by
  decide +kernel
theorem test_ill_formed_2 :
    ([.siteAlert 6, .siteTrainingAttempt 6, .advert 6 [], .lanes 6 [], .echo 6 [], .echoTimeout 6, .siteTrainingTimeout 6,
     .siteAttestPoll 6 none, .siteAttestTimeout 6, .canaryRead 512 false, .holdBudgetExpiry 32, .retrainAttemptEnd 32 false,
     .rebuildDone 32, .stormWindowEnd 34, .granuleFillDone 12582912, .partitionReset 16 [], .setpointReached 2, .setpointTimeout 2,
     .droopTrip 8 0, .droopStretchEnd 2 0, .persistentDroop 2 0, .stackDeferralEnd 8, .cattrip 8, .supplyComparator 4 0 0,
     .latentTest 12 false, .integerOp 4608, .branch 4608, .jump 4608, .beadLoad 4608 [], .beadStore 4608 [], .mul 4608, .div 4608,
     .csrAccess 4608, .fence 4608, .ecall 4608, .ebreak 4608, .mret 4608, .wfi 4608, .wfiWake 4608,
     .illegalInstruction 4608] : List Instr).all (fun i => !i.wf) = true := by
  decide +kernel
theorem test_ill_formed_3 :
    ([.vaddB 4608, .vsubB 4608, .vaddsuB 4608, .vsubsuB 4608, .vminuB 4608, .vmaxuB 4608, .vand 4608, .vor 4608, .vxor 4608, .vandn 4608,
     .vcmpeqB 4608, .vcmpltuB 4608, .vshufB 4608, .vsel 4608, .vshrB 4608, .vmsk 4608, .vextW 4608, .vsplatB 4608, .vinsW 4608,
     .vld 4608, .vst 4608, .kround 4608, .tstep 4608, .topk 4608, .lsec 4608, .lsef 4608, .fadd32 4608, .fmul32 4608, .fmax32 4608,
     .fexp2 4608, .frcp 4608, .fkey 4608, .beadClaspAdd 4608, .beadClaspValRead 4608, .txStore 4608, .rxLoad 4608, .txCfgWrite 4608,
     .rxCfgWrite 4608, .rxAwait 4608, .barrierArrive 4608] : List Instr).all (fun i => !i.wf) = true := by
  decide +kernel
theorem test_ill_formed_4 :
    ([.barrierWait 4608, .frame 4608, .xRstNRelease 6, .advertTimeout 6, .frameAlignTimeout 6,
     .pwrgoodRise { bootInput with straps := [0, 1, 2, 3, 0] }, .pwrgoodRise { bootInput with straps := [0, 1, 2, 3, 0, 4] },
     .pwrgoodRise { bootInput with hbm := [] }, .internalColdRestart { bootInput with hbm := [] }, .frameStart 16 [],
     .frameStart 0 [⟨0, 4608, 1⟩], .frameStart 0 [⟨0, 0, 0⟩], .frameStart 0 [⟨0, 0, 8⟩], .loopbackEnd 9 (List.replicate 8 ⟨true, 0⟩),
     .loopbackEnd 0 [], .instrumentLcTransition 3 [], .mboxCmdWrite (some 512) .full 0, .hdmDecoderCommit 2 0 0, .hdmDecoderCommit 0 1 0,
     .hdmDecoderCommit 0 0 1, .hdmDecoderCommit 0 0 0xD000000000, .hdmDecoderCommit 0 0xFFFFFFFFF0000000 0x20000000,
     .registerWrite 4 .full 0, .registerWrite 0x4000000 .full 0, .bar0UnsupportedAccess 0x4000000 1 true,
     .bar0UnsupportedAccess 4 4 true, .cxlMemWrite 32 0 (zeros 64), .cxlMemWrite (2 ^ 64) 0 (zeros 64), .cxlMemWrite 0 0 (zeros 63),
     .laneTestEnd 6 [], .laneTestEnd 5 [[]], .siteFrame 6 0 (zeros 272), .siteFrame 5 4 (zeros 272), .siteFrame 0 16 (zeros 272),
     .siteFrame 0 0 [], .siteReplayTimeout 6 0, .siteReplayTimeout 4 4, .siteRead 6 0, .siteRead 4 4,
     .siteWrite 6 0] : List Instr).all (fun i => !i.wf) = true := by
  decide +kernel
theorem test_ill_formed_5 :
    ([.siteWrite 4 4, .siteReadData 6 0, .siteReadData 4 4, .siteDone 6 0, .siteDone 4 4, .stackTempRead 8 0, .stackTempRead 0 256,
     .stackRefresh 512 0, .stackRefresh 0 64, .scrubRead 32 0 (List.replicate 16 (zeros 72)),
     .scrubRead 0 25165824 (List.replicate 16 (zeros 72)), .scrubRead 0 0 [], .scrubRead 0 0 (List.replicate 16 []),
     .stackCommandFailure 512 0, .stackCommandFailure 0 4, .evacuationSlabDone 32 [], .evacuationSlabDone 0 [25165824], .pmbusPoll [],
     .junctionSensorRead [], .entropyHealthFail 0, .entropyHealthFail 3, .oscillatorCheck (-32769) 0, .oscillatorCheck 32768 0,
     .oscillatorCheck 0 (-32769), .oscillatorCheck 0 32768, .egressTransfer ⟨.jtag, true, 768, 0, false, false, true, none, none⟩,
     .egressTransfer ⟨.jtag, true, 0, 16, false, false, true, none, none⟩,
     .egressTransfer ⟨.tether 9, true, 0, 0, false, false, true, none, none⟩,
     .egressTransfer ⟨.site 6, true, 0, 0, false, false, true, none, none⟩, .barrierRelease 16 0, .barrierRelease 0 16,
     .cxlCacheReadData 0 [] false, .tgDone 512 ⟨0, []⟩, .tgDone 0 ⟨0, [(0, [])]⟩, .cxlMemRead 1 ⟨[], [], 2⟩,
     .cxlMemRead (2 ^ 64) ⟨[], [], 2⟩, .cxlMemRead 0 ⟨[[]], [], 2⟩, .cxlMemRead 0 ⟨List.replicate 16 [], [], 2⟩,
     .cxlMemRead 0 ⟨[], [(1024, 0)], 2⟩, .cxlMemRead 0 ⟨[], [], 3⟩] : List Instr).all (fun i => !i.wf) = true := by
  decide +kernel
theorem test_ill_formed_6 :
    ([.tetherFlit 9 [], .tetherFlit 0 [⟨8, 0⟩], .tetherFlit 0 [⟨0, 4 ^ 2720⟩], .commaBlock 72 0 0, .commaBlock 0 0 (4 ^ 64),
     .trainingFrame 72 0 0 1, .trainingFrame 0 0 0 0, .trainingFrame 0 (4 ^ 64) 0 1, .eqnMeasurement 72 0 1, .eqnMeasurement 0 0 0,
     .calibration 32 none, .calibration 0 (some 16), .wcbWriteback 32 0 ⟨[], [], 2⟩, .wcbWriteback 0 25165824 ⟨[], [], 2⟩,
     .wcbWriteback 0 0 ⟨[], [], 3⟩, .uncorrectableConsumed (.engineBuffer 32 0), .uncorrectableConsumed (.beadMemory 4608 0 0),
     .uncorrectableConsumed (.beadMemory 0 3 0), .uncorrectableConsumed (.meshWord 4608 0), .uncorrectableConsumed (.meshWord 0 4),
     .uncorrectableConsumed (.casket 16 0 1), .uncorrectableConsumed (.casket 0 0x12000000 1), .casketPatrolScrub 576 0 0 [],
     .casketPatrolScrub 0 0x80000 0 [], .casketPatrolScrub 0 0 0 [(0x12000000, 0)]] : List Instr).all (fun i => !i.wf) = true := by
  decide +kernel
/-- What exec answers for one of them. -/
theorem test_ill_formed_refused : exec (.vaddB 4608) up = .refused (.illFormed "VADD_B") := rfl

end Sys2Proof.Tests
end

section
/-! SUPPORT. What register writes and the recovery commands do, and the two statements of the scope about them (R5, R6, R10, R252, R289,
R301, R306, R309, R503 to R506): a rule per shared operation, an equation per command, then the statements. -/

namespace Sys2Proof.Machine

/-! ### Frames: what an update of one component leaves alone -/

theorem unchangedBut_withTick (s : State) (x : Tick) : unchangedBut [.tick] s { s with tick := x } :=
  ⟨fun c hc => by cases c with | tick => simp at hc | _ => rfl, rfl⟩

theorem unchangedBut_withCtl (s : State) (x : Ctl) : unchangedBut [.ctl] s { s with ctl := x } :=
  ⟨fun c hc => by cases c with | ctl => simp at hc | _ => rfl, rfl⟩

theorem unchangedBut_withHost (s : State) (x : HostPort) : unchangedBut [.host] s { s with host := x } :=
  ⟨fun c hc => by cases c with | host => simp at hc | _ => rfl, rfl⟩

theorem unchangedBut_withWork (s : State) (x : Work) : unchangedBut [.work] s { s with work := x } :=
  ⟨fun c hc => by cases c with | work => simp at hc | _ => rfl, rfl⟩

theorem unchangedBut_withMbox (s : State) (x : Mbox) : unchangedBut [.mbox] s { s with mbox := x } :=
  ⟨fun c hc => by cases c with | mbox => simp at hc | _ => rfl, rfl⟩

theorem unchangedBut_withSail (s : State) (x : Sail) : unchangedBut [.sail] s { s with sail := x } :=
  ⟨fun c hc => by cases c with | sail => simp at hc | _ => rfl, rfl⟩

theorem unchangedBut_withCasket (s : State) (x : Casket) : unchangedBut [.casket] s { s with casket := x } :=
  ⟨fun c hc => by cases c with | casket => simp at hc | _ => rfl, rfl⟩

theorem unchangedBut_withMem (s : State) (x : Mem) : unchangedBut [.mem] s { s with mem := x } :=
  ⟨fun c hc => by cases c with | mem => simp at hc | _ => rfl, rfl⟩

theorem unchangedBut_withCare (s : State) (x : Care) : unchangedBut [.care] s { s with care := x } :=
  ⟨fun c hc => by cases c with | care => simp at hc | _ => rfl, rfl⟩

/-- A mailbox command that changes the control state and ends leaves the rest alone. -/
theorem unchangedBut_withCtl_mboxEnd (s : State) (x : Ctl) (code : Nat) (out : Bytes) :
    unchangedBut [.ctl, .mbox] s (({ s with ctl := x } : State).mboxEnd code out) :=
  ((unchangedBut_withCtl s x).mono (by simp)).trans ((unchangedBut_withMbox _ _).mono (by simp))

/-! ### Field checks of a mailbox payload (R307) -/

/-- No check fails exactly when all of them pass. -/
theorem firstFail_eq_none_iff (l : List (Nat × Bool)) : firstFail l = none ↔ ∀ c, c ∈ l → c.2 = true := by
  induction l with
  | nil => simp [firstFail]
  | cons c l ih => obtain ⟨o, ok⟩ := c; cases ok <;> simp [firstFail, ih]

@[simp] theorem firstFail_nil : firstFail [] = none := rfl

@[simp] theorem firstFail_cons_pass (o : Nat) (l : List (Nat × Bool)) : firstFail ((o, true) :: l) = firstFail l := rfl

/-- Reserved bytes that are all zero pass. -/
theorem firstFail_reservedChecks {b : Bytes} {lo hi : Nat} (h : ∀ i, lo ≤ i → i < hi → byteAt b i = 0) :
    firstFail (reservedChecks b lo hi) = none := by
  refine (firstFail_eq_none_iff _).2 fun c hc => ?_
  obtain ⟨i, hi, rfl⟩ := List.mem_map.1 hc
  rw [List.mem_range] at hi
  simp [h (lo + i) (by omega) (by omega)]

/-! ### Mailbox commands that every life-cycle state serves -/

/-- A running command that passes its length check and its field checks has its effect (R307). -/
theorem exec_eq_of_mailboxLc {o : Host.Outcome State Fault Refusal} {s : State} {op : Nat} {b : Bytes} {lenOk : Nat → Bool}
    {checks : Bytes → List (Nat × Bool)} {k : Bytes → State}
    (ho : o = .next (s.mailboxLc op lenOk [0, 1, 2, 3, 4, 5] checks k)) (h : s.mboxRuns op b) (hl : lenOk b.length = true)
    (hc : firstFail (checks b) = none) : o = .next (k b) := by
  have hs : [0, 1, 2, 3, 4, 5].contains s.locket.lc = true := by
    obtain ⟨-, -, -, -, -, hlc⟩ := h
    simp only [List.contains_eq_mem, List.mem_cons, List.not_mem_nil, decide_eq_true_eq]
    omega
  rw [ho, State.mailboxLc_runs h hl hs hc]

/-- The same for a command of one length. -/
theorem exec_eq_of_mailbox {o : Host.Outcome State Fault Refusal} {s : State} {op len : Nat} {b : Bytes}
    {checks : Bytes → List (Nat × Bool)} {k : Bytes → State} (ho : o = .next (s.mailbox op len checks k)) (h : s.mboxRuns op b)
    (hl : b.length = len) (hc : firstFail (checks b) = none) : o = .next (k b) :=
  exec_eq_of_mailboxLc ho h (by simpa using hl) hc

/-! ### The level and the configuration report (R309, R503) -/

theorem exec_levelSet_one {s : State} {b : Bytes} (h : s.mboxRuns 0x10 b) (hl : b.length = 8) (h1 : byteAt b 0 = 1)
    (hz : ∀ i, 1 ≤ i → i < 8 → byteAt b i = 0) (hv : s.ctl.level = 0 ∨ s.ctl.level = 1) :
    exec .levelSet s = .next (({ s with ctl := { s.ctl with level := 1 } } : State).mboxOk (natLe 8 1)) := by
  rw [exec_eq_of_mailbox (o := exec .levelSet s) rfl h hl (by simp [h1, firstFail_reservedChecks hz])]
  have hn : ¬ (s.ctl.level ≠ 0 ∧ 1 ≠ s.ctl.level) := by omega
  simp only [h1, if_neg hn]

theorem exec_cfgReportRead_within {s : State} {b : Bytes} (h : s.mboxRuns 0x20 b) (hl : b.length = 8)
    (ho : fieldLe b 0 4 < s.report.length) (h1 : 1 ≤ fieldLe b 4 4) (h2 : fieldLe b 4 4 ≤ 4096)
    (hw : fieldLe b 0 4 + fieldLe b 4 4 ≤ s.report.length) :
    exec .cfgReportRead s = .next (s.mboxOk (slice s.report (fieldLe b 0 4) (fieldLe b 4 4))) := by
  rw [exec_eq_of_mailbox (o := exec .cfgReportRead s) rfl h hl (by simp [ho, h1, h2, hw])]

/-! ### The recovery commands (R504 to R506) -/

theorem exec_recoveryBegin_opens {s : State} {b : Bytes} (h : s.mboxRuns 0xB00 b) (hl : b.length = 8) (h1 : 8192 ≤ fieldLe b 0 4)
    (h2 : fieldLe b 0 4 ≤ 67108864) (hm : fieldLe b 0 4 % 16 = 0) (hz : ∀ i, 4 ≤ i → i < 8 → byteAt b i = 0)
    (hr : s.ctl.recovery = true) (hst : s.ctl.staging.state ≠ 2) :
    exec .recoveryBegin s = .next (({ s with ctl := { s.ctl with staging := ⟨1, fieldLe b 0 4, []⟩ } } : State).mboxOk []) := by
  rw [exec_eq_of_mailbox (o := exec .recoveryBegin s) rfl h hl (by simp [h1, h2, hm, firstFail_reservedChecks hz])]
  simp [hr, hst]

theorem exec_recoveryChunk_appends {s : State} {b : Bytes} (h : s.mboxRuns 0xB01 b) (h1 : 24 ≤ b.length) (h2 : b.length ≤ 4088)
    (hm : b.length % 16 = 8) (hst : s.ctl.staging.state = 1) (hat : fieldLe b 0 4 = s.ctl.staging.bytes.length)
    (hfit : s.ctl.staging.bytes.length + (b.length - 8) ≤ s.ctl.staging.length) (hz : ∀ i, 4 ≤ i → i < 8 → byteAt b i = 0) :
    exec .recoveryChunk s = .next (({ s with ctl := { s.ctl with
      staging := { s.ctl.staging with bytes := s.ctl.staging.bytes ++ b.drop 8 } } } : State).mboxOk []) := by
  rw [exec_eq_of_mailboxLc (o := exec .recoveryChunk s) rfl h (by simp [h1, h2, hm]) rfl]
  simp [hst, hat, Nat.not_lt.2 hfit, firstFail_reservedChecks hz]

/-- A complete image that passes its checks is written, and the restart falls due. -/
theorem exec_recoveryCommit_passed {s : State} (h : s.mboxRuns 0xB02 []) (hst : s.ctl.staging.state = 1)
    (hall : s.ctl.staging.bytes.length = s.ctl.staging.length)
    (hok : imgCheck s.locket.lc s.locket.imageKeyHash s.ctl.staging.bytes = none) :
    exec (.recoveryCommit ⟨none⟩) s = .next ((({ s with ctl := { s.ctl with
      imageWritten := some (fieldLe (imgBytes s.ctl.staging.bytes) 24 8, (imgBytes s.ctl.staging.bytes).length) } } :
        State).restartDue).mboxOk []) := by
  rw [exec_eq_of_mailbox (o := exec (.recoveryCommit ⟨none⟩) s) rfl h rfl rfl]
  simp [hst, hall, hok]

/-- A complete image that fails a check is answered with that check and stays staged. -/
theorem exec_recoveryCommit_failed {s : State} {e : Nat × Nat} (h : s.mboxRuns 0xB02 []) (hst : s.ctl.staging.state = 1)
    (hall : s.ctl.staging.bytes.length = s.ctl.staging.length)
    (hbad : imgCheck s.locket.lc s.locket.imageKeyHash s.ctl.staging.bytes = some e) :
    exec (.recoveryCommit ⟨none⟩) s = .next (s.mboxEnd 3 (zeros 2 ++ natLe 1 e.1 ++ zeros 1 ++ natLe 4 e.2)) := by
  rw [exec_eq_of_mailbox (o := exec (.recoveryCommit ⟨none⟩) s) rfl h rfl rfl]
  simp [hst, hall, hbad]

theorem exec_recoveryRequest_idle {s : State} {b : Bytes} (h : s.mboxRuns 0xB03 b) (hl : b.length = 8) (h1 : byteAt b 0 = 1)
    (hz : ∀ i, 1 ≤ i → i < 8 → byteAt b i = 0) (hoff : ∀ p, p < 16 → (s.part p).enabled = false) :
    exec .recoveryRequest s = .next ((({ s with ctl := { s.ctl with recoveryRequest := true } } : State).restartDue).mboxOk []) := by
  have hn : (List.range 16).any (fun p => (s.part p).enabled) = false :=
    List.any_eq_false.2 fun p hp => by simp [hoff p (List.mem_range.1 hp)]
  rw [exec_eq_of_mailbox (o := exec .recoveryRequest s) rfl h hl (by simp [h1, firstFail_reservedChecks hz])]
  simp [hn]

theorem exec_recoveryStatus_eq {s : State} (h : s.mboxRuns 0xB04 []) :
    exec .recoveryStatus s = .next (s.mboxOk (natLe 4 s.ctl.staging.bytes.length ++ natLe 4 s.ctl.staging.length ++
      natLe 1 s.ctl.staging.state ++ zeros 7)) := by
  rw [exec_eq_of_mailbox (o := exec .recoveryStatus s) rfl h rfl rfl]

/-- Settles O24: each command passes its checks and has the one effect its equation gives. -/
theorem levelReportAndRecovery : Obligations.LevelReportAndRecovery := by
  refine ⟨⟨?level, ?report⟩, ?begins, ?chunk, ?commit, ?request, ?status⟩
  case level =>
    intro s b h hl h1 hz hv
    exact ⟨_, exec_levelSet_one h hl h1 hz hv, rfl, ⟨rfl, rfl⟩, unchangedBut_withCtl_mboxEnd ..⟩
  case report =>
    intro s b h hl ho h1 h2 hw
    exact ⟨_, exec_cfgReportRead_within h hl ho h1 h2 hw, ⟨rfl, rfl⟩, unchangedBut_withMbox ..⟩
  case begins =>
    intro s b h hl h1 h2 hm hz hr hst
    exact ⟨_, exec_recoveryBegin_opens h hl h1 h2 hm hz hr hst, rfl, ⟨rfl, rfl⟩, unchangedBut_withCtl_mboxEnd ..⟩
  case chunk =>
    intro s b h h1 h2 hm hst hat hfit hz
    exact ⟨_, exec_recoveryChunk_appends h h1 h2 hm hst hat hfit hz, rfl, ⟨rfl, rfl⟩, unchangedBut_withCtl_mboxEnd ..⟩
  case commit =>
    intro s h hst hall
    cases hchk : imgCheck s.locket.lc s.locket.imageKeyHash s.ctl.staging.bytes with
    | none =>
      refine ⟨_, exec_recoveryCommit_passed h hst hall hchk, fun _ => ?_, fun e he => ?_⟩
      · exact ⟨rfl, ⟨rfl, rfl⟩, unchangedBut_withCtl_mboxEnd .., rfl⟩
      · cases he
    | some e =>
      refine ⟨_, exec_recoveryCommit_failed h hst hall hchk, fun hn => ?_, fun e' he => ?_⟩
      · cases hn
      · cases he
        exact ⟨⟨rfl, rfl⟩, unchangedBut_withMbox ..⟩
  case request =>
    intro s b h hl h1 hz hoff
    exact ⟨_, exec_recoveryRequest_idle h hl h1 hz hoff, rfl, rfl, ⟨rfl, rfl⟩, unchangedBut_withCtl_mboxEnd ..⟩
  case status =>
    intro s h
    exact ⟨_, exec_recoveryStatus_eq h, ⟨rfl, rfl⟩, unchangedBut_withMbox ..⟩

/-! ### Bits of a number -/

theorem bit_eq_testBit (x i : Nat) : bit x i = x.testBit i := by
  rw [Nat.testBit_eq_decide_div_mod_eq, bit, Bool.beq_eq_decide_eq]

theorem testBit_maskOf (is : List Nat) (k : Nat) : (maskOf is).testBit k = decide (k ∈ is) := by
  have fold : ∀ a : Nat, (is.foldl (fun a i => a ||| 2 ^ i) a).testBit k = (a.testBit k || decide (k ∈ is)) := by
    induction is with
    | nil => simp
    | cons i is ih =>
      intro a
      rw [List.foldl_cons, ih, Nat.testBit_or, Nat.testBit_two_pow, Bool.or_assoc]
      simp [eq_comm]
  simpa [maskOf] using fold 0

/-- A word taken from `old` where the mask has a bit and from `new` elsewhere (Table 8.17). -/
theorem testBit_merge {n i : Nat} (new old : Nat) {mask : Nat} (hm : mask < 2 ^ n) (hi : i < n) :
    ((new &&& (2 ^ n - 1 - mask)) ||| (old &&& mask)).testBit i = if mask.testBit i then old.testBit i else new.testBit i := by
  rw [Nat.sub_sub, Nat.add_comm 1, Nat.testBit_or, Nat.testBit_and, Nat.testBit_and, Nat.testBit_two_pow_sub_succ hm]
  cases mask.testBit i <;> simp [hi]

/-! ### Register writes (R5, R6) -/

/-- A write of a register of a unit the device has, while BAR0 takes writes. -/
theorem guarded_regWrite {m : String} {ok : Bool} {s : State} (k : State → State) (hok : ok = true) (h : s.regOpen = true) :
    guarded m ok (s.regWrite k) = .next (k s) := by
  rw [hok, State.regWrite_open _ _ h, guarded_true]

theorem exec_memRegWrite_open {s : State} {b : Nat} (hf : Half) (v : W64) (h : s.regOpen = true) (hb : b < 18) :
    exec (.memRegWrite b hf v) s = .next (s.writeMemReg b hf v) :=
  guarded_regWrite (fun s => s.writeMemReg b hf v) (decide_eq_true hb) h

theorem exec_donorWrite_open {s : State} {w : Nat} (hf : Half) (v : W64) (h : s.regOpen = true) (hw : w < 12) :
    exec (.donorWrite w hf v) s = .next (s.writeDonor w hf v) :=
  guarded_regWrite (fun s => s.writeDonor w hf v) (decide_eq_true hw) h

theorem exec_kvrWrite_open {s : State} {p : Nat} (limit : Bool) (hf : Half) (v : W64) (h : s.regOpen = true) (hp : p < 16) :
    exec (.kvrWrite p limit hf v) s = .next (s.writeKvr p limit hf v) :=
  guarded_regWrite (fun s => s.writeKvr p limit hf v) (decide_eq_true hp) h

theorem exec_casketOwnWrite_open {s : State} {sl : Nat} (hf : Half) (v : W64) (h : s.regOpen = true) (hsl : sl < 576) :
    exec (.casketOwnWrite sl hf v) s = .next (s.writeOwn sl hf v) :=
  guarded_regWrite (fun s => s.writeOwn sl hf v) (decide_eq_true hsl) h

theorem exec_mboxCmdWrite_open {s : State} {i : Option Nat} (hf : Half) (v : W64) (h : s.regOpen = true) (hi : i.getD 0 < 512) :
    exec (.mboxCmdWrite i hf v) s = .next (s.writeMbox i hf v) :=
  guarded_regWrite (fun s => s.writeMbox i hf v) (decide_eq_true hi) h

/-! ### The blocks' own registers -/

/-- A full write of a bucket's register sets its rate and its depth (Table 7.13). -/
theorem State.writeMemReg_full_same (s : State) (b : Nat) (v : W64) :
    SMap.get {} (s.writeMemReg b .full v).mem.buckets b =
      { SMap.get {} s.mem.buckets b with rate := v.toNat % 2 ^ 32, depth := v.toNat / 2 ^ 32 } := by
  simp [State.writeMemReg, State.updBucket, mergeHalf]

theorem State.writeMemReg_other (s : State) {b c : Nat} (hf : Half) (v : W64) (hc : c ≠ b) :
    SMap.get {} (s.writeMemReg b hf v).mem.buckets c = SMap.get {} s.mem.buckets c := by
  simp [State.writeMemReg, State.updBucket, hc]

/-- The slabs of word `w` whose donation is in force, as a mask. -/
def State.donatedMask (s : State) (w : Nat) : Nat := maskOf ((List.range 64).filter (fun i => (s.slab (64 * w + i)).hole))

theorem State.testBit_donatedMask (s : State) (w i : Nat) :
    (s.donatedMask w).testBit i = (decide (i < 64) && (s.slab (64 * w + i)).hole) := by
  simp [State.donatedMask, testBit_maskOf]

theorem State.donatedMask_lt (s : State) (w : Nat) : s.donatedMask w < 2 ^ 64 :=
  Nat.lt_pow_two_of_testBit _ fun i hi => by simp [State.testBit_donatedMask, Nat.not_lt.2 hi]

/-- A full write of a donor word takes the bits of the slabs that are not donated (R289). -/
theorem State.writeDonor_full_bit (s : State) (w : Nat) (v : W64) {i : Nat} (hi : i < 64) :
    bit (SMap.get 0 (s.writeDonor w .full v).care.donor w).toNat i =
      if (s.slab (64 * w + i)).hole then bit (SMap.get 0 s.care.donor w).toNat i else bit v.toNat i := by
  have hw : SMap.get 0 (s.writeDonor w .full v).care.donor w = BitVec.ofNat 64
      ((v.toNat &&& (2 ^ 64 - 1 - s.donatedMask w)) ||| ((SMap.get 0 s.care.donor w).toNat &&& s.donatedMask w)) :=
    SMap.get_set_same ..
  rw [hw, BitVec.toNat_ofNat]
  simp only [bit_eq_testBit, Nat.testBit_mod_two_pow, testBit_merge _ _ (s.donatedMask_lt w) hi, State.testBit_donatedMask, hi,
    decide_true, Bool.true_and]

/-- While the partition has no open or closing slot, a full write of a KV bound stores bits 56:21 (Table 3.12). -/
theorem State.writeKvr_full_free {s : State} {p : Nat} (limit : Bool) (v : W64)
    (hfree : ∀ e, e ∈ s.sail.slots → e.2.partition = p → e.2.state = 0) :
    s.writeKvr p limit .full v =
      if limit then
        { s with sail := { s.sail with kvrLimit := SMap.set 0 s.sail.kvrLimit p (v.toNat % 2 ^ 57 / 2 ^ 21 * 2 ^ 21) } }
      else { s with sail := { s.sail with kvrBase := SMap.set 0 s.sail.kvrBase p (v.toNat % 2 ^ 57 / 2 ^ 21 * 2 ^ 21) } } := by
  have hn : ¬ s.sail.slots.any (fun e => e.2.state != 0 && e.2.partition == p) = true := by
    rw [List.any_eq_true]
    rintro ⟨e, he, hc⟩
    simp only [Bool.and_eq_true, bne_iff_ne, beq_iff_eq] at hc
    exact hc.1 (hfree e he hc.2)
  rw [State.writeKvr, if_neg hn]
  rfl

theorem State.writeOwn_full_same (s : State) (sl : Nat) (v : W64) :
    (s.writeOwn sl .full v).casketOwn sl = { s.casketOwn sl with requested := v.toNat % 2 ^ 48 } := by
  simp [State.writeOwn, State.casketOwn, mergeHalf]

theorem State.writeOwn_other (s : State) {sl q : Nat} (hf : Half) (v : W64) (hq : q ≠ sl) :
    (s.writeOwn sl hf v).casketOwn q = s.casketOwn q := by
  simp [State.writeOwn, State.casketOwn, hq]

/-! ### The mailbox registers (R306) -/

theorem State.writeMbox_busy {s : State} (i : Option Nat) (hf : Half) (v : W64) (h : s.mbox.state = 1) : s.writeMbox i hf v = s :=
  if_pos h

theorem State.writeMbox_cmd_full {s : State} (v : W64) (h : s.mbox.state ≠ 1) :
    s.writeMbox none .full v = { s with mbox := { s.mbox with
      cmdSeq := bits v.toNat 47 32, cmdLength := bits v.toNat 28 16, cmdOpcode := bits v.toNat 15 0 } } :=
  if_neg h

theorem State.writeMbox_input_full {s : State} (i : Nat) (v : W64) (h : s.mbox.state ≠ 1) :
    s.writeMbox (some i) .full v = { s with mbox := { s.mbox with input := SMap.set 0 s.mbox.input i v } } := by
  rw [State.writeMbox, if_neg h]
  simp [SMap.upd, mergeHalf]

/-- A write of a mailbox register while it is busy changes nothing, whether or not BAR0 takes writes. -/
theorem exec_mboxCmdWrite_busy {s : State} {i : Option Nat} (hf : Half) (v : W64) (h : s.mbox.state = 1) (hi : i.getD 0 < 512) :
    exec (.mboxCmdWrite i hf v) s = .next s := by
  cases ho : s.regOpen with
  | true => rw [exec_mboxCmdWrite_open hf v ho hi, State.writeMbox_busy i hf v h]
  | false =>
    refine ((guarded_eq "MBOX_CMD_WRITE" _ _).1 (decide_eq_true hi)).trans ?_
    rw [State.regWrite_closed _ _ ho]

/-! ### Writes by BAR0 offset (R5, R6, R487) -/

theorem exec_registerWrite_open {s : State} {off : Nat} (hf : Half) (v : W64) (h : s.regOpen = true) (ha : off % 8 = 0)
    (hb : off < 0x4000000) : exec (.registerWrite off hf v) s = .next (s.writeBlock off hf v) := by
  refine ((guarded_eq "REGISTER_WRITE" _ _).1 (by simp [ha, hb])).trans ?_
  rw [if_pos h]

/-- While BAR0 takes no writes, one to any register but TICK.CFG is dropped. -/
theorem exec_registerWrite_closed {s : State} {off : Nat} (hf : Half) (v : W64) (h : s.regOpen = false) (hne : off ≠ 0x200000)
    (ha : off % 8 = 0) (hb : off < 0x4000000) : exec (.registerWrite off hf v) s = .next s := by
  refine ((guarded_eq "REGISTER_WRITE" _ _).1 (by simp [ha, hb])).trans ?_
  simp [h, hne]

/-- Before release TICK.CFG takes a write (R487). -/
theorem exec_registerWrite_tickCfg {s : State} (hf : Half) (v : W64) (hp : s.ctl.pwrgood = true) (hr : s.ctl.released = false)
    (hl : s.host.linkUp = true) : exec (.registerWrite 0x200000 hf v) s = .next (s.writeTickCfg hf v) := by
  refine ((guarded_eq "REGISTER_WRITE" _ _).1 rfl).trans ?_
  simp [State.regOpen, hp, hr, hl]

/-- A write in a block that holds no writable register is dropped (Table 18.1). -/
theorem State.writeBlock_readOnly {s : State} {off : Nat} (hf : Half) (v : W64)
    (h : off / 0x100000 ∉ [4, 6, 7, 9, 10, 11, 12, 19, 20, 21]) : s.writeBlock off hf v = s := by
  unfold State.writeBlock
  split <;> simp_all

/-- The offset of element `i` of an array lies on that element. -/
theorem elemOf_elem {base n stride i : Nat} (hi : i < n) (hs : 0 < stride) : elemOf (base + stride * i) base n stride = some i := by
  have hlt : stride * i < n * stride := by rw [Nat.mul_comm n]; exact Nat.mul_lt_mul_of_pos_left hi hs
  have hc : base ≤ base + stride * i ∧ base + stride * i < base + n * stride ∧ (base + stride * i - base) % stride = 0 := by
    refine ⟨by omega, by omega, ?_⟩
    rw [Nat.add_sub_cancel_left, Nat.mul_mod_right]
  rw [elemOf, if_pos hc, Nat.add_sub_cancel_left, Nat.mul_div_cancel_left i hs]

/-- The offset of RING.BASE[r] writes that register. -/
theorem State.writeBlock_ringBase (s : State) {r : Nat} (v : W64) (hr : r < 256) :
    s.writeBlock (0x400000 + 0x20 * r) .full v = s.writeRingBase r v.toNat := by
  have hblock : (0x400000 + 0x20 * r) / 0x100000 = 4 := by omega
  have hoff : (0x400000 + 0x20 * r) % 0x100000 = 0x20 * r := by omega
  have hdiv : 0x20 * r / 0x20 * 0x20 = 0 + 0x20 * r := by omega
  have hreg : 0x20 * r % 0x20 = 0 := by omega
  simp only [State.writeBlock, hblock, hoff, State.writeRingBlock, hdiv, hreg, elemOf_elem hr (by decide : 0 < 0x20), mergeHalf]

/-- The storage address of a ring that is not enabled is set (R318). -/
theorem State.ring_writeRingBase {s : State} {r : Nat} (w : Nat) (he : (s.ring r).enable = false) :
    (s.writeRingBase r w).ring r = { s.ring r with base := baseField w } := by
  have hr : (SMap.get {} s.work.rings r : Ring).enable = false := he
  simp [State.writeRingBase, State.updRing, State.ring, hr]

theorem State.ring_writeRingBase_other (s : State) {r q : Nat} (w : Nat) (hq : q ≠ r) : (s.writeRingBase r w).ring q = s.ring q := by
  simp [State.writeRingBase, State.updRing, State.ring, hq]

/-- The offset of MEMC.CFG writes that register, each field clamped (R295). -/
theorem State.writeBlock_memcCfg (s : State) (v : W64) :
    s.writeBlock 0xB00000 .full v = { s with care := { s.care with
      stormPeriods := clampNat 1 255 (bits v.toNat 47 40), leakMs := clampNat 1 60000 (bits v.toNat 31 16),
      scrubHours := clampNat 1 168 (bits v.toNat 15 8) } } := by
  simp only [State.writeBlock, Nat.reduceDiv, Nat.reduceMod, State.writeMemcBlock, if_true, mergeHalf]

theorem State.writeTickCfg_full_unchanged (s : State) (v : W64) : unchangedBut [.tick, .ctl] s (s.writeTickCfg .full v) :=
  ((unchangedBut_withTick s _).mono (by simp)).trans ((unchangedBut_withCtl _ _).mono (by simp))

/-! ### Unsupported accesses and the HDM decoders (R5, R301) -/

theorem exec_bar0UnsupportedAccess_up {s : State} {off bytes : Nat} (w : Bool) (hb : off < 0x4000000)
    (hu : ¬ ((bytes = 4 ∨ bytes = 8) ∧ off % bytes = 0)) (hl : s.host.linkUp = true) :
    exec (.bar0UnsupportedAccess off bytes w) s = .next { s with out := s.out ++ [.unsupportedRequest off] } := by
  have hok : (decide (off < 0x4000000) && !((bytes == 4 || bytes == 8) && off % bytes == 0)) = true := by
    simpa [hb, imp_iff_not_or, not_or] using hu
  refine ((guarded_eq "BAR0_UNSUPPORTED_ACCESS" _ _).1 hok).trans ?_
  rw [if_pos hl]
  rfl

/-- A range that an HDM decoder can take: whole 256 MiB, of the device's size at most, below 2^64 (R301). -/
def hdmRange (base size : Nat) : Prop :=
  base % 2 ^ 28 = 0 ∧ size % 2 ^ 28 = 0 ∧ size ≤ 0xC000000000 ∧ base + size ≤ 2 ^ 64

/-- Such a range passes the command's own checks. -/
theorem hdmRange_checks {d base size : Nat} (hd : d < 2) (h : hdmRange base size) :
    (decide (d < 2) && base % 2 ^ 28 == 0 && size % 2 ^ 28 == 0 && decide (size ≤ 0xC000000000) && decide (base + size ≤ 2 ^ 64))
      = true := by
  obtain ⟨hb, hs, hcap, hend⟩ := h
  simp only [hd, hb, hs, hcap, hend, beq_self_eq_true, decide_true, Bool.and_self]

/-- Decoder 0 takes the range unless it is locked. -/
theorem exec_hdmDecoderCommit_zero {s : State} {base size : Nat} (h : hdmRange base size) :
    exec (.hdmDecoderCommit 0 base size) s =
      .next { s with host := { s.host with hdm0 := some (s.host.hdm0.getD (base, size)) } } := by
  refine ((guarded_eq "HDM_DECODER_COMMIT" _ _).1 (hdmRange_checks (by decide) h)).trans ?_
  cases hd : s.host.hdm0 with
  | none => simp
  | some x =>
    simp only [Option.isSome_some, if_true, Option.getD_some]
    rw [← hd]

/-- Decoder 1 takes the range unless it is locked. -/
theorem exec_hdmDecoderCommit_one {s : State} {base size : Nat} (h : hdmRange base size) :
    exec (.hdmDecoderCommit 1 base size) s =
      .next { s with host := { s.host with hdm1 := some (s.host.hdm1.getD (base, size)) } } := by
  refine ((guarded_eq "HDM_DECODER_COMMIT" _ _).1 (hdmRange_checks (by decide) h)).trans ?_
  cases hd : s.host.hdm1 with
  | none => simp
  | some x =>
    simp only [hd, Option.isSome_some, if_true, Option.getD_some, one_ne_zero, if_false]
    rw [← hd]

/-! ### The statement on register writes -/

/-- Settles O10: each write's equation names the state it gives, and the laws of families read the one entry it changes. -/
theorem registerWrites : Obligations.RegisterWrites := by
  refine ⟨⟨?bucket, ?donor, ?kvr, ?own⟩, ⟨?cmd, ?input, ?busy⟩, ⟨?ringBase, ?memcCfg, ?readOnly, ?tickCfg, ?closed⟩, ?unsupported, ?hdm⟩
  case bucket =>
    intro s b v h hb
    refine ⟨_, exec_memRegWrite_open .full v h hb, ?_, ?_, fun c hc => State.writeMemReg_other s .full v hc, rfl, unchangedBut_withMem ..⟩
    · rw [State.writeMemReg_full_same]
    · rw [State.writeMemReg_full_same]
  case donor =>
    intro s w v h hw
    exact ⟨_, exec_donorWrite_open .full v h hw, fun i hi => State.writeDonor_full_bit s w v hi,
      fun u hu => SMap.get_set_other _ _ _ _ _ hu, unchangedBut_withCare ..⟩
  case kvr =>
    intro s p limit v h hp hfree
    refine ⟨_, exec_kvrWrite_open limit .full v h hp, ?_⟩
    rw [State.writeKvr_full_free limit v hfree]
    cases limit with
    | true =>
      simp only [if_true, SMap.get_set_same, true_and]
      exact unchangedBut_withSail ..
    | false =>
      simp only [Bool.false_eq_true, if_false, SMap.get_set_same, true_and]
      exact unchangedBut_withSail ..
  case own =>
    intro s sl v h hsl
    exact ⟨_, exec_casketOwnWrite_open .full v h hsl, State.writeOwn_full_same s sl v, fun q hq => State.writeOwn_other s .full v hq, rfl,
      unchangedBut_withCasket ..⟩
  case cmd =>
    intro s v h hst
    rw [exec_mboxCmdWrite_open .full v h (by decide), State.writeMbox_cmd_full v hst]
  case input =>
    intro s i v h hst hi
    refine ⟨_, exec_mboxCmdWrite_open .full v h hi, ?_⟩
    rw [State.writeMbox_input_full i v hst]
    exact ⟨SMap.get_set_same .., fun j hj => SMap.get_set_other _ _ _ _ _ hj, unchangedBut_withMbox ..⟩
  case busy =>
    intro s k hf v hst hk
    exact exec_mboxCmdWrite_busy hf v hst hk
  case ringBase =>
    intro s r v h hr he
    refine ⟨_, exec_registerWrite_open .full v h (by omega) (by omega), ?_⟩
    rw [State.writeBlock_ringBase s v hr]
    exact ⟨State.ring_writeRingBase _ he, fun q hq => State.ring_writeRingBase_other s _ hq, rfl, unchangedBut_withWork ..⟩
  case memcCfg =>
    intro s v h
    refine ⟨_, exec_registerWrite_open .full v h (by decide) (by decide), ?_⟩
    rw [State.writeBlock_memcCfg]
    exact ⟨rfl, rfl, rfl, rfl, unchangedBut_withCare ..⟩
  case readOnly =>
    intro s off hf v h ha hb hblock
    rw [exec_registerWrite_open hf v h ha hb, State.writeBlock_readOnly hf v hblock]
  case tickCfg =>
    intro s v hp hr hl
    exact ⟨_, exec_registerWrite_tickCfg .full v hp hr hl, rfl, State.writeTickCfg_full_unchanged s v⟩
  case closed =>
    intro s off hf v h hne ha hb
    exact exec_registerWrite_closed hf v h hne ha hb
  case unsupported =>
    intro s off bytes w hb hu hl
    exact exec_bar0UnsupportedAccess_up w hb hu hl
  case hdm =>
    intro s d base size hd hb hs hcap hend
    obtain rfl | rfl : d = 0 ∨ d = 1 := by omega
    · exact ⟨_, exec_hdmDecoderCommit_zero ⟨hb, hs, hcap, hend⟩, rfl, rfl, rfl, rfl, unchangedBut_withHost ..⟩
    · exact ⟨_, exec_hdmDecoderCommit_one ⟨hb, hs, hcap, hend⟩, rfl, rfl, rfl, rfl, unchangedBut_withHost ..⟩

end Sys2Proof.Machine
end

section
/-! SUPPORT. The step on the queue, release and the host link: frames of shared operations, an equation per command, and the statements
O1 and O23 (R13, R296, R298, R478, R487, R488, R507). -/

namespace Sys2Proof.Machine

/-- Settles O1: both cases are the step's own equations. -/
theorem aStepRunsTheFrontCommand : Obligations.AStepRunsTheFrontCommand := ⟨step_cons, step_nil⟩

/-! ### Frames -/

theorem unchangedBut.ite {cs : List Comp} {s t u : State} {c : Prop} [Decidable c] (ht : unchangedBut cs s t) (hu : unchangedBut cs s u) :
    unchangedBut cs s (if c then t else u) := by
  split
  · exact ht
  · exact hu

theorem unchangedBut.foldl {cs : List Comp} {α : Type} {f : State → α → State} (l : List α)
    (hf : ∀ s a, unchangedBut cs s (f s a)) (s : State) :
    unchangedBut cs s (l.foldl f s) := by
  induction l generalizing s with
  | nil => exact .refl cs s
  | cons a l ih => exact (hf s a).trans (ih _)

theorem unchangedBut_withXlat (s : State) (x : Xlat) : unchangedBut [.xlat] s { s with xlat := x } :=
  ⟨fun c hc => by cases c with | xlat => simp at hc | _ => rfl, rfl⟩

theorem unchangedBut_withMesh (s : State) (x : Mesh) : unchangedBut [.mesh] s { s with mesh := x } :=
  ⟨fun c hc => by cases c with | mesh => simp at hc | _ => rfl, rfl⟩

theorem unchangedBut_withCtlHost (s : State) (c : Ctl) (h : HostPort) : unchangedBut [.ctl, .host] s { s with ctl := c, host := h } :=
  ((unchangedBut_withCtl s c).mono (by simp)).trans ((unchangedBut_withHost _ h).mono (by simp))

theorem State.post_unchanged (s : State) (code severity part unit dt : Nat) : unchangedBut [.evt] s (s.post code severity part unit dt) :=
  ⟨fun c hc => by cases c with | evt => simp at hc | _ => rfl, rfl⟩

/-! ### Warm resets that fall due (R478) -/

/-- After release a warm reset falls due, unless one is due or runs. -/
theorem State.warmDue_first {s : State} (c : Nat) (hr : s.ctl.released = true) (hd : s.ctl.warmDue = none) (hw : s.ctl.warm = none) :
    s.warmDue c = { s with ctl := { s.ctl with warmDue := some c } } := by
  simp [State.warmDue, hr, hd, hw]

/-- Before release no warm reset falls due. -/
theorem State.warmDue_unreleased {s : State} (c : Nat) (hr : s.ctl.released = false) : s.warmDue c = s := by
  simp [State.warmDue, hr]

/-! ### Release (R488) -/

/-- The events of a release change the log and the note of a written image (R506) alone. -/
theorem State.releaseEvents_keeps (s : State) :
    s.releaseEvents.ctl.released = s.ctl.released ∧ s.releaseEvents.ctl.step = s.ctl.step ∧ s.releaseEvents.ctl.bootNs = s.ctl.bootNs ∧
      unchangedBut [.evt, .ctl] s s.releaseEvents := by
  unfold State.releaseEvents
  extract_lets +onlyGivenNames adj host groups s1 s2 s3
  have h3 : unchangedBut [.evt] s s3 :=
    ((State.post_unchanged ..).trans (.ite (.refl ..) (State.post_unchanged ..))).trans (.ite (State.post_unchanged ..) (.refl ..))
  have hc : s3.ctl = s.ctl := h3.1 .ctl (by simp)
  rw [← hc]
  split
  · exact ⟨rfl, rfl, rfl, h3.mono (by simp)⟩
  · refine ⟨rfl, rfl, rfl, (h3.mono (by simp)).trans ?_⟩
    exact ((unchangedBut_withCtl s3 _).mono (by simp)).trans ((State.post_unchanged ..).mono (by simp))

/-- Every release outside the safe state sets both halves to P1; tick and control state keep the rest. -/
theorem State.released_keeps {s : State} (h : s.keel.safe = false) :
    s.released.tick = { s.tick with localP := 1, agreedP := 1, currentP := 1, freqAt := 0 } ∧
      s.released.mesh.westP = 1 ∧ s.released.mesh.eastP = 1 ∧ s.released.ctl = s.ctl ∧ s.released.mem = s.mem := by
  unfold State.released
  split <;> simp [h, State.syncEngines]

/-- Tick 0 begins at the edge `at_` (R488). -/
def State.beginTickZero (s : State) (at_ : Nat) : State :=
  let s := (s.arrive at_).numberBeads
  let k := s.keel
  { s with
    tick := { s.tick with epoch := s.tick.time, count := 0, phase := 0 }
    sail := { s.sail with configured := s.ctl.cfg.engines }
    keel := if k.newCause then k else { k with first := 0, mask := 0, unit := 0, causeAt := 0 }
    ctl := { s.ctl with step := 13, released := true, bootNs := s.tick.time } }

theorem exec_release_ready {s : State} (at_ : Nat) (hp : s.ctl.pwrgood = true) (hr : s.ctl.released = false) (hh : s.ctl.halted = false)
    (hs : s.keel.safe = false) (h8 : 8 ≤ s.ctl.step) (hq : s.sitesPending = false) :
    exec (.release at_) s = .next (s.beginTickZero at_).released.showUnits.syncKeel.releaseEvents := by
  refine congrArg Host.Outcome.next (if_neg ?_)
  simp [hp, hr, hh, hs, Nat.not_lt.2 h8, hq]

theorem State.arrive_time_unreleased {s : State} (at_ : Nat) (hr : s.ctl.released = false) : (s.arrive at_).tick.time = max s.tick.time at_ := by
  simp [State.arrive, hr]

theorem State.beginTickZero_safe (s : State) (at_ : Nat) : (s.beginTickZero at_).keel.safe = s.keel.safe := by
  simp only [State.beginTickZero]
  split <;> rfl

/-! ### PERST_N and the host link (R296, R487) -/

theorem State.trainHost_linkUp (s : State) :
    s.trainHost.host.linkUp = (hostWidths.any s.host.cfg.widths.contains && hostRates.any s.host.cfg.rates.contains) := by
  rw [← List.isSome_find?, ← List.isSome_find?]
  unfold State.trainHost
  split
  · rename_i hw hr
    simp only [hw, hr, Option.isSome_some, Bool.and_self]
  · rename_i h
    cases hw : hostWidths.find? s.host.cfg.widths.contains with
    | none => rfl
    | some w =>
      cases hr : hostRates.find? s.host.cfg.rates.contains with
      | none => rfl
      | some r => exact absurd hr (h w r hw)

theorem State.trainHost_keeps (s : State) : s.trainHost.host.cfg = s.host.cfg ∧ unchangedBut [.host] s s.trainHost := by
  unfold State.trainHost
  split <;> exact ⟨rfl, unchangedBut_withHost s _⟩

theorem exec_perstNAssert_high {s : State} (hp : s.ctl.pwrgood = true) (hn : s.ctl.perstN = true) :
    exec .perstNAssert s = .next (({ s with ctl := { s.ctl with perstN := false } } : State).hostPortReset.warmDue 2) := by
  refine congrArg Host.Outcome.next (if_neg ?_)
  simp [hp, hn]

theorem exec_perstNDeassert_low {s : State} (h : HostCfg) (hp : s.ctl.pwrgood = true) (hn : s.ctl.perstN = false) :
    exec (.perstNDeassert h) s = .next (if 3 ≤ s.ctl.step then
      ({ s with ctl := { s.ctl with perstN := true }, host := { s.host with cfg := h } } : State).trainHost
      else { s with ctl := { s.ctl with perstN := true }, host := { s.host with cfg := h } }) := by
  refine congrArg Host.Outcome.next (if_neg ?_)
  simp [hp, hn]

/-- Settles O23: the equation of each command, and what the parts of a release keep. -/
theorem releaseAndHostLink : Obligations.ReleaseAndHostLink := by
  refine ⟨?release, ?assertEarly, ?assertLate, ?deassert, ?hotReset, ?d3hot⟩
  case release =>
    intro s at_ hp hr hh hs h8 hq
    refine ⟨_, exec_release_ready at_ hp hr hh hs h8 hq, ?_⟩
    have ha := State.arrive_time_unreleased at_ hr
    obtain ⟨htick, hwest, heast, hctl, hmem⟩ := State.released_keeps ((s.beginTickZero_safe at_).trans hs)
    obtain ⟨hrel, hstep, hboot, hu⟩ := (s.beginTickZero at_).released.showUnits.syncKeel.releaseEvents_keeps
    have ht := (hu.1 .tick (by simp)).trans htick
    refine ⟨hrel.trans (congrArg Ctl.released hctl), hstep.trans (congrArg Ctl.step hctl), congrArg Tick.count ht, congrArg Tick.phase ht,
      (congrArg Tick.epoch ht).trans ha, hboot.trans ((congrArg Ctl.bootNs hctl).trans ha), ?_, ?_, (hu.1 .mem (by simp)).trans hmem⟩
    · exact (congrArg Mesh.westP (hu.1 .mesh (by simp))).trans hwest
    · exact (congrArg Mesh.eastP (hu.1 .mesh (by simp))).trans heast
  case assertEarly =>
    intro s hp hn hr
    refine ⟨_, (exec_perstNAssert_high hp hn).trans (congrArg Host.Outcome.next (State.warmDue_unreleased 2 ?_)), rfl, rfl, rfl,
      unchangedBut_withCtlHost ..⟩
    exact hr
  case assertLate =>
    intro s hp hn hr hd hw
    refine ⟨_, (exec_perstNAssert_high hp hn).trans (congrArg Host.Outcome.next (State.warmDue_first 2 ?_ ?_ ?_)), rfl,
      unchangedBut_withCtlHost ..⟩
    exacts [hr, hd, hw]
  case deassert =>
    intro s h hp hn
    refine ⟨_, exec_perstNDeassert_low h hp hn, ?_⟩
    have hu := unchangedBut_withCtlHost s { s.ctl with perstN := true } { s.host with cfg := h }
    split
    · obtain ⟨hcfg, ht⟩ := State.trainHost_keeps ({ s with ctl := { s.ctl with perstN := true }, host := { s.host with cfg := h } })
      refine ⟨congrArg Ctl.perstN (ht.1 .ctl (by simp)), hcfg, hu.trans (ht.mono (by simp)), fun _ => State.trainHost_linkUp _⟩
    · exact ⟨rfl, rfl, hu, fun h3 => absurd h3 ‹_›⟩
  case hotReset =>
    intro s hl hr hd hw
    exact ⟨_, congrArg Host.Outcome.next ((if_neg (by simp [hl])).trans (State.warmDue_first 2 hr hd hw)), rfl, rfl, rfl,
      unchangedBut_withCtlHost ..⟩
  case d3hot =>
    intro s hl
    exact congrArg Host.Outcome.next (if_pos hl)

end Sys2Proof.Machine
end

section
/-! SUPPORT. The tick is left alone by all that a boundary and a Settle phase do, but for the few operations that set it: one lemma per
operation, in the order of the model's files.  A fold of operations keeps the tick by `State.foldl_tick`, whose hypothesis simp proves where
it builds explicit proofs of the equations that hold by definition (`-implicitDefEqProofs`). -/

namespace Sys2Proof.Machine

/-- A fold keeps the tick if each of its steps does. -/
@[simp] theorem State.foldl_tick {α : Type} {f : State → α → State} (l : List α)
    (hf : ∀ (s : State) a, (f s a).tick = s.tick) (s : State) :
    (l.foldl f s).tick = s.tick := by
  induction l generalizing s with
  | nil => rfl
  | cons a l ih => rw [List.foldl_cons, ih, hf]

/-- The same where the fold carries something beside the state. -/
theorem State.foldl_fst_tick {α β : Type} {f : State × β → α → State × β} (l : List α) (hf : ∀ a x, (f a x).1.tick = a.1.tick)
    (a : State × β) : (l.foldl f a).1.tick = a.1.tick := by
  induction l generalizing a with
  | nil => rfl
  | cons x l ih => rw [List.foldl_cons, ih, hf]

/-! ### Machine/Ops.lean -/

@[simp] theorem State.postOnce_tick (s : State) (same : Event → Bool) (code severity part unit dt : Nat) :
    (s.postOnce same code severity part unit dt).tick = s.tick := by
  unfold State.postOnce; split <;> rfl

@[simp] theorem State.mboxOk_tick (s : State) (out : Bytes) : (s.mboxOk out).tick = s.tick := rfl

/-! ### Machine/MemOps.lean -/

@[simp] theorem State.charge_tick (s : State) (b cost : Nat) : (s.charge b cost).tick = s.tick := by
  unfold State.charge; split <;> rfl

@[simp] theorem State.postWaits_tick (s : State) (b : Nat) : (s.postWaits b).tick = s.tick := by
  unfold State.postWaits; split <;> rfl

/-! ### Machine/MemErr.lean -/

@[simp] theorem State.spoilResults_tick (s : State) (p : Nat) : (s.spoilResults p).tick = s.tick := rfl

@[simp] theorem State.startReset_tick (s : State) (p cause unit : Nat) : (s.startReset p cause unit).tick = s.tick := by
  simp [State.startReset, apply_ite State.tick]

@[simp] theorem State.chargeCe_tick (s : State) (b amount unit : Nat) : (s.chargeCe b amount unit).tick = s.tick := by
  simp [State.chargeCe, apply_ite State.tick]

@[simp] theorem State.postGroupState_tick (s : State) (n old new : Nat) (die : Option Nat) (dead : Bool) (lost : Nat) :
    (s.postGroupState n old new die dead lost).tick = s.tick := rfl

@[simp] theorem State.mappedOut_tick (s : State) (n : Nat) : (s.mappedOut n).tick = s.tick := rfl

@[simp] theorem State.beginSlab_tick (s : State) (n j donor : Nat) : (s.beginSlab n j donor).tick = s.tick := by
  simp [State.beginSlab, apply_ite State.tick]

@[simp] theorem State.startEvac_tick (s : State) (n : Nat) (flight : Option Nat) : (s.startEvac n flight).tick = s.tick := by
  unfold State.startEvac
  dsimp only
  split <;> simp

@[simp] theorem State.secondFault_tick (s : State) (n : Nat) : (s.secondFault n).tick = s.tick := by
  unfold State.secondFault; split <;> simp

@[simp] theorem State.dieDead_tick (s : State) (n a : Nat) : (s.dieDead n a).tick = s.tick := rfl

@[simp] theorem State.dieLocated_tick (s : State) (n a st : Nat) : (s.dieLocated n a st).tick = s.tick := by
  simp [State.dieLocated, apply_ite State.tick]

@[simp] theorem State.heedSetting_tick (s : State) (st : Nat) : (s.heedSetting st).tick = s.tick := by
  unfold State.heedSetting
  split
  · simp
  · split <;> simp

@[simp] theorem State.heedBeat_tick (s : State) (k : Nat) : (s.heedBeat k).tick = s.tick := by
  unfold State.heedBeat
  dsimp only
  repeat' split
  all_goals simp

@[simp] theorem State.heedBuffered_tick (s : State) (st i : Nat) : (s.heedBuffered st i).tick = s.tick := by
  unfold State.heedBuffered
  dsimp only
  repeat' split
  all_goals simp

@[simp] theorem State.heed_tick (s : State) (d n : Nat) : (s.heed d n).tick = s.tick := by
  unfold State.heed
  split
  · rfl
  · refine State.foldl_tick _ (fun u r => ?_) _
    split <;> simp [apply_ite State.tick]

@[simp] theorem State.undecodable_tick (s : State) (k : Nat) : (s.undecodable k).tick = s.tick := by
  simp [State.undecodable, apply_ite State.tick]

@[simp] theorem State.postUncorrectable_tick (s : State) (d : Nat) (bs : List (Byte × Bool)) (part consumer tag : Nat) :
    (s.postUncorrectable d bs part consumer tag).tick = s.tick := by
  unfold State.postUncorrectable
  split
  · simp
  · split <;> simp [apply_ite State.tick]

/-! ### Machine/MemBuf.lean -/

@[simp] theorem State.reportWb_tick (s : State) (l : WcbLine) (b : Nat) (read : Bool) : (s.reportWb l b read).tick = s.tick := by
  simp [State.reportWb, apply_ite State.tick]

@[simp] theorem State.wroteBack_tick (s : State) (l : WcbLine) (partialBeats : List Nat) : (s.wroteBack l partialBeats).tick = s.tick := by
  simp [State.wroteBack, apply_ite State.tick]

@[simp] theorem State.markRebuild_tick (s : State) (g : Nat) : (s.markRebuild g).tick = s.tick := by
  simp [State.markRebuild, apply_ite State.tick]

@[simp] theorem State.writeback_tick (s : State) (l : WcbLine) : (s.writeback l).tick = s.tick := by
  simp [State.writeback, apply_ite State.tick]

@[simp] theorem State.writebackAll_tick (s : State) (p : WcbLine → Bool) : (s.writebackAll p).tick = s.tick := by
  simp [State.writebackAll]

@[simp] theorem State.writebackFull_tick (s : State) (n : Nat) : (s.writebackFull n).tick = s.tick := by
  unfold State.writebackFull; split <;> simp

@[simp] theorem State.touchGranule_tick (s : State) (g : Nat) : (s.touchGranule g).tick = s.tick := by
  unfold State.touchGranule; split <;> simp

@[simp] theorem State.makeWay_tick (s : State) (setting : Nat) : (s.makeWay setting).tick = s.tick := by
  unfold State.makeWay
  dsimp only
  repeat' split
  all_goals simp

@[simp] theorem State.writeLine_tick (s : State) (k : Nat) (bs : List (Byte × Bool)) (writer : Nat) :
    (s.writeLine k bs writer).tick = s.tick := by
  simp [State.writeLine, apply_ite State.tick]

@[simp] theorem State.writeSetting_tick (s : State) (k : Nat) (bs : List (Byte × Bool)) (writer : Nat) :
    (s.writeSetting k bs writer).tick = s.tick := by
  unfold State.writeSetting; split <;> simp

@[simp] theorem State.writeDev_tick (s : State) (d : Nat) (bs : List (Byte × Bool)) (writer : Nat) :
    (s.writeDev d bs writer).tick = s.tick := by
  refine State.foldl_fst_tick _ (fun a r => ?_) _
  split <;> simp

/-! ### Machine/CasketOps.lean -/

@[simp] theorem State.heedCasketByte_tick (s : State) (a : Nat) : (s.heedCasketByte a).tick = s.tick := by
  unfold State.heedCasketByte; split <;> simp

@[simp] theorem State.heedCasket_tick (s : State) (a n : Nat) : (s.heedCasket a n).tick = s.tick := by
  simp [State.heedCasket]

@[simp] theorem State.casketBadRead_tick (s : State) (a reader part : Nat) : (s.casketBadRead a reader part).tick = s.tick := rfl

@[simp] theorem State.setSide_tick (s : State) (block crc : Nat) : (s.setSide block crc).tick = s.tick := rfl

/-! ### Machine/HostOps.lean -/

@[simp] theorem State.askCtl_tick (s : State) (l : Nat) : (s.askCtl l).tick = s.tick := by
  unfold State.askCtl; split <;> rfl

@[simp] theorem State.forgetLines_tick (s : State) : s.forgetLines.tick = s.tick := rfl

@[simp] theorem State.heedPlaces_tick (s : State) (ps : List (Place × Nat)) : (s.heedPlaces ps).tick = s.tick := by
  refine State.foldl_tick _ (fun u p => ?_) _
  split <;> simp

@[simp] theorem State.writePlace_tick (s : State) (pl : Place) (bs : List (Byte × Bool)) (p : Nat) : (s.writePlace pl bs p).tick = s.tick := by
  cases pl <;> simp [State.writePlace]

@[simp] theorem State.writePlaces_tick (s : State) (ps : List (Place × Nat)) (bs : List (Byte × Bool)) (p : Nat) :
    (s.writePlaces ps bs p).tick = s.tick :=
  State.foldl_fst_tick _ (fun a x => State.writePlace_tick a.1 x.1 (a.2.take x.2) p) _

@[simp] theorem State.stopCRing_tick (s : State) (c cause : Nat) : (s.stopCRing c cause).tick = s.tick := by
  simp [State.stopCRing, apply_ite State.tick]

@[simp] theorem State.stopRing_tick (s : State) (i cause : Nat) : (s.stopRing i cause).tick = s.tick := by
  simp [State.stopRing, apply_ite State.tick]

@[simp] theorem State.sendReq_tick (s : State) : s.sendReq.tick = s.tick := by
  unfold State.sendReq
  split
  · simp
  · split <;> simp

@[simp] theorem State.sendReqs_tick (s : State) : s.sendReqs.tick = s.tick := by
  simp [State.sendReqs]

@[simp] theorem State.askPage_tick (s : State) (pasid va : Nat) (w : Wait) : (s.askPage pasid va w).tick = s.tick := by
  simp [State.askPage, apply_ite State.tick]

@[simp] theorem State.writeFailed_tick (s : State) (why : WritePurpose) : (s.writeFailed why).tick = s.tick := by
  unfold State.writeFailed; split <;> simp

@[simp] theorem State.drainWrites_tick (fuel : Nat) (s : State) : (State.drainWrites fuel s).tick = s.tick := by
  induction fuel generalizing s with
  | zero => rfl
  | succ fuel ih =>
    rw [State.drainWrites]
    split
    · rfl
    · exact ih _
    · rw [ih]; simp
    · split <;> rfl
    · split
      · rw [ih]; simp [State.dropWrites]
      · split
        · split
          · rw [ih]; simp
          · exact ih _
        · simp [apply_ite State.tick]

@[simp] theorem State.drain_tick (s : State) : s.drain.tick = s.tick := State.drainWrites_tick _ s

/-! ### Machine/FlightOps.lean -/

@[simp] theorem State.updStrand_tick (s : State) (f j : Nat) (g : Strand → Strand) : (s.updStrand f j g).tick = s.tick := rfl

@[simp] theorem State.updStrands_tick (s : State) (f : Nat) (g : Strand → Strand) : (s.updStrands f g).tick = s.tick := rfl

@[simp] theorem State.unpinIf_tick (s : State) (p : Nat × Nat → Bool) : (s.unpinIf p).tick = s.tick := rfl

@[simp] theorem State.unpin_tick (s : State) (f : Nat) : (s.unpin f).tick = s.tick := rfl

@[simp] theorem State.dropWaits_tick (s : State) (f : Nat) : (s.dropWaits f).tick = s.tick := rfl

@[simp] theorem State.dropReads_tick (s : State) (f : Nat) : (s.dropReads f).tick = s.tick := by
  unfold State.dropReads
  split <;> simp [apply_ite State.tick]

@[simp] theorem State.accrue_tick (s : State) (x : Flight) (j : Nat) : (s.accrue x j).tick = s.tick := by
  simp [State.accrue, apply_ite State.tick]

@[simp] theorem State.accrueFlight_tick (s : State) (x : Flight) : (s.accrueFlight x).tick = s.tick := by
  simp [State.accrueFlight]

@[simp] theorem State.endFlight_tick (s : State) (f status dt : Nat) : (s.endFlight f status dt).tick = s.tick := by
  unfold State.endFlight; split <;> simp

@[simp] theorem State.askPages_tick (s : State) (pasid part : Nat) (ns : List PageNeed) (who : Waiter) (held : Bool) :
    (s.askPages pasid part ns who held).tick = s.tick := by
  simp [State.askPages, apply_ite State.tick]

@[simp] theorem State.installL1_tick (s : State) (tlb : Nat) (e : TlbEntry) : (s.installL1 tlb e).tick = s.tick := rfl

/-! ### Machine/Movers.lean -/

@[simp] theorem State.genCrc_tick (s : State) (ws : List ChkWindow) (p space b : Nat) : (s.genCrc ws p space b).tick = s.tick := by
  simp [State.genCrc, apply_ite State.tick]

@[simp] theorem State.countMismatch_tick (s : State) (space b : Nat) : (s.countMismatch space b).tick = s.tick := by
  unfold State.countMismatch; split <;> rfl

@[simp] theorem State.postCrcMismatch_tick (s : State) (ws : List ChkWindow) (p tag space b dstSlice : Nat) :
    (s.postCrcMismatch ws p tag space b dstSlice).tick = s.tick := by
  simp [State.postCrcMismatch]

@[simp] theorem State.reportBad_tick (s : State) (p tag : Nat) (bad : List (Place × List (Byte × Bool))) :
    (s.reportBad p tag bad).tick = s.tick := by
  refine State.foldl_tick _ (fun u a => ?_) _
  split <;> simp

@[simp] theorem State.fillRanges_tick (s : State) (p : Nat) (fill : Nat → Nat → List (Byte × Bool)) (rs : List Range) :
    (s.fillRanges p fill rs).tick = s.tick := by
  refine State.foldl_tick _ (fun u r => ?_) _
  simp [apply_ite State.tick]

@[simp] theorem State.blurRanges_tick (s : State) (p : Nat) (rs : List Range) : (s.blurRanges p rs).tick = s.tick := by
  simp [State.blurRanges]

/-! ### Machine/Attend.lean -/

@[simp] theorem State.commitOpen_tick (s : State) (x : Flight) : (s.commitOpen x).tick = s.tick := by
  simp [State.commitOpen, apply_ite State.tick]

@[simp] theorem State.commitSettle_tick (s : State) (x : Flight) : (s.commitSettle x).tick = s.tick := by
  simp [State.commitSettle, apply_ite State.tick]

@[simp] theorem State.commitKvWrite_tick (s : State) (x : Flight) : (s.commitKvWrite x).tick = s.tick := by
  unfold State.commitKvWrite
  split
  · rfl
  · dsimp only
    split
    · rfl
    · split
      · rfl
      · simp [apply_ite State.tick]

/-! ### Machine/MeshOps.lean -/

@[simp] theorem State.updRun_tick (s : State) (p : Nat) (f : RunState → RunState) : (s.updRun p f).tick = s.tick := rfl

@[simp] theorem State.fenceCore_tick (s : State) (t cause : Nat) : (s.fenceCore t cause).tick = s.tick := by
  unfold State.fenceCore; split <;> rfl

@[simp] theorem State.beadFault_tick (s : State) (p t memory addr : Nat) : (s.beadFault p t memory addr).tick = s.tick := by
  simp [State.beadFault, apply_ite State.tick]

/-! ### Machine/Beads.lean -/

@[simp] theorem State.beadBoundary_tick (s : State) : s.beadBoundary.tick = s.tick := by
  simp -implicitDefEqProofs [State.beadBoundary]

@[simp] theorem State.meshRunPhase_tick (s : State) : s.meshRunPhase.tick = s.tick := by
  simp -implicitDefEqProofs [State.meshRunPhase]

/-! ### Machine/SafeOps.lean -/

@[simp] theorem State.postRegion_tick (s : State) (r old new part : Nat) : (s.postRegion r old new part).tick = s.tick := rfl

@[simp] theorem State.setRegion_tick (s : State) (r : Nat) (x : Region) (part : Nat) : (s.setRegion r x part).tick = s.tick := rfl

@[simp] theorem State.orphanRegions_tick (s : State) : s.orphanRegions.tick = s.tick := by
  simp [State.orphanRegions, apply_ite State.tick]

@[simp] theorem State.zeroise_tick (s : State) (cause : Nat) : (s.zeroise cause).tick = s.tick := by
  simp [State.zeroise]

/-! ### Machine/MemCmds.lean -/

@[simp] theorem State.postAccess_tick (s : State) (code part unit a source : Nat) (rest : List (Nat × Nat)) :
    (s.postAccess code part unit a source rest).tick = s.tick := by
  simp [State.postAccess]

/-! ### Machine/MeshCmds.lean -/

@[simp] theorem State.touchRuns_tick (s : State) (p : Nat) : (s.touchRuns p).tick = s.tick := rfl

@[simp] theorem State.commitLoad_tick (s : State) (x : Flight) : (s.commitLoad x).tick = s.tick := by
  unfold State.commitLoad; split <;> rfl

@[simp] theorem State.unload_tick (s : State) (p : Nat) : (s.unload p).tick = s.tick := by
  simp -implicitDefEqProofs [State.unload]

@[simp] theorem State.commitUnload_tick (s : State) (x : Flight) : (s.commitUnload x).tick = s.tick := by
  simp [State.commitUnload, apply_ite State.tick]

@[simp] theorem State.commitWriteback_tick (s : State) (x : Flight) (tiles : List Nat) (off len : Nat) :
    (s.commitWriteback x tiles off len).tick = s.tick := by
  unfold State.commitWriteback
  split
  · dsimp only
    split
    · simp
    · refine State.foldl_tick _ (fun u e => ?_) _
      split <;> simp
  · rfl

@[simp] theorem State.commitProgram_tick (s : State) (x : Flight) : (s.commitProgram x).tick = s.tick := by
  simp [State.commitProgram, apply_ite State.tick]

@[simp] theorem State.offerRecords_tick (s : State) (x : Flight) (discarded : List Nat) : (s.offerRecords x discarded).tick = s.tick := by
  simp [State.offerRecords, apply_ite State.tick]

/-! ### Machine/Locket.lean -/

@[simp] theorem State.beginUnseals_tick (s : State) : s.beginUnseals.tick = s.tick := by
  simp [State.beginUnseals, apply_ite State.tick]

@[simp] theorem State.lcMove_tick (s : State) (goal : Nat) : (s.lcMove goal).tick = s.tick := rfl

@[simp] theorem State.runReturn_tick (s : State) : s.runReturn.tick = s.tick := by
  simp -implicitDefEqProofs [State.runReturn, apply_ite State.tick]

/-! ### Machine/Sites.lean -/

@[simp] theorem State.siteBoundary_tick (s : State) : s.siteBoundary.tick = s.tick := by
  simp -implicitDefEqProofs [State.siteBoundary]

/-! ### Machine/Rings.lean -/

/-- A read of the control plane that waits has asked for pages and lines only. -/
theorem State.ctlRead_wait_tick {s t : State} {part pasid va n : Nat} {who : Waiter} (h : s.ctlRead part pasid va n who = .wait t) :
    t.tick = s.tick := by
  unfold State.ctlRead at h
  split at h
  · cases h
  · split at h
    · cases h; simp
    · dsimp only at h
      split at h
      · cases h
      · split at h
        · cases h; rfl
        · split at h <;> cases h
    · split at h
      · cases h; simp
      · split at h <;> cases h
    · cases h

@[simp] theorem State.putRecord_tick (s : State) (x : Flight) : (s.putRecord x).tick = s.tick := by
  simp [State.putRecord, apply_ite State.tick]

@[simp] theorem State.putTail_tick (s : State) (c : Nat) : (s.putTail c).tick = s.tick := by
  simp [State.putTail, apply_ite State.tick]

@[simp] theorem State.putHead_tick (s : State) (i : Nat) : (s.putHead i).tick = s.tick := by
  simp [State.putHead, apply_ite State.tick]

@[simp] theorem State.dropRingWaits_tick (s : State) (i : Nat) : (s.dropRingWaits i).tick = s.tick := rfl

@[simp] theorem State.failHead_tick (s : State) (i status dt : Nat) : (s.failHead i status dt).tick = s.tick := by
  unfold State.failHead
  dsimp only
  split <;> simp

@[simp] theorem State.faultHead_tick (s : State) (i status : Nat) : (s.faultHead i status).tick = s.tick := by
  simp [State.faultHead, apply_ite State.tick]

/-! ### Machine/TetherLink.lean -/

@[simp] theorem State.sendCodeword_tick (s : State) (l : Nat) (slices : List Bytes) : (s.sendCodeword l slices).tick = s.tick := rfl

@[simp] theorem State.sendComma_tick (s : State) (p : Nat) : (s.sendComma p).tick = s.tick := rfl

@[simp] theorem State.sendGroups_tick (s : State) (p : Nat) (gs : List (List Bytes)) : (s.sendGroups p gs).tick = s.tick := by
  induction gs generalizing s with
  | nil => rfl
  | cons g gs ih => simp -implicitDefEqProofs [State.sendGroups, ih, apply_ite State.tick]

@[simp] theorem State.sendFlits_tick (s : State) (p : Nat) (fs : List Bytes) : (s.sendFlits p fs).tick = s.tick := by
  simp [State.sendFlits, apply_ite State.tick]

@[simp] theorem State.portPump_tick (s : State) (p : Nat) : (s.portPump p).tick = s.tick := by
  simp [State.portPump, apply_ite State.tick]

@[simp] theorem State.portSend_tick (s : State) (p : Nat) (m : TetherMsg) : (s.portSend p m).tick = s.tick := by
  simp [State.portSend]

@[simp] theorem State.sendLocal_tick (s : State) (p op : Nat) (body : Bytes) : (s.sendLocal p op body).tick = s.tick := by
  simp [State.sendLocal]

@[simp] theorem State.sendLocals_tick (s : State) (ps : List Nat) (op : Nat) (body : Bytes) : (s.sendLocals ps op body).tick = s.tick := by
  simp [State.sendLocals]

@[simp] theorem State.tetherOut_tick (s : State) (m : TetherMsg) : (s.tetherOut m).tick = s.tick := by
  unfold State.tetherOut
  split <;> simp

@[simp] theorem State.tetherAnswer_tick (s : State) (m : TetherMsg) (status : Nat) (data : Bytes) (poison : Bool) :
    (s.tetherAnswer m status data poison).tick = s.tick := by
  simp [State.tetherAnswer]

@[simp] theorem State.failRequests_tick (s : State) (p : Nat) : (s.failRequests p).tick = s.tick := rfl

/-! ### Machine/TetherOps.lean -/

@[simp] theorem State.signalsDone_tick (s : State) : s.signalsDone.tick = s.tick := by
  simp [State.signalsDone]

/-! ### Machine/TetherFabric.lean -/

@[simp] theorem State.chooseParent_tick (s : State) : s.chooseParent.tick = s.tick := rfl

@[simp] theorem State.tetherBoundary_tick (s : State) : s.tetherBoundary.tick = s.tick := by
  simp -implicitDefEqProofs [State.tetherBoundary, apply_ite State.tick]

@[simp] theorem State.openVote_tick (s : State) : s.openVote.tick = s.tick := by
  simp [State.openVote, apply_ite State.tick]

/-! ### Machine/Power.lean -/

@[simp] theorem State.updRail_tick (s : State) (r : Nat) (f : Rail → Rail) : (s.updRail r f).tick = s.tick := rfl

@[simp] theorem State.syncSetpoints_tick (s : State) : s.syncSetpoints.tick = s.tick := by
  simp [State.syncSetpoints, apply_ite State.tick]

@[simp] theorem State.shareOut_tick (s : State) (v : PowerView) : (s.shareOut v).tick = s.tick := by
  simp [State.shareOut]

@[simp] theorem State.divergence_tick (s : State) (v : PowerView) : (s.divergence v).tick = s.tick := by
  simp [State.divergence, apply_ite State.tick]

@[simp] theorem State.powerBoundary_tick (s : State) : s.powerBoundary.tick = s.tick := by
  simp [State.powerBoundary, apply_ite State.tick]

@[simp] theorem State.enterIdle_tick (s : State) (mode : Nat) : (s.enterIdle mode).tick = s.tick := by
  unfold State.enterIdle
  split
  · simp -implicitDefEqProofs
  · simp -implicitDefEqProofs [apply_ite State.tick]
  · rfl

@[simp] theorem State.postIdle_tick (s : State) (old new cause : Nat) : (s.postIdle old new cause).tick = s.tick := by
  unfold State.postIdle; split <;> rfl

@[simp] theorem State.idleBoundary_tick (s : State) : s.idleBoundary.tick = s.tick := by
  unfold State.idleBoundary
  split <;> simp [apply_ite State.tick]

@[simp] theorem State.wake_tick (s : State) (mode : Nat) : (s.wake mode).tick = s.tick := by
  unfold State.wake; split <;> rfl

/-! ### Machine/Thermal.lean -/

@[simp] theorem State.applyHint_tick (s : State) (p : Nat) (d : Bytes) : (s.applyHint p d).tick = s.tick := rfl

/-! ### Machine/Descs.lean -/

@[simp] theorem State.postRefusedAt_tick (s : State) (p : Nat) (d : Bytes) (st a n : Nat) : (s.postRefusedAt p d st a n).tick = s.tick := by
  unfold State.postRefusedAt
  dsimp only
  repeat' split
  all_goals simp

@[simp] theorem State.postRefused_tick (s : State) (p : Nat) (d : Bytes) (st : Nat) : (s.postRefused p d st).tick = s.tick := by
  unfold State.postRefused; split <;> simp

@[simp] theorem State.blur_tick (s : State) (x : Flight) : (s.blur x).tick = s.tick := by
  simp [State.blur, apply_ite State.tick]

/-! ### Machine/Xlat.lean -/

@[simp] theorem State.postUnresolved_tick (s : State) (p unit tag page cause : Nat) :
    (s.postUnresolved p unit tag page cause).tick = s.tick := by
  simp [State.postUnresolved]

@[simp] theorem State.endWait_tick (s : State) (w : Wait) (page status cause : Nat) : (s.endWait w page status cause).tick = s.tick := by
  unfold State.endWait
  split
  · split <;> simp
  · dsimp only
    split <;> simp [apply_ite State.tick]
  all_goals simp

@[simp] theorem State.joinFault_tick (s : State) (pasid page : Nat) (w : Wait) : (s.joinFault pasid page w).tick = s.tick := rfl

@[simp] theorem State.foundFault_tick (s : State) (pasid page : Nat) (w : Wait) : (s.foundFault pasid page w).tick = s.tick := by
  simp [State.foundFault, apply_ite State.tick]

@[simp] theorem State.judgeAhead_tick (s : State) (t : TransCompletion) (page : Nat) (w : Wait) (f j : Nat) :
    (s.judgeAhead t page w f j).tick = s.tick := by
  unfold State.judgeAhead
  split <;> simp [apply_ite State.tick]

@[simp] theorem State.judgeWait_tick (s : State) (t : TransCompletion) (noWrite : Bool) (page : Nat) (w : Wait) :
    (s.judgeWait t noWrite page w).tick = s.tick := by
  unfold State.judgeWait
  split <;> simp [apply_ite State.tick]

@[simp] theorem State.giveVerdicts_tick (s : State) : s.giveVerdicts.tick = s.tick := by
  simp [State.giveVerdicts]

@[simp] theorem State.countFault_tick (s : State) (f : PageFault) (read write : Bool) : (s.countFault f read write).tick = s.tick := by
  refine State.foldl_tick _ (fun u a => ?_) _
  split <;> simp

@[simp] theorem State.sendGroup_tick (s : State) (pasid : Nat) (fs : List PageFault) : (s.sendGroup pasid fs).tick = s.tick := by
  unfold State.sendGroup; split <;> simp

@[simp] theorem State.faultBatch_tick (s : State) : s.faultBatch.tick = s.tick := by
  simp [State.faultBatch]

/-! ### Machine/Admit.lean -/

@[simp] theorem State.usedVa_tick (s : State) (pasid va n : Nat) : (s.usedVa pasid va n).tick = s.tick := by
  unfold State.usedVa
  split <;> simp

@[simp] theorem State.sampleCRing_tick (s : State) (c : Nat) : (s.sampleCRing c).tick = s.tick := by
  unfold State.sampleCRing
  dsimp only
  split
  · rfl
  · split
    · rename_i h; exact State.ctlRead_wait_tick h
    all_goals simp [apply_ite State.tick]

@[simp] theorem State.sampleEvt_tick (s : State) : s.sampleEvt.tick = s.tick := by
  unfold State.sampleEvt
  split
  · rfl
  · split
    · rename_i h; exact State.ctlRead_wait_tick h
    · simp
    · rfl

@[simp] theorem State.sampleTail_tick (s : State) (i : Nat) : (s.sampleTail i).tick = s.tick := by
  unfold State.sampleTail
  dsimp only
  split
  · rfl
  · split
    · rename_i h; exact State.ctlRead_wait_tick h
    all_goals simp [apply_ite State.tick]

theorem State.readSlots_wait_tick {s t : State} {i pos n : Nat} {acc : Bytes} (h : s.readSlots i pos n acc = .wait t) : t.tick = s.tick := by
  induction n generalizing pos acc with
  | zero => cases h
  | succ n ih =>
    rw [State.readSlots] at h
    split at h
    · rename_i hr; cases h; exact State.ctlRead_wait_tick hr
    · cases h; simp
    · cases h; simp
    · exact ih h

theorem State.readDesc_wait_tick {s t : State} {i pos tail : Nat} (h : s.readDesc i pos tail = .wait t) : t.tick = s.tick := by
  unfold State.readDesc at h
  dsimp only at h
  split at h
  · cases h
  · split at h
    · split at h
      · cases h
      · exact State.readSlots_wait_tick h
    · exact State.readSlots_wait_tick h

@[simp] theorem State.usedSlots_tick (s : State) (i pos n : Nat) : (s.usedSlots i pos n).tick = s.tick := by
  simp [State.usedSlots]

@[simp] theorem State.examined_tick (s : State) (i n : Nat) : (s.examined i n).tick = s.tick := rfl

@[simp] theorem State.tookDesc_tick (s : State) (i pos : Nat) (d : Bytes) : (s.tookDesc i pos d).tick = s.tick := by
  simp [State.tookDesc]

@[simp] theorem State.readGroup_tick (s : State) (i tail fuel : Nat) : (s.readGroup i tail fuel).1.tick = s.tick := by
  induction fuel generalizing s with
  | zero => rfl
  | succ fuel ih =>
    rw [State.readGroup]
    dsimp only
    split
    · rfl
    · split
      · rfl
      · split
        · rename_i h; exact State.readDesc_wait_tick h
        · rfl
        · rw [ih]; simp

@[simp] theorem State.postStageFailed_tick (s : State) (p : Nat) (d : Bytes) (k st : Nat) : (s.postStageFailed p d k st).tick = s.tick := rfl

/-- The state that goes on with what is known of a staging's size. -/
def StageSize.state : StageSize → State
  | .wait s => s
  | .need s _ => s

@[simp] theorem State.stageSize_tick (s : State) (p : Nat) (moves : Bool) (d : Bytes) : (s.stageSize p moves d).state.tick = s.tick := by
  unfold State.stageSize
  split
  · rfl
  · split
    · rfl
    · split
      · rfl
      · dsimp only
        split
        · simp [StageSize.state]
        · split
          · rfl
          · simp [StageSize.state]

/-- The same, of what the size is known to be. -/
theorem State.stageSize_state_tick {s : State} {p : Nat} {moves : Bool} {d : Bytes} {r : StageSize} (h : s.stageSize p moves d = r) :
    r.state.tick = s.tick := h ▸ State.stageSize_tick s p moves d

@[simp] theorem State.queueFlight_tick (s : State) (i : Nat) (d : Bytes) (pos : Nat) (consumer : Option Nat) (need : List (Nat × Nat)) :
    (s.queueFlight i d pos consumer need).tick = s.tick := rfl

@[simp] theorem State.atAdmission_tick (s : State) (d : Bytes) : (s.atAdmission d).tick = s.tick := by
  unfold State.atAdmission; split <;> rfl

@[simp] theorem State.admitGroup_tick (s : State) (i : Nat) (ms : List Bytes) (d : Bytes) (need : List (Nat × Nat)) :
    (s.admitGroup i ms d need).tick = s.tick := by
  simp only [State.admitGroup, State.updRing_tick, State.dropRingWaits_tick, State.updCRing_tick, State.atAdmission_tick, State.queueFlight_tick]
  refine State.foldl_fst_tick ms ?_ _
  intro a m
  rfl

@[simp] theorem State.postFailed_tick (s : State) (p k : Nat) (ms : List Bytes) (d : Bytes) (st : Nat) :
    (s.postFailed p k ms d st).tick = s.tick := by
  simp [State.postFailed, apply_ite State.tick]

/-- The state that goes on with the fate of a group. -/
def Fate.state : Fate → State
  | .wait s => s
  | .fails s _ _ => s
  | .enter s _ => s

@[simp] theorem State.judge_tick (s : State) (i : Nat) (ms : List Bytes) (d : Bytes) : (s.judge i ms d).state.tick = s.tick := by
  unfold State.judge
  dsimp only
  split
  · rfl
  · split
    · simp [Fate.state]
    · simp [Fate.state]
    · split
      · simp [Fate.state]
      · split
        · rename_i h; exact State.stageSize_state_tick h
        · rename_i h
          have hs := State.stageSize_state_tick h
          split
          · exact hs
          · split <;> exact hs

/-- The same, of what the judgement is known to be. -/
theorem State.judge_state_tick {s : State} {i : Nat} {ms : List Bytes} {d : Bytes} {r : Fate} (h : s.judge i ms d = r) :
    r.state.tick = s.tick := h ▸ State.judge_tick s i ms d

@[simp] theorem State.admitHead_tick (s : State) (i : Nat) : (s.admitHead i).1.tick = s.tick := by
  unfold State.admitHead
  dsimp only
  split
  · rfl
  · split
    · rfl
    · split
      · simp
      · split
        · simp
        · split
          · simp
          · split
            all_goals
              rename_i h
              simpa [Fate.state] using State.judge_state_tick h

@[simp] theorem State.admitRing_tick (s : State) (i fuel : Nat) : (s.admitRing i fuel).tick = s.tick := by
  induction fuel generalizing s with
  | zero => rfl
  | succ fuel ih => simp [State.admitRing, apply_ite State.tick, ih]

@[simp] theorem State.admitRings_tick (order : List Nat) (s : State) : (State.admitRings order s).tick = s.tick := by
  simp [State.admitRings]

@[simp] theorem State.admitProgress_tick (s : State) : s.admitProgress.tick = s.tick := by
  simp [State.admitProgress, apply_ite State.tick]

/-! ### Machine/Slices.lean -/

@[simp] theorem State.eligible_tick (s : State) (x : Flight) : (s.eligible x).tick = s.tick := by
  simp [State.eligible, apply_ite State.tick]

@[simp] theorem State.judgeQueued_tick (s : State) (f : Nat) : (s.judgeQueued f).tick = s.tick := by
  unfold State.judgeQueued
  split <;> simp [apply_ite State.tick]

@[simp] theorem State.discardSpec_tick (s : State) (f n : Nat) : (s.discardSpec f n).tick = s.tick := by
  unfold State.discardSpec; split <;> simp

/-! ### Machine/Settle.lean -/

@[simp] theorem State.confirmFaults_tick (s : State) (f : Nat) : (s.confirmFaults f).tick = s.tick := by
  simp [State.confirmFaults]

@[simp] theorem State.confirmed_tick (s : State) (x : Flight) : (s.confirmed x).tick = s.tick := by
  simp -implicitDefEqProofs [State.confirmed]

@[simp] theorem State.settleSpec_tick (s : State) (f : Nat) : (s.settleSpec f).tick = s.tick := by
  unfold State.settleSpec
  split <;> simp [apply_ite State.tick]

@[simp] theorem State.awaitWriteback_tick (s : State) (x : Flight) : (s.awaitWriteback x).tick = s.tick := by
  simp [State.awaitWriteback, apply_ite State.tick]

@[simp] theorem State.stopPencils_tick (s : State) (slot pos : Nat) (l : Option Nat) (due : List Nat) :
    (s.stopPencils slot pos l due).tick = s.tick := by
  simp [State.stopPencils]

@[simp] theorem State.settleStep1_tick (s : State) (due : List Nat) (f : Nat) : (s.settleStep1 due f).tick = s.tick := by
  unfold State.settleStep1
  split <;> simp [apply_ite State.tick]

@[simp] theorem State.commitPrefetch_tick (s : State) (x : Flight) : (s.commitPrefetch x).tick = s.tick := by
  unfold State.commitPrefetch
  extract_lets d lines s0 at_ s1 s2 s3 s4
  have h0 : s0.tick = s.tick := by simp [s0]
  have h3 : s3.tick = s.tick := by simp -implicitDefEqProofs [s3, s2, s1, h0, apply_ite State.tick]
  have h4 : s4.tick = s.tick := by
    simp only [s4]
    split <;> simp [h3]
  simp [apply_ite State.tick, h0, h4]

@[simp] theorem State.commitHeld_tick (s : State) (x : Flight) : (s.commitHeld x).tick = s.tick := by
  simp [State.commitHeld, apply_ite State.tick]

@[simp] theorem State.settleStep2_tick (s : State) (due : List Nat) (f : Nat) : (s.settleStep2 due f).tick = s.tick := by
  unfold State.settleStep2
  split
  · rfl
  · split
    · rfl
    · split <;> simp [apply_ite State.tick]

@[simp] theorem State.settleCloses_tick (s : State) (due : List Nat) : (s.settleCloses due).tick = s.tick := by
  simp -implicitDefEqProofs [State.settleCloses]

@[simp] theorem State.dropMoves_tick (s : State) (cs : List Nat) : (s.dropMoves cs).tick = s.tick := by
  simp -implicitDefEqProofs [State.dropMoves]

@[simp] theorem State.settleRecord_tick (s : State) (x : Flight) : (s.settleRecord x).tick = s.tick := by
  simp [State.settleRecord, apply_ite State.tick]

@[simp] theorem State.settleRecords_tick (s : State) (due : List Flight) : (s.settleRecords due).tick = s.tick := by
  simp [State.settleRecords]

@[simp] theorem State.settleReset_tick (s : State) (p : Nat) : (s.settleReset p).tick = s.tick := by
  unfold State.settleReset
  split <;> simp [apply_ite State.tick]

@[simp] theorem State.settleClasps_tick (s : State) (due : List Flight) : (s.settleClasps due).tick = s.tick := by
  simp -implicitDefEqProofs [State.settleClasps]

@[simp] theorem State.queueEvents_tick (s : State) : s.queueEvents.tick = s.tick := rfl

@[simp] theorem State.evtPlace_tick (s : State) (va n : Nat) : (s.evtPlace va n).2.tick = s.tick := by
  unfold State.evtPlace
  split
  · rfl
  · split <;> simp

@[simp] theorem State.writeEvents_tick (s : State) (fuel : Nat) (w : Bool) : (s.writeEvents fuel w).1.tick = s.tick := by
  induction fuel generalizing s w with
  | zero => rfl
  | succ fuel ih =>
    rw [State.writeEvents]
    dsimp only
    split
    · rfl
    · split
      · simp
      · exact ih _ _

@[simp] theorem State.settleEvents_tick (s : State) : s.settleEvents.tick = s.tick := by
  unfold State.settleEvents
  dsimp only
  split
  · simp
  · split
    · simp
    · simp [apply_ite State.tick]

@[simp] theorem State.applyPartSet_tick (s : State) (b : Bytes) : (s.applyPartSet b).tick = s.tick := by
  simp [State.applyPartSet, apply_ite State.tick]

@[simp] theorem State.settleSeal_tick (s : State) : s.settleSeal.tick = s.tick := by
  unfold State.settleSeal; split <;> rfl

@[simp] theorem State.settleMbox_tick (s : State) : s.settleMbox.tick = s.tick := by
  unfold State.settleMbox
  dsimp only
  repeat' split
  all_goals simp

@[simp] theorem State.showSlots_tick (s : State) : s.showSlots.tick = s.tick := rfl

/-! ### Machine/Startup.lean -/

@[simp] theorem State.syncEngines_tick (s : State) : s.syncEngines.tick = s.tick := rfl

@[simp] theorem State.showUnits_tick (s : State) : s.showUnits.tick = s.tick := rfl

/-! ### Machine/Boundary.lean -/

@[simp] theorem State.memoryBoundary_tick (s : State) : s.memoryBoundary.tick = s.tick := by
  simp -implicitDefEqProofs [State.memoryBoundary]

@[simp] theorem State.fenceRouters_tick (s : State) : s.fenceRouters.tick = s.tick := by
  refine State.foldl_tick _ (fun u e => ?_) _
  cases e.2.partition <;> simp

@[simp] theorem State.forgetCell_tick (s : State) (pasid cell base : Nat) (idx : List Nat) (width : Nat) :
    (s.forgetCell pasid cell base idx width).tick = s.tick := rfl

@[simp] theorem State.ringBoundary_tick (s : State) (i : Nat) : (s.ringBoundary i).tick = s.tick := by
  simp [State.ringBoundary, apply_ite State.tick]

@[simp] theorem State.evtBoundary_tick (s : State) : s.evtBoundary.tick = s.tick := by
  simp [State.evtBoundary, apply_ite State.tick]

@[simp] theorem State.ringsBoundary_tick (s : State) : s.ringsBoundary.tick = s.tick := by
  simp -implicitDefEqProofs [State.ringsBoundary]

@[simp] theorem State.sampleMbox_tick (s : State) : s.sampleMbox.tick = s.tick := by
  simp [State.sampleMbox, apply_ite State.tick]

@[simp] theorem State.workBoundary_tick (s : State) : s.workBoundary.tick = s.tick := rfl

end Sys2Proof.Machine
end

section
/-! SUPPORT. The phases of a tick, and the statement O17 on them (R13, R15, R16, R19, R478, R481): tick number, phase and epoch across a
boundary and a Settle phase; what the Run phase leaves alone and what becomes of a queued mover. -/

namespace Sys2Proof.Machine

/-! ### Tick number, phase and epoch (R13, Table 1.6) -/

/-- What says which phase of which tick runs, and when it began. -/
def State.clock (s : State) : Nat × Nat × Nat := (s.tick.count, s.tick.phase, s.tick.epoch)

theorem State.clock_eq_of_tick {s t : State} (h : t.tick = s.tick) : t.clock = s.clock := by
  simp only [State.clock, h]

theorem State.stepClock_clock (s : State) : s.stepClock.clock = s.clock := by
  simp only [State.stepClock, State.clock]
  split <;> simp

theorem State.powerControl_clock (s : State) : s.powerControl.clock = s.clock := by
  simp [State.powerControl, State.clock, apply_ite State.tick]

theorem State.judgeStaging_clock (s : State) (f : Nat) : (s.judgeStaging f).1.clock = s.clock := by
  unfold State.judgeStaging
  split
  · rfl
  · dsimp only
    split
    · rfl
    · split
      · exact State.clock_eq_of_tick (by simp)
      · split
        · exact State.clock_eq_of_tick (by simp)
        · rfl

theorem State.settleStaging_clock (s : State) : s.settleStaging.clock = s.clock := by
  have judged : ∀ (fs : List Nat) (a : State × List (Nat × Nat)),
      (fs.foldl (fun a f => ((a.1.judgeStaging f).1, a.2 ++ (a.1.judgeStaging f).2.toList)) a).1.clock = a.1.clock := by
    intro fs
    induction fs with
    | nil => exact fun a => rfl
    | cons f fs ih => exact fun a => (ih _).trans (State.judgeStaging_clock a.1 f)
  refine (State.clock_eq_of_tick ?_).trans (judged (s.work.flights.map (fun x => x.id)) (s, []))
  refine State.foldl_tick _ (fun u p => ?_) _
  dsimp only
  split <;> simp

theorem State.nextTick_clock (s : State) (edge : Nat) : (s.nextTick edge).clock = (s.tick.count + 1, 0, s.tick.epoch) := by
  unfold State.nextTick
  extract_lets s1 tk s2 s3 s4 s5 s6
  have h6 : s6.tick = s3.tick := by simp [s6, s5, s4]
  have h3 : s3.clock = s2.clock := by
    refine (State.stepClock_clock _).trans (State.clock_eq_of_tick ?_)
    simp
  rw [State.clock_eq_of_tick (s := s6) (by simp), State.clock_eq_of_tick h6, h3]
  rfl

theorem State.settlePhase_clock (s : State) (edge : Nat) : (s.settlePhase edge).clock = (s.tick.count, 2, s.tick.epoch) := by
  unfold State.settlePhase
  extract_lets s1 tk s2 s3 all s4 s5 due s6 s7 s8 done s9 s10
  have h3 : s3.clock = s2.clock := (State.clock_eq_of_tick (by simp [s3])).trans (State.powerControl_clock s2)
  have h7 : s7.tick = s3.tick := by simp [s7, s6, s5, s4]
  have h8 : s8.clock = s7.clock := (State.settleStaging_clock _).trans (State.clock_eq_of_tick (by simp))
  have h10 : s10.tick = s8.tick := by simp [s10, s9]
  rw [State.clock_eq_of_tick (s := s10) (by simp), State.clock_eq_of_tick h10, h8, State.clock_eq_of_tick h7, h3]
  rfl

/-! ### What the Run phase leaves alone (R19, R194) -/

theorem State.accrue_unchanged (s : State) (x : Flight) (j : Nat) : unchangedBut [.work, .sail] s (s.accrue x j) := by
  unfold State.accrue
  dsimp only
  split
  · exact .refl ..
  · exact ((unchangedBut_withSail s _).mono (by simp)).trans ((State.updStrand_unchanged _ _ _ _).mono (by simp))

theorem State.accrueFlight_unchanged (s : State) (x : Flight) : unchangedBut [.work, .sail] s (s.accrueFlight x) :=
  unchangedBut.foldl _ (fun u j => State.accrue_unchanged u x j) s

theorem State.unpin_unchanged (s : State) (f : Nat) : unchangedBut [.work, .xlat] s (s.unpin f) :=
  ((unchangedBut_withXlat s _).mono (by simp)).trans ((State.updFlight_unchanged _ _ _).mono (by simp))

theorem State.endFlight_unchanged (s : State) (f st dt : Nat) : unchangedBut [.work, .xlat, .sail] s (s.endFlight f st dt) := by
  unfold State.endFlight
  split
  · exact .refl ..
  · exact (((State.accrueFlight_unchanged s _).mono (by simp)).trans ((State.updFlight_unchanged _ _ _).mono (by simp))).trans
      ((State.unpin_unchanged _ _).mono (by simp))

theorem State.eligible_unchanged (s : State) (x : Flight) : unchangedBut [.work, .xlat, .sail] s (s.eligible x) := by
  unfold State.eligible
  extract_lets c c' n
  split
  · exact (State.endFlight_unchanged s _ _ _).trans ((State.updFlight_unchanged _ _ _).mono (by simp))
  · exact (unchangedBut_withWork s _).mono (by simp)

theorem State.judgeQueued_unchanged (s : State) (f : Nat) : unchangedBut [.work, .xlat, .sail] s (s.judgeQueued f) := by
  unfold State.judgeQueued
  split
  · exact .refl ..
  · split
    · exact .refl ..
    · split
      · exact State.eligible_unchanged ..
      · split
        · exact State.endFlight_unchanged ..
        · split
          · exact State.eligible_unchanged ..
          · exact .refl ..

theorem State.updRun_unchanged (s : State) (p : Nat) (f : RunState → RunState) : unchangedBut [.mesh] s (s.updRun p f) :=
  unchangedBut_withMesh s _

theorem State.meshRunPhase_unchanged (s : State) : unchangedBut [.mesh] s s.meshRunPhase :=
  (unchangedBut_withMesh s _).trans (unchangedBut.foldl _ (fun u p => State.updRun_unchanged u p _) _)

/-! ### Movers (R41, R223) -/

theorem leNat_lt (bs : Bytes) : leNat bs < 256 ^ bs.length := by
  induction bs with
  | nil => simp [leNat]
  | cons b bs ih =>
    have hb : b.toNat < 256 := b.isLt
    simp only [leNat, List.length_cons, pow_succ]
    omega

theorem dOpcode_lt (d : Bytes) : dOpcode d < 0x10000 :=
  calc dOpcode d < 256 ^ (slice d 2 2).length := leNat_lt _
    _ ≤ 256 ^ 2 := Nat.pow_le_pow_right (by decide) (List.length_take_le ..)

/-- The class of a descriptor is its key above the opcode. -/
theorem dKey_div (d : Bytes) : dKey d / 0x10000 = dClass d := by
  have := dOpcode_lt d
  unfold dKey
  omega

/-- A mover is served in slices. -/
theorem Flight.sliced_mover {x : Flight} (h : dClass x.desc = 1) : x.sliced = true := by
  have hk := dKey_div x.desc
  simp only [Flight.sliced, h, List.contains_eq_mem, List.mem_cons, List.not_mem_nil]
  simp
  omega

theorem Flight.onEngines_mover {x : Flight} (h : dClass x.desc = 1) : x.onEngines = false := by
  simp [Flight.onEngines, h]

/-! ### The flights of the Run phase (R19) -/

theorem State.flight_updStrand_other (s : State) {f k : Nat} (j : Nat) (g : Strand → Strand) (h : k ≠ f) :
    (s.updStrand f j g).flight k = s.flight k :=
  State.flight_updFlight_other s f k _ (fun _ => rfl) h

theorem State.flight_unpin_other (s : State) {f k : Nat} (h : k ≠ f) : (s.unpin f).flight k = s.flight k :=
  State.flight_updFlight_other (s.unpinIf _) f k _ (fun _ => rfl) h

theorem State.flight_accrue_other (s : State) {x : Flight} (j : Nat) {k : Nat} (h : k ≠ x.id) : (s.accrue x j).flight k = s.flight k := by
  unfold State.accrue
  dsimp only
  split
  · rfl
  · exact State.flight_updStrand_other _ j _ h

theorem State.flight_accrueFlight_other (s : State) {x : Flight} {k : Nat} (h : k ≠ x.id) : (s.accrueFlight x).flight k = s.flight k := by
  unfold State.accrueFlight
  induction List.range x.strands.length generalizing s with
  | nil => rfl
  | cons j js ih => exact (ih _).trans (State.flight_accrue_other s j h)

theorem State.flight_endFlight_other (s : State) {f k : Nat} (st dt : Nat) (h : k ≠ f) : (s.endFlight f st dt).flight k = s.flight k := by
  unfold State.endFlight
  split
  · rfl
  · rename_i x hx
    have hid : k ≠ x.id := State.flight_id hx ▸ h
    refine (State.flight_unpin_other _ h).trans ((State.flight_updFlight_other _ f k _ ?_ h).trans (State.flight_accrueFlight_other _ hid))
    exact fun _ => rfl

/-- What becomes of flight `y` when flight `x` becomes eligible in tick `n` with strands `ys`: a consumer of `x` becomes eligible with it. -/
def Flight.madeEligible (y x : Flight) (n : Nat) (ys : List Strand) : Flight :=
  if y.id = x.id then { y with state := .eligible, eligTick := n, strands := ys }
  else if y.consumer = some x.id then { y with state := .eligible, eligTick := n, strands := [{}] } else y

theorem Flight.madeEligible_id (y x : Flight) (n : Nat) (ys : List Strand) : (y.madeEligible x n ys).id = y.id := by
  unfold Flight.madeEligible
  split
  · rfl
  · split <;> rfl

theorem State.flight_map (s : State) {g : Flight → Flight} (hg : ∀ y, (g y).id = y.id) (k : Nat) :
    ({ s with work := { s.work with flights := s.work.flights.map g } } : State).flight k = (s.flight k).map g := by
  simp only [State.flight, List.find?_map]
  congr 2
  funext y
  simp [hg]

theorem State.flight_eligible_other (s : State) {x y : Flight} {k : Nat} (h : k ≠ x.id) (hy : s.flight k = some y) (hc : y.consumer = none) :
    (s.eligible x).flight k = some y := by
  unfold State.eligible
  extract_lets c c' n
  split
  · refine (State.flight_updFlight_other _ x.id k _ ?_ h).trans ((State.flight_endFlight_other _ _ _ h).trans hy)
    exact fun _ => rfl
  · have hk : y.id ≠ x.id := State.flight_id hy ▸ h
    refine (State.flight_map s (fun y => Flight.madeEligible_id y x n c'.2) k).trans ?_
    simp [hy, Flight.madeEligible, hk, hc]

theorem State.flight_judgeQueued_other (s : State) {y : Flight} {f k : Nat} (h : k ≠ f) (hy : s.flight k = some y) (hc : y.consumer = none) :
    (s.judgeQueued f).flight k = some y := by
  unfold State.judgeQueued
  split
  · exact hy
  · rename_i x hx
    have hid : k ≠ x.id := State.flight_id hx ▸ h
    split
    · exact hy
    · split
      · exact State.flight_eligible_other s hid hy hc
      · split
        · exact (State.flight_endFlight_other s _ _ h).trans hy
        · split
          · exact State.flight_eligible_other s hid hy hc
          · exact hy

/-- A queued mover, not speculative, that waits for no clasp. -/
def Flight.readyMover (x : Flight) : Prop :=
  x.state = .queued ∧ x.consumer = none ∧ dClass x.desc = 1 ∧ dSpeculative x.desc = false ∧ dThreshold x.desc = 0

theorem State.chooseStrands_mover (s : State) {x : Flight} (h : dClass x.desc = 1) : s.chooseStrands x = (0, [{}]) := by
  simp [State.chooseStrands, Flight.onEngines_mover h, Flight.sliced_mover h]

theorem State.flight_judgeQueued_ready {s : State} {f : Nat} {x : Flight} (hx : s.flight f = some x) (h : x.readyMover) :
    (s.judgeQueued f).flight f = some { x with state := .eligible, eligTick := s.tick.count, strands := [{}] } := by
  obtain ⟨hq, hc, hm, hs, ht⟩ := h
  have hk : dKey x.desc ≠ 0x40002 := by
    have := dKey_div x.desc
    omega
  have he : s.judgeQueued f = s.eligible x := by
    simp [State.judgeQueued, hx, hq, hc, isSpeculative, hs, State.claspBad, State.claspMet, ht]
  rw [he, State.eligible]
  simp only [State.chooseStrands_mover s hm, hk, false_and, if_false, ne_eq, not_true_eq_false]
  refine (State.flight_map s (fun y => Flight.madeEligible_id y x s.tick.count [{}]) f).trans ?_
  simp [hx, Flight.madeEligible]

theorem State.flight_judgeQueued_eligible {s : State} {f g : Nat} {y : Flight} (hy : s.flight f = some y) (he : y.state = .eligible)
    (hc : y.consumer = none) : (s.judgeQueued g).flight f = some y := by
  by_cases h : f = g
  · subst h
    simp [State.judgeQueued, hy, he]
  · exact State.flight_judgeQueued_other s h hy hc

theorem State.flight_judged_eligible (l : List Nat) {s : State} {f : Nat} {y : Flight} (hy : s.flight f = some y) (he : y.state = .eligible)
    (hc : y.consumer = none) : (l.foldl (fun s g => s.judgeQueued g) s).flight f = some y := by
  induction l generalizing s with
  | nil => exact hy
  | cons g l ih => exact ih (State.flight_judgeQueued_eligible hy he hc)

theorem State.flight_judged_ready (l : List Nat) {s : State} {f : Nat} {x : Flight} (hf : f ∈ l) (hx : s.flight f = some x) (h : x.readyMover) :
    (l.foldl (fun s g => s.judgeQueued g) s).flight f =
      some { x with state := .eligible, eligTick := s.tick.count, strands := [{}] } := by
  induction l generalizing s with
  | nil => cases hf
  | cons g l ih =>
    by_cases hg : f = g
    · subst hg
      exact State.flight_judged_eligible l (State.flight_judgeQueued_ready hx h) rfl h.2.1
    · have hl : f ∈ l := (List.mem_cons.1 hf).resolve_left hg
      refine (ih hl (State.flight_judgeQueued_other s hg hx h.2.1)).trans ?_
      rw [State.judgeQueued_tick]

/-! ### The start of the Run phase -/

theorem State.startRun_tick (s : State) (edge : Nat) : (s.startRun edge).tick = { s.tick with time := max s.tick.time edge, phase := 1 } := by
  simp [State.startRun, State.atEdge]

theorem State.startRun_unchanged (s : State) (edge : Nat) : unchangedBut [.tick, .work, .xlat, .mesh, .sail] s (s.startRun edge) := by
  unfold State.startRun
  refine unchangedBut.trans ?_ (unchangedBut.foldl _ (fun u f => (State.judgeQueued_unchanged u f).mono (by simp)) _)
  exact ((unchangedBut_withTick s _).mono (by simp)).trans ((State.meshRunPhase_unchanged _).mono (by simp))

theorem State.startRun_flight_ready {s : State} (edge : Nat) {f : Nat} {x : Flight} (hx : s.flight f = some x) (h : x.readyMover) :
    (s.startRun edge).flight f = some { x with state := .eligible, eligTick := s.tick.count, strands := [{}] } := by
  unfold State.startRun
  extract_lets s1 tk s2
  have hw : s2.work = s.work := (State.meshRunPhase_unchanged _).1 .work (by simp)
  have hf : f ∈ s2.work.flights.map (fun y => y.id) := by
    rw [hw, ← State.flight_id hx]
    exact List.mem_map_of_mem (List.mem_of_find?_eq_some hx)
  have hx2 : s2.flight f = some x := by
    simp only [State.flight, hw]
    exact hx
  refine (State.flight_judged_ready _ hf hx2 h).trans ?_
  simp [s2, tk, s1, State.atEdge]

/-! ### The commands of the phases (R13, R15, R16) -/

theorem exec_tickBoundary_due {s : State} {edge : Nat} (hr : s.ctl.released = true) (hp : s.tick.phase = 2)
    (he : s.firstEdge s.tickEnd edge = true) : exec (.tickBoundary edge) s = .next (s.nextTick edge) := by
  refine congrArg Host.Outcome.next (if_pos ?_)
  simp [hr, hp, he]

theorem exec_tickBoundary_outOfTurn {s : State} {edge : Nat} (h : s.tick.phase ≠ 2 ∨ s.firstEdge s.tickEnd edge = false) :
    exec (.tickBoundary edge) s = .next s := by
  refine congrArg Host.Outcome.next (if_neg ?_)
  rcases h with h | h <;> simp [h]

theorem exec_runPhaseStart_due {s : State} {at_ : Nat} (hr : s.ctl.released = true) (hp : s.tick.phase = 0)
    (he : s.firstEdge s.runStart at_ = true) : exec (.runPhaseStart at_) s = .next (s.startRun at_) := by
  refine congrArg Host.Outcome.next (if_pos ?_)
  simp [hr, hp, he]

theorem exec_runPhaseStart_outOfTurn {s : State} {at_ : Nat} (h : s.tick.phase ≠ 0 ∨ s.firstEdge s.runStart at_ = false) :
    exec (.runPhaseStart at_) s = .next s := by
  refine congrArg Host.Outcome.next (if_neg ?_)
  rcases h with h | h <;> simp [h]

theorem exec_settlePhase_due {s : State} {at_ : Nat} (hr : s.ctl.released = true) (hp : s.tick.phase = 1)
    (he : s.firstEdge s.settleStart at_ = true) : exec (.settlePhase at_ true) s = .next (s.settlePhase at_) := by
  refine congrArg Host.Outcome.next ((if_neg ?_).trans (if_pos rfl))
  simp [hr, hp, he]

theorem exec_settlePhase_parity {s : State} {at_ : Nat} (hr : s.ctl.released = true) (hp : s.tick.phase = 1)
    (he : s.firstEdge s.settleStart at_ = true) (hw : s.ctl.warm = none) (hd : s.ctl.warmDue = none) :
    exec (.settlePhase at_ false) s = .next { s with
      tick := { s.tick with time := max s.tick.time at_, phase := 2 }, ctl := { s.ctl with warmDue := some 5 } } := by
  refine congrArg Host.Outcome.next ((if_neg ?_).trans ((if_neg (by decide)).trans (State.warmDue_first 5 hr hd hw)))
  simp [hr, hp, he]

theorem exec_settlePhase_outOfTurn {s : State} {at_ : Nat} (ok : Bool) (h : s.tick.phase ≠ 1 ∨ s.firstEdge s.settleStart at_ = false) :
    exec (.settlePhase at_ ok) s = .next s := by
  refine congrArg Host.Outcome.next (if_pos ?_)
  rcases h with h | h <;> simp [h]

/-- Settles O17: a command that is due begins its phase, of which the lemmas above say what it does; any other changes nothing. -/
theorem tickPhases : Obligations.TickPhases := by
  refine ⟨⟨?boundary, ?run, ?settle, ?parity⟩, ?outOfTurn⟩
  case boundary =>
    intro s edge hr hp he
    have hc := s.nextTick_clock edge
    simp only [State.clock, Prod.mk.injEq] at hc
    exact ⟨_, exec_tickBoundary_due hr hp he, hc⟩
  case run =>
    intro s at_ hr hp he
    refine ⟨_, exec_runPhaseStart_due hr hp he, s.startRun_tick at_, s.startRun_unchanged at_, ?_⟩
    intro f x hx hq hc hm hs ht
    exact ⟨_, State.startRun_flight_ready at_ hx ⟨hq, hc, hm, hs, ht⟩, rfl, rfl, rfl⟩
  case settle =>
    intro s at_ hr hp he
    have hc := s.settlePhase_clock at_
    simp only [State.clock, Prod.mk.injEq] at hc
    obtain ⟨hcount, hphase, -⟩ := hc
    exact ⟨_, exec_settlePhase_due hr hp he, hphase, hcount⟩
  case parity =>
    intro s at_ hr hp he hw hd
    refine ⟨_, exec_settlePhase_parity hr hp he hw hd, rfl, rfl, ?_⟩
    exact ((unchangedBut_withTick s _).mono (by simp)).trans ((unchangedBut_withCtl _ _).mono (by simp))
  case outOfTurn =>
    exact ⟨fun s edge => exec_tickBoundary_outOfTurn, fun s at_ => exec_runPhaseStart_outOfTurn,
      fun s at_ ok => exec_settlePhase_outOfTurn ok⟩

end Sys2Proof.Machine
end

section
/-! SUPPORT. A state that refutes O18 (R20, R61, R223). -/

namespace Sys2Proof.Machine

/-- A FILL of 8 KiB of the Casket. -/
def casketFill : Bytes := [1, 1, 2, 0] ++ zeros 28 ++ [1] ++ zeros 7 ++ natLe 8 4096 ++ natLe 8 8192 ++ zeros 8

/-- An eligible mover with number 7 and these strands. -/
def fillFlight (ys : List Strand) : Flight :=
  { id := 7, desc := casketFill, ring := 0, pos := 0, cring := 0, part := 0, admTick := 0, state := .eligible, strands := ys, eligTick := 0
    worked := false, status := 0, detail := 0, settleAt := none, held := [], blob := [], snapL := 0, snapP := 0, confirmed := true
    endTick := 0, consumer := none, staged := false, stage := [], beads := [], segs := [], slabs := [], windows := [], events := []
    failed := false, cleared := false }

/-- The Run phase with two flights of number 7: the first has not started, the second has a piece on mover unit 5. -/
def sameNumberTwice : State :=
  { tick := { phase := 1 }, casket := { own := [(0, ⟨0x100000000, 0x100000000⟩)] }
    work := { flights := [fillFlight [{}], fillFlight [{ unit := 5, state := .running 0, pinned := true }]] } }

/-- The unit on which flight 7 stands after its PIECE_START. -/
def unitAfterStart : Option Nat :=
  match exec (.pieceStart 7 0) sameNumberTwice with
  | .next t => (t.flight 7).map (fun (z : Flight) => (z.strand 0).unit)
  | _ => none

/-- Unit 0 is dealt to the mover, as the second flight's piece holds unit 5. -/
theorem sameNumberTwice_dealtUnit : sameNumberTwice.dealtUnit (fillFlight [{}]) = some 0 := by decide +kernel

/-- PIECE_START writes the engine of flight 7's strand, 0, into both flights; unit 0 then counts as busy, and the piece starts on unit 1. -/
theorem unitAfterStart_eq : unitAfterStart = some 1 := by decide +kernel

/-- Refutes O18: the statement is about every state, and in one where two flights carry the same number the mover's piece starts on another
unit than the one dealt to it. -/
theorem not_slicesAndSpeculation : ¬ Obligations.SlicesAndSpeculation := by
  rintro ⟨pieces, -⟩
  have starts := (pieces sameNumberTwice 7 (fillFlight [{}]) {} 0 _ rfl rfl rfl rfl rfl rfl rfl rfl (by decide +kernel) (by decide +kernel) rfl
    sameNumberTwice_dealtUnit rfl).1 (by decide +kernel) (by decide +kernel) (by decide +kernel)
  obtain ⟨t, ht, ⟨z, hz, -, -, -, hu, -⟩, -⟩ := starts
  have h : unitAfterStart = some 0 := by simp [unitAfterStart, ht, hz, hu]
  rw [unitAfterStart_eq] at h
  exact absurd h (by decide)

end Sys2Proof.Machine
end

section
/-! SUPPORT. The sign of an exact zero sum and of a product, and the statement O8 on them (R54, R55). -/

namespace Sys2Proof.Machine

/-- The exact sum of values that all carry a minus sign is not positive, and it is zero only if every finite one of them is zero. -/
theorem sumFin_of_negative {vs : List FVal} (h : ∀ v, v ∈ vs → v.neg? = true) :
    (sumFin vs).1 ≤ 0 ∧ ((sumFin vs).1 = 0 → ∀ v, v ∈ vs → v.isFin = true → v.isZero = true) := by
  induction vs with
  | nil => simp [sumFin]
  | cons v vs ih =>
    obtain ⟨hle, hzero⟩ := ih fun w hw => h w (List.mem_cons_of_mem v hw)
    have hv := h v List.mem_cons_self
    cases v with
    | nan => simp [FVal.neg?] at hv
    | inf neg => simpa [sumFin, FVal.isFin] using ⟨hle, hzero⟩
    | fin neg m e =>
      obtain rfl : neg = true := hv
      by_cases hm : m = 0
      · simpa [sumFin, hm, FVal.isFin, FVal.isZero] using ⟨hle, hzero⟩
      · have hlt : (sumFin (.fin true m e :: vs)).1 < 0 := by
          have hneg : -(m : Int) < 0 := by omega
          simp only [sumFin, if_neg hm, if_true]
          split
          · exact hneg
          · exact Int.add_neg_of_neg_of_nonpos (Int.mul_neg_of_neg_of_pos hneg (by positivity))
              (Int.mul_nonpos_of_nonpos_of_nonneg hle (by positivity))
        exact ⟨hlt.le, fun h0 => absurd h0 hlt.ne⟩

/-- An exact sum is a zero only of finite values whose exact sum is zero, and it carries a minus sign exactly where all of them do. -/
theorem sumExact_zero {vs : List FVal} {n : Bool} {e : Int} (h : sumExact vs = .fin n 0 e) :
    (∀ v, v ∈ vs → v.isFin = true) ∧ (sumFin vs).1 = 0 ∧ n = vs.all FVal.neg? := by
  unfold sumExact at h
  dsimp only at h
  split at h
  · cases h
  · rename_i hnan
    split at h
    · cases h
    · split at h
      · cases h
      · rename_i hinf
        refine ⟨fun v hv => ?_, ?_⟩
        · have h1 : ¬ v.isNaN = true := fun hn => hnan (List.any_eq_true.2 ⟨v, hv, hn⟩)
          have h2 : ¬ v.isInf = true := List.filter_eq_nil_iff.1 hinf v hv
          cases v with
          | nan => exact absurd rfl h1
          | inf neg => exact absurd rfl h2
          | fin neg m k => rfl
        · split at h
          · rename_i h0
            cases h
            exact ⟨h0, rfl⟩
          · rename_i h0
            injection h with _ hm _
            exact absurd (Int.natAbs_eq_zero.1 hm) h0

/-- A value is -0 exactly if it is finite, zero and carries a minus sign. -/
theorem negativeZero_iff (v : FVal) : (∃ k, v = .fin true 0 k) ↔ v.isFin = true ∧ v.isZero = true ∧ v.neg? = true := by
  cases v <;> simp [FVal.isFin, FVal.isZero, FVal.neg?, and_comm]

/-- The sign of a product that is a number or an infinity (R55). -/
theorem FVal.mul_neg {a b : FVal} (h : (a.mul b).isNaN = false) : (a.mul b).neg? = (a.neg? != b.neg?) := by
  cases a with
  | nan => simp [FVal.mul, FVal.isNaN] at h
  | inf n =>
    cases b with
    | nan => simp [FVal.mul, FVal.isNaN] at h
    | inf k => rfl
    | fin k m e =>
      simp only [FVal.mul] at h ⊢
      split
      · simp [*, FVal.isNaN] at h
      · rfl
  | fin n m e =>
    cases b with
    | nan => simp [FVal.mul, FVal.isNaN] at h
    | inf k =>
      simp only [FVal.mul] at h ⊢
      split
      · simp [*, FVal.isNaN] at h
      · rfl
    | fin k m' e' => rfl

/-- Settles O8: the addends of a zero sum are finite, and negative ones leave zero only if each of them is zero. -/
theorem signsOfZeroSumsAndProducts : Obligations.SignsOfZeroSumsAndProducts := by
  refine ⟨fun vs n e h => ?_, fun a b h => FVal.mul_neg h⟩
  obtain ⟨hfin, hsum, rfl⟩ := sumExact_zero h
  simp only [List.all_eq_true, negativeZero_iff]
  refine ⟨fun hneg v hv => ?_, fun hz v hv => (hz v hv).2.2⟩
  exact ⟨hfin v hv, (sumFin_of_negative hneg).2 hsum v hv (hfin v hv), hneg v hv⟩

end Sys2Proof.Machine
end

section
/-! SUPPORT. What reading the operands of a piece can change (R208, R242, R247, R253, R273, R284, R287, R305): the reports of the memories it
reads, the buckets and the lines it uses up, and nothing of the flights.  One lemma per operation, in the order of the model's files. -/

namespace Sys2Proof.Machine

/-- The components that reading a piece's operands can change. -/
def readComps : List Comp := [.host, .evt, .sail, .casket, .mem, .care, .tiles, .sites]

/-! ### Machine/Ops.lean, Machine/MemOps.lean -/

theorem State.post_reads (s : State) (code severity part unit dt : Nat) : unchangedBut readComps s (s.post code severity part unit dt) :=
  (State.post_unchanged ..).mono (by simp [readComps])

theorem reads_withMem (s : State) (x : Mem) : unchangedBut readComps s { s with mem := x } :=
  (unchangedBut_withMem ..).mono (by simp [readComps])

theorem reads_withCare (s : State) (x : Care) : unchangedBut readComps s { s with care := x } :=
  (unchangedBut_withCare ..).mono (by simp [readComps])

theorem reads_withSail (s : State) (x : Sail) : unchangedBut readComps s { s with sail := x } :=
  (unchangedBut_withSail ..).mono (by simp [readComps])

theorem reads_withCasket (s : State) (x : Casket) : unchangedBut readComps s { s with casket := x } :=
  (unchangedBut_withCasket ..).mono (by simp [readComps])

theorem State.updGroup_reads (s : State) (n : Nat) (f : Group → Group) : unchangedBut readComps s (s.updGroup n f) := reads_withMem ..

theorem State.setGranule_reads (s : State) (g : Nat) (v : Bool) : unchangedBut readComps s (s.setGranule g v) := reads_withMem ..

theorem State.charge_reads (s : State) (b cost : Nat) : unchangedBut readComps s (s.charge b cost) :=
  .ite (.refl ..) (reads_withMem ..)

theorem State.bucketWait_reads (s : State) (b : Nat) : unchangedBut readComps s (s.bucketWait b) :=
  .ite (.refl ..) (reads_withMem ..)

/-! ### Machine/MemErr.lean -/

theorem State.updCe_reads (s : State) (b : Nat) (f : CeBucket → CeBucket) : unchangedBut readComps s (s.updCe b f) := reads_withCare ..

theorem State.chargeCe_reads (s : State) (b amount unit : Nat) : unchangedBut readComps s (s.chargeCe b amount unit) :=
  .ite (State.updCe_reads ..) (.ite (State.updCe_reads ..) ((State.updCe_reads ..).trans (State.post_reads ..)))

theorem State.postGroupState_reads (s : State) (n old new : Nat) (die : Option Nat) (dead : Bool) (lost : Nat) :
    unchangedBut readComps s (s.postGroupState n old new die dead lost) := State.post_reads ..

theorem State.mappedOut_reads (s : State) (n : Nat) : unchangedBut readComps s (s.mappedOut n) :=
  (((State.updGroup_reads ..).trans (reads_withSail ..)).trans (State.postGroupState_reads ..)).trans (State.post_reads ..)

theorem State.beginSlab_reads (s : State) (n j donor : Nat) : unchangedBut readComps s (s.beginSlab n j donor) :=
  .foldl _ (fun _ _ => .ite (.refl ..) (State.setGranule_reads ..)) s

theorem State.startEvac_reads (s : State) (n : Nat) (flight : Option Nat) : unchangedBut readComps s (s.startEvac n flight) := by
  unfold State.startEvac
  extract_lets g donors lost holes slabs die _ _ s1 s2 s3
  have h1 : unchangedBut readComps s s1 := (reads_withMem s { s.mem with slabs := slabs }).trans (reads_withCare ..)
  have h3 : unchangedBut readComps s s3 := (h1.trans (State.updGroup_reads ..)).trans (State.postGroupState_reads ..)
  clear_value s3 donors
  cases donors with
  | nil => exact h3.trans (State.mappedOut_reads ..)
  | cons d ds => exact h3.trans (State.beginSlab_reads ..)

theorem State.secondFault_reads (s : State) (n : Nat) : unchangedBut readComps s (s.secondFault n) :=
  .ite (State.startEvac_reads ..) (.refl ..)

theorem State.dieDead_reads (s : State) (n a : Nat) : unchangedBut readComps s (s.dieDead n a) :=
  (State.updGroup_reads ..).trans (State.postGroupState_reads ..)

theorem State.dieLocated_reads (s : State) (n a st : Nat) : unchangedBut readComps s (s.dieLocated n a st) := by
  unfold State.dieLocated
  extract_lets s1
  have h1 : unchangedBut readComps s s1 := .ite (.refl ..) ((State.updGroup_reads ..).trans (State.post_reads ..))
  exact .ite (h1.trans (State.dieDead_reads ..)) (.ite (h1.trans (State.secondFault_reads ..)) h1)

theorem State.heedSetting_reads (s : State) (st : Nat) : unchangedBut readComps s (s.heedSetting st) := by
  refine .ite (.refl ..) ?_
  split
  · exact State.chargeCe_reads ..
  · exact State.dieLocated_reads ..
  · exact .refl ..

theorem State.heedBeat_reads (s : State) (k : Nat) : unchangedBut readComps s (s.heedBeat k) := by
  refine .ite (.refl ..) ?_
  extract_lets _ s1
  have h1 : unchangedBut readComps s s1 := reads_withMem ..
  split
  · exact h1.trans (State.chargeCe_reads ..)
  · exact h1

theorem State.heedBuffered_reads (s : State) (st i : Nat) : unchangedBut readComps s (s.heedBuffered st i) := by
  unfold State.heedBuffered
  split
  · exact .refl ..
  · refine .ite (.refl ..) ?_
    split
    · exact .refl ..
    · split
      · exact .refl ..
      · exact (reads_withMem ..).trans (State.chargeCe_reads ..)

theorem State.heed_reads (s : State) (d n : Nat) : unchangedBut readComps s (s.heed d n) := by
  refine .ite (.refl ..) (.foldl _ (fun u r => ?_) s)
  split
  · exact .refl ..
  · rename_i k0 _
    have buffered : unchangedBut readComps u
        ((List.range r.2).foldl (fun s i => s.heedBuffered (u.redirect k0 / 1024) ((u.redirect k0 + i) % 1024)) u) :=
      .foldl _ (fun _ _ => State.heedBuffered_reads ..) u
    refine .ite buffered (.ite (buffered.trans (State.heedSetting_reads ..)) (buffered.trans ?_))
    exact .foldl _ (fun _ _ => State.heedBeat_reads ..) _

/-! ### Machine/CasketOps.lean -/

theorem State.heedCasketByte_reads (s : State) (a : Nat) : unchangedBut readComps s (s.heedCasketByte a) := by
  unfold State.heedCasketByte
  split
  · exact ((reads_withCasket ..).trans (reads_withCasket ..)).trans (State.chargeCe_reads ..)
  · exact .refl ..

theorem State.heedCasket_reads (s : State) (a n : Nat) : unchangedBut readComps s (s.heedCasket a n) :=
  .foldl _ (fun _ _ => State.heedCasketByte_reads ..) s

theorem State.updTile_reads (s : State) (t : Nat) (f : Tile → Tile) : unchangedBut readComps s (s.updTile t f) :=
  ⟨fun c hc => by cases c with | tiles => simp [readComps] at hc | _ => rfl, rfl⟩

/-! ### Machine/SiteLink.lean, Machine/HostOps.lean -/

theorem State.updSite_reads (s : State) (q : Nat) (f : Site → Site) : unchangedBut readComps s (s.updSite q f) :=
  ⟨fun c hc => by cases c with | sites => simp [readComps] at hc | _ => rfl, rfl⟩

theorem State.useLines_reads (s : State) (ls : List Nat) : unchangedBut readComps s (s.useLines ls) :=
  (unchangedBut_withHost ..).mono (by simp [readComps])

theorem State.useSite_reads (s : State) (ps : List (Place × Nat)) : unchangedBut readComps s (s.useSite ps) := by
  refine .foldl _ (fun u p => ?_) s
  split
  · exact State.updSite_reads ..
  · exact .refl ..

theorem State.heedPlaces_reads (s : State) (ps : List (Place × Nat)) : unchangedBut readComps s (s.heedPlaces ps) := by
  refine .foldl _ (fun u p => ?_) s
  split
  · exact State.heed_reads ..
  · exact State.heedCasket_reads ..
  · exact State.updTile_reads ..
  · exact .refl ..

/-! ### Machine/Movers.lean, Machine/Sail.lean -/

theorem State.took_reads (s : State) (reads : List (Place × Nat)) : unchangedBut readComps s (s.took reads) :=
  ((State.heedPlaces_reads ..).trans (State.useLines_reads ..)).trans (State.useSite_reads ..)

theorem State.issueAll_reads (s : State) (b : Nat) (costs : List Nat) (k : Nat) : unchangedBut readComps s (s.issueAll b costs k).1 := by
  induction costs generalizing s k with
  | nil => exact .refl ..
  | cons c cs ih =>
    simp only [State.issueAll]
    split
    · exact ih s (k + 1)
    · split
      · exact (State.charge_reads ..).trans (ih _ (k + 1))
      · exact State.bucketWait_reads ..

/-- Accesses that have all been issued have charged the partition's bucket. -/
theorem State.access_go {s s1 : State} {x : Flight} {j : Nat} {reads writes : List (Place × Nat)}
    (h : s.access x j reads writes = .go s1) : unchangedBut readComps s s1 := by
  unfold State.access at h
  dsimp only at h
  split at h
  · cases h
  · split at h
    · cases h
    · split at h
      · cases h
        exact State.issueAll_reads ..
      · cases h

/-- Operands that are there have been read, and their accesses issued. -/
theorem State.fetch_go {s s1 : State} {x : Flight} {j : Nat} {ins outs done : List Opnd} {more : List (Place × Nat)}
    (h : s.fetch x j ins outs done more = .go s1) : unchangedBut readComps s s1 := by
  unfold State.fetch at h
  dsimp only at h
  split at h
  · split at h
    · cases h
    · rename_i ha
      split at h
      · cases h
      · split at h
        · cases h
        · cases h
          exact (State.access_go ha).trans (State.took_reads ..)
  · cases h

end Sys2Proof.Machine
end

section
/-! SUPPORT. One piece of a Sail descriptor whose operands are there, and the statement O14 on its results (R61, R63, R65, R67, R71, R73): the
output operand takes its bytes, and the piece ends. -/

namespace Sys2Proof.Machine

/-! ### The output operand -/

/-- `t` came from `u` by the write of these bytes, as far as they fit, to the `n` bytes of the Casket from `a` on, and left the stacks and
the tiles alone. -/
def outputWritten (u t : State) (a n : Nat) (bs : Bytes) : Prop :=
  casketHolds t a (bs.take n) ∧ casketSameOutside u t a n ∧ t.mem = u.mem ∧ t.tiles = u.tiles

/-- The components that the end of a piece changes, beside the engines' counters. -/
def endComps : List Comp := [.work, .tick, .xlat, .sail]

/-- What the end of a piece does leaves the written output as it is. -/
theorem outputWritten.trans {u t v : State} {a n : Nat} {bs : Bytes} (h : outputWritten u t a n bs) (hv : unchangedBut endComps t v) :
    outputWritten u v a n bs := by
  have hc : v.casket = t.casket := hv.1 .casket (by simp [endComps])
  have hm : v.mem = t.mem := hv.1 .mem (by simp [endComps])
  have ht : v.tiles = t.tiles := hv.1 .tiles (by simp [endComps])
  obtain ⟨holds, same, mem, tiles⟩ := h
  refine ⟨?_, ?_, hm.trans mem, ht.trans tiles⟩
  · simpa only [casketHolds, hc] using holds
  · simpa only [casketSameOutside, hc] using same

/-- Bytes without poison read back as they were written (R208). -/
theorem State.writeCasket_clean_holds (s : State) (a : Nat) (bs : Bytes) : casketHolds (s.writeCasket a (clean bs)) a bs := by
  intro i hi
  have h := s.writeCasket_holds a i (clean bs) (by simpa [clean] using hi)
  simpa [clean, hi] using h

/-- A write leaves the Casket outside any stretch that holds all of it as it was. -/
theorem State.writeCasket_same_le (s : State) (a : Nat) {n : Nat} {bs : List (Byte × Bool)} (h : bs.length ≤ n) :
    casketSameOutside s (s.writeCasket a bs) a n :=
  fun i hi => s.writeCasket_same a bs i (by omega)

/-- Rows for an output that lies in one stretch of the Casket are written there, as far as they fit. -/
theorem State.putRows_casket {s : State} {x : Flight} {o : Opnd} {a n : Nat} (rows : List Bytes)
    (h : s.opndPlaces x.part o = some [(.casket a, n)]) :
    s.putRows x o false rows = s.writeCasket a (clean (rows.flatten.take n)) := by
  simp [State.putRows, h, State.writePlaces, State.writePlace, clean]

theorem State.putRows_written {s : State} {x : Flight} {o : Opnd} {a n : Nat} (rows : List Bytes)
    (h : s.opndPlaces x.part o = some [(.casket a, n)]) : outputWritten s (s.putRows x o false rows) a n rows.flatten := by
  rw [State.putRows_casket rows h]
  exact ⟨State.writeCasket_clean_holds _ _ _, State.writeCasket_same_le _ _ (by simp [clean]), rfl, rfl⟩

theorem State.putRows_work {s : State} {x : Flight} {o : Opnd} {a n : Nat} (rows : List Bytes)
    (h : s.opndPlaces x.part o = some [(.casket a, n)]) : (s.putRows x o false rows).work = s.work := by
  rw [State.putRows_casket rows h, State.writeCasket_work]

/-! ### Flights and strands -/

/-- A state with the same flights finds the same flight. -/
theorem State.flight_of_work {s t : State} (h : t.work = s.work) (f : Nat) : t.flight f = s.flight f := by
  simp only [State.flight, h]

/-- The flight with a change of its strand `j`. -/
def Flight.onStrand (x : Flight) (j : Nat) (g : Strand → Strand) : Flight :=
  { x with strands := x.strands.mapIdx (fun i y => if i == j then g y else y) }

theorem State.flight_updStrand {s : State} {f : Nat} {x : Flight} (j : Nat) (g : Strand → Strand) (h : s.flight f = some x) :
    (s.updStrand f j g).flight f = some (x.onStrand j g) := by
  refine (State.flight_updFlight _ _ _ ?_).trans (congrArg _ h)
  intro _; rfl

theorem Flight.strand_onStrand {x : Flight} {j : Nat} (g : Strand → Strand) (h : j < x.strands.length) :
    (x.onStrand j g).strand j = g (x.strand j) := by
  simp [Flight.strand, Flight.onStrand, h]

theorem Flight.length_onStrand (x : Flight) (j : Nat) (g : Strand → Strand) : (x.onStrand j g).strands.length = x.strands.length := by
  simp [Flight.onStrand]

/-- A strand whose pages are pinned is one of the flight's. -/
theorem Flight.strand_lt {x : Flight} {j : Nat} (h : (x.strand j).pinned = true) : j < x.strands.length := by
  by_contra hj
  simp [Flight.strand, Nat.le_of_not_lt hj] at h

/-! ### The end of a piece (R61) -/

/-- `y` is flight `x` at the same piece, still at work: what its first strand carries may be other. -/
def Flight.atPieceOf (x y : Flight) : Prop :=
  y.desc = x.desc ∧ y.state = x.state ∧ y.worked = false ∧ y.status = x.status ∧ (y.strand 0).piece = (x.strand 0).piece ∧
    0 < y.strands.length

/-- A working flight is at its own piece. -/
theorem State.working_atPiece {s : State} {f key : Nat} {x : Flight} (h : s.working f 0 key = some x) : x.atPieceOf x := by
  obtain ⟨-, -, hp, -, hw, -⟩ := State.working_some h
  exact ⟨rfl, rfl, hw, rfl, rfl, Flight.strand_lt hp⟩

/-- A change of what its first strand carries leaves a flight at its piece. -/
theorem Flight.atPieceOf_onStrand {x : Flight} {g : Strand → Strand} (hx : x.atPieceOf x) (hg : ∀ y, (g y).piece = y.piece) :
    x.atPieceOf (x.onStrand 0 g) := by
  obtain ⟨-, -, hw, -, -, hlen⟩ := hx
  refine ⟨rfl, rfl, hw, rfl, ?_, by rwa [Flight.length_onStrand]⟩
  rw [Flight.strand_onStrand g hlen, hg]

theorem State.sliceOver_unchanged (s : State) (x : Flight) (n : Nat) : unchangedBut [.tick] s (s.sliceOver x n) :=
  .ite (unchangedBut_withTick ..) (.refl ..)

/-- The slice of the piece that ends, judged by its end (Table 1.2). -/
def State.judged (s : State) (x : Flight) (j : Nat) : State :=
  match (x.strand j).state with
  | .running n => s.sliceOver x n
  | _ => s

theorem State.judged_unchanged (s : State) (x : Flight) (j : Nat) : unchangedBut [.tick] s (s.judged x j) := by
  unfold State.judged
  split
  · exact State.sliceOver_unchanged ..
  · exact .refl ..

theorem State.nextPiece_eq (s : State) (x : Flight) (j dt : Nat) :
    s.nextPiece x j dt = (((s.judged x j).unpinPiece x.id j).updStrand x.id j (fun y => { y with piece := y.piece + 1 })).updFlight x.id
      (fun y => { y with detail := dt }) := rfl

theorem State.nextPiece_unchanged (s : State) (x : Flight) (j dt : Nat) : unchangedBut endComps s (s.nextPiece x j dt) := by
  have pin : unchangedBut [.work, .xlat] (s.judged x j) ((s.judged x j).unpinPiece x.id j) :=
    ((unchangedBut_withXlat ..).mono (by simp)).trans ((State.updStrand_unchanged ..).mono (by simp))
  rw [State.nextPiece_eq]
  exact ((((s.judged_unchanged x j).mono (by simp [endComps])).trans (pin.mono (by simp [endComps]))).trans
    ((State.updStrand_unchanged ..).mono (by simp [endComps]))).trans ((State.updFlight_unchanged ..).mono (by simp [endComps]))

/-- The flight whose next piece is due. -/
theorem State.flight_nextPiece {s : State} {x y : Flight} (j dt : Nat) (h : s.flight x.id = some y) :
    (s.nextPiece x j dt).flight x.id = some
      { (y.onStrand j (fun y => { y with pinned := false, issued := 0 })).onStrand j (fun y => { y with piece := y.piece + 1 }) with
        detail := dt } := by
  have hj : (s.judged x j).flight x.id = some y := (State.flight_of_work ((s.judged_unchanged x j).1 .work (by simp)) _).trans h
  rw [State.nextPiece_eq]
  refine (State.flight_updFlight _ _ _ ?_).trans (congrArg _ (State.flight_updStrand _ _ (State.flight_updStrand _ _ ?_)))
  · intro _; rfl
  · exact hj

theorem State.endPiece_unchanged (s : State) (x : Flight) (last : Bool) (status dt : Nat) :
    unchangedBut endComps s (s.endPiece x last status dt) :=
  .ite ((State.updFlight_unchanged ..).mono (by simp [endComps])) (State.nextPiece_unchanged ..)

/-- The end of a piece without a status of its own: the work is done with the last one, else the next piece is due. -/
theorem State.endPiece_worked {s : State} {f n : Nat} {x y : Flight} {last : Bool} (dt : Nat) (hf : s.flight f = some y) (hid : x.id = f)
    (hy : x.atPieceOf y) (hlast : last = true ↔ (x.strand 0).piece + 1 = n) : pieceWorked (s.endPiece x last 0 dt) f x n 0 := by
  subst hid
  obtain ⟨hdesc, hstate, hworked, hstatus, hpiece, hlen⟩ := hy
  cases last with
  | true =>
    obtain ⟨⟨z, hz, hzw, hzs, hzd, hzst⟩, -⟩ := State.workDone_worked hf 0 dt
    refine ⟨z, hz, hzd.trans hdesc, hzst.trans hstate, ?_⟩
    rw [if_pos (hlast.1 rfl)]
    exact ⟨hzw, hstatus ▸ hzs⟩
  | false =>
    refine ⟨_, State.flight_nextPiece 0 dt hf, hdesc, hstate, ?_⟩
    rw [if_neg (fun h => Bool.false_ne_true (hlast.2 h))]
    refine ⟨hworked, hstatus, ?_⟩
    rw [← hpiece]
    refine (congrArg Strand.piece (Flight.strand_onStrand _ (by rwa [Flight.length_onStrand]))).trans ?_
    rw [Flight.strand_onStrand _ hlen]

/-- After the last piece the work is done. -/
theorem workedWith_of_pieceWorked {t : State} {f n st : Nat} {x : Flight} (h : pieceWorked t f x n st)
    (hn : (x.strand 0).piece + 1 = n) : workedWith t f x st := by
  obtain ⟨y, hy, hdesc, hstate, hend⟩ := h
  rw [if_pos hn] at hend
  exact ⟨y, hy, hend.1, hend.2, hdesc, hstate⟩

/-! ### A piece without a hardware fault -/

theorem State.sailWork_nil (s : State) (x : Flight) (j : Nat) (work : State → State) : s.sailWork x j [] work = work s := by
  simp [State.sailWork]

theorem exec_gemm_working {s : State} {f : Nat} {x : Flight} (h : s.working f 0 0x20001 = some x) :
    exec (.gemm f []) s = .next (s.doGemm x) := by
  simp only [exec, execGemm, h, State.sailWork_nil]

theorem exec_reduce_working {s : State} {f : Nat} {x : Flight} (h : s.working f 0 0x20004 = some x) :
    exec (.reduce f []) s = .next (s.doReduce x) := by
  simp only [exec, execReduce, h, State.sailWork_nil]

theorem exec_sfu_working {s : State} {f : Nat} {x : Flight} (h : s.working f 0 0x20005 = some x) :
    exec (.sfu f []) s = .next (s.doSfu x) := by
  simp only [exec, execSfu, h, State.sailWork_nil]

theorem exec_scan_working {s : State} {f : Nat} {x : Flight} (h : s.working f 0 0x20003 = some x) :
    exec (.scan f []) s = .next (s.doScan x) := by
  simp only [exec, execScan, h, State.sailWork_nil]

/-- After the fetch a flight's output is written, a counter of its engine may grow, and the piece ends: what that leaves. -/
theorem State.pieceEnd_written {s s1 u : State} {f key a n pieces : Nat} {x : Flight} {ins outs done : List Opnd} {o : Opnd}
    {rows : List Bytes} {last : Bool} (dt : Nat) (hw : s.working f 0 key = some x) (hf : s.fetch x 0 ins outs done [] = .go s1)
    (ho : s1.opndPlaces x.part o = some [(.casket a, n)]) (hu : unchangedBut [.sail] (s1.putRows x o false rows) u)
    (hlast : last = true ↔ (x.strand 0).piece + 1 = pieces) :
    outputWritten s1 (u.endPiece x last 0 dt) a n rows.flatten ∧ pieceWorked (u.endPiece x last 0 dt) f x pieces 0 := by
  obtain ⟨hx, -⟩ := State.working_some hw
  have hwork : u.work = s.work :=
    ((hu.1 .work (by simp)).trans (State.putRows_work rows ho)).trans ((State.fetch_go hf).1 .work (by simp [readComps]))
  refine ⟨?_, ?_⟩
  · exact (State.putRows_written rows ho).trans ((hu.mono (by simp [endComps])).trans (State.endPiece_unchanged ..))
  · exact State.endPiece_worked dt ((State.flight_of_work hwork f).trans hx) (State.flight_id hx) (State.working_atPiece hw) hlast

/-! ### The four descriptors on operands that are there -/

/-- The output rows of tile `k` of a GEMM as the operands stand, and what it notes (R65). -/
def State.gemmResult (s : State) (x : Flight) (k : Nat) : List Bytes × SailNotes :=
  gemmRows x.desc (gemmTile x.desc k).2.1 (gemmTile x.desc k).2.2.2 (s.opndRows x.part (gemmTileA x.desc k))
    (s.opndRows x.part (gemmTileB x.desc k)) (s.opndRows x.part (gemmTileC x.desc k)) (s.opndRows x.part (gemmTileAS x.desc k))
    (s.opndRows x.part (gemmTileBS x.desc k))

theorem State.doGemm_fetched {s s1 : State} {x : Flight} {k : Nat} (hk : (x.strand 0).piece = k)
    (hf : s.fetch x 0 (gemmTileIns x.desc k) [gemmTileD x.desc k] ((List.range k).map (gemmTileD x.desc)) [] = .go s1)
    (hap : s.opndsOverlap x.part [gemmD x.desc] (gemmApart x.desc) = false) :
    s.doGemm x = ((s1.putRows x (gemmTileD x.desc k) false (s.gemmResult x k).1).countMacs (x.strand 0).unit
      ((gemmTile x.desc k).2.1 * (gemmTile x.desc k).2.2.2 * gK x.desc)).endPiece x (k + 1 == gemmPieces x.desc) 0
      (x.detail ||| (s.gemmResult x k).2.bits (bit (gFlags x.desc) 3 || bit (gFlags x.desc) 4)) := by
  subst hk
  simp only [State.doGemm, hf, hap, State.gemmResult]

/-- The output bytes of piece `k` of a REDUCE as the operands stand, and what it notes (R71). -/
def State.reduceResult (s : State) (x : Flight) (k : Nat) : Bytes × SailNotes :=
  reduceRows x.desc (reduceTile x.desc k).2 ((reduceTileIns x.desc k).map (fun o => (s.opndRows x.part o).flatten))

theorem State.doReduce_fetched {s s1 : State} {x : Flight} {k : Nat} (hk : (x.strand 0).piece = k)
    (hf : s.fetch x 0 (reduceTileIns x.desc k) [reduceTileOut x.desc k] ((List.range k).map (reduceTileOut x.desc)) [] = .go s1)
    (hap : s.opndsOverlap x.part [reduceOut x.desc] (reduceApart x.desc) = false) :
    s.doReduce x = (s1.putRows x (reduceTileOut x.desc k) false [(s.reduceResult x k).1]).endPiece x (k + 1 == reducePieces x.desc) 0
      (x.detail ||| (s.reduceResult x k).2.bits (bit (rFlags x.desc) 2)) := by
  subst hk
  simp only [State.doReduce, hf, hap, State.reduceResult]

/-- The output of one row part of an SFU with a float output, as the operands stand, and what it notes (R73). -/
def State.sfuResult (s : State) (x : Flight) (q : Nat × Nat × Nat) : Bytes × Bytes × SailNotes :=
  sfuRow x.desc q.2.1 q.2.2 ((s.opndRows x.part (sfuPartX x.desc q)).flatten) []

/-- A piece of an SFU that is one row part, with a float output: no scales, no smoothing vector. -/
theorem State.doSfu_fetched {s s1 : State} {x : Flight} {k : Nat} {q : Nat × Nat × Nat} (hk : (x.strand 0).piece = k)
    (hfmt : fOut x.desc ≤ 4) (hq : sfuParts x.desc k = [q])
    (hf : s.fetch x 0 (sfuTileIns x.desc k) (sfuTileOuts x.desc k) (((List.range k).map (sfuTileOuts x.desc)).flatten) [] = .go s1)
    (hap : s.opndsOverlap x.part (sfuOuts x.desc) (sfuApart x.desc) = false) :
    s.doSfu x = (s1.putRows x (sfuPartY x.desc q) false [(s.sfuResult x q).1]).endPiece x (k + 1 == sfuPieces x.desc) 0
      (x.detail ||| (SailNotes.none.join (s.sfuResult x q).2.2).bits (bit (fFlags x.desc) 1)) := by
  have hmx : isMx (fOut x.desc) = false := by simp [isMx]; omega
  have hkv : fOut x.desc ≠ 0xE := by omega
  subst hk
  simp only [State.doSfu, hf, hap, hq, hmx, hkv, State.sfuResult, if_false, Bool.false_or, decide_false, Bool.false_eq_true, List.map_cons,
    List.map_nil, List.foldl_cons, List.foldl_nil]

/-- The candidate lists after piece `k` of a SCAN without scales, norms and filter, as the operands stand, and what it notes (R67). -/
def State.scanResult (s : State) (x : Flight) (k : Nat) : List Bytes × SailNotes :=
  scanRows x.desc k (s.opndRows x.part (scanQ x.desc)) [] (s.opndRows x.part (scanTileT x.desc k)) [] [] [] (x.strand 0).blob

/-- The last piece of a SCAN of a dot product without scales and without a filter. -/
theorem State.doScan_last {s s1 : State} {x : Flight} {k : Nat} (hm : sMetric x.desc = 0) (hfl : bit (sFlags x.desc) 0 = false)
    (hqx : isMx (sQFmt x.desc) = false) (htx : isMx (sTFmt x.desc) = false) (hk : (x.strand 0).piece = k) (hlast : k + 1 = scanPieces x.desc)
    (hf : s.fetch x 0 (scanTileIns x.desc k) [scanOut x.desc] [] [] = .go s1)
    (hap : s.opndsOverlap x.part [scanOut x.desc] (scanIns x.desc) = false) :
    s.doScan x = ((s1.putRows x (scanOut x.desc) false (s.scanResult x k).1).countMacs (x.strand 0).unit
      (sQCount x.desc * (scanTile x.desc k).2 * sDim x.desc)).endPiece x true 0
      (x.detail ||| (s.scanResult x k).2.bits (bit (sFlags x.desc) 1 || bit (sFlags x.desc) 2)) := by
  subst hk
  have hout : scanTileOuts x.desc (x.strand 0).piece = [scanOut x.desc] := if_pos hlast
  simp [State.doScan, hout, hf, hap, hm, hfl, hqx, htx, hlast, State.scanResult]

/-- A piece of a SCAN that is not the last keeps its candidate lists in the engine's buffer. -/
theorem State.doScan_notLast {s s1 : State} {x : Flight} {k : Nat} (hk : (x.strand 0).piece = k) (hlast : k + 1 < scanPieces x.desc)
    (hf : s.fetch x 0 (scanTileIns x.desc k) [] [] [] = .go s1) :
    ∃ lists macs dt, s.doScan x =
      ((s1.updStrand x.id 0 (fun y => { y with blob := lists })).countMacs (x.strand 0).unit macs).endPiece x false 0 dt := by
  subst hk
  have hout : scanTileOuts x.desc (x.strand 0).piece = [] := if_neg hlast.ne
  have hl : ((x.strand 0).piece + 1 == scanPieces x.desc) = false := beq_eq_false_iff_ne.2 hlast.ne
  exact ⟨_, _, _, by simp only [State.doScan, hout, hf, hl, Bool.false_eq_true, if_false]; rfl⟩

/-- An engine's count of multiply-accumulates grows, and nothing else changes. -/
theorem State.countMacs_unchanged (s : State) (e n : Nat) : unchangedBut [.sail] s (s.countMacs e n) := unchangedBut_withSail ..

/-- Settles O14: each descriptor's equation on operands that are there names the bytes of its output, and the end of a piece leaves them. -/
theorem sailDescriptorsWriteTheirResults : Obligations.SailDescriptorsWriteTheirResults := by
  refine ⟨?gemm, ?reduce, ?sfu, ?scanLast, ?scanOn⟩
  case gemm =>
    intro s f x s1 a n k hw hk hf ho hap
    obtain ⟨⟨holds, same, mem, tiles⟩, worked⟩ := State.pieceEnd_written _ hw hf ho (State.countMacs_unchanged ..)
      (last := k + 1 == gemmPieces x.desc) (by rw [hk, beq_iff_eq])
    exact ⟨_, (exec_gemm_working hw).trans (congrArg _ (State.doGemm_fetched hk hf hap)), holds, same, worked, mem, tiles⟩
  case reduce =>
    intro s f x s1 a n k hw hk hf ho hap
    obtain ⟨⟨holds, same, mem, tiles⟩, worked⟩ := State.pieceEnd_written _ hw hf ho (.refl ..)
      (last := k + 1 == reducePieces x.desc) (by rw [hk, beq_iff_eq])
    rw [List.flatten_singleton] at holds
    exact ⟨_, (exec_reduce_working hw).trans (congrArg _ (State.doReduce_fetched hk hf hap)), holds, same, worked, mem, tiles⟩
  case sfu =>
    intro s f x s1 a n k q hw hfmt hk hq hf ho hap
    obtain ⟨⟨holds, same, mem, tiles⟩, worked⟩ := State.pieceEnd_written _ hw hf ho (.refl ..)
      (last := k + 1 == sfuPieces x.desc) (by rw [hk, beq_iff_eq])
    rw [List.flatten_singleton] at holds
    exact ⟨_, (exec_sfu_working hw).trans (congrArg _ (State.doSfu_fetched hk hfmt hq hf hap)), holds, same, worked, mem, tiles⟩
  case scanLast =>
    intro s f x s1 a n k hw hm hfl hqx htx hk hlast hf ho hap
    have hn : (x.strand 0).piece + 1 = scanPieces x.desc := hk ▸ hlast
    obtain ⟨⟨holds, same, mem, tiles⟩, worked⟩ := State.pieceEnd_written _ hw hf ho (State.countMacs_unchanged ..) (last := true)
      (iff_of_true rfl hn)
    exact ⟨_, (exec_scan_working hw).trans (congrArg _ (State.doScan_last hm hfl hqx htx hk hlast hf hap)), holds, same,
      workedWith_of_pieceWorked worked hn, mem, tiles⟩
  case scanOn =>
    intro s f x s1 k hw hk hlast hf
    obtain ⟨hx, -⟩ := State.working_some hw
    obtain ⟨lists, macs, dt, hdo⟩ := State.doScan_notLast hk hlast hf
    have hid : x.id = f := State.flight_id hx
    have hx1 : s1.flight x.id = some x := by
      rw [hid, State.flight_of_work ((State.fetch_go hf).1 .work (by simp [readComps])) f, hx]
    have hy : x.atPieceOf (x.onStrand 0 (fun y => { y with blob := lists })) :=
      Flight.atPieceOf_onStrand (State.working_atPiece hw) (fun _ => rfl)
    have buffered : unchangedBut endComps s1
        ((s1.updStrand x.id 0 (fun y => { y with blob := lists })).countMacs (x.strand 0).unit macs) :=
      ((State.updStrand_unchanged ..).mono (by simp [endComps])).trans ((State.countMacs_unchanged ..).mono (by simp [endComps]))
    have hu := buffered.trans (State.endPiece_unchanged _ x false 0 dt)
    refine ⟨_, (exec_scan_working hw).trans (congrArg _ hdo), ?_, hu.1 .casket (by simp [endComps]), hu.1 .mem (by simp [endComps]),
      hu.1 .tiles (by simp [endComps])⟩
    refine State.endPiece_worked dt ?_ hid hy (iff_of_false Bool.false_ne_true (by omega))
    exact hid ▸ State.flight_updStrand 0 _ hx1

end Sys2Proof.Machine
end

section
/-! SUPPORT. Wide settings whose data bytes are zeros, and what a read or a writeback of a wide setting that is no codeword does (R209, R224,
R241, R242, R249, R250, R253, R287). -/

namespace Sys2Proof.Machine

/-! ### The zero codeword (R241) -/

theorem leNat_zeros (n : Nat) : leNat (zeros n) = 0 := by
  induction n with
  | zero => rfl
  | succ n ih => rw [zeros, List.replicate_succ, leNat, ← zeros, ih]; rfl

theorem byteAt_zeros (n i : Nat) : byteAt (zeros n) i = 0 := by
  rw [byteAt, fieldLe, slice, zeros, List.drop_replicate, List.take_replicate, ← zeros, leNat_zeros]

theorem SMap.getList_nil_zeros (k n : Nat) : SMap.getList (0 : Byte) [] k n = zeros n := by
  induction n generalizing k with
  | zero => rfl
  | succ n ih => rw [zeros, List.replicate_succ, ← zeros, ← ih (k + 1)]; rfl

theorem columnChecks_zero : columnChecks (List.replicate 16 0) = (0, 0) := by decide +kernel

theorem wideChecks_zeros (n b : Nat) : wideChecks (zeros n) b = 0 := by
  have column : ∀ c, (List.range 16).map (fun i => byteAt (zeros n) (64 * i + c)) = List.replicate 16 0 := fun c => by
    simp only [byteAt_zeros]
    rfl
  simp only [wideChecks, column, columnChecks_zero]
  rfl

/-- The raw beats of setting `st` where its data bytes are zeros and its check symbols are these. -/
def zeroBeats (checks : SMap Nat) (st : Nat) : List Bytes :=
  (List.range 16).map (fun b => zeros 64 ++ natLe 8 (SMap.get 0 checks (16 * st + b)))

theorem Mem.rawSetting_zeros {m : Mem} (h : m.bytes = []) (st : Nat) : m.rawSetting true st = zeroBeats m.checks st := by
  simp only [Mem.rawSetting, Mem.rawBeat, Mem.beatData, Mem.dataChecks, Mem.settingData, h, SMap.getList_nil_zeros, wideChecks_zeros, if_true,
    Nat.zero_xor, zeroBeats]

/-- What a setting decodes to whose data bytes are zeros and whose check symbols are not those of zeros. -/
theorem State.readSetting_zeros {s : State} {st : Nat} (h : s.mem.bytes = []) (hs : s.mem.sound st = false) :
    s.readSetting st = decodeWide (s.group (st / settingsPerGroup)).erasure (zeroBeats s.mem.checks st) := by
  rw [State.readSetting, hs, Mem.rawSetting_zeros h]
  rfl

/-! ### Reads -/

/-- A byte of a wide setting that is no codeword is bad exactly where the decoder delivers no data. -/
theorem State.stackByte_wide {s : State} {k : Nat} (hv : s.granuleValid (k / 65536) = true) (hw : (s.group (groupOf k)).wide = true)
    (hs : s.mem.sound (k / 1024) = false) : (s.stackByte k).2 = (s.readSetting (k / 1024)).data.isNone := by
  simp only [State.stackByte, hv, hw, hs, Bool.not_true, Bool.false_eq_true, if_true, if_false]
  cases (s.readSetting (k / 1024)).data <;> rfl

/-- A read of device memory takes no poison where no byte of the lines it meets is bad (R209, R224). -/
theorem State.readLinesOf_dev_good {s : State} {a n : Nat}
    (hl : ∀ l, l ∈ linesOf a n → ∀ i, i < 64 → (s.readDevByte (64 * l + i)).2 = false)
    (hb : ∀ i, i < n → (s.readDevByte (a + i)).2 = false) : poisoned (s.readLinesOf [(.dev a, n)]) = false := by
  have lines : s.badLines (.dev a, n) = [] := by
    refine List.filter_eq_nil_iff.2 fun l hm => ?_
    simpa [poisoned, State.readPlace, Place.move, State.readDev] using hl l hm
  simpa [poisoned, State.readLinesOf, State.readLines, lines, State.readPlace, State.readDev, List.mem_mapIdx] using hb

theorem State.issueAll_unlimited {s : State} {b : Nat} (h : (s.bucket b).rateNow = max32) (costs : List Nat) (k : Nat) :
    s.issueAll b costs k = (s, k + costs.length) := by
  induction costs generalizing k with
  | nil => rfl
  | cons c cs ih => simp [State.issueAll, State.mayIssue, State.charge, h, ih, Nat.add_assoc, Nat.add_comm 1]

/-- Accesses that wait for nothing, of a partition whose rate is not limited, are issued at once (R253). -/
theorem State.access_unlimited {s : State} {x : Flight} {j : Nat} {reads writes : List (Place × Nat)} (hl : s.missingLines reads = [])
    (hs : s.missingSite reads = []) (hw : (s.tilesBusy (reads ++ writes) || s.placesHeld reads || s.placesRepaired writes) = false)
    (hb : (s.bucket x.part).rateNow = max32) : s.access x j reads writes = .go s := by
  simp [State.access, hl, hs, hw, State.issueAll_unlimited hb]

/-- A run in one wide setting has been read past the buffers: what its decoder reports is heeded. -/
theorem State.heed_wideRun {s : State} {d n k : Nat} (hc : s.mem.checks.isEmpty = false) (hr : runsOf d n = [(d, n)]) (hn : 0 < n)
    (hk : storageOf d = some k) (hm : s.redirect k = k) (hb : s.mem.wcb = []) (hv : s.granuleValid (k / 65536) = true)
    (hw : (s.group (groupOf k)).wide = true) : s.heed d n = s.heedSetting (k / 1024) := by
  have unbuffered : ∀ l : List Nat, l.foldl (fun s i => s.heedBuffered (k / 1024) ((k + i) % 1024)) s = s := by
    intro l
    induction l with
    | nil => rfl
    | cons i l ih => rw [List.foldl_cons, show s.heedBuffered (k / 1024) ((k + i) % 1024) = s by simp [State.heedBuffered, hb], ih]
  simpa [State.heed, hc, hr, hk, hm, unbuffered, hv, hw, State.wcbByte, hb] using fun h => absurd (h 0) (by omega)

theorem State.heedSetting_located {s : State} {st die : Nat} {data : Bytes} (hs : s.mem.sound st = false)
    (h : s.readSetting st = .erased data die true) :
    s.heedSetting st = s.dieLocated (st / settingsPerGroup) die (st % settingsPerGroup) := by
  simp [State.heedSetting, hs, h]

theorem State.heedSetting_uncorrectable {s : State} {st : Nat} (h : s.readSetting st = .uncorrectable) : s.heedSetting st = s := by
  simp [State.heedSetting, h]

/-- A setting that does not decode in a wide group in permanent erasure mode is a second fault (R287). -/
theorem State.undecodable_second {s : State} {k n st : Nat} (hn : groupOf k = n) (hk : k / 1024 = st) (hw : (s.group n).wide = true)
    (hs : (s.group n).state = 3) (hd : s.readSetting st = .uncorrectable) : s.undecodable k = s.secondFault n := by
  simp [State.undecodable, hn, hk, hw, hs, hd]

/-! ### Writebacks (R249, R250) -/

/-- The lines of the buffers, and Sail. -/
def State.buffersAndSail (s : State) : List WcbLine × Sail := (s.mem.wcb, s.sail)

theorem State.startReset_buffersAndSail (s : State) (p c u : Nat) : (s.startReset p c u).buffersAndSail = s.buffersAndSail := by
  unfold State.startReset
  split
  · rfl
  · dsimp only
    split <;> rfl

theorem State.reportWb_buffersAndSail (s : State) (l : WcbLine) (b : Nat) (r : Bool) :
    (s.reportWb l b r).buffersAndSail = s.buffersAndSail := by
  unfold State.reportWb
  dsimp only
  rw [State.startReset_buffersAndSail]
  split <;> rfl

theorem State.reportWbs_buffersAndSail (s : State) (l : WcbLine) (r : Nat → Bool) (bs : List Nat) :
    (bs.foldl (fun s b => s.reportWb l b (r b)) s).buffersAndSail = s.buffersAndSail := by
  induction bs generalizing s with
  | nil => rfl
  | cons b bs ih => rw [List.foldl_cons, ih, State.reportWb_buffersAndSail]

theorem State.markRebuild_buffersAndSail (s : State) (g : Nat) : (s.markRebuild g).buffersAndSail = s.buffersAndSail := by
  unfold State.markRebuild
  dsimp only
  split <;> rfl

theorem State.charge_buffersAndSail (s : State) (b cost : Nat) : (s.charge b cost).buffersAndSail = s.buffersAndSail := by
  unfold State.charge
  split <;> rfl

theorem State.wroteBack_buffersAndSail (s : State) (l : WcbLine) (p : List Nat) :
    (s.wroteBack l p).buffersAndSail = ((s.mem.dropLine l.setting).wcb, s.sail) := by
  unfold State.wroteBack
  dsimp only
  split
  · rfl
  · split
    · exact State.charge_buffersAndSail ..
    · rfl

theorem Mem.storeStack_wcb (m : Mem) (k : Nat) (bs : Bytes) (bad good : List Nat) : (m.storeStack k bs bad good).wcb = m.wcb := rfl

theorem Mem.storeBeats_wcb (m : Mem) (k : Nat) (ms : List (Nat × List (Byte × Bool))) :
    (ms.foldl (fun mm x => mm.storeStack (k + 64 * x.1) (x.2.map (fun y => y.1)) [] [k / 64 + x.1]) m).wcb = m.wcb := by
  induction ms generalizing m with
  | nil => rfl
  | cons x ms ih => rw [List.foldl_cons, ih, Mem.storeStack_wcb]

/-- A partly valid line is written back over a setting that does not decode: the line leaves its buffer, and the group is acted on as for any
setting that does not decode. -/
theorem State.writeback_undecodable {s : State} {l : WcbLine} {b i : Nat} (he : l.errs = [])
    (hl : s.mem.wcb.find? (fun x => x.setting == l.setting) = some l) (hw : (s.group (l.setting / settingsPerGroup)).wide = true)
    (hv : s.granuleValid (l.setting * 1024 / 65536) = true) (hs : s.mem.sound l.setting = false)
    (hd : s.readSetting l.setting = .uncorrectable) (hb : b < 16) (hp : l.validIn b ≠ 64) (hi : i < 64)
    (hn : SMap.get none l.bytes (64 * b + i) = none) :
    (s.writeback l).buffersAndSail =
      (((s.undecodable (l.setting * 1024)).mem.dropLine l.setting).wcb, (s.undecodable (l.setting * 1024)).sail) := by
  have beats : s.wbBeats l = List.range 16 := by simp [State.wbBeats, hw]
  have bad : (s.stackByte (l.setting * 1024 + 64 * b + i)).2 = true := by
    have setting : (l.setting * 1024 + 64 * b + i) / 1024 = l.setting := by omega
    have granule : (l.setting * 1024 + 64 * b + i) / 65536 = l.setting * 1024 / 65536 := by omega
    rw [State.stackByte_wide (by rw [granule, hv]) (by rw [groupOf, setting, hw]) (by rw [setting, hs]), setting, hd]
    rfl
  have failed : (((List.range 16).filter (fun b => l.validIn b != 64)).filter (fun b => s.mergeReadBad l b)).isEmpty = false := by
    refine List.isEmpty_eq_false_iff_exists_mem.2 ⟨b, ?_⟩
    simp only [List.mem_filter, List.mem_range, State.mergeReadBad, List.any_eq_true]
    exact ⟨⟨hb, by simpa using hp⟩, i, hi, by simp [hn, bad]⟩
  unfold State.writeback
  simp only [he, List.foldl_nil, hl, Option.getD_some, hw, State.heedSetting_uncorrectable hd, beats, hv, failed, Bool.not_true, Bool.not_false,
    Bool.or_false, Bool.and_self, if_true, ite_self]
  rw [State.reportWbs_buffersAndSail, State.markRebuild_buffersAndSail, State.wroteBack_buffersAndSail]
  simp only [Mem.dropLine]
  rw [Mem.storeStack_wcb, Mem.storeBeats_wcb]

/-- A new line of a full set makes the oldest line that may go be written back. -/
theorem State.makeWay_evicts {s : State} {setting : Nat} {l : WcbLine} (hn : s.mem.wcb.any (fun l => l.setting == setting) = false)
    (hf : 16 ≤ (s.wcbSet setting).length) (hl : ((s.wcbSet setting).filter (fun l => !s.lineHeld l)).getLast? = some l) :
    s.makeWay setting = s.writeback l := by
  simp [State.makeWay, hn, Nat.not_lt.2 hf, hl]

/-- Bytes that enter a new line and do not fill it change Sail only by what makes way for the line. -/
theorem State.writeLine_sail {s : State} {k st w : Nat} {bs : List (Byte × Bool)} (hk : k / 1024 = st) (hv : s.granuleValid (st / 64) = true)
    (hn : (s.makeWay st).mem.wcb.find? (fun l => l.setting == st) = none)
    (hl : (SMap.setList none ([] : SMap (Option (Byte × Bool))) (k % 1024) (bs.map some)).length ≠ 1024) :
    (s.writeLine k bs w).sail = (s.makeWay st).sail := by
  subst hk
  simp [State.writeLine, State.touchGranule, hv, hn, WcbLine.full, hl]

/-- A write within one setting whose slab is not being moved. -/
theorem State.writeDev_run {s : State} {d k w : Nat} {bs : List (Byte × Bool)} (hr : runsOf d bs.length = [(d, bs.length)])
    (hk : storageOf d = some k) (hm : s.redirect k = k) (hv : s.movingTo k = none) : s.writeDev d bs w = s.writeLine k bs w := by
  simp [State.writeDev, hr, hk, hm, State.writeSetting, hv]

end Sys2Proof.Machine
end

section
/-! SUPPORT. A state that refutes O15 (R93, R102, R250, R287): the writes of a KV_WRITE evict a line whose writeback finds a second fault. -/

namespace Sys2Proof.Machine

/-- The state once a KV_WRITE has stored its tokens in the page at `a`. -/
def State.tokensStored (s : State) (x : Flight) (a : Nat) : State :=
  let r := (s.slot (dSlot x.desc)).record
  (kvStores r x.blob (kPos x.desc % recT r) (kN x.desc)).foldl (fun s w => s.writeDev (a + w.1) (clean w.2) x.part) s

/-- The page header that a KV_WRITE then writes. -/
def State.newHeader (s : State) (x : Flight) : Bytes :=
  let sl := s.slot (dSlot x.desc)
  pageHeader (dSlot x.desc) sl.generation (kLayer x.desc) (kPos x.desc / recT sl.record) (kPos x.desc % recT sl.record + kN x.desc)

/-- The groups that a slot notes as mapped out, after a KV_WRITE that starts its page, are those that the writes to the stacks leave. -/
theorem State.commitKvWrite_moved {s : State} {x : Flight} {sl : Slot} {a : Nat} (hsl : s.slot (dSlot x.desc) = sl) (hst : x.status = 0)
    (hp : sl.len ≤ kPos x.desc) (hn : kPos x.desc + kN x.desc - sl.len ≤ 4095) (ho : kPos x.desc % recT sl.record = 0)
    (ha : s.pageEntry sl.record (kLayer x.desc) (kPos x.desc / recT sl.record) = some a)
    (hpl : s.placed sl (partOf sl.record (kPos x.desc / recT sl.record) (kLayer x.desc)) a = true) :
    ((s.commitKvWrite x).slot (dSlot x.desc)).moved =
      (((s.tokensStored x a).writeDev a (clean (s.newHeader x)) x.part).slot (dSlot x.desc)).moved := by
  subst hsl
  simp only [State.commitKvWrite, hst, ha, hpl, Nat.not_lt.2 hp, Nat.not_lt.2 hn, ho, ne_eq, not_true_eq_false, false_and, if_false, Bool.not_true,
    Bool.false_eq_true]
  simp only [State.tokensStored, State.newHeader, ho]
  simp only [State.slot, State.updFlight_sail, State.updSlot, SMap.get_upd_same]

/-- An open slot of one layer with one head of 64 channels, on group 0, its page directory at address 1024. -/
def cacheSlot : Slot :=
  { state := 1
    record := [1, 8, 1, 1] ++ natLe 2 1 ++ natLe 2 1 ++ natLe 2 64 ++ zeros 6 ++ natLe 4 64 ++ zeros 4 ++ natLe 8 1024 ++ zeros 32 ++ [0] ++
      List.replicate 31 0xFF ++ zeros 160 }

/-- The slot's one page, in local view: its header is the last 64 bytes of setting 2048 of group 0. -/
def cachePage : Nat := 0x100002003C0

/-- A KV_WRITE of one token at position 0 of slot 0, which has quantised it. -/
def tokenWrite : Flight :=
  { fillFlight [] with desc := [1, 2, 8, 0] ++ zeros 32 ++ natLe 2 1 ++ zeros 90, worked := true, state := .ended, blob := zeros 132 }

/-- A buffer line of this setting, of which one byte is valid. -/
def partLine (setting : Nat) : WcbLine := { setting := setting, bytes := [(0, some (0, false))], writer := 0, tick := 0 }

/-- Group 0 works without its die 5, no slab is reserved as a donor, and setting 64 has a wrong check symbol on die 0.  The buffer set of setting
2048 is full, and its oldest line is that of setting 64.  The page directory is in a buffer of group 4. -/
def erasureState : State :=
  { sail := { slots := [(0, cacheSlot)], kvrBase := [(0, 0x10000000000)], kvrLimit := [(0, 0x10010000000)] }
    mem := { filled := true, checks := [(16 * 64, 1)], groups := [(0, { state := 3, deadDie := some 5 })]
             wcb := (List.range 16).map (fun i => partLine (64 * (16 - i))) ++
               [{ setting := 4 * settingsPerGroup, bytes := (natLe 8 (cachePage + 1)).mapIdx (fun i b => (i, some (b, false)))
                  writer := 0, tick := 0 }] } }

/-- The state before the header is written. -/
def erasureStored : State := erasureState.tokensStored tokenWrite cachePage

theorem erasureStored_uncorrectable : erasureStored.readSetting 64 = .uncorrectable := by
  have stack : erasureStored.mem.bytes = [] ∧ erasureStored.mem.checks = [(16 * 64, 1)] ∧ (erasureStored.group 0).erasure = some 5 := by
    decide +kernel
  obtain ⟨bytes, checks, erasure⟩ := stack
  rw [State.readSetting_zeros bytes (by rw [Mem.sound, checks]; rfl), checks, show 64 / settingsPerGroup = 0 by decide, erasure]
  decide +kernel

/-- Room is made for the header by the writeback of setting 64, which is the second fault of group 0. -/
theorem erasureStored_makeWay : (erasureStored.makeWay 2048).buffersAndSail =
    (((erasureStored.secondFault 0).mem.dropLine 64).wcb, (erasureStored.secondFault 0).sail) := by
  have buffers : erasureStored.mem.wcb.any (fun l => l.setting == 2048) = false ∧ 16 ≤ (erasureStored.wcbSet 2048).length ∧
      ((erasureStored.wcbSet 2048).filter (fun l => !erasureStored.lineHeld l)).getLast? = some (partLine 64) ∧
      erasureStored.mem.wcb.find? (fun x => x.setting == 64) = some (partLine 64) := by decide +kernel
  have stack : (erasureStored.group 0).wide = true ∧ (erasureStored.group 0).state = 3 ∧ erasureStored.granuleValid 1 = true ∧
      erasureStored.mem.sound 64 = false := by decide +kernel
  obtain ⟨absent, full, oldest, found⟩ := buffers
  obtain ⟨wide, erasing, valid, unsound⟩ := stack
  have evicted : erasureStored.makeWay 2048 = erasureStored.writeback (partLine 64) := State.makeWay_evicts absent full oldest
  have written := State.writeback_undecodable (l := partLine 64) (b := 1) (i := 0) rfl found wide valid unsound erasureStored_uncorrectable
    (by decide) (by decide) (by decide) (by decide)
  rwa [State.undecodable_second (n := 0) (st := 64) (by decide) rfl wide erasing erasureStored_uncorrectable, ← evicted] at written

/-- The second fault maps group 0 out, which the slot notes. -/
theorem erasureStored_secondFault : ((erasureStored.secondFault 0).slot 0).moved = [0] ∧
    ((erasureStored.secondFault 0).mem.dropLine 64).wcb.find? (fun l => l.setting == 2048) = none := by decide +kernel

theorem erasureStored_header_moved :
    ((erasureStored.writeDev cachePage (clean (erasureState.newHeader tokenWrite)) 0).slot 0).moved = [0] := by
  obtain ⟨buffers, sail⟩ := Prod.mk.inj erasureStored_makeWay
  obtain ⟨moved, newLine⟩ := erasureStored_secondFault
  rw [State.slot, State.writeDev_run (k := 2048 * 1024 + 960) (by decide +kernel) (by decide +kernel) (by decide +kernel) (by decide +kernel),
    State.writeLine_sail (st := 2048) rfl (by decide +kernel) (by rw [buffers, newLine]) (by decide +kernel), sail]
  exact moved

/-- Refutes O15: a KV_WRITE's header takes the place of a buffer line whose setting does not decode, in a group that works without a die and has no
donors; the group is mapped out, and the slot that lists it notes that, beside the pencil. -/
theorem not_cacheResultsAreHeld : ¬ Obligations.CacheResultsAreHeld := by
  rintro ⟨-, commits, -⟩
  have slot0 : dSlot tokenWrite.desc = 0 := by decide +kernel
  have hsl : erasureState.slot (dSlot tokenWrite.desc) = cacheSlot := by rw [slot0]; rfl
  have bounds : cacheSlot.len ≤ kPos tokenWrite.desc ∧ kPos tokenWrite.desc + kN tokenWrite.desc - cacheSlot.len ≤ 4095 ∧
      kPos tokenWrite.desc % recT cacheSlot.record = 0 := by decide +kernel
  have page : erasureState.pageEntry cacheSlot.record (kLayer tokenWrite.desc) (kPos tokenWrite.desc / recT cacheSlot.record) = some cachePage ∧
      erasureState.placed cacheSlot (partOf cacheSlot.record (kPos tokenWrite.desc / recT cacheSlot.record) (kLayer tokenWrite.desc)) cachePage =
        true := by decide +kernel
  obtain ⟨hp, hn, ho⟩ := bounds
  obtain ⟨ha, hpl⟩ := page
  obtain ⟨claimed, -⟩ := commits erasureState tokenWrite cacheSlot cachePage hsl rfl hp hn ho ha hpl
  have moved := State.commitKvWrite_moved hsl rfl hp hn ho ha hpl
  rw [claimed, slot0, show tokenWrite.part = 0 from rfl, ← erasureStored, erasureStored_header_moved] at moved
  exact List.cons_ne_nil _ _ moved.symm

end Sys2Proof.Machine
end

section
/-! SUPPORT. A state that refutes O16 (R83, R242, R287): reading a slot record finds a second fault. -/

namespace Sys2Proof.Machine

/-- A SLOT_OPEN whose record is read without poison changes Sail only by what the stacks report of the read. -/
theorem slotOpen_sail {s s0 t : State} {f a : Nat} {x : Flight} (h : s.controlReady f 0x20006 = some x) (hx : openAddr x.desc = a)
    (ha : s.access x 0 [(.dev a, 256)] [] = .go s0) (hp : poisoned (s0.readLinesOf [(.dev a, 256)]) = false)
    (ht : exec (.slotOpen f) s = .next t) : t.sail = (s0.heed a 256).sail := by
  subst hx
  obtain ⟨hf, hk, -⟩ := State.controlReady_some h
  have offEngines : x.onEngines = false := by simp [Flight.onEngines, Flight.sliced, hk]
  have taken : (s0.took [(.dev (openAddr x.desc), 256)]).flight x.id = some x := by
    rw [State.flight_id hf, State.flight_of_work (((State.access_go ha).trans (State.took_reads ..)).1 .work (by simp [readComps])), hf]
  simp only [exec, execSlotOpen, h, State.doSlotOpen, ha, hp] at ht
  cases ht
  obtain ⟨-, ended⟩ := State.endFlight_ended taken offEngines _ _
  exact ended.1 .sail (by simp)

/-- A SLOT_OPEN of slot 0 whose record lies at address 0. -/
def slotOpening : Flight := { fillFlight [] with desc := [1, 2, 6, 0] ++ zeros 60 }

/-- The first setting of group 0 where die 5 has lost the 1s it held in 12 byte columns: zeros, with the checks of the 1s.  The group is in permanent
erasure mode and names no dead die, and no slab is reserved as a donor.  Slot 5 is open on that group. -/
def dieLostState : State :=
  { sail := { slots := [(5, { state := 1, record := [1, 8, 1, 1] ++ zeros 252 })] }
    mem := { filled := true, groups := [(0, { state := 3 })]
             checks := [(0, 0x7E7E7E7E), (1, 0x7E7E7E7E), (2, 0x7E7E7E7E), (8, 0x7F7F7F7F00000000), (9, 0x7F7F7F7F00000000)
               , (10, 0x7F7F7F7F00000000)] }
    work := { flights := [slotOpening] } }

/-- The decoder has located this die. -/
def Decoded.locates (r : Decoded) (die : Nat) : Bool :=
  match r with
  | .erased _ a found => a == die && found
  | _ => false

theorem Decoded.locates_iff {r : Decoded} {die : Nat} : r.locates die = true ↔ ∃ data, r = .erased data die true := by
  cases r <;> simp [Decoded.locates]

theorem dieLostState_located : ∃ data, dieLostState.readSetting 0 = .erased data 5 true := by
  rw [← Decoded.locates_iff, State.readSetting_zeros rfl rfl]
  decide +kernel

/-- The decoder delivers the setting's data, so its bytes are good. -/
theorem dieLostState_good {d : Nat} (h : d < 1024) : (dieLostState.readDevByte d).2 = false := by
  obtain ⟨data, located⟩ := dieLostState_located
  have storage : storageOf d = some d := by
    have striped : d < 0xC000000000 := by omega
    rw [storageOf, if_pos striped, stripedStorage, settingsPerGroup]
    exact congrArg some (by omega)
  have setting : d / 1024 = 0 := by omega
  have granule : d / 65536 = 0 := by omega
  have good := State.stackByte_wide (s := dieLostState) (k := d) (by rw [granule]; rfl) (by rw [groupOf, setting]; rfl) (by rw [setting]; rfl)
  rw [setting, located] at good
  rw [State.readDevByte, storage]
  exact good

theorem slotOpening_addr : openAddr slotOpening.desc = 0 := by decide

theorem dieLostState_ready : dieLostState.controlReady 7 0x20006 = some slotOpening := by decide +kernel

theorem dieLostState_access : dieLostState.access slotOpening 0 [(.dev (openAddr slotOpening.desc), 256)] [] = .go dieLostState :=
  State.access_unlimited rfl rfl (by decide +kernel) rfl

theorem dieLostState_unpoisoned : poisoned (dieLostState.readLinesOf [(.dev (openAddr slotOpening.desc), 256)]) = false := by
  rw [slotOpening_addr]
  refine State.readLinesOf_dev_good (fun l hl i hi => dieLostState_good ?_) (fun i hi => dieLostState_good (by omega))
  have line : l < 4 := by simpa [linesOf] using hl
  omega

/-- Reading the record locates die 5. -/
theorem dieLostState_heed : dieLostState.heed (openAddr slotOpening.desc) 256 = dieLostState.dieLocated 0 5 0 := by
  obtain ⟨data, located⟩ := dieLostState_located
  rw [slotOpening_addr, State.heed_wideRun (k := 0) rfl (by decide) (by decide) (by decide) (by decide) rfl rfl rfl]
  exact State.heedSetting_located rfl located

/-- The located die is the group's second fault, which maps it out; slot 5 notes that. -/
theorem dieLostState_moved : ((dieLostState.dieLocated 0 5 0).slot 5).moved = [0] := by decide +kernel

/-- Refutes O16: the statement is about every state, and in one whose group is in permanent erasure mode without a dead die, reading the record of a
SLOT_OPEN of slot 0 has the group mapped out, which slot 5 notes: Sail has changed. -/
theorem not_slotsOpenAndSettle : ¬ Obligations.SlotsOpenAndSettle := by
  rintro ⟨opens, -⟩
  obtain ⟨t, ht, -, unchanged, -⟩ :=
    opens dieLostState 7 slotOpening _ _ dieLostState_ready dieLostState_access dieLostState_unpoisoned rfl
  have read := slotOpen_sail dieLostState_ready rfl dieLostState_access dieLostState_unpoisoned ht
  have noted := dieLostState_moved
  rw [State.slot, ← dieLostState_heed, ← read, unchanged] at noted
  exact absurd noted (by decide)

end Sys2Proof.Machine
end

section
/-! SUPPORT. The rules of a bead instruction (R118, R120, R122, R155, R164, Table 4.1): how an update of one tile is composed, what of the
tile the core's entry to its instruction keeps, and what each outcome of an instruction makes of the state. -/

namespace Sys2Proof.Machine

/-! ### Tiles -/

theorem State.updTile_unchanged (s : State) (t : Nat) (f : Tile → Tile) : unchangedBut [.tiles] s (s.updTile t f) :=
  ⟨fun c hc => by cases c with | tiles => simp at hc | _ => rfl, rfl⟩

@[simp] theorem State.tile_updTile_same (s : State) (t : Nat) (f : Tile → Tile) : (s.updTile t f).tile t = f (s.tile t) := by
  simp [State.tile, State.updTile]

@[simp] theorem State.tile_updTile_other (s : State) {t m : Nat} (f : Tile → Tile) (h : m ≠ t) : (s.updTile t f).tile m = s.tile m := by
  simp [State.tile, State.updTile, h]

theorem State.tile_of_tiles {s t : State} (h : t.tiles = s.tiles) (m : Nat) : t.tile m = s.tile m := by
  simp only [State.tile, h]

theorem tileBecomes.refl (s : State) (n : Nat) : tileBecomes s s n (s.tile n) := ⟨rfl, fun _ _ => rfl, .refl _ _⟩

theorem tileBecomes.trans {s u v : State} {n : Nat} {x y : Tile} (h : tileBecomes s u n x) (k : tileBecomes u v n y) : tileBecomes s v n y := by
  obtain ⟨-, ho, hu⟩ := h
  obtain ⟨hy, ko, ku⟩ := k
  exact ⟨hy, fun m hm => (ko m hm).trans (ho m hm), hu.trans ku⟩

theorem tileBecomes.self {s u : State} {n : Nat} {y : Tile} (h : tileBecomes s u n y) : tileBecomes u u n y := h.1 ▸ tileBecomes.refl u n

theorem State.updTile_becomes (s : State) (n : Nat) (f : Tile → Tile) : tileBecomes s (s.updTile n f) n (f (s.tile n)) :=
  ⟨s.tile_updTile_same n f, fun _ hm => s.tile_updTile_other f hm, s.updTile_unchanged n f⟩

theorem tileBecomes.updTile {s u : State} {n : Nat} {y : Tile} (h : tileBecomes s u n y) (f : Tile → Tile) :
    tileBecomes s (u.updTile n f) n (f y) := by
  have hy : u.tile n = y := h.1
  exact h.trans (hy ▸ u.updTile_becomes n f)

/-! ### The core at its instruction -/

theorem State.beadAt.tileOk {s : State} {n w len : Nat} {i : BeadInstr} (h : s.beadAt n i w len) : tileOk n = true := by
  obtain ⟨⟨hn, -⟩, -⟩ := h
  exact decide_eq_true hn

/-- What neither landing nor the correction of fetched words changes is as the tile stands. -/
theorem State.core_keeps {β : Type} (g : Tile → β) (hd : ∀ y off bs, g (Tile.writeDmem y off bs) = g y)
    (hr : ∀ y c f, g (Tile.updRx y c f) = g y) (hh : ∀ y ws, g (Tile.heedWords y ws) = g y) (s : State) (n : Nat) :
    g (s.core n) = g (s.tile n) := by
  unfold State.core
  dsimp only
  split
  · rw [hh, Tile.land_keeps g hd hr]
  · rw [Tile.land_keeps g hd hr]

@[simp] theorem State.core_mtvec (s : State) (n : Nat) : (s.core n).mtvec = (s.tile n).mtvec :=
  State.core_keeps (fun x => x.mtvec) (fun _ _ _ => rfl) (fun _ _ _ => rfl) (fun _ _ => rfl) s n

@[simp] theorem State.core_trapActive (s : State) (n : Nat) : (s.core n).trapActive = (s.tile n).trapActive :=
  State.core_keeps (fun x => x.trapActive) (fun _ _ _ => rfl) (fun _ _ _ => rfl) (fun _ _ => rfl) s n

theorem State.core_prog (s : State) (n : Nat) : (s.core n).prog = (s.tile n).prog :=
  State.core_keeps (fun x => x.prog) (fun _ _ _ => rfl) (fun _ _ _ => rfl) (fun _ _ => rfl) s n

theorem State.core_inRun (s : State) (n : Nat) : (s.core n).inRun = (s.tile n).inRun :=
  State.core_keeps (fun x => x.inRun) (fun _ _ _ => rfl) (fun _ _ _ => rfl) (fun _ _ => rfl) s n

theorem State.core_cycle (s : State) (n : Nat) : (s.core n).cycle = (s.tile n).cycle :=
  State.core_keeps (fun x => x.cycle) (fun _ _ _ => rfl) (fun _ _ _ => rfl) (fun _ _ => rfl) s n

/-- The address of an access is the same before the fetched words are corrected. -/
theorem State.land_addr (s : State) (n rs1 imm : Nat) : ((s.tile n).land (s.tile n).cycle).addr rs1 imm = (s.core n).addr rs1 imm :=
  (Tile.land_keeps (fun x => x.addr rs1 imm) (fun _ _ _ => rfl) (fun _ _ _ => rfl) _ _).trans
    (State.core_keeps (fun x => x.addr rs1 imm) (fun _ _ _ => rfl) (fun _ _ _ => rfl) (fun _ _ => rfl) s n).symm

theorem State.core_fetch (s : State) (n : Nat) : (s.core n).fetch = (s.tile n).fetch :=
  State.core_keeps Tile.fetch (fun _ _ _ => rfl) (fun _ _ _ => rfl) (fun _ _ => rfl) s n

/-- The state in which tile `n` meets its instruction: what has arrived is there, and the fetched words are corrected. -/
def State.entered (s : State) (n : Nat) : State := s.updTile n (fun _ => s.core n)

@[simp] theorem State.entered_tile (s : State) (n : Nat) : (s.entered n).tile n = s.core n := State.tile_updTile_same ..
@[simp] theorem State.entered_tick (s : State) (n : Nat) : (s.entered n).tick = s.tick := rfl
@[simp] theorem State.entered_locket (s : State) (n : Nat) : (s.entered n).locket = s.locket := rfl
@[simp] theorem State.entered_dbg (s : State) (n : Nat) : (s.entered n).dbg = s.dbg := rfl

theorem State.entered_becomes (s : State) (n : Nat) : tileBecomes s (s.entered n) n (s.core n) := State.updTile_becomes ..

theorem tileBecomes.entered (s : State) (n : Nat) : tileBecomes (s.entered n) (s.entered n) n (s.core n) := (s.entered_becomes n).self

/-! ### What the outcome of an instruction makes of the state -/

/-- The mesh goes on after a step of tile `n`, if its program is a RUN's. -/
theorem beadDone_of_becomes {s u : State} {n p : Nat} {y : Tile} {o : Host.Outcome State Fault Refusal} (hu : tileBecomes s u n y)
    (hp : y.progPart = p) (ho : o = .next (if (u.tile n).inRun then u.advance p else u)) : beadDone o s n y := by
  refine ⟨u, hu, ?_⟩
  rw [ho, hu.1, hp]

/-- A trap that a tile can take goes to its handler (R155). -/
theorem State.beadTrap_taken {s : State} {n : Nat} (cause tval : Nat) (window : Bool) (hv : (s.tile n).mtvec ≠ 0)
    (ha : (s.tile n).trapActive = false) : tileBecomes s (s.beadTrap n cause tval window) n ((s.tile n).trapped cause tval) := by
  have h : s.beadTrap n cause tval window = s.updTile n (fun x => x.trapped cause tval) := if_pos ⟨hv, by simp [ha]⟩
  rw [h]
  exact s.updTile_becomes n _

section
variable {s e u : State} {n w len pc cycles : Nat} {y : Tile} {i : BeadInstr} {m : String} {o : Host.Outcome State Fault Refusal}
  {want : Tile → BeadInstr → Bool} {sem : State → Tile → BeadInstr → Nat → Nat → BeadRes}

/-- An instruction that completes, from the state `e` in which the tile meets it. -/
theorem beadCommit_done (he : tileBecomes s e n (s.core n)) (hu : tileBecomes e u n y) (hp : y.progPart = (s.core n).progPart) :
    beadDone (.next (e.beadCommit n (.done u pc cycles))) s n (y.stepped pc cycles) := by
  refine beadDone_of_becomes ((he.trans hu).updTile (fun x => x.stepped pc cycles)) hp ?_
  rw [State.beadCommit, he.1]
  rfl

/-- An instruction that takes a trap. -/
theorem beadCommit_trap {cause tval : Nat} {window : Bool} (he : tileBecomes s e n (s.core n)) (ht : s.canTrap n) :
    beadDone (.next (e.beadCommit n (.trap cause tval window))) s n ((s.core n).trapped cause tval) := by
  obtain ⟨hv, ha⟩ := ht
  have hu := State.beadTrap_taken (s := e) (n := n) cause tval window (by simpa [he.1] using hv) (by simpa [he.1] using ha)
  rw [he.1] at hu
  refine beadDone_of_becomes (he.trans hu) rfl ?_
  rw [State.beadCommit, he.1]
  rfl

/-- A command whose tile stands at one of its instructions commits what its meaning makes of the entered state. -/
theorem bead_commits (ho : o = guarded m (tileOk n) (s.bead n want sem)) (h : s.beadAt n i w len)
    (hw : want ((s.tile n).land (s.tile n).cycle) i = true) :
    o = .next ((s.entered n).beadCommit n (sem (s.entered n) (s.core n) i w len)) := by
  rw [ho, (guarded_eq m _ _).1 h.tileOk, State.bead_of_beadAt h want hw sem, ← State.entered, State.entered_tile]

/-- It completes. -/
theorem beadDone_of_done (ho : o = guarded m (tileOk n) (s.bead n want sem)) (h : s.beadAt n i w len)
    (hw : want ((s.tile n).land (s.tile n).cycle) i = true) (hsem : sem (s.entered n) (s.core n) i w len = .done u pc cycles)
    (hu : tileBecomes (s.entered n) u n y) (hp : y.progPart = (s.core n).progPart) : beadDone o s n (y.stepped pc cycles) := by
  rw [bead_commits ho h hw, hsem]
  exact beadCommit_done (s.entered_becomes n) hu hp

/-- It completes with a change of its own tile. -/
theorem beadDone_of_doneWith {f : Tile → Tile} (ho : o = guarded m (tileOk n) (s.bead n want sem)) (h : s.beadAt n i w len)
    (hw : want ((s.tile n).land (s.tile n).cycle) i = true)
    (hsem : sem (s.entered n) (s.core n) i w len = (s.entered n).doneWith n pc cycles f) (hy : f (s.core n) = y)
    (hp : y.progPart = (s.core n).progPart) : beadDone o s n (y.stepped pc cycles) :=
  beadDone_of_done ho h hw hsem (hy ▸ (tileBecomes.entered s n).updTile f) hp

/-- It takes a trap. -/
theorem beadDone_of_trap {cause tval : Nat} {window : Bool} (ho : o = guarded m (tileOk n) (s.bead n want sem))
    (h : s.beadAt n i w len) (hw : want ((s.tile n).land (s.tile n).cycle) i = true)
    (hsem : sem (s.entered n) (s.core n) i w len = .trap cause tval window) (ht : s.canTrap n) :
    beadDone o s n ((s.core n).trapped cause tval) := by
  rw [bead_commits ho h hw, hsem]
  exact beadCommit_trap (s.entered_becomes n) ht

/-- It stalls. -/
theorem beadDone_of_stall {why : Stall} (ho : o = guarded m (tileOk n) (s.bead n want sem)) (h : s.beadAt n i w len)
    (hw : want ((s.tile n).land (s.tile n).cycle) i = true)
    (hsem : sem (s.entered n) (s.core n) i w len = .stall (s.entered n) why) : beadDone o s n { s.core n with stall := why } := by
  refine beadDone_of_becomes ((s.entered_becomes n).updTile (fun x => { x with stall := why })) rfl ?_
  rw [bead_commits ho h hw, hsem, State.beadCommit, State.entered_tile]

/-- It ends or halts its core. -/
theorem beadDone_of_ends (ho : o = guarded m (tileOk n) (s.bead n want sem)) (h : s.beadAt n i w len)
    (hw : want ((s.tile n).land (s.tile n).cycle) i = true) (hsem : sem (s.entered n) (s.core n) i w len = .ends u)
    (hu : tileBecomes (s.entered n) u n y) (hp : y.progPart = (s.core n).progPart) : beadDone o s n y := by
  refine beadDone_of_becomes ((s.entered_becomes n).trans hu) hp ?_
  rw [bead_commits ho h hw, hsem, State.beadCommit, State.entered_tile]

end

/-! ### The partition of a tile's program stays

No proof of these is `rfl` alone: simp then leaves explicit steps, and the kernel compares no two tiles. -/

@[simp] theorem Tile.setReg_progPart (x : Tile) (r v : Nat) : (x.setReg r v).progPart = x.progPart := by
  unfold Tile.setReg; split <;> rfl

@[simp] theorem Tile.setVreg_progPart (x : Tile) (r : Nat) (v : BitVec 128) : (x.setVreg r v).progPart = x.progPart := by
  unfold Tile.setVreg; rfl

@[simp] theorem Tile.heedDmem_progPart (x : Tile) (off n : Nat) : (x.heedDmem off n).progPart = x.progPart := by
  unfold Tile.heedDmem Tile.heedWords; rfl

@[simp] theorem Tile.writeDmem_progPart (x : Tile) (off : Nat) (bs : List (Byte × Bool)) : (x.writeDmem off bs).progPart = x.progPart := by
  unfold Tile.writeDmem Tile.heedDmem Tile.heedWords; rfl

@[simp] theorem Tile.csrWrite_progPart (x : Tile) (k v : Nat) : (x.csrWrite k v).progPart = x.progPart := by
  unfold Tile.csrWrite; split <;> rfl

end Sys2Proof.Machine
end

section
/-! SUPPORT. The integer, jump, multiply, divide, FENCE, CSR and MRET instructions, and the statement O45 on them (R122 to R126, R155). -/

namespace Sys2Proof.Machine

/-- A CSR that exists is no clasp value. -/
theorem State.csrRead_not_claspVal {s : State} {n k old : Nat} {x : Tile} (h : s.csrRead n x k = some old) : k ≠ 0xFC6 ∧ k ≠ 0xFC7 := by
  constructor <;> rintro rfl <;> simp [State.csrRead] at h

theorem State.semCsr_reads {s : State} {n f rd k rs1 w len old : Nat} {x : Tile} (h : s.csrRead n x k = some old)
    (hw : csrWrites f rs1 = false) :
    s.semCsr n x (.csr f rd k rs1) w len = s.doneWith n (x.next len) 2 (fun y => y.setReg rd old) := by
  simp [State.semCsr, h, hw]

theorem State.semCsr_writes {s : State} {n f rd k rs1 w len old : Nat} {x : Tile} (h : s.csrRead n x k = some old)
    (hw : csrWrites f rs1 = true) (hk : k < 0xC00) :
    s.semCsr n x (.csr f rd k rs1) w len =
      s.doneWith n (x.next len) 2 (fun y => (y.csrWrite k (csrValue f old (x.csrOperand f rs1))).setReg rd old) := by
  simp [State.semCsr, h, hw, Nat.not_le.2 hk]

theorem State.semCsr_unknown {s : State} {n f rd k rs1 w len : Nat} {x : Tile} (h : s.csrRead n x k = none) :
    s.semCsr n x (.csr f rd k rs1) w len = .trap 2 w false := by
  simp [State.semCsr, h]

/-- Settles O45: each meaning completes with one change of the tile, which keeps its partition. -/
theorem beadIntegerInstructions : Obligations.BeadIntegerInstructions := by
  refine ⟨?lui, ?auipc, ?opImm, ?opReg, ?branch, ?jal, ?jalr, ?mul, ?div, ?fence, ?mret, ?csrRead, ?csrWrite⟩
  case lui => exact fun s n rd imm w len h => beadDone_of_doneWith rfl h rfl rfl rfl (Tile.setReg_progPart ..)
  case auipc => exact fun s n rd imm w len h => beadDone_of_doneWith rfl h rfl rfl rfl (Tile.setReg_progPart ..)
  case opImm => exact fun s n f alt rd rs1 imm w len h => beadDone_of_doneWith rfl h rfl rfl rfl (Tile.setReg_progPart ..)
  case opReg => exact fun s n f alt rd rs1 rs2 w len h => beadDone_of_doneWith rfl h rfl rfl rfl (Tile.setReg_progPart ..)
  case branch =>
    intro s n f rs1 rs2 imm w len h
    split
    · rename_i hb
      exact beadDone_of_done rfl h rfl (if_pos hb) (tileBecomes.entered s n) rfl
    · rename_i hb
      exact beadDone_of_done rfl h rfl (if_neg hb) (tileBecomes.entered s n) rfl
  case jal => exact fun s n rd imm w len h => beadDone_of_doneWith rfl h rfl rfl rfl (Tile.setReg_progPart ..)
  case jalr => exact fun s n rd rs1 imm w len h => beadDone_of_doneWith rfl h rfl rfl rfl (Tile.setReg_progPart ..)
  case mul => exact fun s n f rd rs1 rs2 w len hf h => beadDone_of_doneWith rfl h (decide_eq_true hf) rfl rfl (Tile.setReg_progPart ..)
  case div => exact fun s n f rd rs1 rs2 w len hf h => beadDone_of_doneWith rfl h (decide_eq_true hf) rfl rfl (Tile.setReg_progPart ..)
  case fence => exact fun s n w len h => beadDone_of_done rfl h rfl rfl (tileBecomes.entered s n) rfl
  case mret => exact fun s n w len h => beadDone_of_doneWith rfl h rfl rfl rfl rfl
  case csrRead =>
    intro s n f rd k rs1 w len old h hold hw
    obtain ⟨h6, h7⟩ := State.csrRead_not_claspVal hold
    exact beadDone_of_doneWith rfl h (by simp [hw, h6, h7]) (State.semCsr_reads hold hw) rfl (by simp)
  case csrWrite =>
    intro s n f rd k rs1 w len old h hold hw hk hne
    obtain ⟨h6, h7⟩ := State.csrRead_not_claspVal hold
    exact beadDone_of_doneWith rfl h (by simp [hne, h6, h7]) (State.semCsr_writes hold hw hk) rfl (by simp)

end Sys2Proof.Machine
end

section
/-! SUPPORT. How a program ends, traps and waits, and the statement O46 (R122, R123, R126, R128, R151, R153, R155, R157). -/

namespace Sys2Proof.Machine

/-! ### The end of a program (R151, R153) -/

theorem Tile.landAll_keeps {β : Type} (g : Tile → β) (hd : ∀ y off bs, g (Tile.writeDmem y off bs) = g y)
    (hr : ∀ y c f, g (Tile.updRx y c f) = g y) (x : Tile) : g x.landAll = g x := by
  simp [Tile.landAll, Tile.landChan_keeps g hd hr]

theorem Tile.landAll_inRun (x : Tile) : x.landAll.inRun = x.inRun :=
  Tile.landAll_keeps (fun x => x.inRun) (fun _ _ _ => rfl) (fun _ _ _ => rfl) x

theorem State.postTrap_unchanged (s : State) (x : Flight) (ends : List (Nat × Nat × BeadEnd)) : unchangedBut [.evt] s (s.postTrap x ends) := by
  unfold State.postTrap
  split
  · exact State.post_unchanged ..
  · exact .refl ..

theorem State.workDone_unchanged (s : State) (f st dt : Nat) : unchangedBut [.work] s (s.workDone f st dt) :=
  State.updFlight_unchanged ..

/-- The end of a LAUNCH's programs changes flights and events alone. -/
theorem State.launchCheck_unchanged {s : State} {f : Nat} (h : ∀ x, s.flight f = some x → dClass x.desc ≠ 4) :
    unchangedBut [.work, .evt] s (s.launchCheck f) := by
  unfold State.launchCheck
  split
  · exact .refl ..
  · rename_i x hx
    split
    · exact .refl ..
    · rw [if_neg (h x hx)]
      split
      · exact .refl ..
      · exact ((State.postTrap_unchanged s x _).mono (by simp)).trans ((State.workDone_unchanged ..).mono (by simp))

/-- The end of a flight's bead keeps the descriptors. -/
theorem State.noteEnd_desc {s : State} {f n : Nat} {e : BeadEnd} {y : Flight} (h : (s.noteEnd f n e).flight f = some y) :
    ∃ x, s.flight f = some x ∧ y.desc = x.desc := by
  have hm := (State.flight_updFlight s f _ ?_).symm.trans h
  case refine_1 => exact fun _ => rfl
  obtain ⟨x, hx, rfl⟩ := Option.map_eq_some_iff.1 hm
  exact ⟨x, hx, rfl⟩

/-- A tile whose program has ended (R151). -/
def Tile.over (x : Tile) (e : BeadEnd) : Tile :=
  { x.landAll with state := 0, ended := some e, stall := .none, traps := if e.isTrap then satAdd 0xFFFF x.traps 1 else x.traps }

theorem State.beadEnded_of_none {s : State} {n : Nat} (e : BeadEnd) (h : (s.tile n).prog = none) :
    s.beadEnded n e = s.updTile n (fun x => x.over e) := by
  simp only [State.beadEnded, h]
  rfl

theorem State.beadEnded_of_some {s : State} {n f : Nat} (e : BeadEnd) (h : (s.tile n).prog = some f) :
    s.beadEnded n e = ((s.updTile n (fun x => x.over e)).noteEnd f n e).launchCheck f := by
  simp only [State.beadEnded, h]
  rfl

/-- The end of a program that no RUN started. -/
theorem State.beadEnded_over {s : State} {n : Nat} (e : BeadEnd)
    (h : ∀ f x, (s.tile n).prog = some f → s.flight f = some x → dClass x.desc ≠ 4) :
    (s.beadEnded n e).tile n = (s.tile n).over e ∧ (∀ m, m ≠ n → (s.beadEnded n e).tile m = s.tile m) ∧
      unchangedBut [.tiles, .work, .evt] s (s.beadEnded n e) := by
  obtain ⟨hn, hother, hu⟩ := s.updTile_becomes n (fun x => x.over e)
  cases hp : (s.tile n).prog with
  | none =>
    rw [State.beadEnded_of_none e hp]
    exact ⟨hn, hother, hu.mono (by simp)⟩
  | some f =>
    rw [State.beadEnded_of_some e hp]
    have hnote : unchangedBut [.work] (s.updTile n (fun x => x.over e)) ((s.updTile n (fun x => x.over e)).noteEnd f n e) :=
      State.updFlight_unchanged ..
    have hcheck := State.launchCheck_unchanged (s := (s.updTile n (fun x => x.over e)).noteEnd f n e) (f := f) fun y hy => by
      obtain ⟨x, hx, hd⟩ := State.noteEnd_desc hy
      exact hd ▸ h f x hp hx
    have hw := (hnote.mono (ds := [.work, .evt]) (by simp)).trans hcheck
    have ht := State.tile_of_tiles (hw.1 .tiles (by simp))
    exact ⟨(ht n).trans hn, fun m hm => (ht m).trans (hother m hm), (hu.mono (by simp)).trans (hw.mono (by simp))⟩

/-! ### Encodings that are no instruction (R123, R127, R128) -/

/-- The instructions that ILLEGAL_INSTRUCTION executes. -/
def isIllegal (_ : Tile) (i : BeadInstr) : Bool :=
  match i with
  | .illegal => true
  | _ => false

theorem exec_illegalInstruction_fetched {s : State} {n : Nat} {d : BeadInstr × Nat × Nat} (h : (s.tile n).fetch = .inl d) :
    exec (.illegalInstruction n) s = guarded "ILLEGAL_INSTRUCTION" (tileOk n) (s.bead n isIllegal (fun _ _ _ w _ => .trap 2 w false)) := by
  refine congrArg (guarded _ _) ?_
  simp only [h]
  rfl

theorem exec_illegalInstruction_outside {s : State} {n a : Nat} (hr : s.coreRuns n) (h : (s.tile n).fetch = .inr a) :
    exec (.illegalInstruction n) s = .next (s.beadCommit n (.trap 1 a false)) := by
  obtain ⟨hn, hs, hst, hf, ha⟩ := hr
  refine ((guarded_eq "ILLEGAL_INSTRUCTION" _ _).1 (decide_eq_true hn)).trans ?_
  simp [h, hs, hst, hf, ha]

/-- Settles O46: ECALL with a7 = 0 ends the program; the others trap, halt or wait by their equations. -/
theorem beadTrapsAndEnds : Obligations.BeadTrapsAndEnds := by
  refine ⟨?exit, ?ecall, ?ebreak, ?halt, ?wfi, ?waits, ?wakes, ?illegal, ?fetch, ?csr⟩
  case exit =>
    intro s n w len h hrun h17 hf
    have he := bead_commits (o := exec (.ecall n) s) rfl h rfl
    rw [if_pos h17] at he
    have hb := (s.entered_becomes n).updTile (fun y => { y with cycle := y.cycle + 4, instret := y.instret + 1 })
    generalize (s.entered n).updTile n (fun y => { y with cycle := y.cycle + 4, instret := y.instret + 1 }) = v at he hb
    obtain ⟨hv, hother, hvu⟩ := hb
    obtain ⟨hn, hm, hu⟩ := State.beadEnded_over (s := v) (n := n) (.exit ((s.core n).reg 10)) fun f x hp hx => by
      rw [State.flight_of_work (hvu.1 .work (by simp))] at hx
      rw [hv] at hp
      exact hf f x ((State.core_prog s n).symm.trans hp) hx
    rw [hv] at hn
    refine ⟨_, he.trans (congrArg Host.Outcome.next (if_neg ?_)), congrArg Tile.state hn, congrArg Tile.ended hn,
      fun m h => (hm m h).trans (hother m h), (hvu.mono (by simp)).trans hu⟩
    rw [hn]
    simpa [Tile.over, Tile.landAll_inRun] using hrun
  case ecall =>
    intro s n w len h h17 ht
    exact beadDone_of_trap rfl h rfl (if_neg h17) ht
  case ebreak =>
    intro s n w len h hc ht
    exact beadDone_of_trap rfl h rfl (if_neg (by simp [State.entered, hc])) ht
  case halt =>
    intro s n w len h hc htile hopen hlc
    have hopen' : (s.entered n).beadHaltOpen = true := hopen
    refine beadDone_of_ends rfl h rfl (if_pos ?_) ((tileBecomes.entered s n).updTile (fun y => { y with state := 3 })) rfl
    simp [hopen', hc, htile, hlc]
  case wfi =>
    exact fun s n w len h => beadDone_of_doneWith rfl h rfl rfl rfl rfl
  case waits =>
    intro s n k hn hs hst hk
    refine ((guarded_eq "WFI_WAKE" _ _).1 (decide_eq_true hn)).trans ?_
    simp [hst, Nat.not_lt.2 hk]
  case wakes =>
    intro s n k hn hs hst hk
    refine beadDone_of_becomes (s.updTile_becomes n (fun y => { y with stall := .none })) rfl ?_
    refine ((guarded_eq "WFI_WAKE" _ _).1 (decide_eq_true hn)).trans ?_
    simp [hs, hst, hk]
  case illegal =>
    intro s n w len h ht
    have hf : (s.tile n).fetch = .inl (.illegal, w, len) := (State.core_fetch s n).symm.trans h.2.1
    exact beadDone_of_trap (exec_illegalInstruction_fetched hf) h rfl rfl ht
  case fetch =>
    intro s n a hr hf ht
    obtain ⟨hv, ha⟩ := ht
    exact beadDone_of_becomes (State.beadTrap_taken 1 a false hv ha) rfl (exec_illegalInstruction_outside hr hf)
  case csr =>
    intro s n f rd k rs1 w len h hk h6 h7 ht
    refine beadDone_of_trap rfl h ?_ (State.semCsr_unknown hk) ht
    have h3 : k ≠ 0x7C3 := by
      rintro rfl
      simp [State.csrRead] at hk
    simp [h3, h6, h7]

end Sys2Proof.Machine
end

section
/-! SUPPORT. Loads and stores of a bead, scalar and vector, and the statement O47 on them (R124, R127, R132, R141, R144, R208): the regions
of the memory map are apart, a read and a write of each region has one effect, and BEAD_LOAD and BEAD_STORE without upsets commit what
their meaning makes of it. -/

namespace Sys2Proof.Machine

/-! ### The regions of Table 4.3 -/

theorem inDmem_not_ports {a n : Nat} (hn : 0 < n) (h : inDmem a n = true) : inPorts a n = false := by
  simp only [inDmem, inPorts, within, Bool.and_eq_true, decide_eq_true_eq, Bool.and_eq_false_iff, decide_eq_false_iff_not] at h ⊢
  omega

theorem inWindow_not_ports {a n : Nat} (h : inWindow a n = true) : inPorts a n = false := by
  simp only [inWindow, inPorts, within, Bool.and_eq_true, decide_eq_true_eq, Bool.and_eq_false_iff, decide_eq_false_iff_not] at h ⊢
  omega

theorem inWindow_not_dmem {a n : Nat} (h : inWindow a n = true) : inDmem a n = false := by
  simp only [inWindow, inDmem, within, Bool.and_eq_true, decide_eq_true_eq, Bool.and_eq_false_iff, decide_eq_false_iff_not] at h ⊢
  omega

theorem portReg_outside {a n : Nat} (h : inPorts a n = false) : portReg a n = .none := by
  simp [portReg, h]

theorem accessSize_pos (f : Nat) : 0 < accessSize f := by
  unfold accessSize
  split
  · decide
  · split <;> decide

@[simp] theorem length_natLe (n v : Nat) : (natLe n v).length = n := by
  induction n generalizing v with
  | zero => rfl
  | succ n ih => simp [natLe, ih]

@[simp] theorem length_vbytes (v : BitVec 128) : (vbytes v).length = 16 := length_natLe ..

/-! ### Reads and writes of one range -/

theorem State.beadRead_dmem {s : State} {n a k : Nat} (hd : inDmem a k = true)
    (hp : poisoned ((s.tile n).readDmem (a - 0x10000) k) = false) :
    s.beadRead n a k = .data (s.updTile n (fun x => x.heedDmem (a - 0x10000) k)) (plain ((s.tile n).readDmem (a - 0x10000) k)) := by
  simp [State.beadRead, hd, hp]

theorem State.beadRead_window {s : State} {n a k : Nat} (hw : inWindow a k = true) (he : s.casket.errs = [])
    (ha : s.casketAllowed (s.tile n).progPart (windowAddr n a) k = true) (hp : poisoned (s.windowRead n (windowAddr n a) k) = false) :
    s.beadRead n a k = .data s (plain (s.windowRead n (windowAddr n a) k)) := by
  simp [State.beadRead, inWindow_not_dmem hw, hw, ha, hp, State.heedCasket, he]

theorem State.beadWrite_dmem {s : State} {n a : Nat} {bs : Bytes} (hd : inDmem a bs.length = true)
    (hq : ∀ q, q ∈ wordsMet (a - 0x10000) bs.length → SMap.get false (s.tile n).dmemBad q = false) :
    s.beadWrite n a bs = .done (s.updTile n (fun x => x.writeDmem (a - 0x10000) (clean bs))) := by
  have hpart : ((wordsMet (a - 0x10000) bs.length).filter (fun w => !(wholeWords (a - 0x10000) bs.length).contains w)).any
      (fun w => SMap.get false (s.tile n).dmemBad w) = false :=
    List.any_eq_false.2 fun q hm => by simp [hq q (List.mem_filter.1 hm).1]
  simp only [State.beadWrite, hd, hpart, if_true, Bool.false_eq_true, if_false]

theorem State.beadWrite_window {s : State} {n a : Nat} {bs : Bytes} (hw : inWindow a bs.length = true)
    (ha : s.casketAllowed (s.tile n).progPart (windowAddr n a) bs.length = true) :
    s.beadWrite n a bs = .done (s.windowWrite n (windowAddr n a) bs) := by
  simp [State.beadWrite, inWindow_not_dmem hw, hw, ha]

/-- A window store puts its bytes in the Casket, and changes nothing else but the note of it (R144, R208). -/
theorem State.windowWrite_stores (s : State) (n a : Nat) (bs : Bytes) :
    casketHolds (s.windowWrite n a bs) a bs ∧ casketSameOutside s (s.windowWrite n a bs) a bs.length ∧
      unchangedBut [.casket] s (s.windowWrite n a bs) := by
  have hsame := s.writeCasket_same a (clean bs)
  rw [clean, List.length_map] at hsame
  exact ⟨s.writeCasket_clean_holds a bs, hsame, unchangedBut_withCasket s _⟩

/-! ### What a window access sees of the state -/

theorem State.casketAllowed_congr {s t : State} (h : t.casket = s.casket) (p a n : Nat) : t.casketAllowed p a n = s.casketAllowed p a n := by
  simp only [State.casketAllowed, State.normalSeg, State.casketOwn, h]

theorem State.windowRead_congr {s t : State} {n : Nat} (h : t.casket = s.casket) (hp : (t.tile n).prog = (s.tile n).prog)
    (hc : (t.tile n).cycle = (s.tile n).cycle) (a k : Nat) : t.windowRead n a k = s.windowRead n a k := by
  simp only [State.windowRead, State.readCasket, State.casketByte, State.badInLine, h, hp, hc]

/-! ### BEAD_LOAD and BEAD_STORE without upsets -/

theorem guarded_all_nil {α : Type} (m : String) (ok : Bool) (p : α → Bool) (t : State) :
    guarded m (ok && ([] : List α).all p) t = guarded m ok t := by
  rw [List.all_nil, Bool.and_true]

/-- Without upsets the tile stands as before. -/
theorem State.noUpset_becomes (s : State) (n : Nat) : tileBecomes s (s.updTile n (fun x => x.upset [])) n (s.tile n) :=
  s.updTile_becomes n _

theorem State.core_of_becomes {s t : State} {n : Nat} (h : tileBecomes s t n (s.tile n)) : t.core n = s.core n := by
  simp only [State.core, h.1]

/-- A core stands at its instruction whatever becomes of the tiles elsewhere. -/
theorem State.beadAt_of_becomes {s t : State} {n w len : Nat} {i : BeadInstr} (h : tileBecomes s t n (s.tile n)) (hb : s.beadAt n i w len) :
    t.beadAt n i w len := by
  obtain ⟨⟨hn, hs, hst, hf, ha⟩, hat⟩ := hb
  have hcore := State.core_of_becomes h
  obtain ⟨ht, -, hu⟩ := h
  have hmesh : t.mesh = s.mesh := hu.1 .mesh (by simp)
  have hahead : t.ahead n = s.ahead n := by
    unfold State.ahead State.sched
    rw [ht, hmesh]
  exact ⟨⟨hn, ht ▸ hs, ht ▸ hst, ht ▸ hf, hahead.trans ha⟩, hcore ▸ hat⟩

section
variable {s : State} {n f rd rs1 rs2 imm w len : Nat}

theorem exec_beadLoad_commits (h : s.beadAt n (.load f rd rs1 imm) w len)
    (hr : portReg ((s.core n).addr rs1 imm) (accessSize f) = .none) :
    ∃ e, tileBecomes s e n (s.core n) ∧
      exec (.beadLoad n []) s = .next (e.beadCommit n (e.semLoad n (s.core n) (.load f rd rs1 imm) len)) := by
  have hb := s.noUpset_becomes n
  have hcore := State.core_of_becomes hb
  refine ⟨_, hcore ▸ hb.trans (State.entered_becomes _ n), hcore ▸ bead_commits (guarded_all_nil _ _ _ _) (State.beadAt_of_becomes hb h) ?_⟩
  simp only [State.land_addr, hcore, hr]

theorem exec_beadStore_commits (h : s.beadAt n (.store f rs1 rs2 imm) w len)
    (hr : portReg ((s.core n).addr rs1 imm) (accessSize f) = .none) :
    ∃ e, tileBecomes s e n (s.core n) ∧
      exec (.beadStore n []) s = .next (e.beadCommit n (e.semStore n (s.core n) (.store f rs1 rs2 imm) len)) := by
  have hb := s.noUpset_becomes n
  have hcore := State.core_of_becomes hb
  refine ⟨_, hcore ▸ hb.trans (State.entered_becomes _ n), hcore ▸ bead_commits (guarded_all_nil _ _ _ _) (State.beadAt_of_becomes hb h) ?_⟩
  simp only [State.land_addr, hcore, hr]

end

theorem State.semLoad_misaligned {s : State} {n f rd rs1 imm len : Nat} {x : Tile} (ha : x.addr rs1 imm % accessSize f ≠ 0) :
    s.semLoad n x (.load f rd rs1 imm) len = .trap 4 (x.addr rs1 imm) false := if_pos ha

/-- An aligned load outside the ports takes what its read gives. -/
theorem State.semLoad_data {s u : State} {n f rd rs1 imm len : Nat} {x : Tile} {bs : Bytes} (ha : x.addr rs1 imm % accessSize f = 0)
    (hp : inPorts (x.addr rs1 imm) (accessSize f) = false) (hr : s.beadRead n (x.addr rs1 imm) (accessSize f) = .data u bs) :
    s.semLoad n x (.load f rd rs1 imm) len = u.doneWith n (x.next len) (if inDmem (x.addr rs1 imm) (accessSize f) then 2 else 16)
      (fun y => y.setReg rd (loadValue f (leNat bs))) := by
  simp [State.semLoad, ha, hp, hr]

theorem State.semStore_done {s u : State} {n f rs1 rs2 imm len : Nat} {x : Tile} (ha : x.addr rs1 imm % accessSize f = 0)
    (hw : s.beadWrite n (x.addr rs1 imm) (natLe (accessSize f) (x.reg rs2)) = .done u) :
    s.semStore n x (.store f rs1 rs2 imm) len = .done u (x.next len)
      (if inDmem (x.addr rs1 imm) (accessSize f) then (if accessSize f = 4 then 1 else 2) else 8) := by
  simp [State.semStore, ha, hw]

/-! ### VLD and VST -/

section
variable {s : State} {n r rs1 imm w len : Nat}

theorem exec_vld_dmem (h : s.beadAt n (.vld r rs1 imm) w len) (ha : (s.core n).addr rs1 imm % 8 = 0)
    (hd : inDmem ((s.core n).addr rs1 imm) 16 = true)
    (hp : poisoned ((s.core n).readDmem ((s.core n).addr rs1 imm - 0x10000) 16) = false) :
    beadDone (exec (.vld n) s) s n ((((s.core n).heedDmem ((s.core n).addr rs1 imm - 0x10000) 16).setVreg r (vofBytes
      (plain ((s.core n).readDmem ((s.core n).addr rs1 imm - 0x10000) 16)))).stepped ((s.core n).next len)
        (vecCycles ((s.core n).addr rs1 imm) false)) := by
  have hports := inDmem_not_ports (by decide) hd
  have hr := State.beadRead_dmem (s := s.entered n) (n := n) hd (by simpa using hp)
  refine beadDone_of_done rfl h rfl (u := ((s.entered n).updTile n (fun x => x.heedDmem ((s.core n).addr rs1 imm - 0x10000) 16)).updTile n
    (fun y => y.setVreg r (vofBytes (plain ((s.core n).readDmem ((s.core n).addr rs1 imm - 0x10000) 16))))) ?_
    (((tileBecomes.entered s n).updTile _).updTile _) (by simp)
  simp only [ha, hports, hr, ne_eq, not_true_eq_false, if_false, Bool.false_eq_true, State.entered_tile, State.doneWith]

end

/-- Settles O47: an aligned access in DMEM or in a window of its partition has the effect of its read or write, a misaligned one traps. -/
theorem beadMemoryInstructions : Obligations.BeadMemoryInstructions := by
  refine ⟨?loadDmem, ?loadWindow, ?loadMisaligned, ?storeDmem, ?storeWindow, ?vld, ?vst, ?vldMisaligned⟩
  case loadDmem =>
    intro s n f rd rs1 imm w len h ha hd hp
    have hports := inDmem_not_ports (accessSize_pos f) hd
    obtain ⟨e, he, ho⟩ := exec_beadLoad_commits h (portReg_outside hports)
    have hr := State.beadRead_dmem (s := e) (n := n) hd (he.1 ▸ hp)
    rw [ho, State.semLoad_data ha hports hr, if_pos hd, he.1]
    exact beadCommit_done he ((he.self.updTile _).updTile (fun y => y.setReg rd _)) (Tile.setReg_progPart ..)
  case loadWindow =>
    intro s n f rd rs1 imm w len h ha hw hc hok hp
    have hports := inWindow_not_ports hw
    obtain ⟨e, he, ho⟩ := exec_beadLoad_commits h (portReg_outside hports)
    have hcasket : e.casket = s.casket := he.2.2.1 .casket (by simp)
    have hread : e.windowRead n (windowAddr n ((s.core n).addr rs1 imm)) (accessSize f) =
        s.windowRead n (windowAddr n ((s.core n).addr rs1 imm)) (accessSize f) :=
      State.windowRead_congr hcasket (by rw [he.1, State.core_prog]) (by rw [he.1, State.core_cycle]) _ _
    have hr := State.beadRead_window (s := e) (n := n) hw (hcasket ▸ hc) (by rw [State.casketAllowed_congr hcasket, he.1, hok])
      (hread ▸ hp)
    rw [ho, State.semLoad_data ha hports hr, if_neg (by simp [inWindow_not_dmem hw]), hread]
    exact beadCommit_done he (he.self.updTile (fun y => y.setReg rd _)) (Tile.setReg_progPart ..)
  case loadMisaligned =>
    intro s n f rd rs1 imm w len h hr ha ht
    obtain ⟨e, he, ho⟩ := exec_beadLoad_commits h hr
    rw [ho, State.semLoad_misaligned ha]
    exact beadCommit_trap he ht
  case storeDmem =>
    intro s n f rs1 rs2 imm w len h ha hd hq
    obtain ⟨e, he, ho⟩ := exec_beadStore_commits h (portReg_outside (inDmem_not_ports (accessSize_pos f) hd))
    have hw := State.beadWrite_dmem (s := e) (n := n) (a := (s.core n).addr rs1 imm)
      (bs := natLe (accessSize f) ((s.core n).reg rs2)) (by rwa [length_natLe]) (by rwa [length_natLe, he.1])
    rw [ho, State.semStore_done ha hw, if_pos hd]
    exact beadCommit_done he (he.self.updTile _) (Tile.writeDmem_progPart ..)
  case storeWindow =>
    intro s n f rs1 rs2 imm w len h hrun ha hw hok
    obtain ⟨e, he, ho⟩ := exec_beadStore_commits h (portReg_outside (inWindow_not_ports hw))
    obtain ⟨htile, hother, hu⟩ := he
    have hcasket : e.casket = s.casket := hu.1 .casket (by simp)
    have hwr := State.beadWrite_window (s := e) (n := n) (a := (s.core n).addr rs1 imm)
      (bs := natLe (accessSize f) ((s.core n).reg rs2)) (by rwa [length_natLe])
      (by rw [length_natLe, State.casketAllowed_congr hcasket, htile, hok])
    rw [ho, State.semStore_done ha hwr, if_neg (by simp [inWindow_not_dmem hw])]
    obtain ⟨hholds, hsame, hv⟩ := e.windowWrite_stores n (windowAddr n ((s.core n).addr rs1 imm)) (natLe (accessSize f) ((s.core n).reg rs2))
    generalize e.windowWrite n (windowAddr n ((s.core n).addr rs1 imm)) (natLe (accessSize f) ((s.core n).reg rs2)) = v at hholds hsame hv
    have ht := State.tile_of_tiles (hv.1 .tiles (by simp))
    rw [length_natLe] at hsame
    refine ⟨v.updTile n (fun x => x.stepped ((s.core n).next len) 8), congrArg Host.Outcome.next (if_neg ?_), hholds, ?_, ?_, ?_, ?_⟩
    · rw [State.tile_updTile_same, ht, htile]
      simpa using hrun
    · intro k hk
      rw [← hcasket]
      exact hsame k hk
    · rw [State.tile_updTile_same, ht, htile]
    · exact fun m hm => (State.tile_updTile_other _ _ hm).trans ((ht m).trans (hother m hm))
    · exact (hu.mono (by simp)).trans ((hv.mono (by simp)).trans ((State.updTile_unchanged ..).mono (by simp)))
  case vld =>
    intro s n vd rs1 imm w len h ha hd hp
    have hv := exec_vld_dmem h ha hd hp
    rwa [vecCycles, if_pos hd] at hv
  case vst => 
    intro s n vs rs1 imm w len h ha hd hq
    have hports := inDmem_not_ports (by decide) hd
    have hw := State.beadWrite_dmem (s := s.entered n) (n := n) (a := (s.core n).addr rs1 imm)
      (bs := vbytes ((s.core n).vreg vs)) (by rwa [length_vbytes]) (by rwa [length_vbytes, State.entered_tile])
    refine beadDone_of_done rfl h rfl (u := (s.entered n).updTile n (fun x => x.writeDmem ((s.core n).addr rs1 imm - 0x10000)
      (clean (vbytes ((s.core n).vreg vs))))) ?_ ((tileBecomes.entered s n).updTile _) (Tile.writeDmem_progPart ..)
    simp only [ha, hports, hw, ne_eq, not_true_eq_false, if_false, Bool.false_eq_true, vecCycles, hd, if_true]
  case vldMisaligned => 
    intro s n vd rs1 imm w len h ha ht
    exact beadDone_of_trap rfl h rfl (if_pos ha) ht
end Sys2Proof.Machine
end

section
/-! SUPPORT. Byte strings as numbers, the bytes of a vector register, and the statement O50 on the moves between scalar and vector
registers (R5, R129, R131). -/

namespace Sys2Proof.Machine

/-! ### Little-endian byte strings -/

theorem leNat_append (a b : Bytes) : leNat (a ++ b) = leNat a + 256 ^ a.length * leNat b := by
  induction a with
  | nil => simp [leNat]
  | cons x a ih =>
    simp only [List.cons_append, leNat, ih, List.length_cons, pow_succ]
    ring

theorem leNat_natLe (n v : Nat) : leNat (natLe n v) = v % 256 ^ n := by
  induction n generalizing v with
  | zero => simp [natLe, leNat, Nat.mod_one]
  | succ n ih => rw [natLe, leNat, ih, BitVec.toNat_ofNat, pow_succ' 256, Nat.mod_mul]

theorem natLe_leNat (bs : Bytes) : natLe bs.length (leNat bs) = bs := by
  induction bs with
  | nil => rfl
  | cons b bs ih =>
    have hdiv : (b.toNat + 256 * leNat bs) / 256 = leNat bs := by have := b.isLt; omega
    have hlow : BitVec.ofNat 8 (b.toNat + 256 * leNat bs) = b := by
      apply BitVec.eq_of_toNat_eq
      rw [BitVec.toNat_ofNat]
      have := b.isLt
      omega
    rw [List.length_cons, natLe, leNat, hdiv, hlow, ih]

theorem getD_natLe {n i : Nat} (v : Nat) (h : i < n) : (natLe n v).getD i 0 = BitVec.ofNat 8 (v / 256 ^ i) := by
  induction n generalizing v i with
  | zero => omega
  | succ n ih =>
    cases i with
    | zero => simp [natLe]
    | succ i => rw [natLe, List.getD_cons_succ, ih _ (by omega), Nat.div_div_eq_div_mul, pow_succ']

/-- The number in a field of a byte string. -/
theorem leNat_take (bs : Bytes) (n : Nat) : leNat (bs.take n) = leNat bs % 256 ^ n := by
  have hlt := leNat_lt (bs.take n)
  have hsplit := leNat_append (bs.take n) (bs.drop n)
  rw [List.take_append_drop] at hsplit
  by_cases h : n ≤ bs.length
  · rw [List.length_take_of_le h] at hsplit hlt
    rw [hsplit, Nat.add_mul_mod_self_left, Nat.mod_eq_of_lt hlt]
  · rw [List.take_of_length_le (by omega)] at hlt ⊢
    exact (Nat.mod_eq_of_lt (hlt.trans_le (Nat.pow_le_pow_right (by decide) (by omega)))).symm

theorem leNat_drop (bs : Bytes) (n : Nat) : leNat (bs.drop n) = leNat bs / 256 ^ n := by
  have hlt := leNat_lt (bs.take n)
  have hsplit := leNat_append (bs.take n) (bs.drop n)
  rw [List.take_append_drop] at hsplit
  by_cases h : n ≤ bs.length
  · rw [List.length_take_of_le h] at hsplit hlt
    rw [hsplit, Nat.add_mul_div_left _ _ (by positivity), Nat.div_eq_of_lt hlt, Nat.zero_add]
  · rw [List.take_of_length_le (by omega)] at hlt
    rw [List.drop_of_length_le (by omega), Nat.div_eq_of_lt (hlt.trans_le (Nat.pow_le_pow_right (by decide) (by omega)))]
    rfl

theorem leNat_slice (bs : Bytes) (off n : Nat) : leNat (slice bs off n) = leNat bs / 256 ^ off % 256 ^ n := by
  rw [slice, leNat_take, leNat_drop]

theorem slice_splice_same {bs new : Bytes} {off : Nat} (h : off ≤ bs.length) : slice (splice bs off new) off new.length = new := by
  have hoff : (bs.take off).length = off := List.length_take_of_le h
  rw [slice, splice, List.append_assoc, List.drop_append_of_le_length (by omega), List.drop_of_length_le (by omega), List.nil_append,
    List.take_append_of_le_length (by omega), List.take_length]

/-- A field that a splice does not meet is as before. -/
theorem slice_splice_other {bs new : Bytes} {off i n : Nat} (h : off + new.length ≤ bs.length) (hi : i + n ≤ off ∨ off + new.length ≤ i) :
    slice (splice bs off new) i n = slice bs i n := by
  refine List.ext_getElem? fun k => ?_
  simp only [slice, splice, List.getElem?_take, List.getElem?_drop, List.getElem?_append, List.length_append, List.length_take]
  split
  · have hoff : min off bs.length = off := by omega
    rw [hoff]
    rcases hi with hi | hi
    · rw [if_pos (by omega), if_pos (by omega), if_pos (by omega)]
    · rw [if_neg (by omega)]
      congr 1
      omega
  · rfl

theorem length_splice {bs new : Bytes} {off : Nat} (h : off + new.length ≤ bs.length) : (splice bs off new).length = bs.length := by
  simp only [splice, List.length_append, List.length_take, List.length_drop]
  omega

/-! ### The bytes of a vector register (R129) -/

theorem toNat_vofBytes {bs : Bytes} (h : bs.length = 16) : (vofBytes bs).toNat = leNat bs := by
  have hlt := leNat_lt bs
  rw [h] at hlt
  rw [vofBytes, BitVec.toNat_ofNat, Nat.mod_eq_of_lt (by simpa using hlt)]

theorem vbytes_vofBytes {bs : Bytes} (h : bs.length = 16) : vbytes (vofBytes bs) = bs := by
  rw [vbytes, toNat_vofBytes h, ← h, natLe_leNat]

theorem leNat_vbytes (v : BitVec 128) : leNat (vbytes v) = v.toNat := by
  rw [vbytes, leNat_natLe, Nat.mod_eq_of_lt (by simpa using v.isLt)]

theorem getD_vbytes (v : BitVec 128) {i : Nat} (h : i < 16) : (vbytes v).getD i 0 = BitVec.ofNat 8 (v.toNat / 256 ^ i) := getD_natLe _ h

/-- A word of a vector register is a field of its bytes. -/
theorem vreg_word (v : BitVec 128) (k : Nat) : v.toNat / 2 ^ (32 * k) % 2 ^ 32 = leNat (slice (vbytes v) (4 * k) 4) := by
  have h : (256 : Nat) ^ (4 * k) = 2 ^ (32 * k) := by rw [show (256 : Nat) = 2 ^ 8 from rfl, ← pow_mul]; congr 1; omega
  rw [leNat_slice, leNat_vbytes, h]
  rfl

theorem Tile.reg_lt (x : Tile) (r : Nat) : x.reg r < 2 ^ 32 := by
  unfold Tile.reg
  split
  · decide
  · exact BitVec.isLt _

/-! ### Masks -/

/-- A mask of indices below `n` is the sum of their powers of two. -/
theorem maskOf_filter_range (p : Nat → Bool) (n : Nat) :
    maskOf ((List.range n).filter p) = ((List.range n).map (fun i => (p i).toNat * 2 ^ i)).sum := by
  induction n with
  | zero => rfl
  | succ n ih =>
    have hlt : maskOf ((List.range n).filter p) < 2 ^ n := Nat.lt_pow_two_of_testBit _ fun i hi => by
      rw [testBit_maskOf]
      simp [Nat.not_lt.2 hi]
    rw [List.range_succ, List.filter_append, List.map_append, List.sum_append, ← ih]
    cases hp : p n with
    | false => simp [hp]
    | true =>
      have hor := Nat.two_pow_add_eq_or_of_lt hlt 1
      rw [mul_one] at hor
      simp only [maskOf, List.foldl_append, List.filter_cons, hp, if_true, List.filter_nil, List.foldl_cons, List.foldl_nil] at hor ⊢
      rw [Nat.lor_comm, ← hor]
      simp [hp, Nat.add_comm]

/-- Bit 7 of each byte of a vector register (R131). -/
theorem testBit_vbytes (v : BitVec 128) {i : Nat} (h : i < 16) : (v.toNat.testBit (8 * i + 7)).toNat = ((vbytes v).getD i 0).toNat / 128 := by
  have hpow : (2 : Nat) ^ (8 * i + 7) = 256 ^ i * 128 := by
    rw [pow_add, pow_mul]
    rfl
  rw [getD_vbytes v h, BitVec.toNat_ofNat, Nat.toNat_testBit, hpow, ← Nat.div_div_eq_div_mul]
  omega

/-- Settles O50: each move writes one register; the bytes and words of the vector registers are those of its result. -/
theorem scalarVectorMoves : Obligations.ScalarVectorMoves := by
  refine ⟨?vmsk, ?vextW, ?vsplatB, ?vinsW⟩
  case vmsk =>
    intro s n rd vs1 w len h
    refine beadDone_of_doneWith rfl h rfl rfl ?_ (Tile.setReg_progPart ..)
    rw [maskOf_filter_range]
    congr 2
    exact List.map_congr_left fun i hi => by rw [testBit_vbytes _ (List.mem_range.1 hi)]
  case vextW =>
    intro s n rd vs1 idx w len hi h
    refine beadDone_of_doneWith rfl h rfl rfl ?_ (Tile.setReg_progPart ..)
    rw [bits, show 32 * idx + 31 + 1 - 32 * idx = 32 by omega]
  case vsplatB =>
    intro s n vd rs1 w len h
    refine ⟨_, beadDone_of_doneWith rfl h rfl rfl rfl (Tile.setVreg_progPart ..), fun i hi => ?_⟩
    have hb : BitVec.ofNat 8 ((s.core n).reg rs1 % 256) = BitVec.ofNat 8 ((s.core n).reg rs1) :=
      BitVec.eq_of_toNat_eq (by simp)
    rw [vbytes_vofBytes List.length_replicate, hb, List.getD_eq_getElem _ _ (by simpa using hi), List.getElem_replicate]
  case vinsW =>
    intro s n vd rs1 idx w len hi h
    have hfit : 4 * idx + (natLe 4 ((s.core n).reg rs1)).length ≤ (vbytes ((s.core n).vreg vd)).length := by
      rw [length_natLe, length_vbytes]
      omega
    have hlen := (length_splice hfit).trans (length_vbytes _)
    refine ⟨_, beadDone_of_doneWith rfl h rfl rfl rfl (Tile.setVreg_progPart ..), ?_, fun k hk hne => ?_⟩
    · have hword := slice_splice_same (bs := vbytes ((s.core n).vreg vd)) (off := 4 * idx) (new := natLe 4 ((s.core n).reg rs1)) (by omega)
      rw [length_natLe] at hword
      rw [vreg_word, vbytes_vofBytes hlen, hword, leNat_natLe]
      exact Nat.mod_eq_of_lt (Tile.reg_lt ..)
    · rw [vreg_word, vbytes_vofBytes hlen, slice_splice_other hfit (by rw [length_natLe]; omega), ← vreg_word]

end Sys2Proof.Machine
end

section
/-! SUPPORT. The order of FP32 values and of their order keys, and the statement O51 on FKEY (R54, R67, R140): a finite value is an integer
number of the smallest steps, which rises with the magnitude code. -/

namespace Sys2Proof.Machine

/-! ### The order of finite values (R54) -/

/-- The rational number that a finite value is. -/
def FVal.rat : FVal → ℚ
  | .fin neg m e => (if neg then -(m : ℚ) else m) * 2 ^ e
  | _ => 0

theorem FVal.rat_negate (a : FVal) : a.negate.rat = -a.rat := by
  cases a with
  | fin neg m e => cases neg <;> simp [FVal.negate, FVal.rat]
  | _ => simp [FVal.negate, FVal.rat]

/-- An integer over 2^e stated over a lower power of two. -/
theorem two_zpow_lower (a : ℚ) {lo e : ℤ} (h : lo ≤ e) : a * 2 ^ (e - lo).toNat * 2 ^ lo = a * 2 ^ e := by
  rw [mul_assoc, ← zpow_natCast, Int.toNat_of_nonneg (by omega), ← zpow_add₀ (by norm_num)]
  congr 2
  omega

/-- The exact sum is the sum of the numbers. -/
theorem sumFin_rat (vs : List FVal) : ((sumFin vs).1 : ℚ) * 2 ^ (sumFin vs).2 = (vs.map FVal.rat).sum := by
  induction vs with
  | nil => simp [sumFin]
  | cons v vs ih =>
    rw [List.map_cons, List.sum_cons, ← ih]
    cases v with
    | nan => simp [sumFin, FVal.rat]
    | inf neg => simp [sumFin, FVal.rat]
    | fin neg m e =>
      simp only [sumFin, FVal.rat]
      split
      · simp [*]
      · split
        · simp [*]
        · have h1 := two_zpow_lower (if neg then -(m : ℚ) else m) (min_le_left e (sumFin vs).2)
          have h2 := two_zpow_lower ((sumFin vs).1 : ℚ) (min_le_right e (sumFin vs).2)
          push_cast
          rw [add_mul, h2, ← h1]

theorem FVal.lt_fin (n : Bool) (m : Nat) (e : Int) (k : Bool) (m' : Nat) (e' : Int) :
    (FVal.fin n m e).lt (.fin k m' e') = true ↔ (FVal.fin n m e).rat < (FVal.fin k m' e').rat := by
  have hsum := sumFin_rat [.fin n m e, .fin (!k) m' e']
  have hneg : (FVal.fin (!k) m' e').rat = -(FVal.fin k m' e').rat := FVal.rat_negate (.fin k m' e')
  simp only [List.map_cons, List.map_nil, List.sum_cons, List.sum_nil, add_zero, hneg] at hsum
  have hpos : (0 : ℚ) < 2 ^ (sumFin [.fin n m e, .fin (!k) m' e']).2 := by positivity
  have hlt : (FVal.fin n m e).rat < (FVal.fin k m' e').rat ↔ (sumFin [.fin n m e, .fin (!k) m' e']).1 < 0 := by
    rw [← sub_neg, sub_eq_add_neg, ← hsum, mul_neg_iff]
    simp only [hpos, not_lt.2 hpos.le, and_false, false_or, and_true]
    exact_mod_cast Iff.rfl
  rw [hlt]
  simp only [FVal.lt, FVal.negate, sumExact, List.any_cons, List.any_nil, FVal.isNaN, FVal.isInf, Bool.or_self, Bool.false_eq_true, if_false,
    List.filter_cons, List.filter_nil, Bool.and_self]
  by_cases h0 : (sumFin [.fin n m e, .fin (!k) m' e']).1 = 0
  · simp [h0]
  · simp only [h0, if_false, Int.natAbs_eq_zero, bne_iff_ne, ne_eq, not_false_eq_true, Bool.and_eq_true, and_true]
    exact decide_eq_true_iff

/-! ### FP32 codes (Table 2.3) -/

/-- The magnitude of a finite FP32 code in units of the smallest step, 2^-149. -/
def fp32Steps (m : Nat) : Nat := if m / 2 ^ 23 = 0 then m % 2 ^ 23 else (2 ^ 23 + m % 2 ^ 23) * 2 ^ (m / 2 ^ 23 - 1)

theorem fp32Steps_strictMono : StrictMono fp32Steps := by
  refine strictMono_nat_of_lt_succ fun m => ?_
  by_cases hr : m % 2 ^ 23 + 1 < 2 ^ 23
  · have hq : (m + 1) / 2 ^ 23 = m / 2 ^ 23 := by omega
    have hm : (m + 1) % 2 ^ 23 = m % 2 ^ 23 + 1 := by omega
    simp only [fp32Steps, hq, hm]
    split
    · omega
    · exact Nat.mul_lt_mul_of_pos_right (by omega) (by positivity)
  · have hq : (m + 1) / 2 ^ 23 = m / 2 ^ 23 + 1 := by omega
    have hm : (m + 1) % 2 ^ 23 = 0 := by omega
    simp only [fp32Steps, hq, hm, Nat.add_one_ne_zero, if_false, Nat.add_sub_cancel]
    split
    · rename_i h0
      rw [h0]
      omega
    · rename_i h0
      obtain ⟨k, hk⟩ := Nat.exists_eq_succ_of_ne_zero h0
      rw [hk, Nat.succ_sub_one, pow_succ' 2 k, ← mul_assoc]
      exact Nat.mul_lt_mul_of_pos_right (by omega) (by positivity)

theorem fp32Steps_lt_iff {m m' : Nat} : fp32Steps m < fp32Steps m' ↔ m < m' := fp32Steps_strictMono.lt_iff_lt

theorem fp32Steps_zero : fp32Steps 0 = 0 := by decide

/-- The magnitude of an FP32 code. -/
def fp32Mag (v : Nat) : Nat := v % 0x80000000

/-- Where an FP32 code that is no NaN stands in the order: its steps, with its sign. -/
def fp32Rank (v : Nat) : Int := if v < 0x80000000 then fp32Steps (fp32Mag v) else -fp32Steps (fp32Mag v)

theorem bit31 {v : Nat} (h : v < 2 ^ 32) : bit v 31 = decide (0x80000000 ≤ v) := by
  rw [bit, Bool.eq_iff_iff, beq_iff_eq, decide_eq_true_iff]
  omega

/-- The value of an FP32 code by its magnitude. -/
theorem f32_eq (v : Nat) : f32 v =
    if fp32Mag v / 2 ^ 23 = 255 then (if fp32Mag v % 2 ^ 23 = 0 then .inf (bit v 31) else .nan)
    else if fp32Mag v / 2 ^ 23 = 0 then .fin (bit v 31) (fp32Mag v % 2 ^ 23) (-149)
    else .fin (bit v 31) (2 ^ 23 + fp32Mag v % 2 ^ 23) ((fp32Mag v / 2 ^ 23 : ℕ) - 150) := by
  have hex : v / 2 ^ 23 % 2 ^ 8 = fp32Mag v / 2 ^ 23 := by unfold fp32Mag; omega
  have hman : v % 8388608 = fp32Mag v % 8388608 := by unfold fp32Mag; omega
  have hshift : ∀ k : ℤ, k - (127 : ℕ) - (23 : ℕ) = k - 150 := fun k => by omega
  have hbits : bits v 30 23 = fp32Mag v / 2 ^ 23 := hex
  simp only [f32, FFmt.decode, fp32, FFmt.emin, Nat.reduceAdd, Nat.reduceSub, Nat.reducePow, hbits, hman, hshift, true_and,
    reduceCtorEq, false_and, if_false]
  rfl

/-- A finite FP32 code is its rank in steps of 2^-149. -/
theorem f32_finite {v : Nat} (h : v < 2 ^ 32) (hm : fp32Mag v < 0x7F800000) :
    (∃ n m e, f32 v = .fin n m e) ∧ (f32 v).rat = fp32Rank v * 2 ^ (-149 : ℤ) := by
  have hex : fp32Mag v / 2 ^ 23 ≠ 255 := by omega
  have hrank : (fp32Rank v : ℚ) = if bit v 31 then -(fp32Steps (fp32Mag v) : ℚ) else fp32Steps (fp32Mag v) := by
    rw [fp32Rank, bit31 h]
    by_cases hv : v < 0x80000000
    · simp [hv, Nat.not_le.2 hv]
    · simp [hv, Nat.not_lt.1 hv]
  rw [f32_eq, if_neg hex, hrank]
  split
  · rename_i h0
    refine ⟨⟨_, _, _, rfl⟩, ?_⟩
    simp only [FVal.rat, fp32Steps, h0, if_true]
  · rename_i h0
    refine ⟨⟨_, _, _, rfl⟩, ?_⟩
    have he : (2 : ℚ) ^ (((fp32Mag v / 2 ^ 23 : ℕ) : ℤ) - 150) = 2 ^ (fp32Mag v / 2 ^ 23 - 1) * 2 ^ (-149 : ℤ) := by
      rw [← zpow_natCast, ← zpow_add₀ (by norm_num)]
      congr 1
      omega
    simp only [FVal.rat, fp32Steps, h0, if_false, he]
    push_cast
    split <;> ring

theorem f32_infinite {v : Nat} (h : v < 2 ^ 32) (hm : fp32Mag v = 0x7F800000) : f32 v = .inf (decide (0x80000000 ≤ v)) := by
  rw [f32_eq, hm, bit31 h]
  rfl

theorem f32_nan {v : Nat} (hm : 0x7F800000 < fp32Mag v) : (f32 v).isNaN = true := by
  have hlt : fp32Mag v < 0x80000000 := Nat.mod_lt _ (by decide)
  have hex : fp32Mag v / 2 ^ 23 = 255 := by omega
  have hman : fp32Mag v % 2 ^ 23 ≠ 0 := by omega
  rw [f32_eq, if_pos hex, if_neg hman]
  rfl

/-- The order of FP32 values is that of their ranks (R67). -/
theorem f32_lt_iff {a b : Nat} (ha : a < 2 ^ 32) (hb : b < 2 ^ 32) (na : (f32 a).isNaN = false) (nb : (f32 b).isNaN = false) :
    (f32 a).lt (f32 b) = true ↔ fp32Rank a < fp32Rank b := by
  have key : ∀ v, (f32 v).isNaN = false → fp32Mag v ≤ 0x7F800000 := fun v hv =>
    Nat.not_lt.1 fun hm => by simp [f32_nan hm] at hv
  have posStep : (0 : ℚ) < 2 ^ (-149 : ℤ) := by positivity
  rcases (key a na).lt_or_eq with hma | hma <;> rcases (key b nb).lt_or_eq with hmb | hmb
  · obtain ⟨⟨n, m, e, hfa⟩, hra⟩ := f32_finite ha hma
    obtain ⟨⟨k, m', e', hfb⟩, hrb⟩ := f32_finite hb hmb
    rw [hfa, hfb, FVal.lt_fin, ← hfa, ← hfb, hra, hrb, mul_lt_mul_iff_left₀ posStep]
    exact_mod_cast Iff.rfl
  · obtain ⟨⟨n, m, e, hfa⟩, -⟩ := f32_finite ha hma
    have hs := fp32Steps_lt_iff.2 (hmb ▸ hma : fp32Mag a < fp32Mag b)
    rw [hfa, f32_infinite hb hmb]
    simp only [FVal.lt, fp32Rank, Bool.not_eq_true', decide_eq_false_iff_not]
    split <;> split <;> omega
  · obtain ⟨⟨n, m, e, hfb⟩, -⟩ := f32_finite hb hmb
    have hs := fp32Steps_lt_iff.2 (hma ▸ hmb : fp32Mag b < fp32Mag a)
    rw [hfb, f32_infinite ha hma]
    simp only [FVal.lt, fp32Rank, decide_eq_true_eq]
    split <;> split <;> omega
  · have hpos := fp32Steps_lt_iff.2 (show 0 < fp32Mag b by omega)
    rw [f32_infinite ha hma, f32_infinite hb hmb]
    simp only [FVal.lt, fp32Rank, hma, hmb, Bool.and_eq_true, Bool.not_eq_true', decide_eq_true_eq, decide_eq_false_iff_not] at hpos ⊢
    split <;> split <;> omega

/-! ### Order keys (R140) -/

/-- The order key of a code that is no NaN, by its magnitude. -/
theorem orderKey_eq {v : Nat} (h : v < 2 ^ 32) (hn : (f32 v).isNaN = false) :
    orderKey v = if v < 0x80000000 then 0x80000000 + fp32Mag v else if fp32Mag v = 0 then 0x80000000 else 0x80000000 - 1 - fp32Mag v := by
  unfold fp32Mag
  simp only [orderKey, hn, Bool.false_eq_true, if_false]
  by_cases hv : v < 0x80000000
  · rw [if_neg (by omega), if_pos hv, if_pos hv]
    omega
  · rw [if_neg hv, if_neg hv]
    split <;> split <;> omega

theorem orderKey_lt_iff {a b : Nat} (ha : a < 2 ^ 32) (hb : b < 2 ^ 32) (na : (f32 a).isNaN = false) (nb : (f32 b).isNaN = false) :
    orderKey a < orderKey b ↔ fp32Rank a < fp32Rank b := by
  have hab := fp32Steps_lt_iff (m := fp32Mag a) (m' := fp32Mag b)
  have hba := fp32Steps_lt_iff (m := fp32Mag b) (m' := fp32Mag a)
  have ha0 := fp32Steps_lt_iff (m := 0) (m' := fp32Mag a)
  have hb0 := fp32Steps_lt_iff (m := 0) (m' := fp32Mag b)
  have hma : fp32Mag a < 0x80000000 := Nat.mod_lt _ (by decide)
  have hmb : fp32Mag b < 0x80000000 := Nat.mod_lt _ (by decide)
  rw [fp32Steps_zero] at ha0 hb0
  simp only [orderKey_eq ha na, orderKey_eq hb nb, fp32Rank]
  split_ifs <;> omega

theorem xor_topBit {v : Nat} (h : v < 0x80000000) : v + 0x80000000 = v ^^^ 0x80000000 := by
  have hor := Nat.two_pow_add_eq_or_of_lt (i := 31) h 1
  rw [mul_one, Nat.add_comm] at hor
  refine hor.trans (Nat.eq_of_testBit_eq fun i => ?_)
  have hv : v.testBit 31 = false := Nat.testBit_lt_two_pow h
  rw [Nat.testBit_or, Nat.testBit_xor, Nat.testBit_two_pow]
  by_cases hi : 31 = i
  · subst hi
    simp [hv]
  · simp [hi]

theorem sub_eq_xor_ones {v : Nat} (h : v < 2 ^ 32) : 0xFFFFFFFF - v = v ^^^ 0xFFFFFFFF := by
  refine Nat.eq_of_testBit_eq fun i => ?_
  have hs := Nat.testBit_two_pow_sub_succ h i
  have ho : (0xFFFFFFFF : Nat).testBit i = decide (i < 32) := Nat.testBit_two_pow_sub_one 32 i
  rw [show 0xFFFFFFFF - v = 2 ^ 32 - (v + 1) by omega, hs, Nat.testBit_xor, ho]
  by_cases hi : i < 32
  · simp [hi]
  · have hv : v.testBit i = false := Nat.testBit_lt_two_pow (h.trans_le (Nat.pow_le_pow_right (by decide) (by omega)))
    simp [hi, hv]

/-- Settles O51: FKEY writes the key; keys and values are both in the order of the ranks. -/
theorem fkeyKeys : Obligations.FkeyKeys := by
  refine ⟨?instr, ?nan, by decide, by decide, ?positive, ?negative, ?order⟩
  case instr => exact fun s n rd rs1 rs2 w len h => beadDone_of_doneWith rfl h rfl rfl rfl (Tile.setReg_progPart ..)
  case nan => exact fun v _ hn => if_pos hn
  case positive =>
    intro v hv hn
    rw [← xor_topBit hv, orderKey, hn, if_neg (by decide), if_neg (by omega), if_pos hv]
  case negative =>
    intro v hlo hv hn
    rw [← sub_eq_xor_ones hv, orderKey, hn, if_neg (by decide), if_neg (by omega), if_neg (by omega)]
  case order => exact fun a b ha hb na nb => (f32_lt_iff ha hb na nb).trans (orderKey_lt_iff ha hb na nb).symm

end Sys2Proof.Machine
end

section
/-! SUPPORT. Keccak states and the vector registers that hold one (R129, R133): a round keeps the 25 lanes, and v0 to v12 take and give
back their 208 bytes. -/

namespace Sys2Proof.Machine

/-! ### A round keeps 25 lanes -/

theorem length_keccakRows (a : List Lane) : (keccakRows a).length = 5 := by simp [keccakRows]

theorem keccakRows_row {a : List Lane} (h : a.length = 25) : ∀ r, r ∈ keccakRows a → r.length = 5 := by
  intro r hr
  obtain ⟨y, hy, rfl⟩ := List.mem_map.1 hr
  rw [List.mem_range] at hy
  rw [List.length_take, List.length_drop]
  omega

theorem length_foldl_zipWith (rows : List (List Lane)) (p : List Lane) (hp : p.length = 5) (h : ∀ r, r ∈ rows → r.length = 5) :
    (rows.foldl (List.zipWith (· ^^^ ·)) p).length = 5 := by
  induction rows generalizing p with
  | nil => exact hp
  | cons r rows ih =>
    refine ih _ ?_ fun q hq => h q (List.mem_cons_of_mem r hq)
    rw [List.length_zipWith, hp, h r List.mem_cons_self, Nat.min_self]

theorem length_rotateLeft (r : List Lane) (k : Nat) : (r.rotateLeft k).length = r.length := by
  unfold List.rotateLeft
  dsimp only
  split
  · rfl
  · rw [List.length_append, List.length_take, List.length_drop]
    omega

theorem keccakTheta_row {rows : List (List Lane)} (h : ∀ r, r ∈ rows → r.length = 5) : ∀ r, r ∈ keccakTheta rows → r.length = 5 := by
  intro r hr
  obtain ⟨q, hq, rfl⟩ := List.mem_map.1 hr
  have hp := length_foldl_zipWith rows (List.replicate 5 0) List.length_replicate h
  simp only [List.length_zipWith, length_rotateLeft, hp, h q hq, Nat.min_self]

theorem length_flatten_rows {rows : List (List Lane)} (hn : rows.length = 5) (h : ∀ r, r ∈ rows → r.length = 5) : rows.flatten.length = 25 := by
  rw [List.length_flatten, List.map_congr_left h, List.map_const', List.sum_replicate, hn]
  rfl

theorem length_keccakWalk (rows : List (List Lane)) (n t x y : Nat) (out : List Lane) : (keccakWalk rows n t x y out).length = out.length := by
  induction n generalizing t x y out with
  | zero => rfl
  | succ n ih => rw [keccakWalk, ih, List.length_set]

theorem length_keccakChi (r : List Lane) : (keccakChi r).length = r.length := by
  simp [keccakChi, length_rotateLeft]

theorem length_keccakRound {a : List Lane} (rc : Lane) (h : a.length = 25) : (keccakRound a rc).length = 25 := by
  have htheta : (keccakTheta (keccakRows a)).flatten.length = 25 :=
    length_flatten_rows (by rw [keccakTheta, List.length_map, length_keccakRows]) (keccakTheta_row (keccakRows_row h))
  have hmoved : (keccakWalk (keccakTheta (keccakRows a)) 24 0 1 0 ((keccakTheta (keccakRows a)).flatten.take 1 ++ List.replicate 24 0)).length
      = 25 := by
    rw [length_keccakWalk, List.length_append, List.length_take, htheta, List.length_replicate]
    rfl
  rw [keccakRound, List.length_set]
  refine length_flatten_rows (by rw [List.length_map, length_keccakRows]) fun r hr => ?_
  obtain ⟨q, hq, rfl⟩ := List.mem_map.1 hr
  rw [length_keccakChi, keccakRows_row hmoved q hq]

theorem length_laneBytes (a : List Lane) : (laneBytes a).length = 8 * a.length := by
  induction a with
  | nil => rfl
  | cons l a ih =>
    rw [laneBytes] at ih ⊢
    rw [List.map_cons, List.flatten_cons, List.length_append, ih, length_natLe, List.length_cons]
    omega

/-! ### Runs of vector registers -/

/-- A byte string is the string of its consecutive fields. -/
theorem flatten_slices (bs : Bytes) (n k : Nat) : ((List.range k).map (fun i => slice bs (n * i) n)).flatten = bs.take (n * k) := by
  induction k with
  | zero => simp
  | succ k ih =>
    rw [List.range_succ, List.map_append, List.flatten_append, ih, Nat.mul_succ, List.take_add]
    simp [slice]

/-- The first `m` vector registers written. -/
def Tile.setVregs (x : Tile) (m : Nat) (g : Nat → BitVec 128) : Tile := (List.range m).foldl (fun z k => z.setVreg k (g k)) x

theorem Tile.setVregs_succ (x : Tile) (m : Nat) (g : Nat → BitVec 128) : x.setVregs (m + 1) g = (x.setVregs m g).setVreg m (g m) := by
  rw [Tile.setVregs, List.range_succ, List.foldl_append]
  rfl

theorem Tile.vreg_setVreg (x : Tile) (r k : Nat) (v : BitVec 128) : (x.setVreg r v).vreg k = if k = r then v else x.vreg k := by
  by_cases h : k = r
  · subst h
    simp [Tile.setVreg, Tile.vreg]
  · simp [Tile.setVreg, Tile.vreg, h]

theorem Tile.vreg_setVregs (x : Tile) (m k : Nat) (g : Nat → BitVec 128) : (x.setVregs m g).vreg k = if k < m then g k else x.vreg k := by
  induction m with
  | zero => simp [Tile.setVregs]
  | succ m ih =>
    rw [Tile.setVregs_succ, Tile.vreg_setVreg, ih]
    split
    · rename_i h
      rw [if_pos (by omega), h]
    · split
      · rw [if_pos (by omega)]
      · rw [if_neg (by omega)]

/-- Writes of vector registers leave the rest of a tile alone. -/
theorem Tile.setVregs_keeps {β : Type} (g : Tile → β) (hg : ∀ x r v, g (Tile.setVreg x r v) = g x) (x : Tile) (m : Nat)
    (v : Nat → BitVec 128) : g (x.setVregs m v) = g x := by
  induction m with
  | zero => rfl
  | succ m ih => rw [Tile.setVregs_succ, hg, ih]

/-- The registers v0 to v12 give back the 208 bytes that they have taken. -/
theorem Tile.keccakBytes_setVregs (x : Tile) {bs : Bytes} (h : bs.length = 208) :
    (x.setVregs 13 (fun k => vofBytes (slice bs (16 * k) 16))).keccakBytes = bs := by
  have hv : ∀ i, i ∈ List.range 13 →
      vbytes ((x.setVregs 13 (fun k => vofBytes (slice bs (16 * k) 16))).vreg i) = slice bs (16 * i) 16 := by
    intro i hi
    rw [List.mem_range] at hi
    rw [Tile.vreg_setVregs, if_pos hi, vbytes_vofBytes]
    rw [slice, List.length_take, List.length_drop]
    omega
  rw [Tile.keccakBytes, List.map_congr_left hv, flatten_slices, List.take_of_length_le (by omega)]

theorem Tile.length_keccakBytes (x : Tile) : x.keccakBytes.length = 208 := by
  have h : ∀ i, i ∈ List.range 13 → ((fun b => b.length) ∘ fun i => vbytes (x.vreg i)) i = 16 := fun i _ => length_vbytes _
  rw [Tile.keccakBytes, List.length_flatten, List.map_map]
  rw [List.map_congr_left h]
  rfl

end Sys2Proof.Machine
end

section
/-! SUPPORT. The vector, Keccak, trie, top-k, LSE and FP32 instructions, and the statement O48 on them (R129, R130, R133 to R139): one
rule for the vector–vector and one for the FP32 operations, and what reads of DMEM one after another give. -/

namespace Sys2Proof.Machine

/-! ### Vector–vector and FP32 operations -/

section
variable {s : State} {n f w len : Nat} {m : String} {o : Host.Outcome State Fault Refusal}

theorem vvDone_of_beadAt {vd vs1 vs2 : Nat} (ho : o = guarded m (tileOk n) (s.beadVv n f)) (h : s.beadAt n (.vv f vd vs1 vs2) w len) :
    vvDone o s n f vd vs1 vs2 len :=
  beadDone_of_doneWith ho h (beq_self_eq_true f) rfl rfl (Tile.setVreg_progPart ..)

theorem fpDone_of_beadAt {cycles rd rs1 rs2 : Nat} (ho : o = guarded m (tileOk n) (s.beadFp n f cycles))
    (h : s.beadAt n (.fp f rd rs1 rs2) w len) : fpDone o s n f cycles rd rs1 rs2 len :=
  beadDone_of_doneWith ho h (beq_self_eq_true f) rfl rfl (Tile.setReg_progPart ..)

end

/-- Each byte of a vector–vector operation other than VSHUF.B (Table 4.5). -/
theorem getD_vvOp {f k : Nat} (d a b : BitVec 128) (hf : f ≠ 12) (hk : k < 16) :
    (vbytes (vvOp f d a b)).getD k 0 = vvByte f ((vbytes d).getD k 0) ((vbytes a).getD k 0) ((vbytes b).getD k 0) := by
  rw [vvOp, if_neg hf, vbytes_vofBytes (by simp)]
  simp [List.getD_eq_getElem?_getD, hk]

/-- Each byte of VSHUF.B. -/
theorem getD_vshuf {k : Nat} (d a b : BitVec 128) (hk : k < 16) : (vbytes (vvOp 12 d a b)).getD k 0 =
    if 128 ≤ ((vbytes b).getD k 0).toNat then 0 else (vbytes a).getD (((vbytes b).getD k 0).toNat % 16) 0 := by
  rw [vvOp, if_pos rfl, vbytes_vofBytes (by simp [vshuf])]
  simp [vshuf, List.getD_eq_getElem?_getD, hk]

/-! ### Reads of DMEM -/

@[simp] theorem Tile.readDmem_heedDmem (x : Tile) (off n off' n' : Nat) : (x.heedDmem off n).readDmem off' n' = x.readDmem off' n' := by
  unfold Tile.heedDmem Tile.heedWords; rfl

/-- A shorter read gives the first bytes of a longer one. -/
theorem Tile.readDmem_take (x : Tile) (off : Nat) {k n : Nat} (h : k ≤ n) : (x.readDmem off n).take k = x.readDmem off k := by
  rw [Tile.readDmem, ← List.map_take, List.take_range, Nat.min_eq_left h]
  rfl

theorem Tile.poisoned_readDmem_of_le {x : Tile} {off k n : Nat} (h : k ≤ n) (hp : poisoned (x.readDmem off n) = false) :
    poisoned (x.readDmem off k) = false := by
  rw [← x.readDmem_take off h]
  exact List.any_eq_false.2 fun b hb => List.any_eq_false.1 hp b (List.mem_of_mem_take hb)

theorem Tile.plain_readDmem_take (x : Tile) (off : Nat) {k n : Nat} (h : k ≤ n) :
    (plain (x.readDmem off n)).take k = plain (x.readDmem off k) := by
  rw [plain, ← List.map_take, x.readDmem_take off h]
  rfl

theorem slice_take {bs : Bytes} {off n k : Nat} (h : off + n ≤ k) : slice (bs.take k) off n = slice bs off n := by
  rw [slice, slice, List.drop_take, List.take_take, Nat.min_eq_left (by omega)]

theorem fieldLe_take {bs : Bytes} {off n k : Nat} (h : off + n ≤ k) : fieldLe (bs.take k) off n = fieldLe bs off n := by
  rw [fieldLe, slice_take h, fieldLe]

theorem inDmem_of_le {a k n : Nat} (h : k ≤ n) (hd : inDmem a n = true) : inDmem a k = true := by
  simp only [inDmem, within, Bool.and_eq_true, decide_eq_true_eq] at hd ⊢
  omega

/-- A good read of DMEM by the core `x`. -/
theorem State.beadRead_dmemOf {s : State} {n a k : Nat} {x : Tile} (hx : s.tile n = x) (hd : inDmem a k = true)
    (hp : poisoned (x.readDmem (a - 0x10000) k) = false) :
    s.beadRead n a k = .data (s.updTile n (fun x => x.heedDmem (a - 0x10000) k)) (plain (x.readDmem (a - 0x10000) k)) := by
  subst hx
  exact State.beadRead_dmem hd hp

/-- Two good reads of DMEM one after the other. -/
theorem State.beadReads_dmem {s : State} {n a k b k' : Nat} {x : Tile} (hx : s.tile n = x) (hda : inDmem a k = true)
    (hdb : inDmem b k' = true) (hpa : poisoned (x.readDmem (a - 0x10000) k) = false)
    (hpb : poisoned (x.readDmem (b - 0x10000) k') = false) :
    s.beadReads n [(a, k), (b, k')] [] =
      .data ((s.updTile n (fun x => x.heedDmem (a - 0x10000) k)).updTile n (fun x => x.heedDmem (b - 0x10000) k'))
        [plain (x.readDmem (a - 0x10000) k), plain (x.readDmem (b - 0x10000) k')] := by
  have hb := State.beadRead_dmemOf (s := s.updTile n (fun x => x.heedDmem (a - 0x10000) k)) (n := n) (x := x.heedDmem (a - 0x10000) k)
    ((State.tile_updTile_same ..).trans (hx ▸ rfl)) hdb (by rwa [Tile.readDmem_heedDmem])
  rw [Tile.readDmem_heedDmem] at hb
  simp only [State.beadReads, State.beadRead_dmemOf hx hda hpa, hb, List.nil_append, List.cons_append]

/-! ### KROUND -/

section
variable {s : State} {n rs1 w len : Nat}

theorem exec_kround_round (h : s.beadAt n (.kround rs1) w len) (hr : (s.core n).reg rs1 % 32 < 24) :
    ∃ y : Tile, beadDone (exec (.kround n) s) s n (y.stepped ((s.core n).next len) 2) ∧
      y.keccakBytes.take 200 = laneBytes (keccakRound (keccakLanes (s.core n).keccakBytes)
        (keccakRC.getD ((s.core n).reg rs1 % 32) 0)) ∧
      y.keccakBytes.drop 200 = (s.core n).keccakBytes.drop 200 ∧ (∀ k, 13 ≤ k → y.vreg k = (s.core n).vreg k) ∧
      y.regs = (s.core n).regs ∧ y.dmem = (s.core n).dmem := by
  have hl : (laneBytes (keccakRound (keccakLanes (s.core n).keccakBytes) (keccakRC.getD ((s.core n).reg rs1 % 32) 0))).length = 200 := by
    rw [length_laneBytes, length_keccakRound _ (by simp [keccakLanes])]
  have hdone := beadDone_of_doneWith (o := exec (.kround n) s) rfl h rfl (if_neg (Nat.not_le.2 hr)) rfl
    (Tile.setVregs_keeps (fun x => x.progPart) Tile.setVreg_progPart _ 13 _)
  generalize laneBytes (keccakRound (keccakLanes (s.core n).keccakBytes) (keccakRC.getD ((s.core n).reg rs1 % 32) 0)) = a at hl hdone ⊢
  have hlen : (a ++ (s.core n).keccakBytes.drop 200).length = 208 := by
    rw [List.length_append, List.length_drop, Tile.length_keccakBytes, hl]
  have hbytes := (s.core n).keccakBytes_setVregs hlen
  refine ⟨_, hdone, ?_, ?_, fun k hk => ?_, ?_, ?_⟩
  · exact (congrArg (List.take 200) hbytes).trans (List.take_left' hl)
  · exact (congrArg (List.drop 200) hbytes).trans (List.drop_left' hl)
  · exact ((s.core n).vreg_setVregs 13 k _).trans (if_neg (Nat.not_lt.2 hk))
  · exact Tile.setVregs_keeps (fun x => x.regs) (fun _ _ _ => rfl) _ 13 _
  · exact Tile.setVregs_keeps (fun x => x.dmem) (fun _ _ _ => rfl) _ 13 _

end

/-! ### TSTEP, TOPK, LSEC, LSEF -/

section
variable {s : State} {n rd rs1 rs2 w len : Nat}

theorem exec_tstep_node {k lo : Nat} {node : Bytes} (h : s.beadAt n (.tstep rd rs1 rs2) w len) (ha : (s.core n).reg rs1 % 4 = 0)
    (hd4 : inDmem ((s.core n).reg rs1) 4 = true) (hp : poisoned ((s.core n).readDmem ((s.core n).reg rs1 - 0x10000) (4 + 4 * k)) = false)
    (hnode : node = plain ((s.core n).readDmem ((s.core n).reg rs1 - 0x10000) (4 + 4 * k))) (hcount : bits (fieldLe node 0 4) 31 23 = k)
    (hk : k ≤ 256) (hd : inDmem ((s.core n).reg rs1) (4 + 4 * k) = true)
    (hlo : lo = trieSearch (fun e => bits (fieldLe node (4 + 4 * e) 4) 31 24) ((s.core n).reg rs2 % 256) 10 0 k) :
    beadDone (exec (.tstep n) s) s n (((((s.core n).heedDmem ((s.core n).reg rs1 - 0x10000) 4).heedDmem ((s.core n).reg rs1 - 0x10000)
      (4 + 4 * k)).setReg rd
      (if lo < k ∧ bits (fieldLe node (4 + 4 * lo) 4) 31 24 = (s.core n).reg rs2 % 256 then
        0x10000 + fieldLe node (4 + 4 * lo) 4 % 65536 else 0xFFFFFFFF)).stepped ((s.core n).next len) 12) := by
  have hle : 4 ≤ 4 + 4 * k := Nat.le_add_right ..
  have he := tileBecomes.entered s n
  have hhead := (s.core n).plain_readDmem_take ((s.core n).reg rs1 - 0x10000) hle
  have hfield : leNat (node.take 4) = fieldLe node 0 4 := rfl
  rw [← hnode] at hhead
  have hr1 := State.beadRead_dmemOf (s.entered_tile n) hd4 (Tile.poisoned_readDmem_of_le hle hp)
  have he1 := he.updTile (fun x => x.heedDmem ((s.core n).reg rs1 - 0x10000) 4)
  have hr2 := State.beadRead_dmemOf he1.1 hd (by rwa [Tile.readDmem_heedDmem])
  rw [Tile.readDmem_heedDmem, ← hnode] at hr2
  rw [← hhead] at hr1
  refine beadDone_of_done rfl h rfl ?_ ((he1.updTile (fun x => x.heedDmem ((s.core n).reg rs1 - 0x10000) (4 + 4 * k))).updTile
    (fun y => y.setReg rd (if lo < k ∧ bits (fieldLe node (4 + 4 * lo) 4) 31 24 = (s.core n).reg rs2 % 256 then
        0x10000 + fieldLe node (4 + 4 * lo) 4 % 65536 else 0xFFFFFFFF))) (by simp)
  simp only [ha, hd4, hr1, hfield, hcount, hd, hr2, Nat.not_lt.2 hk, ← hlo, ne_eq, not_true_eq_false, if_false, Bool.not_true,
    Bool.false_eq_true, State.doneWith]

theorem exec_topk_ranks {k l q : Nat} {head cand : Bytes} {es : List Bytes} (h : s.beadAt n (.topk rd rs1 rs2) w len)
    (ha : (s.core n).reg rs1 % 16 = 0) (hb : (s.core n).reg rs2 % 16 = 0) (hda : inDmem ((s.core n).reg rs1) (16 + 16 * k) = true)
    (hdb : inDmem ((s.core n).reg rs2) 16 = true)
    (hpa : poisoned ((s.core n).readDmem ((s.core n).reg rs1 - 0x10000) (16 + 16 * l)) = false)
    (hpb : poisoned ((s.core n).readDmem ((s.core n).reg rs2 - 0x10000) 16) = false)
    (hhead : head = plain ((s.core n).readDmem ((s.core n).reg rs1 - 0x10000) (16 + 16 * l)))
    (hcand : cand = plain ((s.core n).readDmem ((s.core n).reg rs2 - 0x10000) 16))
    (hk : fieldLe head 0 2 = k) (hl : fieldLe head 2 2 = l) (h1 : 1 ≤ k) (h256 : k ≤ 256) (hlk : l ≤ k)
    (hz : allZero (slice head 4 12) = true) (hins : topkInsert k (chunks 16 l (head.drop 16)) cand = some (es, q)) :
    beadDone (exec (.topk n) s) s n (((((((s.core n).heedDmem ((s.core n).reg rs1 - 0x10000) 16).heedDmem ((s.core n).reg rs2 - 0x10000)
      16).heedDmem ((s.core n).reg rs1 - 0x10000) (16 + 16 * l)).writeDmem ((s.core n).reg rs1 - 0x10000)
      (clean (natLe 2 k ++ natLe 2 es.length ++ zeros 12 ++ es.flatten))).setReg rd q).stepped ((s.core n).next len)
        (6 + ceilDiv k 4)) := by
  have hle : 16 ≤ 16 + 16 * l := Nat.le_add_right ..
  have hda16 : inDmem ((s.core n).reg rs1) 16 = true := inDmem_of_le (Nat.le_add_right ..) hda
  have he := tileBecomes.entered s n
  have hfirst := (s.core n).plain_readDmem_take ((s.core n).reg rs1 - 0x10000) hle
  rw [← hhead] at hfirst
  have hr := State.beadReads_dmem (s.entered_tile n) hda16 hdb (Tile.poisoned_readDmem_of_le hle hpa) hpb
  rw [← hfirst, ← hcand] at hr
  have he2 := (he.updTile (fun x => x.heedDmem ((s.core n).reg rs1 - 0x10000) 16)).updTile
    (fun x => x.heedDmem ((s.core n).reg rs2 - 0x10000) 16)
  have hr3 := State.beadRead_dmemOf he2.1 (inDmem_of_le (k := 16 + 16 * l) (by omega) hda) (by simpa only [Tile.readDmem_heedDmem] using hpa)
  rw [Tile.readDmem_heedDmem, Tile.readDmem_heedDmem, ← hhead] at hr3
  have hok : ¬ (k = 0 ∨ 256 < k ∨ k < l ∨ ¬ allZero (slice head 4 12) = true) := by
    simp only [hz, not_true_eq_false, or_false]
    omega
  refine beadDone_of_done rfl h rfl ?_ ((he2.updTile (fun x => x.heedDmem ((s.core n).reg rs1 - 0x10000) (16 + 16 * l))).updTile
    (fun y => (y.writeDmem ((s.core n).reg rs1 - 0x10000) (clean (natLe 2 k ++ natLe 2 es.length ++ zeros 12 ++ es.flatten))).setReg rd q))
    (by simp)
  simp only [ha, hb, hda16, hdb, hr, fieldLe_take (show 0 + 2 ≤ 16 by decide), fieldLe_take (show 2 + 2 ≤ 16 by decide),
    slice_take (show 4 + 12 ≤ 16 by decide), hk, hl, hok, hda, hr3, hins, ne_eq, not_true_eq_false, if_false, Bool.not_true,
    Bool.false_eq_true, State.doneWith]

theorem exec_lsec_records {d : Nat} (h : s.beadAt n (.lsec rs1 rs2) w len) (hd : (s.core n).lseD = d) (hok : (s.core n).lseOk = true)
    (ha : (s.core n).reg rs1 % 16 = 0) (hb : (s.core n).reg rs2 % 16 = 0) (hda : inDmem ((s.core n).reg rs1) (4 * d + 64) = true)
    (hdb : inDmem ((s.core n).reg rs2) (4 * d + 64) = true)
    (hpa : poisoned ((s.core n).readDmem ((s.core n).reg rs1 - 0x10000) (4 * d + 64)) = false)
    (hpb : poisoned ((s.core n).readDmem ((s.core n).reg rs2 - 0x10000) (4 * d + 64)) = false)
    (hra : recordOk (plain ((s.core n).readDmem ((s.core n).reg rs1 - 0x10000) (4 * d + 64))) = true)
    (hrb : recordOk (plain ((s.core n).readDmem ((s.core n).reg rs2 - 0x10000) (4 * d + 64))) = true) :
    beadDone (exec (.lsec n) s) s n (((((s.core n).heedDmem ((s.core n).reg rs1 - 0x10000) (4 * d + 64)).heedDmem
      ((s.core n).reg rs2 - 0x10000) (4 * d + 64)).writeDmem ((s.core n).reg rs1 - 0x10000) (clean
      ((PRec.parse d (plain ((s.core n).readDmem ((s.core n).reg rs1 - 0x10000) (4 * d + 64)))).merge
        (PRec.parse d (plain ((s.core n).readDmem ((s.core n).reg rs2 - 0x10000) (4 * d + 64))))).bytes)).stepped
          ((s.core n).next len) (16 + d / 2)) := by
  have hr := State.beadReads_dmem (s.entered_tile n) hda hdb hpa hpb
  refine beadDone_of_done rfl h rfl ?_ ((((tileBecomes.entered s n).updTile
    (fun x => x.heedDmem ((s.core n).reg rs1 - 0x10000) (4 * d + 64))).updTile
    (fun x => x.heedDmem ((s.core n).reg rs2 - 0x10000) (4 * d + 64))).updTile
    (fun y => y.writeDmem ((s.core n).reg rs1 - 0x10000) (clean
      ((PRec.parse d (plain ((s.core n).readDmem ((s.core n).reg rs1 - 0x10000) (4 * d + 64)))).merge
        (PRec.parse d (plain ((s.core n).readDmem ((s.core n).reg rs2 - 0x10000) (4 * d + 64))))).bytes))) (by simp)
  simp only [hd, hok, ha, hb, hda, hdb, hr, hra, hrb, bne_self_eq_false, Bool.or_self, ne_eq, not_true_eq_false, if_false, Bool.not_true,
    Bool.false_eq_true, State.doneWith]

theorem exec_lsef_record {d b : Nat} {out : List Nat} (h : s.beadAt n (.lsef rs1 rs2) w len) (hd : (s.core n).lseD = d)
    (hb : fmtBits (s.core n).lseFmt / 8 = b) (hok : (s.core n).lseOk = true) (ha : (s.core n).reg rs1 % 16 = 0)
    (hab : (s.core n).reg rs2 % b = 0) (hsm : bit (s.core n).lseSmooth.toNat 31 = true)
    (hda : inDmem ((s.core n).reg rs1) (4 * d + 64) = true) (hdb : inDmem ((s.core n).reg rs2) (b * d) = true)
    (hpa : poisoned ((s.core n).readDmem ((s.core n).reg rs1 - 0x10000) (4 * d + 64)) = false)
    (hra : recordOk (plain ((s.core n).readDmem ((s.core n).reg rs1 - 0x10000) (4 * d + 64))) = true)
    (hout : out = finalise (s.core n).lseFmt false (plain ((s.core n).readDmem ((s.core n).reg rs1 - 0x10000) 4)) d
      (PRec.parse d (plain ((s.core n).readDmem ((s.core n).reg rs1 - 0x10000) (4 * d + 64))))) :
    beadDone (exec (.lsef n) s) s n (((((s.core n).heedDmem ((s.core n).reg rs1 - 0x10000) (4 * d + 64)).heedDmem
      ((s.core n).reg rs1 - 0x10000) 4).writeDmem ((s.core n).reg rs2 - 0x10000) (clean ((out.map (natLe b)).flatten))).stepped
        ((s.core n).next len) (16 + d / 2)) := by
  have hle : 4 ≤ 4 * d + 64 := by omega
  have hr := State.beadReads_dmem (s.entered_tile n) hda (inDmem_of_le hle hda) hpa (Tile.poisoned_readDmem_of_le hle hpa)
  refine beadDone_of_done rfl h rfl ?_ ((((tileBecomes.entered s n).updTile
    (fun x => x.heedDmem ((s.core n).reg rs1 - 0x10000) (4 * d + 64))).updTile
    (fun x => x.heedDmem ((s.core n).reg rs1 - 0x10000) 4)).updTile
    (fun y => y.writeDmem ((s.core n).reg rs2 - 0x10000) (clean ((out.map (natLe b)).flatten)))) (by simp)
  simp only [hd, hb, hok, ha, hab, hsm, hda, hdb, hr, hra, ← hout, bne_self_eq_false, Bool.or_self, Bool.false_and, ne_eq, not_true_eq_false,
    if_false, Bool.not_true, Bool.false_eq_true, State.doneWith]

end

/-- Settles O48: each instruction reads its operands and writes the one result of its table. -/
theorem beadVectorInstructions : Obligations.BeadVectorInstructions := by
  refine ⟨fun s n vd vs1 vs2 w len h => vvDone_of_beadAt rfl h, fun s n vd vs1 vs2 w len h => vvDone_of_beadAt rfl h,
    fun s n vd vs1 vs2 w len h => vvDone_of_beadAt rfl h, fun s n vd vs1 vs2 w len h => vvDone_of_beadAt rfl h,
    fun s n vd vs1 vs2 w len h => vvDone_of_beadAt rfl h, fun s n vd vs1 vs2 w len h => vvDone_of_beadAt rfl h,
    fun s n vd vs1 vs2 w len h => vvDone_of_beadAt rfl h, fun s n vd vs1 vs2 w len h => vvDone_of_beadAt rfl h,
    fun s n vd vs1 vs2 w len h => vvDone_of_beadAt rfl h, fun s n vd vs1 vs2 w len h => vvDone_of_beadAt rfl h,
    fun s n vd vs1 vs2 w len h => vvDone_of_beadAt rfl h, fun s n vd vs1 vs2 w len h => vvDone_of_beadAt rfl h,
    fun s n vd vs1 vs2 w len h => vvDone_of_beadAt rfl h, fun s n vd vs1 vs2 w len h => vvDone_of_beadAt rfl h,
    fun s n vd vs1 vs2 w len h => vvDone_of_beadAt rfl h, ?bytes, ?shuffle, ?kround, ?kroundTrap, ?tstep, ?topk, ?lsec, ?lsef,
    fun s n rd rs1 rs2 w len h => fpDone_of_beadAt rfl h, fun s n rd rs1 rs2 w len h => fpDone_of_beadAt rfl h,
    fun s n rd rs1 rs2 w len h => fpDone_of_beadAt rfl h, fun s n rd rs1 rs2 w len h => fpDone_of_beadAt rfl h,
    fun s n rd rs1 rs2 w len h => fpDone_of_beadAt rfl h, fun s n rd rs1 rs2 w len h => fpDone_of_beadAt rfl h⟩
  case bytes => exact fun f d a b k _ hf hk => getD_vvOp d a b hf hk
  case shuffle => exact fun d a b k hk => getD_vshuf d a b hk
  case kround => exact fun s n rs1 w len h hr => exec_kround_round h hr
  case kroundTrap => exact fun s n rs1 w len h hr ht => beadDone_of_trap rfl h rfl (if_pos hr) ht
  case tstep => exact fun s n rd rs1 rs2 w len node k lo h ha hd4 hp hnode hcount hk hd hlo => exec_tstep_node h ha hd4 hp hnode hcount hk hd hlo
  case topk =>
    intro s n rd rs1 rs2 w len k l head cand es q h ha hb hda hdb hpa hpb hhead hcand hk hl h1 h256 hlk hz hins
    exact exec_topk_ranks h ha hb hda hdb hpa hpb hhead hcand hk hl h1 h256 hlk hz hins
  case lsec =>
    intro s n rs1 rs2 w len h hok ha hb hda hdb hpa hpb hra hrb
    exact exec_lsec_records h rfl hok ha hb hda hdb hpa hpb hra hrb
  case lsef =>
    intro s n rs1 rs2 w len out h hok ha hab hsm hda hdb hpa hra hout
    exact exec_lsef_record h rfl rfl hok ha hab hsm hda hdb hpa hra hout

end Sys2Proof.Machine
end

section
/-! SUPPORT. Clasps, router ports, barriers and frames of a program, and the statement O49 on them (R146, R147, R176 to R181). -/

namespace Sys2Proof.Machine

/-! ### Channels (R176, R177) -/

@[simp] theorem Tile.updTx_progPart (x : Tile) (c : Nat) (f : Channel → Channel) : (x.updTx c f).progPart = x.progPart := by
  unfold Tile.updTx; rfl

@[simp] theorem Tile.updRx_progPart (x : Tile) (c : Nat) (f : Channel → Channel) : (x.updRx c f).progPart = x.progPart := by
  unfold Tile.updRx; rfl

/-- An update of a channel matters by what it makes of that channel. -/
theorem Tile.updTx_congr {x : Tile} {c : Nat} {f g : Channel → Channel} (h : f (x.txCh c) = g (x.txCh c)) : x.updTx c f = x.updTx c g := by
  unfold Tile.txCh at h
  rw [Tile.updTx, Tile.updTx, SMap.upd, SMap.upd, h]

theorem accessSize_word : accessSize 2 = 4 := rfl

section
variable {s : State} {n c off k cycles : Nat} {m : MeshWord} {rest : List (Nat × MeshWord)} {bs : Bytes}

/-- A store that does not reach byte 31 only stages its bytes. -/
theorem State.txPut_stages (h : off + bs.length < 32) : s.txPut n c off cycles bs =
    some (s.updTile n (fun x => x.updTx c (fun y => { y with staging := SMap.setList 0 ((s.tile n).txCh c).staging off bs }))) :=
  if_pos h

/-- A store that reaches byte 31 of a channel to the mesh commits the staged word. -/
theorem State.txPut_commits (h : off + bs.length = 32) (hm : ((s.tile n).txCh c).dmemMode = false)
    (hf : ((s.tile n).txCh c).fifo.length < 4) : s.txPut n c off cycles bs =
    some (s.updTile n (fun x => x.updTx c (fun y => { y with
      staging := SMap.setList 0 ((s.tile n).txCh c).staging off bs
      fifo := y.fifo ++ [(x.cycle + cycles,
        ⟨SMap.getList 0 (SMap.setList 0 ((s.tile n).txCh c).staging off bs) 0 32, 0, false⟩)] }))) := by
  simp only [State.txPut, h, hm, Nat.not_le.2 hf, Nat.lt_irrefl, if_false, Bool.false_eq_true]

/-- It waits for room. -/
theorem State.txPut_full (h : off + bs.length = 32) (hm : ((s.tile n).txCh c).dmemMode = false)
    (hf : 4 ≤ ((s.tile n).txCh c).fifo.length) : s.txPut n c off cycles bs = none := by
  simp only [State.txPut, h, hm, hf, Nat.lt_irrefl, if_false, if_true, Bool.false_eq_true]

theorem State.rxTake_empty {j : Nat} (h : ((s.tile n).rxCh c).fifo = []) : s.rxTake n c off j = none := by
  simp only [State.rxTake, h]

/-- A load that does not reach byte 31 leaves the head word. -/
theorem State.rxTake_head {j : Nat} (h : ((s.tile n).rxCh c).fifo = (k, m) :: rest) (hj : off + j ≠ 32) : s.rxTake n c off j =
    some (slice m.data off j, s.updTile n (fun x => { x with cycle := max x.cycle k })) := by
  simp only [State.rxTake, h, hj, if_false]

/-- A load that reaches byte 31 removes it. -/
theorem State.rxTake_removes {j : Nat} (h : ((s.tile n).rxCh c).fifo = (k, m) :: rest) (hj : off + j = 32) : s.rxTake n c off j =
    some (slice m.data off j, (s.updTile n (fun x => { x with cycle := max x.cycle k })).updTile n
      (fun x => x.updRx c (fun y => { y with fifo := rest }))) := by
  simp only [State.rxTake, h, hj, if_true]

end

section
variable {s : State} {n rd rs1 rs2 imm w len c off k : Nat} {m : MeshWord} {rest : List (Nat × MeshWord)}

/-- A word store into TX[c] that `txPut` takes. -/
theorem exec_txStore_done {f : Tile → Tile} {y : Tile} (h : s.beadAt n (.store 2 rs1 rs2 imm) w len) (hr : (s.core n).inRun = true)
    (ha : (s.core n).addr rs1 imm % 4 = 0) (hp : portReg ((s.core n).addr rs1 imm) 4 = .tx c off)
    (hput : (s.entered n).txPut n c off 1 (natLe 4 ((s.core n).reg rs2)) = some ((s.entered n).updTile n f))
    (hf : f (s.core n) = y) (hy : y.progPart = (s.core n).progPart) :
    beadDone (exec (.txStore n) s) s n (y.stepped ((s.core n).next len) 1) := by
  rw [State.core_inRun] at hr
  refine beadDone_of_done (u := (s.entered n).updTile n f) rfl h ?_ ?_ (hf ▸ (tileBecomes.entered s n).updTile f) hy
  · simp [State.land_addr, hr, ha, hp]
  · simp only [hp, hput]

/-- One that it does not take waits. -/
theorem exec_txStore_stall (h : s.beadAt n (.store 2 rs1 rs2 imm) w len) (hr : (s.core n).inRun = true)
    (ha : (s.core n).addr rs1 imm % 4 = 0) (hp : portReg ((s.core n).addr rs1 imm) 4 = .tx c off)
    (hput : (s.entered n).txPut n c off 1 (natLe 4 ((s.core n).reg rs2)) = none) :
    beadDone (exec (.txStore n) s) s n { s.core n with stall := .tx c } := by
  rw [State.core_inRun] at hr
  refine beadDone_of_stall rfl h ?_ ?_
  · simp [State.land_addr, hr, ha, hp]
  · simp only [hp, hput]

theorem exec_txStore_stages (h : s.beadAt n (.store 2 rs1 rs2 imm) w len) (hr : (s.core n).inRun = true)
    (ha : (s.core n).addr rs1 imm % 4 = 0) (hp : portReg ((s.core n).addr rs1 imm) 4 = .tx c off) (ho : off < 28) :
    beadDone (exec (.txStore n) s) s n (((s.core n).updTx c (fun y => { y with
      staging := SMap.setList 0 y.staging off (natLe 4 ((s.core n).reg rs2)) })).stepped ((s.core n).next len) 1) := by
  have hput := State.txPut_stages (s := s.entered n) (n := n) (c := c) (cycles := 1) (bs := natLe 4 ((s.core n).reg rs2)) (off := off)
    (by rw [length_natLe]; omega)
  rw [State.entered_tile] at hput
  exact exec_txStore_done h hr ha hp hput (Tile.updTx_congr rfl) (by simp)

theorem exec_txStore_commits (h : s.beadAt n (.store 2 rs1 rs2 imm) w len) (hr : (s.core n).inRun = true)
    (ha : (s.core n).addr rs1 imm % 4 = 0) (hp : portReg ((s.core n).addr rs1 imm) 4 = .tx c 28)
    (hm : ((s.core n).txCh c).dmemMode = false) (hf : ((s.core n).txCh c).fifo.length < 4) :
    beadDone (exec (.txStore n) s) s n (((s.core n).updTx c (fun y => { y with
      staging := SMap.setList 0 y.staging 28 (natLe 4 ((s.core n).reg rs2))
      fifo := y.fifo ++ [((s.core n).cycle + 1,
        ⟨SMap.getList 0 (SMap.setList 0 y.staging 28 (natLe 4 ((s.core n).reg rs2))) 0 32, 0, false⟩)] })).stepped
        ((s.core n).next len) 1) := by
  have hput := State.txPut_commits (s := s.entered n) (n := n) (c := c) (cycles := 1) (bs := natLe 4 ((s.core n).reg rs2)) (off := 28)
    (by rw [length_natLe]) (by rwa [State.entered_tile]) (by rwa [State.entered_tile])
  rw [State.entered_tile] at hput
  exact exec_txStore_done h hr ha hp hput (Tile.updTx_congr rfl) (by simp)

/-- A word load from RX[c] that `rxTake` serves. -/
theorem exec_rxLoad_done {bs : Bytes} {u : State} {y : Tile} (h : s.beadAt n (.load 2 rd rs1 imm) w len) (hr : (s.core n).inRun = true)
    (ha : (s.core n).addr rs1 imm % 4 = 0) (hp : portReg ((s.core n).addr rs1 imm) 4 = .rx c off)
    (htake : (s.entered n).rxTake n c off 4 = some (bs, u)) (hu : tileBecomes (s.entered n) u n y)
    (hy : y.progPart = (s.core n).progPart) :
    beadDone (exec (.rxLoad n) s) s n ((y.setReg rd (leNat bs)).stepped ((s.core n).next len) 2) := by
  rw [State.core_inRun] at hr
  refine beadDone_of_done (u := u.updTile n (fun y => y.setReg rd (leNat bs))) rfl h ?_ ?_ (hu.updTile _) (by simpa using hy)
  · simp [State.land_addr, hr, ha, hp]
  · simp only [hp, htake, State.doneWith]

theorem exec_rxLoad_stall (h : s.beadAt n (.load 2 rd rs1 imm) w len) (hr : (s.core n).inRun = true)
    (ha : (s.core n).addr rs1 imm % 4 = 0) (hp : portReg ((s.core n).addr rs1 imm) 4 = .rx c off) (hf : ((s.core n).rxCh c).fifo = []) :
    beadDone (exec (.rxLoad n) s) s n { s.core n with stall := .rx c } := by
  have htake := State.rxTake_empty (s := s.entered n) (n := n) (c := c) (off := off) (j := 4) (by rwa [State.entered_tile])
  rw [State.core_inRun] at hr
  refine beadDone_of_stall rfl h ?_ ?_
  · simp [State.land_addr, hr, ha, hp]
  · simp only [hp, htake]

theorem exec_rxLoad_head (h : s.beadAt n (.load 2 rd rs1 imm) w len) (hr : (s.core n).inRun = true)
    (ha : (s.core n).addr rs1 imm % 4 = 0) (hp : portReg ((s.core n).addr rs1 imm) 4 = .rx c off) (ho : off < 28)
    (hf : ((s.core n).rxCh c).fifo = (k, m) :: rest) :
    beadDone (exec (.rxLoad n) s) s n (({ s.core n with cycle := max (s.core n).cycle k }.setReg rd
      (leNat (slice m.data off 4))).stepped ((s.core n).next len) 2) :=
  exec_rxLoad_done h hr ha hp (State.rxTake_head (by rwa [State.entered_tile]) (by omega))
    ((tileBecomes.entered s n).updTile (fun x => { x with cycle := max x.cycle k })) rfl

theorem exec_rxLoad_removes (h : s.beadAt n (.load 2 rd rs1 imm) w len) (hr : (s.core n).inRun = true)
    (ha : (s.core n).addr rs1 imm % 4 = 0) (hp : portReg ((s.core n).addr rs1 imm) 4 = .rx c 28)
    (hf : ((s.core n).rxCh c).fifo = (k, m) :: rest) :
    beadDone (exec (.rxLoad n) s) s n ((({ s.core n with cycle := max (s.core n).cycle k }.updRx c (fun y => { y with fifo := rest })).setReg
      rd (leNat (slice m.data 28 4))).stepped ((s.core n).next len) 2) :=
  exec_rxLoad_done h hr ha hp (State.rxTake_removes (by rwa [State.entered_tile]) rfl)
    (((tileBecomes.entered s n).updTile (fun x => { x with cycle := max x.cycle k })).updTile
      (fun x => x.updRx c (fun y => { y with fifo := rest }))) (by simp)

theorem exec_txCfgWrite (h : s.beadAt n (.store 2 rs1 rs2 imm) w len) (hr : (s.core n).inRun = true)
    (hp : portReg ((s.core n).addr rs1 imm) 4 = .txCfg c) (hc : cfgOk ((s.core n).reg rs2) = true) :
    beadDone (exec (.txCfgWrite n) s) s n
      (((s.core n).updTx c (fun _ => cfgChannel ((s.core n).reg rs2))).stepped ((s.core n).next len) 1) := by
  rw [State.core_inRun] at hr
  refine beadDone_of_doneWith (f := fun y => y.updTx c (fun _ => cfgChannel ((s.core n).reg rs2))) rfl h ?_ ?_ rfl (by simp)
  · simp [State.land_addr, accessSize_word, hr, hp]
  · simp only [hp, hc, if_true]

theorem exec_rxCfgWrite (h : s.beadAt n (.store 2 rs1 rs2 imm) w len) (hr : (s.core n).inRun = true)
    (hp : portReg ((s.core n).addr rs1 imm) 4 = .rxCfg c) (hc : cfgOk ((s.core n).reg rs2) = true) :
    beadDone (exec (.rxCfgWrite n) s) s n
      (((s.core n).updRx c (fun _ => cfgChannel ((s.core n).reg rs2))).stepped ((s.core n).next len) 1) := by
  rw [State.core_inRun] at hr
  refine beadDone_of_doneWith (f := fun y => y.updRx c (fun _ => cfgChannel ((s.core n).reg rs2))) rfl h ?_ ?_ rfl (by simp)
  · simp [State.land_addr, accessSize_word, hr, hp]
  · simp only [hp, hc, if_true]

/-- A store to RX_AWAIT[c] waits for its count (R176, R180). -/
theorem exec_rxAwait (h : s.beadAt n (.store 2 rs1 rs2 imm) w len) (hr : (s.core n).inRun = true)
    (hp : portReg ((s.core n).addr rs1 imm) 4 = .await c) :
    beadDone (exec (.rxAwait n) s) s n (if (s.core n).reg rs2 ≤ ((s.core n).rxCh c).count then
      (s.core n).stepped ((s.core n).next len) 1 else { s.core n with stall := .await c ((s.core n).reg rs2) }) := by
  rw [State.core_inRun] at hr
  have hwant : (((s.tile n).land (s.tile n).cycle).inRun && (match portReg (((s.tile n).land (s.tile n).cycle).addr rs1 imm) (accessSize 2) with
      | .await _ => true
      | _ => false)) = true := by simp [State.land_addr, accessSize_word, hr, hp]
  split
  · rename_i hle
    refine beadDone_of_done (u := s.entered n) rfl h hwant ?_ (tileBecomes.entered s n) rfl
    simp only [hp, hle, if_true]
  · rename_i hlt
    refine beadDone_of_stall rfl h hwant ?_
    simp only [hp, hlt, if_false]

end

/-! ### Barriers (R181) -/

/-- An update of the barriers with index `b` is found again, if it keeps their index. -/
theorem find?_map_barrier {l : List Barrier} {b : Nat} {y : Barrier} {f : Barrier → Barrier} (hf : ∀ z, (f z).index = z.index)
    (h : l.find? (fun z => z.index == b) = some y) :
    (l.map (fun z => if z.index == b then f z else z)).find? (fun z => z.index == b) = some (f y) := by
  have hcomp : (fun z : Barrier => z.index == b) ∘ (fun z => if z.index == b then f z else z) = fun z => z.index == b := by
    funext z
    simp only [Function.comp]
    split
    · rw [hf]
    · rfl
  rw [List.find?_map, hcomp, h, Option.map_some, if_pos (List.find?_some h)]

theorem State.updBarrier_unchanged (s : State) (p b : Nat) (f : Barrier → Barrier) : unchangedBut [.mesh] s (s.updBarrier p b f) :=
  State.updRun_unchanged ..

section
variable {s u v : State} {x : Tile} {n p b w len rd rs1 rs2 imm pc cycles : Nat} {y : Barrier} {f : Barrier → Barrier} {r : RunState}

theorem State.run_updBarrier : ((s.updBarrier p b f).sched p).run =
    (s.sched p).run.map (fun r => { r with barriers := r.barriers.map (fun y => if y.index == b then f y else y) }) := by
  simp [State.updBarrier, State.updRun, State.updSched, State.sched]

theorem State.barrier_updBarrier (hf : ∀ z, (f z).index = z.index)
    (h : (s.sched p).run.bind (fun r => r.barriers.find? (fun z => z.index == b)) = some y) :
    ((s.updBarrier p b f).sched p).run.bind (fun r => r.barriers.find? (fun z => z.index == b)) = some (f y) := by
  obtain ⟨r, hr, hy⟩ := Option.bind_eq_some_iff.1 h
  rw [State.run_updBarrier, hr]
  exact find?_map_barrier hf hy

theorem State.barrierOf_of_inRun (s : State) (b : Nat) (h : x.inRun = true) :
    s.barrierOf x b = (s.sched x.progPart).run.bind (fun r => r.barriers.find? (fun z => z.index == b)) := by
  rw [State.barrierOf, State.runOf, if_pos h]

theorem State.barrierOf_updBarrier (hf : ∀ z, (f z).index = z.index) (hr : x.inRun = true) (h : s.barrierOf x b = some y) :
    (s.updBarrier x.progPart b f).barrierOf x b = some (f y) := by
  rw [State.barrierOf_of_inRun _ _ hr] at h ⊢
  exact State.barrier_updBarrier hf h

/-- A barrier stands in the mesh state. -/
theorem State.barrier_congr (hm : v.mesh = u.mesh) : (v.sched p).run.bind (fun r => r.barriers.find? (fun z => z.index == b)) =
    (u.sched p).run.bind (fun r => r.barriers.find? (fun z => z.index == b)) := by
  simp only [State.sched, hm]

/-- The tile matters for its partition alone. -/
theorem State.barrierOf_congr {z : Tile} (hm : v.mesh = u.mesh) (hr : z.inRun = x.inRun) (hp : z.progPart = x.progPart) :
    v.barrierOf z b = u.barrierOf x b := by
  simp only [State.barrierOf, State.runOf, State.sched, hm, hr, hp]

end

end Sys2Proof.Machine
end

section
/-! SUPPORT. Clasps, barriers and frames at their instructions, and the statement O49 (R146, R147, R176 to R181). -/

namespace Sys2Proof.Machine

/-- An instruction that completes with more than its own tile changed: the state `u` its meaning makes, with the tile's step on top. -/
theorem bead_completes {s u : State} {n w len pc cycles : Nat} {y : Tile} {i : BeadInstr} {m : String}
    {o : Host.Outcome State Fault Refusal} {want : Tile → BeadInstr → Bool} {sem : State → Tile → BeadInstr → Nat → Nat → BeadRes}
    (ho : o = guarded m (tileOk n) (s.bead n want sem)) (h : s.beadAt n i w len)
    (hw : want ((s.tile n).land (s.tile n).cycle) i = true) (hsem : sem (s.entered n) (s.core n) i w len = .done u pc cycles)
    (hy : u.tile n = y) :
    ∃ v, tileBecomes u v n (y.stepped pc cycles) ∧ o = .next (if y.inRun then v.advance (s.core n).progPart else v) := by
  have hv := u.updTile_becomes n (fun x => x.stepped pc cycles)
  rw [hy] at hv
  refine ⟨_, hv, ?_⟩
  have hrun : ((u.updTile n (fun x => x.stepped pc cycles)).tile n).inRun = y.inRun := by rw [hv.1]; rfl
  rw [bead_commits ho h hw, hsem, State.beadCommit, State.entered_tile, ← hrun]
  rfl

section
variable {s : State} {n p b w len rd rs1 rs2 imm f k : Nat} {y : Barrier} {r : RunState}

/-! ### Clasps (R146, R147) -/

@[simp] theorem Tile.setReg_inRun (x : Tile) (r v : Nat) : (x.setReg r v).inRun = x.inRun := by
  unfold Tile.setReg; split <;> rfl

@[simp] theorem Tile.stepped_inRun (x : Tile) (pc cycles : Nat) : (x.stepped pc cycles).inRun = x.inRun := by
  unfold Tile.stepped; rfl

@[simp] theorem Tile.stepped_progPart (x : Tile) (pc cycles : Nat) : (x.stepped pc cycles).progPart = x.progPart := by
  unfold Tile.stepped; rfl

theorem State.signal_unchanged (s : State) (k add : Nat) (error : Bool) : unchangedBut [.clasps] s (s.signal k add error) :=
  ⟨fun c hc => by cases c with | clasps => simp at hc | _ => rfl, rfl⟩

/-- The first clasp_add of a tick queues its signal. -/
theorem State.semClaspAdd_first {x : Tile} {add : Nat} (hok : s.claspOk x = true) (hfresh : x.signalTick ≠ s.tick.count)
    (hseal : s.sealedPart x.progPart = false)
    (hadd : (if csrValue f 0 (x.csrOperand f rs1) % 2 ^ 31 = 0 then 1 else csrValue f 0 (x.csrOperand f rs1) % 2 ^ 31) = add) :
    s.semClaspAdd n x (.csr f rd k rs1) len =
      (s.signal x.claspId.toNat add (bit (csrValue f 0 (x.csrOperand f rs1)) 31)).doneWith n (x.next len) 2
        (fun y => { y with signals := 1, signalTick := s.tick.count }.setReg rd 0) := by
  simp only [State.semClaspAdd, hok, hfresh, hseal, hadd, if_false, Bool.not_true, Bool.false_eq_true, Nat.le_zero, OfNat.ofNat_ne_zero,
    Nat.zero_add]

theorem State.semClaspVal_value {x : Tile} (hw : csrWrites f rs1 = false) (hok : s.claspOk x = true) :
    s.semClaspVal n x (.csr f rd k rs1) w len = s.doneWith n (x.next len) 24 (fun y => y.setReg rd
      (if k = 0xFC6 then s.clasp x.claspId.toNat % 2 ^ 32 else s.clasp x.claspId.toNat / 2 ^ 32)) := by
  simp only [State.semClaspVal, hw, hok, if_false, Bool.not_true, Bool.false_eq_true]

theorem exec_beadClaspAdd_signals {v add : Nat} (h : s.beadAt n (.csr f rd 0x7C3 rs1) w len) (hw : csrWrites f rs1 = true)
    (hok : s.claspOk (s.core n) = true) (hfresh : (s.core n).signalTick ≠ s.tick.count)
    (hseal : s.sealedPart (s.core n).progPart = false) (hv : csrValue f 0 ((s.core n).csrOperand f rs1) = v)
    (hadd : (if v % 2 ^ 31 = 0 then 1 else v % 2 ^ 31) = add) :
    ∃ u, exec (.beadClaspAdd n) s = .next (if (s.core n).inRun then u.advance (s.core n).progPart else u) ∧
      u.clasps.signals = s.clasps.signals ++ [⟨(s.core n).claspId.toNat, add, bit v 31⟩] ∧
      u.clasps.committed = s.clasps.committed ∧
      u.tile n = ({ s.core n with signals := 1, signalTick := s.tick.count }.setReg rd 0).stepped ((s.core n).next len) 2 ∧
      (∀ m, m ≠ n → u.tile m = s.tile m) ∧ unchangedBut [.clasps, .tiles] s u := by
  have hsem := State.semClaspAdd_first (s := s.entered n) (n := n) (f := f) (rd := rd) (k := 0x7C3) (rs1 := rs1) (len := len) hok hfresh hseal
    (hv ▸ hadd)
  rw [State.entered_tick, hv] at hsem
  have hsig := State.signal_unchanged (s.entered n) (s.core n).claspId.toNat add (bit v 31)
  have htiles := State.tile_of_tiles (hsig.1 .tiles (by simp))
  obtain ⟨htile, hother, hun⟩ := State.updTile_becomes ((s.entered n).signal (s.core n).claspId.toNat add (bit v 31)) n
    (fun y => { y with signals := 1, signalTick := s.tick.count }.setReg rd 0)
  rw [htiles, State.entered_tile] at htile
  obtain ⟨u, ⟨hun', huo, huu⟩, hnext⟩ := bead_completes (o := exec (.beadClaspAdd n) s) rfl h (by simpa using hw) hsem htile
  rw [Tile.setReg_inRun] at hnext
  have hc := huu.1 .clasps (by simp)
  refine ⟨u, hnext, ?signals, ?committed, hun', fun m hm => ?others, ?rest⟩
  case signals => rw [hc]; rfl
  case committed => rw [hc]; rfl
  case others => rw [huo m hm, hother m hm, htiles, State.entered, State.tile_updTile_other _ _ hm]
  case rest =>
    exact (((s.entered_becomes n).2.2.mono (by simp)).trans (hsig.mono (by simp))).trans ((hun.trans huu).mono (by simp))

theorem exec_beadClaspValRead_value (hk : k = 0xFC6 ∨ k = 0xFC7) (h : s.beadAt n (.csr f rd k rs1) w len) (hw : csrWrites f rs1 = false)
    (hok : s.claspOk (s.core n) = true) :
    beadDone (exec (.beadClaspValRead n) s) s n (((s.core n).setReg rd
      (if k = 0xFC6 then s.clasp (s.core n).claspId.toNat % 2 ^ 32 else s.clasp (s.core n).claspId.toNat / 2 ^ 32)).stepped
        ((s.core n).next len) 24) :=
  beadDone_of_doneWith rfl h (by simpa using hk) (State.semClaspVal_value (s := s.entered n) hw hok) rfl (by simp)

/-! ### Barriers at their instructions (R181) -/

/-- A member that arrives is noted. -/
theorem exec_barrierArrive_notes (h : s.beadAt n (.store 2 rs1 rs2 imm) w len) (hr : (s.core n).inRun = true)
    (hp : portReg ((s.core n).addr rs1 imm) 4 = .barrier b) (hb : s.barrierOf (s.core n) b = some y) (hm : n ∈ y.members)
    (ha : ∀ z, z ∈ y.arrived → z.1 ≠ n) :
    ∃ u, exec (.barrierArrive n) s = .next (u.advance (s.core n).progPart) ∧
      u.tile n = (s.core n).stepped ((s.core n).next len) 1 ∧
      u.barrierOf (u.tile n) b = some { y with
        arrived := y.arrived ++ [(n, (s.core n).cycle)], passed := y.passed.filter (fun z => z != n) } ∧
      unchangedBut [.tiles, .mesh] s u := by
  have hrun : (s.tile n).inRun = true := by rwa [← State.core_inRun]
  have hany : y.arrived.any (fun z => z.1 == n) = false := List.any_eq_false.2 fun z hz => by simpa using ha z hz
  have he : (s.entered n).barrierOf (s.core n) b = some y := (State.barrierOf_congr rfl rfl rfl).trans hb
  have hbar := State.barrierOf_updBarrier (f := fun y => { y with
    arrived := y.arrived ++ [(n, (s.core n).cycle)], passed := y.passed.filter (fun z => z != n) }) (fun _ => rfl) hr he
  have hu := State.updBarrier_unchanged (s.entered n) (s.core n).progPart b (fun y => { y with
    arrived := y.arrived ++ [(n, (s.core n).cycle)], passed := y.passed.filter (fun z => z != n) })
  have hcore := (State.tile_of_tiles (hu.1 .tiles (by simp)) n).trans (s.entered_tile n)
  obtain ⟨v, ⟨htile, -, hun⟩, hnext⟩ := bead_completes (y := s.core n)
    (u := (s.entered n).updBarrier (s.core n).progPart b (fun y => { y with
      arrived := y.arrived ++ [(n, (s.core n).cycle)], passed := y.passed.filter (fun z => z != n) }))
    (pc := (s.core n).next len) (cycles := 1) (o := exec (.barrierArrive n) s) rfl h
    (by simp [State.land_addr, accessSize_word, hrun, hp])
    (by simp only [hp, he, List.contains_iff_mem.2 hm, hany, Bool.not_true, Bool.or_self, Bool.false_eq_true, if_false]) hcore
  rw [if_pos hr] at hnext
  refine ⟨v, hnext, htile, ?_, ?_⟩
  · rw [htile, ← hbar]
    exact State.barrierOf_congr (hun.1 .mesh (by simp)) (Tile.stepped_inRun ..) (Tile.stepped_progPart ..)
  · exact (((s.entered_becomes n).2.2.mono (by simp)).trans (hu.mono (by simp))).trans (hun.mono (by simp))

/-- A member that has been released goes on, and has passed. -/
theorem exec_barrierWait_passes (h : s.beadAt n (.load 2 rd rs1 imm) w len) (hr : (s.core n).inRun = true)
    (hp : portReg ((s.core n).addr rs1 imm) 4 = .barrier b) (hb : s.barrierOf (s.core n) b = some y) (hm : n ∈ y.members)
    (hpass : n ∈ y.passed) :
    ∃ u, exec (.barrierWait n) s = .next (u.advance (s.core n).progPart) ∧
      u.tile n = ({ s.core n with
        cycle := max (s.core n).cycle (if tileCol n < 36 then y.releaseWest else y.releaseEast) }.setReg rd y.generation).stepped
          ((s.core n).next len) 2 ∧
      u.barrierOf (u.tile n) b = some { y with passed := y.passed.filter (fun z => z != n) } ∧ unchangedBut [.tiles, .mesh] s u := by
  have hrun : (s.tile n).inRun = true := by rwa [← State.core_inRun]
  have he : (s.entered n).barrierOf (s.core n) b = some y := (State.barrierOf_congr rfl rfl rfl).trans hb
  have hbar := State.barrierOf_updBarrier (f := fun y => { y with passed := y.passed.filter (fun z => z != n) }) (fun _ => rfl) hr he
  have hu := State.updBarrier_unchanged (s.entered n) (s.core n).progPart b (fun y => { y with passed := y.passed.filter (fun z => z != n) })
  have hcore := (State.tile_of_tiles (hu.1 .tiles (by simp)) n).trans (s.entered_tile n)
  obtain ⟨v, ⟨htile, -, hun⟩, hnext⟩ := bead_completes
    (y := { s.core n with
      cycle := max (s.core n).cycle (if tileCol n < 36 then y.releaseWest else y.releaseEast) }.setReg rd y.generation)
    (u := ((s.entered n).updBarrier (s.core n).progPart b (fun y => { y with passed := y.passed.filter (fun z => z != n) })).updTile n
      (fun z => { z with cycle := max z.cycle (if tileCol n < 36 then y.releaseWest else y.releaseEast) }.setReg rd y.generation))
    (pc := (s.core n).next len) (cycles := 2) (o := exec (.barrierWait n) s) rfl h
    (by simp [State.land_addr, accessSize_word, hrun, hp])
    (by simp only [hp, he, List.contains_iff_mem.2 hm, List.contains_iff_mem.2 hpass, Bool.not_true, Bool.false_eq_true, if_false, if_true,
      State.doneWith])
    (by rw [State.tile_updTile_same, hcore])
  rw [Tile.setReg_inRun, if_pos hr] at hnext
  refine ⟨v, hnext, htile, ?_, ?_⟩
  · rw [htile, ← hbar]
    exact State.barrierOf_congr (hun.1 .mesh (by simp)) (by simp) (by simp)
  · exact ((((s.entered_becomes n).2.2.mono (by simp)).trans (hu.mono (by simp))).trans
      ((State.updTile_unchanged ..).mono (by simp))).trans (hun.mono (by simp))

/-- A member that has not been released waits. -/
theorem exec_barrierWait_stall (h : s.beadAt n (.load 2 rd rs1 imm) w len) (hr : (s.core n).inRun = true)
    (hp : portReg ((s.core n).addr rs1 imm) 4 = .barrier b) (hb : s.barrierOf (s.core n) b = some y) (hm : n ∈ y.members)
    (hpass : n ∉ y.passed) : beadDone (exec (.barrierWait n) s) s n { s.core n with stall := .barrier b } := by
  have hrun : (s.tile n).inRun = true := by rwa [← State.core_inRun]
  have he : (s.entered n).barrierOf (s.core n) b = some y := (State.barrierOf_congr rfl rfl rfl).trans hb
  refine beadDone_of_stall rfl h (by simp [State.land_addr, accessSize_word, hrun, hp]) ?_
  simp [hp, he, hm, hpass]

/-! ### The release of a barrier (R181) -/

/-- The barrier after its release: the next generation, which nobody has arrived in and every member may pass. -/
def Barrier.next (y : Barrier) (west east : Nat) : Barrier :=
  { y with arrived := [], generation := (y.generation + 1) % 2 ^ 32, passed := y.members, releaseWest := west, releaseEast := east }

/-- The members of barrier `b` that wait at it go on at the release of their half. -/
def State.releaseMembers (s : State) (b west east : Nat) (members : List Nat) : State :=
  members.foldl (fun s m => if (s.tile m).stall = .barrier b then
    s.updTile m (fun x => { x with stall := .none, cycle := max x.cycle (if tileCol m < 36 then west else east) }) else s) s

/-- The window stores of these tiles are in the Casket for good. -/
def State.forgetLate (s : State) (members : List Nat) : State :=
  { s with casket := { s.casket with late := s.casket.late.filter (fun e => !members.contains e.tile) } }

theorem State.releaseMembers_unchanged (s : State) (b west east : Nat) (members : List Nat) :
    unchangedBut [.tiles] s (s.releaseMembers b west east members) :=
  unchangedBut.foldl members (fun s m => .ite (s.updTile_unchanged m _) (.refl _ s)) s

theorem State.forgetLate_unchanged (s : State) (members : List Nat) : unchangedBut [.casket] s (s.forgetLate members) :=
  unchangedBut_withCasket s _

theorem State.useFree_unchanged (s : State) : unchangedBut [.free] s s.useFree :=
  ⟨fun c hc => by cases c with | free => simp at hc | _ => rfl, rfl⟩

/-- With every member there, the barrier is released and the members that wait go on. -/
theorem exec_barrierRelease_all (hp : p < 16) (hb : b < 16)
    (hrun : (s.sched p).run.bind (fun q => q.barriers.find? (fun z => z.index == b)) = some y)
    (hall : y.members.all (fun m => y.arrived.any (fun z => z.1 == m)) = true) : ∃ west east, exec (.barrierRelease p b) s =
      .next ((((s.updBarrier p b (fun z => z.next west east)).useFree.forgetLate y.members).releaseMembers b west east y.members).advance p) := by
  have hexec : exec (.barrierRelease p b) s = .next _ := (guarded_eq "BARRIER_RELEASE" _ _).1 (by simp [hp, hb])
  rw [hrun] at hexec
  simp only [hall, if_true] at hexec
  exact ⟨_, _, hexec⟩

/-- The members of a barrier with everyone there go on in the next generation. -/
theorem exec_barrierRelease_next (hp : p < 16) (hb : b < 16) (hr : (s.sched p).run = some r)
    (hy : r.barriers.find? (fun z => z.index == b) = some y) (hall : ∀ m, m ∈ y.members → ∃ z, z ∈ y.arrived ∧ z.1 = m) :
    ∃ u y', exec (.barrierRelease p b) s = .next (u.advance p) ∧
      ((u.sched p).run.bind (fun q => q.barriers.find? (fun z => z.index == b))) = some y' ∧
      y'.generation = (y.generation + 1) % 2 ^ 32 ∧ y'.passed = y.members ∧ y'.arrived = [] ∧
      unchangedBut [.tiles, .mesh, .free, .casket] s u := by
  have hrun : (s.sched p).run.bind (fun q => q.barriers.find? (fun z => z.index == b)) = some y := by rw [hr]; exact hy
  obtain ⟨west, east, hnext⟩ := exec_barrierRelease_all hp hb hrun (by simpa using hall)
  have hmembers := State.releaseMembers_unchanged ((s.updBarrier p b (fun z => z.next west east)).useFree.forgetLate y.members) b west east
    y.members
  have hfound := State.barrier_updBarrier (f := fun z => z.next west east) (fun _ => rfl) hrun
  refine ⟨_, y.next west east, hnext, ?found, rfl, rfl, rfl, ?rest⟩
  case found =>
    rw [← hfound]
    exact State.barrier_congr (hmembers.1 .mesh (by simp))
  case rest =>
    exact ((((State.updBarrier_unchanged ..).mono (by simp)).trans ((State.useFree_unchanged _).mono (by simp))).trans
      ((State.forgetLate_unchanged ..).mono (by simp))).trans (hmembers.mono (by simp))

/-- A barrier that misses a member is not released. -/
theorem exec_barrierRelease_early {m : Nat} (hp : p < 16) (hb : b < 16) (hr : (s.sched p).run = some r)
    (hy : r.barriers.find? (fun z => z.index == b) = some y) (hm : m ∈ y.members) (ha : ∀ z, z ∈ y.arrived → z.1 ≠ m) :
    exec (.barrierRelease p b) s = .next s := by
  have hrun : (s.sched p).run.bind (fun q => q.barriers.find? (fun z => z.index == b)) = some y := by rw [hr]; exact hy
  have hmiss : y.members.all (fun m => y.arrived.any (fun z => z.1 == m)) = false :=
    List.all_eq_false.2 ⟨m, hm, by
    rw [List.any_eq_false.2 fun z hz => by simpa using ha z hz]
    exact Bool.false_ne_true⟩
  refine ((guarded_eq "BARRIER_RELEASE" _ _).1 (by simp [hp, hb])).trans ?_
  rw [hrun]
  simp only [hmiss, Bool.false_eq_true, if_false]

/-! ### Frames (R176) -/

theorem exec_frame_index (h : s.beadAt n (.load 2 rd rs1 imm) w len) (hr : (s.core n).inRun = true)
    (hp : portReg ((s.core n).addr rs1 imm) 4 = .frame) (hrun : s.runOf (s.core n) = some r) (hin : r.inFrame = true)
    (hc : (s.core n).cycle ≤ r.frameStart) :
    beadDone (exec (.frame n) s) s n
      (((s.core n).setReg rd r.framesDone).stepped ((s.core n).next len) (r.frameStart - (s.core n).cycle + 2)) := by
  have he : (s.entered n).runOf (s.core n) = some r := hrun
  rw [State.core_inRun] at hr
  refine beadDone_of_doneWith (f := fun y => y.setReg rd r.framesDone) rfl h (by simp [State.land_addr, accessSize_word, hr, hp]) ?_ rfl
    (by simp)
  simp only [he, hin, hc, and_self, if_true]

theorem exec_frame_stall (h : s.beadAt n (.load 2 rd rs1 imm) w len) (hr : (s.core n).inRun = true)
    (hp : portReg ((s.core n).addr rs1 imm) 4 = .frame) (hrun : s.runOf (s.core n) = none) :
    beadDone (exec (.frame n) s) s n { s.core n with stall := .frame } := by
  have he : (s.entered n).runOf (s.core n) = none := hrun
  rw [State.core_inRun] at hr
  refine beadDone_of_stall rfl h (by simp [State.land_addr, accessSize_word, hr, hp]) ?_
  simp only [he]

end

/-- Settles O49: the instruction's meaning on its channel, clasp, barrier or frame, case by case of the port registers. -/
theorem beadClaspsAndPorts : Obligations.BeadClaspsAndPorts := by
  refine ⟨?claspAdd, ?claspVal, ?txStages, ?txCommits, ?txFull, ?rxHead, ?rxRemoves, ?rxEmpty, ?txCfg, ?rxCfg, ?await, ?arrive, ?wait,
    ?waitStall, ?release, ?early, ?frame, ?frameStall⟩
  case claspAdd => exact fun s n f rd rs1 w len h hw hok hfresh hseal => exec_beadClaspAdd_signals h hw hok hfresh hseal rfl rfl
  case claspVal => exact fun s n f rd k rs1 w len hk h hw hok => exec_beadClaspValRead_value hk h hw hok
  case txStages => exact fun s n rs1 rs2 imm w len c off h hr ha hp ho => exec_txStore_stages h hr ha hp ho
  case txCommits => exact fun s n rs1 rs2 imm w len c h hr ha hp hm hf => exec_txStore_commits h hr ha hp hm hf
  case txFull =>
    intro s n rs1 rs2 imm w len c h hr ha hp hm hf
    exact exec_txStore_stall h hr ha hp (State.txPut_full (by rw [length_natLe]) (by rwa [State.entered_tile]) (by rwa [State.entered_tile]))
  case rxHead => exact fun s n rd rs1 imm w len c off k m rest h hr ha hp ho hf => exec_rxLoad_head h hr ha hp ho hf
  case rxRemoves => exact fun s n rd rs1 imm w len c k m rest h hr ha hp hf => exec_rxLoad_removes h hr ha hp hf
  case rxEmpty => exact fun s n rd rs1 imm w len c off h hr ha hp hf => exec_rxLoad_stall h hr ha hp hf
  case txCfg => exact fun s n rs1 rs2 imm w len c h hr hp hc => exec_txCfgWrite h hr hp hc
  case rxCfg => exact fun s n rs1 rs2 imm w len c h hr hp hc => exec_rxCfgWrite h hr hp hc
  case await => exact fun s n rs1 rs2 imm w len c h hr hp => exec_rxAwait h hr hp
  case arrive => exact fun s n rs1 rs2 imm w len b y h hr hp hb hm ha => exec_barrierArrive_notes h hr hp hb hm ha
  case wait => exact fun s n rd rs1 imm w len b y h hr hp hb hm hpass => exec_barrierWait_passes h hr hp hb hm hpass
  case waitStall => exact fun s n rd rs1 imm w len b y h hr hp hb hm hpass => exec_barrierWait_stall h hr hp hb hm hpass
  case release => exact fun s p b r y hp hb hr hy hall => exec_barrierRelease_next hp hb hr hy hall
  case early => exact fun s p b r y m hp hb hr hy hm ha => exec_barrierRelease_early hp hb hr hy hm ha
  case frame => exact fun s n rd rs1 imm w len r h hr hp hrun hin hc => exec_frame_index h hr hp hrun hin hc
  case frameStall => exact fun s n rd rs1 imm w len h hr hp hrun => exec_frame_stall h hr hp hrun

end Sys2Proof.Machine
end

section
/-! SUPPORT. LAUNCH and the start of its programs, and the statement O42 (R150). -/

namespace Sys2Proof.Machine

/-! ### Updates of several tiles -/

section
variable {g : State → Nat × Nat → Tile → Tile}

/-- A tile that none of the updates is for stays. -/
theorem State.tile_foldl_updTile_other {l : List (Nat × Nat)} {n : Nat} (h : n ∉ l.map Prod.snd) (s : State) :
    (l.foldl (fun s e => s.updTile e.2 (g s e)) s).tile n = s.tile n := by
  induction l generalizing s with
  | nil => rfl
  | cons e l ih =>
    rw [List.map_cons, List.mem_cons, not_or] at h
    obtain ⟨hne, hl⟩ := h
    rw [List.foldl_cons, ih hl, State.tile_updTile_other _ _ hne]

/-- A tile that one of the updates is for is as that update makes it, in the state in which it happens. -/
theorem State.tile_foldl_updTile_mem {l : List (Nat × Nat)} (hl : (l.map Prod.snd).Nodup) {e : Nat × Nat} (he : e ∈ l) (s : State) :
    ∃ u, (l.foldl (fun s e => s.updTile e.2 (g s e)) s).tile e.2 = g u e (s.tile e.2) := by
  induction l generalizing s with
  | nil => cases he
  | cons a l ih =>
    obtain ⟨ha, hl'⟩ := List.nodup_cons.1 hl
    rw [List.foldl_cons]
    rcases List.mem_cons.1 he with rfl | hmem
    · exact ⟨s, by rw [State.tile_foldl_updTile_other ha, State.tile_updTile_same]⟩
    · obtain ⟨u, hu⟩ := ih hl' hmem (s.updTile a.2 (g s a))
      refine ⟨u, hu.trans ?_⟩
      rw [State.tile_updTile_other _ _ (fun h : e.2 = a.2 => ha (h ▸ List.mem_map_of_mem hmem))]

theorem State.foldl_updTile_unchanged (l : List (Nat × Nat)) (s : State) :
    unchangedBut [.tiles] s (l.foldl (fun s e => s.updTile e.2 (g s e)) s) :=
  unchangedBut.foldl l (fun s e => s.updTile_unchanged e.2 (g s e)) s

end

theorem map_snd_mapIdx (ts : List Nat) : (ts.mapIdx (fun i t => (i, t))).map Prod.snd = ts := by
  refine List.ext_getElem? fun i => ?_
  cases h : ts[i]? <;> simp [h]

/-! ### A tile that loads and starts (R150, steps 2 to 4) -/

@[simp] theorem Tile.writeDmem_imem (x : Tile) (off : Nat) (bs : List (Byte × Bool)) : (x.writeDmem off bs).imem = x.imem := by
  unfold Tile.writeDmem Tile.heedDmem Tile.heedWords; rfl

theorem Tile.loadDmem_imem (x : Tile) (keep : Bool) (images : List (Nat × Bytes)) : (x.loadDmem keep images).imem = x.imem := by
  have hfold (z : Tile) : (images.foldl (fun (x : Tile) e => x.writeDmem e.1 (clean e.2)) z).imem = z.imem := by
    induction images generalizing z with
    | nil => rfl
    | cons e l ih => rw [List.foldl_cons, ih, Tile.writeDmem_imem]
  rw [Tile.loadDmem, hfold]
  split <;> rfl

theorem Tile.loadImem_get (x : Tile) {code : Bytes} {i : Nat} (h : i < code.length) :
    SMap.get 0 (x.loadImem code).imem i = code.getD i 0 := by
  have hin := SMap.get_setList_in 0 code x.imem 0 i h
  rw [Nat.zero_add] at hin
  rw [List.getD_eq_getElem _ _ h]
  exact hin

/-- What a LAUNCH makes of its `e.1`-th tile. -/
def State.launched (s : State) (f : Nat) (x : Flight) (e : Nat × Nat) (y : Tile) : Tile :=
  ((if bit (lFlags x.desc) 0 then y else y.loadImem (slice x.blob 0 (lILen x.desc))).loadDmem (bit (lFlags x.desc) 1)
    [(lSDmem x.desc, slice x.blob (lILen x.desc) (lSLen x.desc)),
      (lPDmem x.desc, slice x.blob (lILen x.desc + lSLen x.desc + e.1 * lPLen x.desc) (lPLen x.desc))]).start f s.tick.count x.part
    (s.afterLoad e.2 (64 + ceilDiv (lILen x.desc + lSLen x.desc + lPLen x.desc) 16)) false (lEntry x.desc) (lFirst x.desc + e.1)
    (lArg x.desc) e.1

section
variable {s : State} {f tick part origin entry bead arg index : Nat} {inRun : Bool} {y : Tile} {x : Flight} {e : Nat × Nat}

/-- The integer registers of a program that starts (Table 4.12). -/
theorem Tile.start_reg (r : Nat) : (y.start f tick part origin inRun entry bead arg index).reg r =
    if r = 2 then 0x20000 else if r = 10 then bead % 2 ^ 32 else if r = 11 then arg % 2 ^ 32 else if r = 12 then index % 2 ^ 32 else 0 := by
  by_cases h2 : r = 2
  · subst h2; simp [Tile.reg, Tile.start]
  by_cases h10 : r = 10
  · subst h10; simp [Tile.reg, Tile.start]
  by_cases h11 : r = 11
  · subst h11; simp [Tile.reg, Tile.start]
  by_cases h12 : r = 12
  · subst h12; simp [Tile.reg, Tile.start]
  simp [Tile.reg, Tile.start, h2, h10, h11, h12]

theorem State.launched_imem (h : bit (lFlags x.desc) 0 = false) {i : Nat} (hi : i < (slice x.blob 0 (lILen x.desc)).length) :
    SMap.get 0 (s.launched f x e y).imem i = (slice x.blob 0 (lILen x.desc)).getD i 0 := by
  have himem : (s.launched f x e y).imem = (y.loadImem (slice x.blob 0 (lILen x.desc))).imem := by
    refine (Tile.loadDmem_imem ..).trans ?_
    rw [h]
    rfl
  rw [himem, Tile.loadImem_get _ hi]

end

/-! ### The flight of a staging and of a start -/

section
variable {s s1 : State} {f n : Nat} {x : Flight} {beads : List (Nat × Nat)}

theorem State.startSlice_unchanged (s : State) (f n : Nat) (beads : List (Nat × Nat)) : unchangedBut [.work] s (s.startSlice f n beads) :=
  (State.updStrand_unchanged ..).trans (State.updFlight_unchanged ..)

/-- The first strand of a flight whose slice starts runs to the end of its budget. -/
theorem State.startSlice_runs (h : s.flight f = some x) (hne : x.strands ≠ []) :
    ∃ y, (s.startSlice f n beads).flight f = some y ∧ (y.strand 0).state = .running n := by
  have hy := State.flight_updFlight (s.updStrand f 0 (fun y => y.enter n)) f
    (fun y => { y with blob := [], beads := beads.map (fun b => (b.1, b.2, none)) }) (fun _ => rfl)
  rw [State.flight_updStrand 0 _ h] at hy
  refine ⟨_, hy, ?_⟩
  exact congrArg Strand.state (Flight.strand_onStrand (fun y => y.enter n) (List.length_pos_of_ne_nil hne))

theorem State.flight_unpin (h : s.flight f = some x) : (s.unpin f).flight f =
    some { x with strands := x.strands.map (fun y => { y with pinned := false, issued := 0 }) } := by
  refine (State.flight_updFlight _ _ _ ?_).trans (congrArg _ h)
  intro _; rfl

/-- The staged bytes are with the flight. -/
theorem State.flight_staged (bs : Bytes) (h : s.flight f = some x) :
    (s.staged f bs).flight f = some { x with staged := true, blob := bs } :=
  (State.flight_updFlight s f (fun y => { y with staged := true, blob := bs }) (fun _ => rfl)).trans (congrArg _ h)

/-- A LAUNCH whose images have arrived holds them with its flight, its pins gone (R150, step 1). -/
theorem exec_launch_stages (h : s.staging f 0x30001 = some x) (hbusy : s.stageBusy x = false)
    (hgo : s.fetch x 0 (s.imageOpnds x.part x.desc) [] [] [] = .go s1) (hx : s1.flight f = some x) :
    completesWith (exec (.launch f) s) fun t =>
      (∃ y, t.flight f = some y ∧ y.staged = true ∧ y.desc = x.desc ∧ y.state = x.state ∧ (∀ z, z ∈ y.strands → z.pinned = false) ∧
        y.blob = ((s.imageOpnds x.part x.desc).map (fun o => (s.opndRows x.part o).flatten)).flatten) ∧
      t.tiles = s1.tiles ∧ t.casket.bytes = s1.casket.bytes ∧ t.mem = s1.mem := by
  have hexec : exec (.launch f) s = .next (((s1.unpin f).movedFor x).staged f
      ((s.imageOpnds x.part x.desc).map (fun o => (s.opndRows x.part o).flatten)).flatten) := by
    show execLaunch f s = _
    simp only [execLaunch, h, State.stage, hbusy, hgo, State.flight_id hx, Bool.false_eq_true, if_false]
  have hmoved : ((s1.unpin f).movedFor x).flight f = (s1.unpin f).flight f := rfl
  refine ⟨_, hexec, ⟨_, State.flight_staged _ (hmoved.trans (State.flight_unpin hx)), rfl, rfl, rfl, ?_, rfl⟩, rfl, rfl, rfl⟩
  intro z hz
  obtain ⟨y, -, rfl⟩ := List.mem_map.1 hz
  rfl

/-- The tiles of a LAUNCH start one after another. -/
def State.allLaunched (s : State) (f : Nat) (x : Flight) : State :=
  ((s.setTiles x.part x.desc).mapIdx (fun i t => (i, t))).foldl (fun s e => s.updTile e.2 (s.launched f x e)) s

/-- Then its slice runs. -/
theorem exec_launchStart_eq (h : s.canStart f 0x30001 (fun x => s.setTiles x.part x.desc) = some x) :
    exec (.launchStart f) s = .next ((s.allLaunched f x).startSlice f ((s.allLaunched f x).tick.count + lBudget x.desc - 1)
      ((s.setTiles x.part x.desc).mapIdx (fun i t => (t, lFirst x.desc + i)))) := by
  show execLaunchStart f s = _
  unfold execLaunchStart
  rw [h]
  rfl

theorem State.allLaunched_unchanged (s : State) (f : Nat) (x : Flight) : unchangedBut [.tiles] s (s.allLaunched f x) :=
  State.foldl_updTile_unchanged ..

theorem State.tile_allLaunched_other {m : Nat} (h : m ∉ s.setTiles x.part x.desc) : (s.allLaunched f x).tile m = s.tile m :=
  State.tile_foldl_updTile_other (by rwa [map_snd_mapIdx]) s

theorem State.tile_allLaunched {k : Nat} (hk : (s.setTiles x.part x.desc)[k]? = some n) (hd : (s.setTiles x.part x.desc).Nodup) :
    ∃ u : State, (s.allLaunched f x).tile n = u.launched f x (k, n) (s.tile n) :=
  State.tile_foldl_updTile_mem (e := (k, n)) (by rwa [map_snd_mapIdx]) (List.mem_of_getElem? (i := k) (by simp [hk])) s

end

/-- Settles O42: the staging holds the images with the flight; the start takes the tiles one after another, each with its own index. -/
theorem launchesStageAndStart : Obligations.LaunchesStageAndStart := by
  refine ⟨fun s f x s1 h hbusy hgo hx => exec_launch_stages h hbusy hgo hx, fun s f x k n h hne hk hd => ?_⟩
  obtain ⟨hflight, -⟩ := State.canStart_some h
  have hall := s.allLaunched_unchanged f x
  have hstart := State.startSlice_unchanged (s.allLaunched f x) f ((s.allLaunched f x).tick.count + lBudget x.desc - 1)
    ((s.setTiles x.part x.desc).mapIdx (fun i t => (t, lFirst x.desc + i)))
  have htiles := State.tile_of_tiles (hstart.1 .tiles (by simp))
  obtain ⟨u, hu⟩ := State.tile_allLaunched (f := f) hk hd
  have hrun := State.startSlice_runs (s := s.allLaunched f x) (f := f) (n := (s.allLaunched f x).tick.count + lBudget x.desc - 1)
    (beads := (s.setTiles x.part x.desc).mapIdx (fun i t => (t, lFirst x.desc + i)))
    ((State.flight_of_work (hall.1 .work (by simp)) f).trans hflight) hne
  have htick : (s.allLaunched f x).tick = s.tick := hall.1 .tick (by simp)
  refine ⟨_, exec_launchStart_eq h, ?_⟩
  rw [htick] at hrun htiles hstart ⊢
  rw [htiles n, hu]
  refine ⟨rfl, rfl, rfl, rfl, rfl, rfl, rfl, rfl, ?sp, ?a0, ?a1, ?a2, ?zero, ?imem, ?others, hrun, ?rest⟩
  case sp => exact (Tile.start_reg 2).trans rfl
  case a0 => exact (Tile.start_reg 10).trans rfl
  case a1 => exact (Tile.start_reg 11).trans rfl
  case a2 => exact (Tile.start_reg 12).trans rfl
  case zero =>
    intro r _ h2 h10 h11 h12
    exact (Tile.start_reg r).trans (by rw [if_neg h2, if_neg h10, if_neg h11, if_neg h12])
  case imem => exact fun hbit i hi => State.launched_imem hbit hi
  case others => exact fun m hm => (htiles m).trans (State.tile_allLaunched_other hm)
  case rest => exact (hall.mono (by simp)).trans (hstart.mono (by simp))

end Sys2Proof.Machine
end

section
/-! SUPPORT. Folds over a state: what every step keeps and one step brings about holds at the end, and what a row of tile updates makes of
the tiles. -/

namespace Sys2Proof.Machine

/-- What one of the steps brings about where `I` holds, which every step keeps, holds at the end if every step keeps it too. -/
theorem foldl_reaches {α β : Type} {f : β → α → β} {l : List α} {I P : β → Prop} {a : α} {b : β} (ha : a ∈ l) (h0 : I b)
    (hI : ∀ u c, c ∈ l → I u → I (f u c)) (hreach : ∀ u, I u → P (f u a)) (hkeep : ∀ u c, c ∈ l → P u → P (f u c)) :
    P (l.foldl f b) := by
  induction l generalizing b with
  | nil => cases ha
  | cons c l ih =>
    rw [List.foldl_cons]
    rcases List.mem_cons.1 ha with rfl | hmem
    · exact List.foldlRecOn l f (hreach b h0) fun u hu d hd => hkeep u d (.tail _ hd) hu
    · exact ih hmem (hI b c (.head _) h0) (fun u d hd => hI u d (.tail _ hd)) (fun u d hd => hkeep u d (.tail _ hd))

section
variable {α : Type} {key : α → Nat} {g : State → α → Tile → Tile} {l : List α}

/-- A tile that no update of the row is for stays. -/
theorem State.tile_updTiles_other {n : Nat} (h : ∀ e, e ∈ l → key e ≠ n) (s : State) :
    (l.foldl (fun s e => s.updTile (key e) (g s e)) s).tile n = s.tile n :=
  List.foldlRecOn (motive := fun u : State => u.tile n = s.tile n) l _ rfl
    fun _ hu e he => (State.tile_updTile_other _ _ (h e he).symm).trans hu

/-- What each update for a tile brings about, whatever the tile was, holds of the tile after the row. -/
theorem State.tile_updTiles_mem {Q : Tile → Prop} {e : α} (he : e ∈ l) (hQ : ∀ u d y, d ∈ l → key d = key e → Q (g u d y)) (s : State) :
    Q ((l.foldl (fun s e => s.updTile (key e) (g s e)) s).tile (key e)) := by
  refine foldl_reaches (I := fun _ => True) (P := fun u : State => Q (u.tile (key e))) he trivial (fun _ _ _ _ => trivial) (fun u _ => ?_)
    fun u d hd hu => ?_
  · rw [State.tile_updTile_same]
    exact hQ u e _ he rfl
  · by_cases hk : key d = key e
    · rw [← hk, State.tile_updTile_same]
      exact hQ u d _ hd hk
    · rwa [State.tile_updTile_other _ _ (Ne.symm hk)]

theorem State.updTiles_unchanged (l : List α) (s : State) :
    unchangedBut [.tiles] s (l.foldl (fun s e => s.updTile (key e) (g s e)) s) :=
  unchangedBut.foldl l (fun s e => s.updTile_unchanged (key e) (g s e)) s

end

end Sys2Proof.Machine
end

section
/-! SUPPORT. Descriptors of class 0x4: their keys and details, and the staging and the checks of a LOAD (R191, R193, R196). -/

namespace Sys2Proof.Machine

/-! ### Keys, details and engines of class 0x4 (R191, R196) -/

/-- The opcode of a descriptor is the low half of its key. -/
theorem dKey_mod (d : Bytes) : dKey d % 0x10000 = dOpcode d := by
  have := dOpcode_lt d
  unfold dKey
  omega

theorem dClass_of_dKey {d : Bytes} {c k : Nat} (h : dKey d = c * 0x10000 + k) (hk : k < 0x10000) : dClass d = c ∧ dOpcode d = k := by
  have hdiv := dKey_div d
  have hmod := dKey_mod d
  omega

section
variable {s s1 : State} {f dt : Nat} {x : Flight}

/-- Only class 0x2 runs on engines. -/
theorem Flight.onEngines_mesh {k : Nat} (h : dKey x.desc = 4 * 0x10000 + k) (hk : k < 0x10000) : x.onEngines = false := by
  simp [Flight.onEngines, (dClass_of_dKey h hk).1]

/-- A detail that is not zero stays that of a LOAD. -/
theorem State.detailOf_load (h : dKey x.desc = 0x40001) (hdt : dt ≠ 0) : s.detailOf x dt = dt := by
  obtain ⟨hc, ho⟩ := dClass_of_dKey (c := 4) (k := 1) h (by decide)
  simp [State.detailOf, tileDetail, hc, ho, hdt]

/-- A RUN without a trap names no tile (R196). -/
theorem State.detailOf_run (h : dKey x.desc = 0x40002) : s.detailOf x 0 = 0xFFFF * 2 ^ 48 + s.exitOf x := by
  obtain ⟨hc, ho⟩ := dClass_of_dKey (c := 4) (k := 2) h (by decide)
  simp [State.detailOf, tileDetail, hc, ho, h]

theorem State.detailOf_unload (h : dKey x.desc = 0x40003) : s.detailOf x 0 = 0 := by
  obtain ⟨hc, ho⟩ := dClass_of_dKey (c := 4) (k := 3) h (by decide)
  simp [State.detailOf, tileDetail, hc, ho, h]

/-! ### Staging (R193, step 1) -/

/-- The bytes of the images that a flight stages. -/
def State.imageBytes (s : State) (x : Flight) : Bytes :=
  ((s.imageOpnds x.part x.desc).map (fun o => (s.opndRows x.part o).flatten)).flatten

/-- Images that have arrived go on with the flight's pins gone. -/
theorem State.stage_go (k : State → Bytes → State) (hbusy : s.stageBusy x = false)
    (hgo : s.fetch x 0 (s.imageOpnds x.part x.desc) [] [] [] = .go s1) : s.stage x k = k (s1.unpin x.id) (s.imageBytes x) := by
  simp only [State.stage, hbusy, hgo, Bool.false_eq_true, if_false]
  rfl

/-- A bad image ends its LOAD with the status and the detail of the check (R191). -/
theorem exec_load_refused {r : Refused} (h : s.staging f 0x40001 = some x) (hbusy : s.stageBusy x = false)
    (hgo : s.fetch x 0 (s.imageOpnds x.part x.desc) [] [] [] = .go s1) (hx : s1.flight f = some x)
    (hcheck : (s1.unpin f).loadCheck x.part f (oLen x.desc) (s.imageBytes x) = some r) (hr : 1 ≤ r.reason) :
    completesWith (exec (.load f) s) fun t =>
      (∃ y, t.flight f = some y ∧ y.state = .ended ∧ y.status = r.status ∧
        y.detail = r.tile * 2 ^ 48 + r.reason * 2 ^ 40 + r.section_ * 2 ^ 32 + r.offset % 2 ^ 32) ∧
      t.tiles = s1.tiles ∧ t.casket = s1.casket ∧ t.mem = s1.mem := by
  obtain ⟨-, hkey, -⟩ := State.staging_some h
  have hexec : exec (.load f) s = .next (((s1.unpin f).post 0x2053 1 x.part r.tile
      (detail [(8, dTag x.desc), (1, r.reason), (1, r.section_), (4, r.offset)])).endFlight f r.status
      (r.tile * 2 ^ 48 + r.reason * 2 ^ 40 + r.section_ * 2 ^ 32 + r.offset % 2 ^ 32)) := by
    show execLoad f s = _
    simp only [execLoad, h, State.stage_go _ hbusy hgo, State.flight_id hx, hcheck]
  have hpost := (s1.unpin f).post_unchanged 0x2053 1 x.part r.tile
    (detail [(8, dTag x.desc), (1, r.reason), (1, r.section_), (4, r.offset)])
  have hflight := (State.flight_of_work (hpost.1 .work (by simp)) f).trans (State.flight_unpin hx)
  obtain ⟨⟨⟨y, hy, -, hstatus, hdetail, hstate, -⟩, -⟩, hend⟩ := State.endFlight_ended hflight
    (Flight.onEngines_mesh (k := 1) hkey (by decide)) r.status (r.tile * 2 ^ 48 + r.reason * 2 ^ 40 + r.section_ * 2 ^ 32 + r.offset % 2 ^ 32)
  have hsame : unchangedBut [.work, .xlat, .evt] s1 _ :=
    (((State.unpin_unchanged s1 f).mono (by simp)).trans (hpost.mono (by simp))).trans (hend.mono (by simp))
  refine ⟨_, hexec, ⟨y, hy, hstate, hstatus, hdetail.trans (State.detailOf_load ?_ ?_)⟩, hsame.1 .tiles (by simp),
    hsame.1 .casket (by simp), hsame.1 .mem (by simp)⟩
  · exact hkey
  · omega

/-- The image, its needs and the stage segments they meet are held with the flight. -/
theorem State.flight_stagedAs {z : Flight} (g : Bytes) (h : s.flight x.id = some z) :
    ∃ segs, (s.stagedAs x g).flight x.id = some { z with staged := true, blob := g, stage := x.stage, segs := segs } := by
  refine ⟨_, (State.flight_updFlight _ _ _ ?_).trans (congrArg _ (State.flight_staged g h))⟩
  exact fun _ => rfl

/-- A good image that its stage area holds is staged with its flight (R193, step 1). -/
theorem exec_load_staged (h : s.staging f 0x40001 = some x) (hbusy : s.stageBusy x = false)
    (hgo : s.fetch x 0 (s.imageOpnds x.part x.desc) [] [] [] = .go s1) (hx : s1.flight f = some x)
    (hcheck : (s1.unpin f).loadCheck x.part f (oLen x.desc) (s.imageBytes x) = none)
    (hfits : (s1.unpin f).stageFits x.part (loadNeed (s.imageBytes x)) = true)
    (hfree : (s1.unpin f).stageBusy { x with stage := loadNeed (s.imageBytes x) } = false) :
    completesWith (exec (.load f) s) fun t =>
      (∃ y, t.flight f = some y ∧ y.staged = true ∧ y.blob = s.imageBytes x ∧ y.stage = loadNeed (s.imageBytes x) ∧ y.desc = x.desc ∧
        y.state = x.state) ∧
      t.tiles = s1.tiles ∧ t.casket.bytes = s1.casket.bytes ∧ t.mem = s1.mem := by
  obtain rfl : x.id = f := State.flight_id hx
  have hexec : exec (.load x.id) s = .next (((s1.unpin x.id).movedFor { x with stage := loadNeed (s.imageBytes x) }).stagedAs
      { x with stage := loadNeed (s.imageBytes x) } (s.imageBytes x)) := by
    show execLoad x.id s = _
    simp only [execLoad, h, State.stage_go _ hbusy hgo, hcheck, hfits, hfree, Bool.not_true, Bool.false_eq_true, if_false]
  generalize loadNeed (s.imageBytes x) = need at hexec ⊢
  have hmoved : ((s1.unpin x.id).movedFor { x with stage := need }).flight x.id = (s1.unpin x.id).flight x.id := rfl
  obtain ⟨segs, hy⟩ := State.flight_stagedAs (x := { x with stage := need }) (s.imageBytes x) (hmoved.trans (State.flight_unpin hx))
  exact ⟨_, hexec, ⟨_, hy, rfl, rfl, rfl, rfl, rfl⟩, rfl, rfl, rfl⟩

end

end Sys2Proof.Machine
end

section
/-! SUPPORT. The start of a LOAD, and the statement O43 (R191, R193). -/

namespace Sys2Proof.Machine

section
variable {s : State} {f : Nat} {x : Flight}

/-- What a LOAD makes of the tile of entry `e` of image `g` (R193, steps 2 and 3). -/
def State.loaded (s : State) (g : Bytes) (e : TileEntry) (y : Tile) : Tile :=
  let code := (((imgPrograms g).find? (fun q => q.index == e.program)).map (fun q => q.code)).getD []
  { y.loadImem code with
    table := e.slots, origin := s.afterLoad e.tile (64 + ceilDiv (imgS g) 2 + ceilDiv code.length 16), loads := true }

/-- The tiles of image `g` load one after another. -/
def State.allLoaded (s : State) (g : Bytes) : State := (imgTiles g).foldl (fun s e => s.updTile e.tile (s.loaded g e)) s

/-- Then the work of the LOAD is done, with its image kept for its completion. -/
theorem exec_loadStart_eq (h : s.canStart f 0x40001 (fun x => (imgTiles x.blob).map (fun e => e.tile)) = some x) :
    exec (.loadStart f) s = .next ((((s.allLoaded x.blob).startSlice f (s.allLoaded x.blob).tick.count []).updFlight f
      (fun y => { y with blob := x.blob })).workDone f 0 (0xFFFF * 2 ^ 48 + imgBuild x.blob % 2 ^ 32)) := by
  show execLoadStart f s = _
  unfold execLoadStart
  rw [h]
  rfl

theorem State.allLoaded_unchanged (s : State) (g : Bytes) : unchangedBut [.tiles] s (s.allLoaded g) :=
  State.updTiles_unchanged ..

/-- The table of a tile is that of its one entry. -/
theorem State.table_allLoaded {g : Bytes} {e : TileEntry} (he : e ∈ imgTiles g)
    (hone : ∀ e', e' ∈ imgTiles g → e'.tile = e.tile → e' = e) : ((s.allLoaded g).tile e.tile).table = e.slots :=
  State.tile_updTiles_mem (key := TileEntry.tile) (Q := fun y => y.table = e.slots) he
    (fun _ d _ hd hk => congrArg TileEntry.slots (hone d hd hk)) s

theorem State.tile_allLoaded_other {g : Bytes} {m : Nat} (h : ∀ e, e ∈ imgTiles g → e.tile ≠ m) : (s.allLoaded g).tile m = s.tile m :=
  State.tile_updTiles_other h s

/-- Work that is done leaves the flight its bytes and each strand its state. -/
theorem State.flight_workDone (st dt : Nat) (h : s.flight f = some x) : ∃ y, (s.workDone f st dt).flight f = some y ∧ y.worked = true ∧
    y.blob = x.blob ∧ ∀ j, (y.strand j).state = (x.strand j).state := by
  refine ⟨_, (State.flight_updFlight _ _ _ ?_).trans (congrArg _ h), rfl, rfl, fun j => ?_⟩
  · exact fun _ => rfl
  · simp only [Flight.strand, List.getD_eq_getElem?_getD, List.getElem?_map]
    cases x.strands[j]? <;> rfl

/-- A LOAD that starts has done its work: its tiles have their tables, and its slice runs (R193, steps 2 and 3). -/
theorem exec_loadStart_loads (h : s.canStart f 0x40001 (fun x => (imgTiles x.blob).map (fun e => e.tile)) = some x) (hne : x.strands ≠ []) :
    completesWith (exec (.loadStart f) s) fun t =>
      (∀ m, t.tile m = (s.allLoaded x.blob).tile m) ∧
      (∃ y, t.flight f = some y ∧ y.worked = true ∧ y.blob = x.blob ∧ (y.strand 0).state = .running s.tick.count) ∧
      unchangedBut [.work, .tiles] s t := by
  obtain ⟨hx, -⟩ := State.canStart_some h
  have hall := s.allLoaded_unchanged x.blob
  have htick : (s.allLoaded x.blob).tick = s.tick := hall.1 .tick (by simp)
  obtain ⟨z, hz, hrun⟩ := State.startSlice_runs (n := (s.allLoaded x.blob).tick.count) (beads := [])
    ((State.flight_of_work (hall.1 .work (by simp)) f).trans hx) hne
  have hblob := (State.flight_updFlight _ f (fun y => { y with blob := x.blob }) (fun _ => rfl)).trans (congrArg _ hz)
  obtain ⟨y, hy, hworked, hkept, hstrand⟩ := State.flight_workDone 0 (0xFFFF * 2 ^ 48 + imgBuild x.blob % 2 ^ 32) hblob
  have hlast := ((State.startSlice_unchanged (s.allLoaded x.blob) f (s.allLoaded x.blob).tick.count []).trans
    (State.updFlight_unchanged _ f (fun y => { y with blob := x.blob }))).trans
    (State.workDone_unchanged _ f 0 (0xFFFF * 2 ^ 48 + imgBuild x.blob % 2 ^ 32))
  refine ⟨_, exec_loadStart_eq h, fun m => State.tile_of_tiles (hlast.1 .tiles (by simp)) m,
    ⟨y, hy, hworked, hkept, ?_⟩, (hall.mono (by simp)).trans (hlast.mono (by simp))⟩
  rw [hstrand, ← htick]
  exact hrun

end

/-- Settles O43: the first failing check ends the LOAD; a good image is staged, and its start writes the tables tile by tile. -/
theorem loadsCheckAndWriteTables : Obligations.LoadsCheckAndWriteTables := by
  refine ⟨?refused, ?staged, ?header, ?start⟩
  case refused =>
    intro s f x s1 g r h hbusy hgo hx hg hcheck hr
    subst hg
    exact exec_load_refused h hbusy hgo hx hcheck hr
  case staged =>
    intro s f x s1 g h hbusy hgo hx hg hcheck hfits hfree
    subst hg
    exact exec_load_staged h hbusy hgo hx hcheck hfits hfree
  case header =>
    intro s p f len g o h
    simp only [State.loadCheck, h]
  case start =>
    intro s f x h hne
    obtain ⟨t, hexec, htiles, hflight, hsame⟩ := exec_loadStart_loads h hne
    exact ⟨t, hexec, fun e he hone => (congrArg Tile.table (htiles _)).trans (State.table_allLoaded he hone),
      fun m hm => (htiles m).trans (State.tile_allLoaded_other hm), hflight, hsame⟩

end Sys2Proof.Machine
end

section
/-! SUPPORT. RUN, UNLOAD, frames and offered records, and the statement O44 (R194, R195, R197, R199). -/

namespace Sys2Proof.Machine

section
variable {s s1 : State} {f p : Nat} {x : Flight}

/-! ### The end and the staging of a RUN (R194) -/

/-- Without a loaded schedule a RUN ends with status 0x06. -/
theorem exec_run_unloaded (h : s.staging f 0x40002 = some x) (hst : (s.sched x.part).state < 2) :
    exec (.run f) s = .next (s.endFlight f 6 0) := by
  show execRun f s = _
  simp only [execRun, h, hst, decide_true, Bool.true_or, if_true]

/-- A RUN of a schedule that is loaded and fits has nothing to stage, or stages its images. -/
theorem exec_run_loaded (h : s.staging f 0x40002 = some x) (hst : 2 ≤ (s.sched x.part).state)
    (hfits : s.stageFits x.part (s.needOf x) = true) : exec (.run f) s = .next (
      if uPLen x.desc = 0 then (s.unpin f).staged f [] else s.stage x (fun s bs => (s.movedFor x).staged f bs)) := by
  show execRun f s = _
  simp only [execRun, h, Nat.not_lt.2 hst, hfits, decide_false, Bool.not_true, Bool.or_self, Bool.false_eq_true, if_false]
  split <;> rfl

theorem State.staged_unchanged (s : State) (f : Nat) (bs : Bytes) : unchangedBut [.work] s (s.staged f bs) :=
  State.updFlight_unchanged ..

/-- The images of a RUN that have arrived are held with its flight. -/
theorem exec_run_stages (h : s.staging f 0x40002 = some x) (hst : 2 ≤ (s.sched x.part).state)
    (hfits : s.stageFits x.part (s.needOf x) = true) (hlen : uPLen x.desc ≠ 0) (hbusy : s.stageBusy x = false)
    (hgo : s.fetch x 0 (s.imageOpnds x.part x.desc) [] [] [] = .go s1) (hx : s1.flight f = some x) :
    completesWith (exec (.run f) s) fun t =>
      (∃ y, t.flight f = some y ∧ y.staged = true ∧ y.desc = x.desc ∧ y.state = x.state ∧ y.blob = s.imageBytes x) ∧
      t.tiles = s1.tiles ∧ t.casket.bytes = s1.casket.bytes ∧ t.mem = s1.mem := by
  have hexec := exec_run_loaded h hst hfits
  rw [if_neg hlen, State.stage_go _ hbusy hgo, State.flight_id hx] at hexec
  have hmoved : ((s1.unpin f).movedFor x).flight f = (s1.unpin f).flight f := rfl
  exact ⟨_, hexec, ⟨_, State.flight_staged _ (hmoved.trans (State.flight_unpin hx)), rfl, rfl, rfl, rfl⟩, rfl, rfl, rfl⟩

/-! ### The start of a RUN (R194) -/

/-- The program tiles of a schedule, each with its index among them and its program. -/
def Sched.programEntries (c : Sched) : List (Nat × Nat × Nat) :=
  (c.tiles.filter (fun e => e.2 != 0xFFFF)).mapIdx (fun i e => (i, e))

theorem Sched.mem_programTiles {c : Sched} {n : Nat} : n ∈ c.programTiles ↔ ∃ e, e ∈ c.programEntries ∧ e.2.1 = n := by
  have hsnd : c.programEntries.map Prod.snd = c.tiles.filter (fun e => e.2 != 0xFFFF) := by
    refine List.ext_getElem? fun i => ?_
    cases h : (c.tiles.filter (fun e => e.2 != 0xFFFF))[i]? <;> simp [Sched.programEntries, h]
  rw [Sched.programTiles, ← hsnd]
  simp

/-- The number of the bead of tile `t` in its launch (R4). -/
def State.runBead (s : State) (t : Nat) : Nat := (s.beadOfTile t).getD 0xFFFF

/-- What a RUN in state `s` makes of a program tile of schedule `c` when it comes to it in state `u`. -/
def State.startedIn (s u : State) (f : Nat) (x : Flight) (e : Nat × Nat × Nat) (y : Tile) : Tile :=
  (y.loadDmem (bit (uFlags x.desc) 0) [(uPDmem x.desc, slice x.blob (e.1 * uPLen x.desc) (uPLen x.desc))]).start f u.tick.count x.part
    (u.afterLoad e.2.1 (64 + ceilDiv (uPLen x.desc) 16)) true
    ((((s.sched x.part).programs.find? (fun q => q.1 == e.2.2)).map (fun q => q.2)).getD 0) (s.runBead e.2.1) (uArg x.desc) e.1

/-- The programs of a RUN start one after another. -/
def State.allStarted (s : State) (f : Nat) (x : Flight) : State :=
  (s.sched x.part).programEntries.foldl (fun u e => u.updTile e.2.1 (s.startedIn u f x e)) s

theorem State.allStarted_unchanged (s : State) (f : Nat) (x : Flight) : unchangedBut [.tiles] s (s.allStarted f x) :=
  State.updTiles_unchanged (key := fun e : Nat × Nat × Nat => e.2.1) ..

/-- Each program tile runs the RUN's program from its first cycle. -/
theorem State.tile_allStarted {n : Nat} (h : n ∈ (s.sched x.part).programTiles) :
    ((s.allStarted f x).tile n).state = 2 ∧ ((s.allStarted f x).tile n).prog = some f ∧ ((s.allStarted f x).tile n).inRun = true ∧
      ((s.allStarted f x).tile n).cycle = 0 ∧ ((s.allStarted f x).tile n).reg 2 = 0x20000 := by
  obtain ⟨e, he, rfl⟩ := Sched.mem_programTiles.1 h
  exact State.tile_updTiles_mem (key := fun e : Nat × Nat × Nat => e.2.1) he
    (Q := fun y => y.state = 2 ∧ y.prog = some f ∧ y.inRun = true ∧ y.cycle = 0 ∧ y.reg 2 = 0x20000)
    (fun _ _ _ _ _ => ⟨rfl, rfl, rfl, rfl, (Tile.start_reg 2).trans rfl⟩) s

theorem State.tile_allStarted_other {m : Nat} (h : m ∉ (s.sched x.part).programTiles) : (s.allStarted f x).tile m = s.tile m :=
  State.tile_updTiles_other (key := fun e : Nat × Nat × Nat => e.2.1) (fun e he hk => h (Sched.mem_programTiles.2 ⟨e, he, hk⟩)) s

/-- The run of flight `x` as it begins in a Run phase of tick `n`, with the clocks of the halves at `west` and `east` (R194, R195). -/
def Sched.beginRun (c : Sched) (f n west east : Nat) (x : Flight) : RunState :=
  let half := (c.tiles.headD (0, 0)).1 % 72 / 36
  { flight := f, startTick := n, ticks := uTicks x.desc, frameTick := n, half := half
    phases := [(n, if half = 0 then west else east)]
    barriers := c.barriers.map (fun b => { index := b.1, members := b.2 }) }

/-- The schedule of partition `p` runs. -/
def State.enterRun (s : State) (p : Nat) (r : RunState) : State := s.updSched p (fun c => { c with state := 3, run := some r })

theorem State.enterRun_unchanged (s : State) (p : Nat) (r : RunState) : unchangedBut [.mesh] s (s.enterRun p r) :=
  unchangedBut_withMesh s _

/-- The programs of a RUN have started, and its run with them. -/
def State.runStarted (s : State) (f : Nat) (x : Flight) : State :=
  let u := s.allStarted f x
  u.enterRun x.part ((s.sched x.part).beginRun f u.tick.count u.mesh.runWest u.mesh.runEast x)

/-- A RUN of a loaded schedule starts its programs, its run and its slice. -/
theorem exec_runStart_eq (h : s.canStart f 0x40002 (fun x => (s.sched x.part).tiles.map (fun e => e.1)) = some x)
    (hst : (s.sched x.part).state = 2) : exec (.runStart f) s =
      .next ((s.runStarted f x).startSlice f ((s.allStarted f x).tick.count + uTicks x.desc - 1)
        (((s.sched x.part).tiles.filter (fun e => e.2 != 0xFFFF)).map (fun e => (e.1, s.runBead e.1)))) := by
  show execRunStart f s = _
  unfold execRunStart
  simp only [h, hst, Nat.lt_irrefl, ne_eq, not_true_eq_false, if_false]
  rfl

@[simp] theorem State.sched_updSched (s : State) (p : Nat) (g : Sched → Sched) : (s.updSched p g).sched p = g (s.sched p) := by
  simp [State.sched, State.updSched]

/-- The schedules stand in the mesh state. -/
theorem State.sched_of_mesh {t : State} (h : t.mesh = s.mesh) (p : Nat) : t.sched p = s.sched p := by
  simp only [State.sched, h]

/-! ### Frames and offers (R195, R199) -/

/-- The first cycle of the next frame, where the first of the tick may begin at `first` (R195). -/
def RunState.nextStart (r : RunState) (first : Nat) : Nat := if r.framesDone = 0 then max r.lastEnd first else r.lastEnd

/-- A frame has begun, with the faults its routers will meet. -/
def RunState.enterFrame (r : RunState) (start : Nat) (e : List MeshFault) : RunState :=
  { r with inFrame := true, frameStart := start, slot := 0, hard := e }

/-- The frame that begins takes the records offered to its reductions (R199). -/
def State.takeOffers (s : State) (p : Nat) (c : Sched) (r : RunState) : State :=
  { s with mesh := { s.mesh with offers := s.mesh.offers.map (fun o =>
      if o.part == p && o.tick + 1 == r.frameTick && c.reductions.any (fun x => x.id == o.reduction && x.frame == r.framesDone)
      then { o with taken := true } else o) } }

/-- A run whose frame is due begins it: it is noted, its offers are taken, and the cores that wait for it go on. -/
theorem exec_frameStart_begins {e : List MeshFault} {r : RunState} {first : Nat} (hp : p < 16)
    (he : ∀ x, x ∈ e → x.tile < 4608 ∧ 1 ≤ x.kind ∧ x.kind ≤ 7) (hr : (s.sched p).run = some r) (hin : r.inFrame = false)
    (hdue : r.frameTick ≤ s.tick.count) (hlast : r.frameTick < r.startTick + r.ticks) (hfirst : r.firstCycle (s.sched p).offset = some first) :
    exec (.frameStart p e) s = .next ((((s.updRun p (fun r' => r'.enterFrame (r.nextStart first) e)).takeOffers p (s.sched p) r).wakeFrames p
      (r.nextStart first) r.framesDone).advance p) := by
  refine ((guarded_eq "FRAME_START" _ _).1 ?_).trans ?_
  · simpa [hp, and_assoc] using he
  · simp only [hr, hin, Nat.not_lt.2 hdue, Nat.not_le.2 hlast, hfirst, Bool.false_eq_true, or_self, if_false]
    rfl

/-- Cores that go on with a frame change no more than their tiles. -/
theorem State.wakeFrames_unchanged (s : State) (p start index : Nat) : unchangedBut [.tiles] s (s.wakeFrames p start index) := by
  refine unchangedBut.foldl _ (fun u e => ?_) s
  refine .ite ?_ (.refl _ u)
  split
  · exact u.updTile_unchanged ..
  · exact .refl _ u

theorem State.run_updRun (s : State) (p : Nat) (g : RunState → RunState) : ((s.updRun p g).sched p).run = (s.sched p).run.map g := by
  simp [State.updRun]

/-- Records offered to partition `p` that no frame can take any more in tick `n` (R199). -/
def Offer.stale (o : Offer) (p n : Nat) : Bool := o.part == p && decide (o.tick + 2 ≤ n)

theorem Offer.not_stale_iff (o : Offer) (p n : Nat) : (!o.stale p n) = true ↔ o.part ≠ p ∨ n < o.tick + 2 := by
  simp only [Offer.stale, Bool.not_eq_true', Bool.and_eq_false_iff, beq_eq_false_iff_ne, decide_eq_false_iff_not, Nat.not_le]

/-- Records that no frame took are reported. -/
def State.reportUntaken (s : State) (p : Nat) (o : Offer) : State :=
  if o.taken then s else s.post 0x2055 1 p o.engine (detail [(8, o.tag), (2, o.reduction)])

/-- The records offered to partition `p` that are stale by now are reported. -/
def State.reportStale (s : State) (p : Nat) : State :=
  (s.mesh.offers.filter (fun o => o.stale p s.tick.count)).foldl (fun s o => s.reportUntaken p o) s

theorem State.reportStale_unchanged (s : State) (p : Nat) : unchangedBut [.evt] s (s.reportStale p) :=
  unchangedBut.foldl _ (fun u _ => .ite (.refl _ u) (u.post_unchanged ..)) s

/-- The stale records are reported and dropped. -/
theorem exec_meshOfferDrop_eq (s : State) (hp : p < 16) : exec (.meshOfferDrop p) s =
    .next { s.reportStale p with
      mesh := { (s.reportStale p).mesh with
        offers := (s.reportStale p).mesh.offers.filter (fun o => !o.stale p (s.reportStale p).tick.count) } } :=
  (guarded_eq "MESH_OFFER_DROP" _ _).1 (by simpa using hp)

end

/-- Settles O44: each command is one of the shared operations on the flight, the tiles, the run or the offers. -/
theorem runsStartAndEnd : Obligations.RunsStartAndEnd := by
  refine ⟨?unloaded, ?nothing, ?stages, ?start, ?unload, ?frame, ?drop⟩
  case unloaded =>
    intro s f x h hst
    obtain ⟨hx, hkey, -⟩ := State.staging_some h
    rw [exec_run_unloaded h hst, ← State.detailOf_run hkey]
    exact ⟨_, rfl, State.endFlight_ended hx (Flight.onEngines_mesh (k := 2) hkey (by decide)) 6 0⟩
  case nothing =>
    intro s f x h hst hfits hlen
    obtain ⟨hx, -⟩ := State.staging_some h
    rw [exec_run_loaded h hst hfits, if_pos hlen]
    exact ⟨_, rfl, State.flight_staged [] (State.flight_unpin hx),
      (s.unpin_unchanged f).trans ((State.staged_unchanged _ f []).mono (by simp))⟩
  case stages => exact fun s f x s1 h hst hfits hlen hbusy hgo hx => exec_run_stages h hst hfits hlen hbusy hgo hx
  case start =>
    intro s f x h hne hst
    obtain ⟨hx, -⟩ := State.canStart_some h
    have hexec := exec_runStart_eq h hst
    have hall := s.allStarted_unchanged f x
    have henter : unchangedBut [.mesh] (s.allStarted f x) (s.runStarted f x) := State.enterRun_unchanged ..
    have hstarted : unchangedBut [.tiles, .mesh] s (s.runStarted f x) := (hall.mono (by simp)).trans (henter.mono (by simp))
    have hslice := (s.runStarted f x).startSlice_unchanged f ((s.allStarted f x).tick.count + uTicks x.desc - 1)
      (((s.sched x.part).tiles.filter (fun e => e.2 != 0xFFFF)).map (fun e => (e.1, s.runBead e.1)))
    have hrun := State.startSlice_runs (n := (s.allStarted f x).tick.count + uTicks x.desc - 1)
      (beads := ((s.sched x.part).tiles.filter (fun e => e.2 != 0xFFFF)).map (fun e => (e.1, s.runBead e.1)))
      ((State.flight_of_work (hstarted.1 .work (by simp)) f).trans hx) hne
    have htick : (s.allStarted f x).tick = s.tick := hall.1 .tick (by simp)
    have htiles := State.tile_of_tiles (Eq.trans (hslice.1 .tiles (by simp)) (henter.1 .tiles (by simp)))
    have hsched := (State.sched_of_mesh (hslice.1 .mesh (by simp)) x.part).trans (State.sched_updSched ..)
    rw [htick] at hexec htiles hsched hslice hrun
    refine ⟨_, hexec, ?state, ?run, ?programs, ?others, hrun, (hstarted.mono (by simp)).trans (hslice.mono (by simp))⟩
    case state => rw [hsched]
    case run =>
      rw [hsched]
      exact ⟨_, rfl, rfl, rfl, rfl, rfl, rfl, rfl⟩
    case programs =>
      intro n hn
      rw [htiles]
      exact State.tile_allStarted hn
    case others => exact fun m hm => (htiles m).trans (State.tile_allStarted_other hm)
  case unload =>
    intro s f x h
    obtain ⟨hx, hkey, -⟩ := State.controlReady_some h
    have hexec : exec (.unload f) s = .next _ := show execUnload f s = _ by simp only [execUnload, h]; rfl
    have hend := State.endFlight_ended hx (Flight.onEngines_mesh (k := 3) hkey (by decide))
      (if s.work.flights.any (fun y => y.part == x.part && dKey y.desc == 0x40002 && !y.failed) then 6 else 0) 0
    rw [State.detailOf_unload hkey] at hend
    exact ⟨_, hexec, hend⟩
  case frame =>
    intro s p e r first hp he hr hin hdue hlast hfirst
    refine ⟨_, exec_frameStart_begins hp he hr hin hdue hlast hfirst, ?_, ?_⟩
    · rw [State.sched_of_mesh ((State.wakeFrames_unchanged ..).1 .mesh (by simp))]
      exact (s.run_updRun p _).trans (congrArg _ hr)
    · exact ((s.updRun_unchanged p _).mono (by simp)).trans (((unchangedBut_withMesh _ _).mono (by simp)).trans
        ((State.wakeFrames_unchanged ..).mono (by simp)))
  case drop =>
    intro s p hp
    have hreport := s.reportStale_unchanged p
    have hmesh : (s.reportStale p).mesh = s.mesh := hreport.1 .mesh (by simp)
    have htick : (s.reportStale p).tick = s.tick := hreport.1 .tick (by simp)
    refine ⟨_, exec_meshOfferDrop_eq s hp, fun _ => ?_, ?scheds,
      (hreport.mono (by simp)).trans ((unchangedBut_withMesh _ _).mono (by simp))⟩
    · simp only [List.mem_filter, Offer.not_stale_iff, hmesh, htick]
    case scheds => exact (congrArg Mesh.scheds hmesh : (s.reportStale p).mesh.scheds = s.mesh.scheds)

end Sys2Proof.Machine
end

section
/-! SUPPORT. Uncorrectable data that starts a partition reset or joins one: what it makes of the resets, the tile and the Casket (R156,
R209, R275, R276). -/

namespace Sys2Proof.Machine

section
variable {s : State} {p t memory addr : Nat}

/-! ### The resets (R275, R276, step 1) -/

theorem State.spoilResults_unchanged (s : State) (p : Nat) : unchangedBut [.host, .sites] s (s.spoilResults p) :=
  ⟨fun c hc => by cases c with | host => simp at hc | sites => simp at hc | _ => rfl, rfl⟩

theorem State.startReset_unchanged (s : State) (p cause unit : Nat) : unchangedBut [.care, .host, .sites] s (s.startReset p cause unit) := by
  unfold State.startReset
  refine .ite (.refl ..) ?_
  exact (unchangedBut.ite ((s.spoilResults_unchanged p).mono (by simp)) (.refl ..)).trans ((unchangedBut_withCare _ _).mono (by simp))

/-- Consumed data starts the reset of its partition where none runs. -/
theorem State.startReset_starts (unit : Nat) (hp : p < 16) (h : SMap.get none s.care.resets p = none) :
    (s.startReset p 1 unit).care.resets = SMap.set none s.care.resets p (some ⟨1, unit, 0, s.tick.count, false⟩) := by
  have hspoil : SMap.get none (s.spoilResults p).care.resets p = none := h
  simp only [State.startReset, Nat.not_le.2 hp, if_false, if_true, hspoil]
  rfl

/-- Consumed data joins the reset that runs. -/
theorem State.startReset_joins {r : PartReset} (unit : Nat) (hp : p < 16) (h : SMap.get none s.care.resets p = some r) :
    (s.startReset p 1 unit).care.resets = SMap.set none s.care.resets p (some { r with joined := satAdd max32 r.joined 1 }) := by
  have hspoil : SMap.get none (s.spoilResults p).care.resets p = some r := h
  simp only [State.startReset, Nat.not_le.2 hp, if_false, if_true, hspoil]
  rfl

/-! ### An uncorrectable word of a tile (R156) -/

/-- A tile that has taken an uncorrectable word: counted, its core stopped. -/
def Tile.faulted (x : Tile) (memory addr : Nat) : Tile :=
  { x with
    uncorrectable := satAdd 0xFFFF x.uncorrectable 1, memErrors := x.memErrors + 1, state := 0, stall := .none
    failing := if memory < 3 then x.failing ++ [(memory, addr)] else x.failing }

/-- The fault is noted at the tile, posted, and charged to its partition. -/
def State.noteFault (s : State) (p t memory addr dt : Nat) : State :=
  ((s.updTile t (fun x => x.faulted memory addr)).post 0x2041 2 p t dt).startReset p 1 t

/-- A second fault of the tile fences its core. -/
theorem State.beadFault_eq (s : State) (p t memory addr : Nat) : ∃ dt, s.beadFault p t memory addr =
    if 1 ≤ (s.tile t).memErrors then (s.noteFault p t memory addr dt).fenceCore t 2 else s.noteFault p t memory addr dt :=
  ⟨_, rfl⟩

theorem State.noteFault_tiles (s : State) (p t memory addr dt : Nat) :
    (s.noteFault p t memory addr dt).tiles = (s.updTile t (fun x => x.faulted memory addr)).tiles :=
  (State.startReset_unchanged _ p 1 t).1 .tiles (by simp)

theorem State.noteFault_unchanged (s : State) (p t memory addr dt : Nat) :
    unchangedBut [.tiles, .evt, .care, .host, .sites] s (s.noteFault p t memory addr dt) :=
  (((s.updTile_unchanged t _).mono (by simp)).trans ((State.post_unchanged _ 0x2041 2 p t dt).mono (by simp))).trans
    ((State.startReset_unchanged _ p 1 t).mono (by simp))

theorem State.noteFault_starts (memory addr dt : Nat) (hp : p < 16) (h : SMap.get none s.care.resets p = none) :
    (s.noteFault p t memory addr dt).care.resets = SMap.set none s.care.resets p (some ⟨1, t, 0, s.tick.count, false⟩) :=
  State.startReset_starts (s := (s.updTile t (fun x => x.faulted memory addr)).post 0x2041 2 p t dt) t hp h

/-! ### Fenced cores (R156) -/

theorem State.fenceCore_unchanged (s : State) (t cause : Nat) : unchangedBut [.tiles, .evt] s (s.fenceCore t cause) := by
  unfold State.fenceCore
  exact .ite (.refl ..) (((s.updTile_unchanged t _).mono (by simp)).trans ((State.post_unchanged ..).mono (by simp)))

theorem State.tile_fenceCore (s : State) (t cause : Nat) : (s.fenceCore t cause).tile t = { s.tile t with coreFenced := true } := by
  unfold State.fenceCore
  split
  case isTrue h => rw [← h]
  case isFalse => exact State.tile_updTile_same s t (fun x => { x with coreFenced := true })

theorem State.tile_fenceCore_other (s : State) {t m : Nat} (cause : Nat) (h : m ≠ t) : (s.fenceCore t cause).tile m = s.tile m := by
  unfold State.fenceCore
  split
  · rfl
  · exact State.tile_updTile_other s (fun x => { x with coreFenced := true }) h

/-! ### What the two consumers do (R209, R275) -/

/-- A poisoned mesh word stops its core and starts the reset of the program's partition. -/
theorem exec_meshWord_starts {c : Nat} (ht : t < 4608) (hc : c < 4) (hst : 2 ≤ (s.tile t).state) (hpart : (s.tile t).progPart = p) (hp : p < 16)
    (hnone : SMap.get none s.care.resets p = none) :
    completesWith (exec (.uncorrectableConsumed (.meshWord t c)) s) fun u =>
      u.care.resets = SMap.set none s.care.resets p (some ⟨1, t, 0, s.tick.count, false⟩) ∧
      (u.tile t).state = 0 ∧ (u.tile t).uncorrectable = satAdd 0xFFFF (s.tile t).uncorrectable 1 ∧
      (1 ≤ (s.tile t).memErrors → (u.tile t).coreFenced = true) ∧ (∀ m, m ≠ t → u.tile m = s.tile m) ∧
      unchangedBut [.tiles, .evt, .care, .host, .sites] s u := by
  have hexec : exec (.uncorrectableConsumed (.meshWord t c)) s = .next (s.beadFault p t 1 (0x20100 + 0x40 * c)) := by
    refine ((guarded_eq "UNCORRECTABLE_CONSUMED" _ _).1 (by simp [ht, hc])).trans ?_
    rw [if_pos hst, hpart]
  obtain ⟨dt, hfault⟩ := s.beadFault_eq p t 1 (0x20100 + 0x40 * c)
  have hstarts := State.noteFault_starts (t := t) 1 (0x20100 + 0x40 * c) dt hp hnone
  have hsame := s.noteFault_unchanged p t 1 (0x20100 + 0x40 * c) dt
  have htiles := s.noteFault_tiles p t 1 (0x20100 + 0x40 * c) dt
  have htile := (State.tile_of_tiles htiles t).trans (State.tile_updTile_same ..)
  have hother : ∀ m, m ≠ t → (s.noteFault p t 1 (0x20100 + 0x40 * c) dt).tile m = s.tile m := fun m hm =>
    (State.tile_of_tiles htiles m).trans (State.tile_updTile_other _ _ hm)
  refine ⟨_, hexec, ?_⟩
  rw [hfault]
  split
  case isTrue =>
    have hfence := (s.noteFault p t 1 (0x20100 + 0x40 * c) dt).fenceCore_unchanged t 2
    rw [State.tile_fenceCore, htile]
    exact ⟨(congrArg Care.resets (hfence.1 .care (by simp))).trans hstarts, rfl, rfl, fun _ => rfl,
      fun m hm => (State.tile_fenceCore_other _ 2 hm).trans (hother m hm), hsame.trans (hfence.mono (by simp))⟩
  case isFalse h =>
    rw [htile]
    exact ⟨hstarts, rfl, rfl, fun hm => absurd hm h, hother, hsame⟩

/-- An uncorrectable Casket line that a unit reads joins the reset of the partition. -/
theorem exec_casketConsumed_joins {reader : Nat} {r : PartReset} (hp : p < 16) (ha : addr < casketSize) (h1 : 1 ≤ reader) (h3 : reader ≤ 3)
    (hr : SMap.get none s.care.resets p = some r) :
    completesWith (exec (.uncorrectableConsumed (.casket p addr reader)) s) fun u =>
      u.care.resets = SMap.set none s.care.resets p (some { r with joined := satAdd max32 r.joined 1 }) ∧
      u.casket.bytes = s.casket.bytes ∧ unchangedBut [.care, .casket, .evt, .host, .sites] s u := by
  have hexec : exec (.uncorrectableConsumed (.casket p addr reader)) s =
      .next (((s.spoilCasket addr).casketBadRead addr reader p).startReset p 1 (0x4000 + addr / 0x80000)) := by
    refine ((guarded_eq "UNCORRECTABLE_CONSUMED" _ _).1 (by simp [hp, ha])).trans ?_
    rw [if_pos ⟨h1, h3⟩]
  have hread : unchangedBut [.casket, .evt] s ((s.spoilCasket addr).casketBadRead addr reader p) :=
    (((unchangedBut_withCasket s _).trans (unchangedBut_withCasket _ _)).mono (by simp)).trans ((State.post_unchanged ..).mono (by simp))
  have hreset := ((s.spoilCasket addr).casketBadRead addr reader p).startReset_unchanged p 1 (0x4000 + addr / 0x80000)
  exact ⟨_, hexec, State.startReset_joins (s := (s.spoilCasket addr).casketBadRead addr reader p) _ hp hr,
    (congrArg Casket.bytes (State.startReset_casket ..)).trans rfl, (hread.mono (by simp)).trans (hreset.mono (by simp))⟩

end

end Sys2Proof.Machine
end

section
/-! SUPPORT. What a partition reset zeroes: the Casket segments and the tiles of the partition (R156, R213, R276). -/

namespace Sys2Proof.Machine

/-! ### Entries of a sparse family -/

/-- A member that is not the default value is listed. -/
theorem SMap.mem_of_get_ne {α : Type} {d : α} {m : SMap α} {n : Nat} (h : SMap.get d m n ≠ d) : (n, SMap.get d m n) ∈ m := by
  induction m with
  | nil => exact absurd rfl h
  | cons e m ih =>
    obtain ⟨k, v⟩ := e
    by_cases hn : n = k
    · subst hn
      simp [SMap.get]
    · simp only [SMap.get, if_neg hn] at h ⊢
      exact .tail _ (ih h)

/-- Every entry after a change of one member is an old one or that member's. -/
theorem SMap.mem_upd {α : Type} [DecidableEq α] {d : α} {m : SMap α} {n : Nat} {f : α → α} {e : Nat × α} (h : e ∈ SMap.upd d m n f) :
    e ∈ m ∨ e.1 = n := by
  unfold SMap.upd SMap.set at h
  split at h
  · exact .inl (List.mem_filter.1 h).1
  · exact (SMap.mem_put m n _ e h).imp_right (congrArg Prod.fst)

section
variable {s u : State} {p n t : Nat} {again : List Nat}

/-! ### The slots and the Casket (R85, R213) -/

theorem State.resetSlots_unchanged (s : State) (p : Nat) : unchangedBut [.sail, .evt] s (s.resetSlots p) := by
  have hslot (u : State) (i : Nat) (f : Slot → Slot) : unchangedBut [.sail, .evt] u (u.updSlot i f) := (unchangedBut_withSail u _).mono (by simp)
  refine unchangedBut.foldl _ (fun u e => .ite (.refl _ u) ?_) s
  exact .ite (hslot u _ _) ((hslot u _ _).trans ((State.post_unchanged ..).mono (by simp)))

/-- Segment `g` of a slice is zeroed if it is of partition `p`. -/
def State.resetSegment (s : State) (p : Nat) (e : Nat × CasketOwn) (g : Nat) : State :=
  match segOwner e.2.current g with
  | some o => if o.1 = p then s.zeroCasket (e.1 * 0x80000 + g * 0x10000) 0x10000 else s
  | none => s

theorem State.resetCasket_eq (s : State) (p : Nat) : s.resetCasket p =
    s.casket.own.foldl (fun u e => (List.range 8).foldl (fun u g => u.resetSegment p e g) u) s := rfl

theorem State.resetSegment_unchanged (s : State) (p : Nat) (e : Nat × CasketOwn) (g : Nat) :
    unchangedBut [.casket] s (s.resetSegment p e g) := by
  unfold State.resetSegment
  split
  · exact .ite (unchangedBut_withCasket s _) (.refl ..)
  · exact .refl ..

theorem State.resetCasket_unchanged (s : State) (p : Nat) : unchangedBut [.casket] s (s.resetCasket p) :=
  unchangedBut.foldl _ (fun u e => unchangedBut.foldl _ (fun v g => v.resetSegment_unchanged p e g) u) s

/-- A byte of the segment is zero. -/
theorem State.resetSegment_zero {e : Nat × CasketOwn} {g i : Nat} {st : Bool} (s : State) (h : segOwner e.2.current g = some (p, st))
    (hi : i < 0x10000) : SMap.get 0 (s.resetSegment p e g).casket.bytes (e.1 * 0x80000 + g * 0x10000 + i) = 0 := by
  simp [State.resetSegment, h, State.zeroCasket, SMap.get_clear, hi]

/-- A zero byte of the Casket stays zero. -/
theorem State.resetSegment_keeps_zero {k : Nat} (e : Nat × CasketOwn) (g : Nat) (h : SMap.get 0 s.casket.bytes k = 0) :
    SMap.get 0 (s.resetSegment p e g).casket.bytes k = 0 := by
  unfold State.resetSegment
  split
  · split
    · exact (SMap.get_clear 0 s.casket.bytes _ _ k).trans (by rw [h, ite_self])
    · exact h
  · exact h

/-- A slice of which a segment is owned is listed. -/
theorem State.casketOwn_mem {sl g : Nat} {o : Nat × Bool} (h : segOwner (s.casketOwn sl).current g = some o) :
    (sl, s.casketOwn sl) ∈ s.casket.own := by
  refine SMap.mem_of_get_ne fun hempty => ?_
  have hnone : segOwner (s.casketOwn sl).current g = none := by simp [State.casketOwn, hempty, segOwner, bit]
  rw [hnone] at h
  cases h

/-- The segments of the partition are zero (R213). -/
theorem State.resetCasket_zero {sl g i : Nat} {st : Bool} (hg : g < 8) (ho : segOwner (s.casketOwn sl).current g = some (p, st))
    (hi : i < 0x10000) : SMap.get 0 (s.resetCasket p).casket.bytes (sl * 0x80000 + g * 0x10000 + i) = 0 := by
  rw [State.resetCasket_eq]
  refine foldl_reaches (I := fun _ => True) (P := fun u : State => SMap.get 0 u.casket.bytes (sl * 0x80000 + g * 0x10000 + i) = 0)
    (State.casketOwn_mem ho) trivial (fun _ _ _ _ => trivial) (fun u _ => ?_) fun u e _ hu => ?_
  · exact foldl_reaches (I := fun _ => True) (P := fun u : State => SMap.get 0 u.casket.bytes (sl * 0x80000 + g * 0x10000 + i) = 0)
      (List.mem_range.2 hg) trivial (fun _ _ _ _ => trivial) (fun v _ => v.resetSegment_zero ho hi)
      fun v g _ hv => State.resetSegment_keeps_zero _ g hv
  · exact List.foldlRecOn (motive := fun u : State => SMap.get 0 u.casket.bytes (sl * 0x80000 + g * 0x10000 + i) = 0) _ _ hu
      fun v hv g _ => State.resetSegment_keeps_zero e g hv

/-! ### The tiles that are cleared (R276, step 3) -/

/-- The tiles listed as the partition's. -/
def State.partTiles (s : State) (p : Nat) : List Nat := (s.tiles.filter (fun e => e.2.partition == some p)).map (fun e => e.1)

theorem State.mem_partTiles : n ∈ s.partTiles p ↔ ∃ e, e ∈ s.tiles ∧ e.2.partition = some p ∧ e.1 = n := by
  simp only [State.partTiles, List.mem_map, List.mem_filter, beq_iff_eq, and_assoc]

/-- A tile that is not as at reset is listed. -/
theorem State.tile_mem (h : s.tile n ≠ {}) : (n, s.tile n) ∈ s.tiles := SMap.mem_of_get_ne h

theorem State.tile_ne_of_partition (h : (s.tile n).partition = some p) : s.tile n ≠ {} := by
  intro he
  rw [he] at h
  cases h

theorem State.mem_partTiles_of_partition (h : (s.tile n).partition = some p) : n ∈ s.partTiles p :=
  State.mem_partTiles.2 ⟨_, State.tile_mem (State.tile_ne_of_partition h), h, rfl⟩

/-- The partition's tiles are cleared. -/
def State.clearTiles (s : State) (p : Nat) : State := (s.partTiles p).foldl (fun s t => s.updTile t Tile.cleared) s

theorem State.clearTiles_unchanged (s : State) (p : Nat) : unchangedBut [.tiles] s (s.clearTiles p) :=
  State.updTiles_unchanged (key := id) ..

theorem Tile.cleared_cleared (x : Tile) : x.cleared.cleared = x.cleared := by
  simp [Tile.cleared, List.filter_filter]

/-- However often it is listed, a tile of the partition is cleared once and for all. -/
theorem State.tile_clearTiles (h : n ∈ s.partTiles p) : (s.clearTiles p).tile n = (s.tile n).cleared := by
  have hupd (u : State) (hu : u.tile n = s.tile n ∨ u.tile n = (s.tile n).cleared) :
      (u.updTile n Tile.cleared).tile n = (s.tile n).cleared := by
    rw [State.tile_updTile_same]
    rcases hu with hu | hu <;> rw [hu]
    exact Tile.cleared_cleared _
  have hstep (u : State) (t : Nat) (hu : u.tile n = s.tile n ∨ u.tile n = (s.tile n).cleared) :
      (u.updTile t Tile.cleared).tile n = (s.tile n).cleared ∨ (u.updTile t Tile.cleared).tile n = u.tile n := by
    by_cases ht : n = t
    · subst ht
      exact .inl (hupd u hu)
    · exact .inr (State.tile_updTile_other u _ ht)
  refine foldl_reaches (I := fun u : State => u.tile n = s.tile n ∨ u.tile n = (s.tile n).cleared)
    (P := fun u : State => u.tile n = (s.tile n).cleared) h (.inl rfl) (fun u t _ hu => ?_) hupd fun u t _ hu => ?_
  · rcases hstep u t hu with ht | ht
    · exact .inr ht
    · rwa [ht]
  · rcases hstep u t (.inr hu) with ht | ht
    · exact ht
    · exact ht.trans hu

theorem State.tile_clearTiles_other (h : n ∉ s.partTiles p) : (s.clearTiles p).tile n = s.tile n :=
  State.tile_updTiles_other (key := id) (fun t ht (hn : t = n) => h (hn ▸ ht)) s

/-- What is listed of another tile was listed before. -/
theorem State.mem_clearTiles_other (h : n ∉ s.partTiles p) {e : Nat × Tile} (he : e ∈ (s.clearTiles p).tiles) (hn : e.1 = n) :
    e ∈ s.tiles := by
  refine List.foldlRecOn (motive := fun u : State => e ∈ u.tiles → e ∈ s.tiles) _ _ id (fun u hu t ht he => ?_) he
  rcases SMap.mem_upd he with he | hk
  · exact hu he
  · exact absurd (hn ▸ hk ▸ ht) h

/-! ### The rewrite of what has failed (R156) -/

/-- A tile whose failed words are rewritten, in a state that gives it free bytes; one that fails again is fenced. -/
def State.rewriteTile (again : List Nat) (s : State) (t : Nat) : State :=
  let s := (s.updTile t (fun x => x.rewritten s.free)).useFree
  if again.contains t then s.fenceCore t 1 else s

/-- The tiles listed as the partition's with something failed. -/
def State.failingTiles (s : State) (p : Nat) : List Nat :=
  (s.tiles.filter (fun e => e.2.partition == some p && !e.2.failing.isEmpty)).map (fun e => e.1)

theorem State.rewriteTiles_eq (s : State) (p : Nat) (again : List Nat) :
    s.rewriteTiles p again = (s.failingTiles p).foldl (State.rewriteTile again) s := rfl

theorem State.mem_failingTiles : n ∈ s.failingTiles p ↔ ∃ e, e ∈ s.tiles ∧ e.2.partition = some p ∧ e.2.failing ≠ [] ∧ e.1 = n := by
  simp only [State.failingTiles, List.mem_map, List.mem_filter, Bool.and_eq_true, beq_iff_eq, Bool.not_eq_true', List.isEmpty_eq_false_iff,
    and_assoc]

theorem State.rewriteTile_unchanged (again : List Nat) (s : State) (t : Nat) :
    unchangedBut [.tiles, .evt, .free] s (s.rewriteTile again t) := by
  have hupd : unchangedBut [.tiles, .evt, .free] s (s.updTile t (fun x => x.rewritten s.free)).useFree :=
    ((s.updTile_unchanged t _).mono (by simp)).trans ((State.useFree_unchanged _).mono (by simp))
  exact .ite (hupd.trans ((State.fenceCore_unchanged ..).mono (by simp))) hupd

theorem State.rewriteTiles_unchanged (s : State) (p : Nat) (again : List Nat) :
    unchangedBut [.tiles, .evt, .free] s (s.rewriteTiles p again) :=
  unchangedBut.foldl _ (fun u t => u.rewriteTile_unchanged again t) s

theorem State.tile_rewriteTile_other (h : n ≠ t) : (s.rewriteTile again t).tile n = s.tile n := by
  have hupd : (s.updTile t (fun x => x.rewritten s.free)).useFree.tile n = s.tile n :=
    State.tile_updTile_other s (fun x => x.rewritten s.free) h
  unfold State.rewriteTile
  split
  · exact (State.tile_fenceCore_other _ 1 h).trans hupd
  · exact hupd

/-- The tile is rewritten, and fenced if its read-back fails. -/
theorem State.tile_rewriteTile_same (again : List Nat) (s : State) (t : Nat) : (s.rewriteTile again t).tile t =
    if again.contains t then { (s.tile t).rewritten s.free with coreFenced := true } else (s.tile t).rewritten s.free := by
  have hupd : (s.updTile t (fun x => x.rewritten s.free)).useFree.tile t = (s.tile t).rewritten s.free :=
    State.tile_updTile_same s t (fun x => x.rewritten s.free)
  unfold State.rewriteTile
  split
  · rw [State.tile_fenceCore, hupd]
  · exact hupd

/-- What rewriting and fencing keep, a row of rewrites keeps. -/
theorem State.tile_rewriteTiles_keeps {Q : Tile → Prop} (hw : ∀ y k, Q y → Q (y.rewritten k))
    (hf : n ∈ again → ∀ y, Q y → Q { y with coreFenced := true }) (h : Q (s.tile n)) : Q ((s.rewriteTiles p again).tile n) := by
  rw [State.rewriteTiles_eq]
  refine List.foldlRecOn (motive := fun u : State => Q (u.tile n)) _ _ h fun u hu t _ => ?_
  by_cases ht : n = t
  · subst ht
    rw [State.tile_rewriteTile_same]
    split
    case isTrue hmem => exact hf (by simpa using hmem) _ (hw _ _ hu)
    case isFalse => exact hw _ _ hu
  · rwa [State.tile_rewriteTile_other ht]

/-- Nothing of the partition's tiles stays noted as failed. -/
theorem State.failing_rewriteTiles (h : (s.tile n).partition = some p) : ((s.rewriteTiles p again).tile n).failing = [] := by
  by_cases hfail : (s.tile n).failing = []
  · exact State.tile_rewriteTiles_keeps (Q := fun y => y.failing = []) (fun _ _ _ => rfl) (fun _ _ hy => hy) hfail
  · have hmem : n ∈ s.failingTiles p :=
      State.mem_failingTiles.2 ⟨_, State.tile_mem (State.tile_ne_of_partition h), h, hfail, rfl⟩
    have hreach (u : State) : ((u.rewriteTile again n).tile n).failing = [] := by
      rw [State.tile_rewriteTile_same]
      split <;> rfl
    rw [State.rewriteTiles_eq]
    refine foldl_reaches (I := fun _ => True) (P := fun u : State => (u.tile n).failing = []) hmem trivial (fun _ _ _ _ => trivial)
      (fun u _ => hreach u) fun u t _ hu => ?_
    by_cases ht : n = t
    · exact ht ▸ hreach u
    · rwa [State.tile_rewriteTile_other ht]

/-- Where nothing has failed, a rewrite does nothing. -/
theorem Tile.rewritten_of_failing_nil {y : Tile} (k : Nat) (h : y.failing = []) : y.rewritten k = y := by
  simp only [Tile.rewritten, h, List.filter_nil, List.map_nil, List.foldl_nil]
  rw [← h]

/-- A tile that is not listed as failing stays. -/
theorem State.tile_rewriteTiles_other (h : n ∉ s.failingTiles p) : (s.rewriteTiles p again).tile n = s.tile n := by
  rw [State.rewriteTiles_eq]
  refine List.foldlRecOn (motive := fun u : State => u.tile n = s.tile n) _ _ rfl fun u hu t ht => ?_
  exact (State.tile_rewriteTile_other (fun hn : n = t => h (hn ▸ ht))).trans hu

end

end Sys2Proof.Machine
end

section
/-! SUPPORT. The reset of a partition with no work in flight, and the statement O22 (R156, R213, R276). -/

namespace Sys2Proof.Machine

section
variable {s : State} {p n : Nat} {again : List Nat}

theorem unchangedBut_withMeshThermDbg (s : State) (m : Mesh) (h : Therm) (d : Dbg) :
    unchangedBut [.mesh, .therm, .dbg] s { s with mesh := m, therm := h, dbg := d } :=
  ⟨fun c hc => by cases c with | mesh => simp at hc | therm => simp at hc | dbg => simp at hc | _ => rfl, rfl⟩

/-- With nothing in flight and no run, steps 2 and 3 reset the slots, zero the segments and clear the tiles; beside them they touch no more
than the offers, the hints and the debug claim (R276). -/
theorem State.resetStop_idle (hf : ∀ x, x ∈ s.work.flights → x.part ≠ p) (hrun : (s.sched p).run = none) :
    unchangedBut [.mesh, .therm, .dbg] (((s.resetSlots p).resetCasket p).clearTiles p) (s.resetStop p) := by
  have hmine : s.work.flights.filter (fun x => x.part == p && !x.failed) = [] :=
    List.filter_eq_nil_iff.2 fun x hx => by simp [hf x hx]
  simp only [State.resetStop, hmine, List.foldl_nil, State.closeRun, hrun]
  exact unchangedBut_withMeshThermDbg ..

/-- The reset stops, zeroes and rewrites, and is noted as stopped. -/
theorem exec_partitionReset_stops {r : PartReset} (again : List Nat) (hp : p < 16) (hr : SMap.get none s.care.resets p = some r)
    (hst : r.stopped = false) : ∃ t, exec (.partitionReset p again) s = .next t ∧
      SMap.get none t.care.resets p = some { r with stopped := true } ∧ unchangedBut [.care] ((s.resetStop p).rewriteTiles p again) t := by
  have hexec : exec (.partitionReset p again) s = .next _ := (guarded_eq "PARTITION_RESET" _ _).1 (by simpa using hp)
  simp only [hr, hst, Bool.false_eq_true, if_false] at hexec
  generalize (s.resetStop p).rewriteTiles p again = v at hexec ⊢
  refine ⟨_, hexec, ?_, unchangedBut_withCare v _⟩
  exact SMap.get_set_same none v.care.resets p (some { r with stopped := true })

/-- Beside the zeroing and the rewrites, the slots, the offers, the hints and the debug claim, events and free values change. -/
theorem State.resetStop_rewriteTiles_unchanged (again : List Nat) (hf : ∀ x, x ∈ s.work.flights → x.part ≠ p)
    (hrun : (s.sched p).run = none) :
    unchangedBut [.sail, .evt, .casket, .tiles, .mesh, .therm, .dbg, .free] s ((s.resetStop p).rewriteTiles p again) :=
  ((((s.resetSlots_unchanged p).mono (by simp)).trans ((State.resetCasket_unchanged _ p).mono (by simp))).trans
    (((State.clearTiles_unchanged _ p).mono (by simp)).trans ((State.resetStop_idle hf hrun).mono (by simp)))).trans
    ((State.rewriteTiles_unchanged _ p again).mono (by simp))

/-- The tiles that the reset clears are those of the partition as it found them. -/
theorem State.partTiles_of_tiles {t : State} (h : t.tiles = s.tiles) (p : Nat) : t.partTiles p = s.partTiles p := by
  simp only [State.partTiles, h]

theorem State.resetCasket_tiles (s : State) (p : Nat) : ((s.resetSlots p).resetCasket p).tiles = s.tiles :=
  Eq.trans ((State.resetCasket_unchanged _ p).1 .tiles (by simp)) ((s.resetSlots_unchanged p).1 .tiles (by simp))

theorem State.resetStop_tiles (hf : ∀ x, x ∈ s.work.flights → x.part ≠ p) (hrun : (s.sched p).run = none) :
    (s.resetStop p).tiles = (((s.resetSlots p).resetCasket p).clearTiles p).tiles :=
  (State.resetStop_idle hf hrun).1 .tiles (by simp)

/-- A tile of the partition after steps 2 and 3. -/
theorem State.tile_resetStop (hf : ∀ x, x ∈ s.work.flights → x.part ≠ p) (hrun : (s.sched p).run = none)
    (h : (s.tile n).partition = some p) : (s.resetStop p).tile n = (s.tile n).cleared := by
  have hsame := s.resetCasket_tiles p
  rw [State.tile_of_tiles (State.resetStop_tiles hf hrun), State.tile_clearTiles, State.tile_of_tiles hsame]
  exact State.partTiles_of_tiles hsame p ▸ State.mem_partTiles_of_partition h

/-- A tile that is not listed as the partition's stays in the whole reset. -/
theorem State.tile_reset_other (again : List Nat) (hf : ∀ x, x ∈ s.work.flights → x.part ≠ p) (hrun : (s.sched p).run = none)
    (h : n ∉ s.partTiles p) : ((s.resetStop p).rewriteTiles p again).tile n = s.tile n := by
  have hsame := s.resetCasket_tiles p
  have hlist : n ∉ ((s.resetSlots p).resetCasket p).partTiles p := State.partTiles_of_tiles hsame p ▸ h
  rw [State.tile_rewriteTiles_other, State.tile_of_tiles (State.resetStop_tiles hf hrun), State.tile_clearTiles_other hlist,
    State.tile_of_tiles hsame]
  intro hfail
  obtain ⟨e, he, hpart, -, hn⟩ := State.mem_failingTiles.1 hfail
  rw [State.resetStop_tiles hf hrun] at he
  exact hlist (State.mem_partTiles.2 ⟨e, State.mem_clearTiles_other hlist he hn, hpart, hn⟩)

/-- The segments of the partition are zero after the whole reset. -/
theorem State.casket_reset_zero {sl g i : Nat} {st : Bool} (again : List Nat) (hf : ∀ x, x ∈ s.work.flights → x.part ≠ p)
    (hrun : (s.sched p).run = none) (hg : g < 8) (ho : segOwner (s.casketOwn sl).current g = some (p, st)) (hi : i < 0x10000) :
    SMap.get 0 ((s.resetStop p).rewriteTiles p again).casket.bytes (sl * 0x80000 + g * 0x10000 + i) = 0 := by
  have hown : (s.resetSlots p).casket = s.casket := (s.resetSlots_unchanged p).1 .casket (by simp)
  have hsame : ((s.resetStop p).rewriteTiles p again).casket = ((s.resetSlots p).resetCasket p).casket :=
    ((State.clearTiles_unchanged _ p).mono (ds := [.tiles, .mesh, .therm, .dbg, .evt, .free]) (by simp)
      |>.trans ((State.resetStop_idle hf hrun).mono (by simp))
      |>.trans ((State.rewriteTiles_unchanged _ p again).mono (by simp))).1 .casket (by simp)
  rw [hsame]
  refine State.resetCasket_zero (st := st) hg ?_ hi
  rwa [State.casketOwn, hown]

/-- What a partition reset zeroes of a tile, whatever it rewrites of it. -/
def Tile.zeroed (y : Tile) : Prop := y.dmem = [] ∧ y.dmemBad = [] ∧ y.regs = [] ∧ y.vregs = [] ∧ y.state = 0 ∧ y.prog = none

theorem Tile.zeroed_cleared (x : Tile) : x.cleared.zeroed := ⟨rfl, rfl, rfl, rfl, rfl, rfl⟩

/-- A tile of the partition after the whole reset. -/
theorem State.tile_reset (again : List Nat) (hf : ∀ x, x ∈ s.work.flights → x.part ≠ p) (hrun : (s.sched p).run = none)
    (h : (s.tile n).partition = some p) :
    (((s.resetStop p).rewriteTiles p again).tile n).zeroed ∧ (((s.resetStop p).rewriteTiles p again).tile n).failing = [] ∧
      ((s.tile n).failing = [] → n ∉ again → ((s.resetStop p).rewriteTiles p again).tile n = (s.tile n).cleared) := by
  have hstop := State.tile_resetStop hf hrun h
  refine ⟨?zeroed, State.failing_rewriteTiles ?part, fun hfail hagain => ?clean⟩
  case zeroed => exact State.tile_rewriteTiles_keeps (fun _ _ hy => hy) (fun _ _ hy => hy) (hstop ▸ Tile.zeroed_cleared _)
  case part =>
    rw [hstop]
    exact h
  case clean =>
    refine State.tile_rewriteTiles_keeps (Q := fun y => y = (s.tile n).cleared) (fun y k hy => ?_) (fun hn => absurd hn hagain) hstop
    rw [hy]
    exact Tile.rewritten_of_failing_nil k hfail

end

/-- Settles O22: consumed data starts or joins the reset; an idle partition's reset clears its listed tiles and zeroes its segments. -/
theorem partitionResets : Obligations.PartitionResets := by
  refine ⟨?meshWord, ?casket, ?reset⟩
  case meshWord =>
    intro s n c hn hc hst hpart hnone
    obtain ⟨t, hexec, hresets, hstate, hcount, hfence, hother, hsame⟩ := exec_meshWord_starts hn hc hst rfl hpart hnone
    refine ⟨t, hexec, ?_, fun q hq => ?_, hstate, hcount, hfence, hother, hsame⟩
    · rw [hresets, SMap.get_set_same]
    · rw [hresets, SMap.get_set_other _ _ _ _ _ hq]
  case casket =>
    intro s p addr reader r hp ha h1 h3 hr
    obtain ⟨t, hexec, hresets, hbytes, hsame⟩ := exec_casketConsumed_joins hp ha h1 h3 hr
    exact ⟨t, hexec, by rw [hresets, SMap.get_set_same], hbytes, hsame⟩
  case reset =>
    intro s p r again hp hr hst hf hrun
    obtain ⟨t, hexec, hresets, hcare⟩ := exec_partitionReset_stops again hp hr hst
    have hsame : unchangedBut [.sail, .evt, .casket, .tiles, .mesh, .therm, .dbg, .free, .care] s t :=
      ((State.resetStop_rewriteTiles_unchanged again hf hrun).mono (by simp)).trans (hcare.mono (by simp))
    have htile := State.tile_of_tiles (hcare.1 .tiles (by simp))
    refine ⟨t, hexec, hresets, fun n hn => ?mine, fun n hn => ?other, fun sl g st i hg ho hi => ?segment, hsame.1 .mem (by simp),
      hsame.1 .clasps (by simp), hsame.1 .work (by simp)⟩
    case mine =>
      obtain ⟨⟨hdmem, hbad, hregs, hvregs, hstate, hprog⟩, hfailing, hclean⟩ := State.tile_reset again hf hrun hn
      rw [htile]
      exact ⟨hdmem, hbad, hregs, hvregs, hstate, hprog, hfailing, hclean⟩
    case other =>
      refine (htile n).trans (State.tile_reset_other again hf hrun fun hmem => ?_)
      obtain ⟨e, he, hpart, hen⟩ := State.mem_partTiles.1 hmem
      exact hn e he hen hpart
    case segment =>
      have hcasket : t.casket = ((s.resetStop p).rewriteTiles p again).casket := hcare.1 .casket (by simp)
      rw [hcasket]
      exact State.casket_reset_zero again hf hrun hg ho hi

end Sys2Proof.Machine
end

section
/-! SUPPORT. The canonical form of the stacks and of the Casket: what it rests on, folds that keep it, and the outcomes of a command (R208,
R235, R268). -/

namespace Sys2Proof.Machine

/-- The canonical form of the parts that it speaks of. -/
def contentsCanonical (bytes : List Host.Cell) (checks : SMap Nat) (flipped : SMap Bool) (casket : List Host.Cell) (bad : SMap Bool) : Bool :=
  SMap.wf 0 bytes && SMap.wf 0 checks && SMap.wf false flipped && SMap.wf 0 casket && SMap.wf false bad

/-- A state written out is canonical where its memory and its Casket are. -/
@[simp] theorem State.memoryCanonical_mk (tick : Tick) (ctl : Ctl) (host : HostPort) (work : Work) (clasps : Clasps) (evt : EvtLog)
    (mbox : Mbox) (xlat : Xlat) (sail : Sail) (casket : Casket) (mem : Mem) (care : Care) (tiles : SMap Tile) (mesh : Mesh)
    (locket : Locket) (tether : Tether) (pwr : Pwr) (therm : Therm) (keel : Keel) (dbg : Dbg) (sites : SMap Site) (out : List Out)
    (free : Nat) (pending : List Instr) :
    (State.mk tick ctl host work clasps evt mbox xlat sail casket mem care tiles mesh locket tether pwr therm keel dbg sites out free
      pending).memoryCanonical = contentsCanonical mem.bytes mem.checks mem.flipped casket.bytes casket.bad := (rfl)

@[simp] theorem State.contentsCanonical_eq (s : State) :
    contentsCanonical s.mem.bytes s.mem.checks s.mem.flipped s.casket.bytes s.casket.bad = s.memoryCanonical := (rfl)

@[simp] theorem State.memoryCanonical_ite (c : Prop) [Decidable c] (s t : State) :
    (if c then s else t).memoryCanonical = if c then s.memoryCanonical else t.memoryCanonical := apply_ite _ c s t

/-- A fold of steps that leave it alone. -/
@[simp] theorem State.foldl_memoryCanonical {α : Type} {f : State → α → State} (l : List α)
    (hf : ∀ (s : State) a, (f s a).memoryCanonical = s.memoryCanonical) (s : State) :
    (l.foldl f s).memoryCanonical = s.memoryCanonical := by
  induction l generalizing s with
  | nil => rfl
  | cons a l ih => rw [List.foldl_cons, ih, hf]

/-- The same where the fold carries something beside the state. -/
theorem State.foldl_fst_memoryCanonical {α β : Type} {f : State × β → α → State × β} (l : List α)
    (hf : ∀ a x, (f a x).1.memoryCanonical = a.1.memoryCanonical) (a : State × β) :
    (l.foldl f a).1.memoryCanonical = a.1.memoryCanonical := by
  induction l generalizing a with
  | nil => rfl
  | cons x l ih => rw [List.foldl_cons, ih, hf]

theorem State.foldl_fst_canonical {α β : Type} {f : State × β → α → State × β} (l : List α)
    (hf : ∀ a x, a.1.memoryCanonical = true → (f a x).1.memoryCanonical = true) {a : State × β} (h : a.1.memoryCanonical = true) :
    (l.foldl f a).1.memoryCanonical = true := by
  induction l generalizing a with
  | nil => exact h
  | cons x l ih => exact ih (hf a x h)

/-- A fold whose steps keep the canonical form keeps it. -/
@[simp] theorem State.foldl_canonical {α : Type} {f : State → α → State} (l : List α)
    (hf : ∀ (s : State) a, s.memoryCanonical = true → (f s a).memoryCanonical = true) {s : State} (h : s.memoryCanonical = true) :
    (l.foldl f s).memoryCanonical = true := State.canonical_foldl l hf s h

/-! ### The outcome of a command -/

/-- Whatever state the outcome goes on with is in canonical form. -/
def nextCanonical (o : Host.Outcome State Fault Refusal) : Prop := ∀ t, o = .next t → t.memoryCanonical = true

@[simp] theorem nextCanonical_next (t : State) : nextCanonical (.next t) ↔ t.memoryCanonical = true :=
  ⟨fun h => h t rfl, fun h u hu => by cases hu; exact h⟩

@[simp] theorem nextCanonical_guarded (m : String) (ok : Bool) {t : State} (h : t.memoryCanonical = true) :
    nextCanonical (guarded m ok t) := by
  cases ok with
  | true => exact (nextCanonical_next t).2 h
  | false => exact fun u hu => by cases hu

@[simp] theorem nextCanonical_ite (c : Prop) [Decidable c] (o p : Host.Outcome State Fault Refusal) :
    nextCanonical (if c then o else p) ↔ if c then nextCanonical o else nextCanonical p := by
  split <;> rfl

end Sys2Proof.Machine
end

section
/-! SUPPORT. What every operation of the model makes of the canonical form: most leave the stacks and the Casket as they are, the others keep
the form. A frame is closed by `(rfl)`, in brackets, so that `simp` takes it for an equation to rewrite with and not for a
definition to unfold. -/

namespace Sys2Proof.Machine

/-! ### Machine/Ops.lean -/

@[simp] theorem State.arrive_memoryCanonical (s : State) (t : Nat) :
    (s.arrive t).memoryCanonical = s.memoryCanonical := (rfl)

@[simp] theorem State.refclk_memoryCanonical (s : State) :
    (s.refclk).memoryCanonical = s.memoryCanonical := by
  simp [State.refclk]

@[simp] theorem State.countClocks_memoryCanonical (s : State) :
    (s.countClocks).memoryCanonical = s.memoryCanonical := (rfl)

@[simp] theorem State.emit_memoryCanonical (s : State) (o : Out) :
    (s.emit o).memoryCanonical = s.memoryCanonical := (rfl)

@[simp] theorem State.emitAll_memoryCanonical (s : State) (os : List Out) :
    (s.emitAll os).memoryCanonical = s.memoryCanonical := (rfl)

@[simp] theorem State.useFree_memoryCanonical (s : State) :
    (s.useFree).memoryCanonical = s.memoryCanonical := (rfl)

@[simp] theorem State.post_memoryCanonical (s : State) (code severity part unit dt : Nat) :
    (s.post code severity part unit dt).memoryCanonical = s.memoryCanonical := (rfl)

@[simp] theorem State.postOnce_memoryCanonical (s : State) (same : Event → Bool) (code severity part unit dt : Nat) :
    (s.postOnce same code severity part unit dt).memoryCanonical = s.memoryCanonical := by
  simp [State.postOnce]

@[simp] theorem State.updPart_memoryCanonical (s : State) (p : Nat) (f : Part → Part) :
    (s.updPart p f).memoryCanonical = s.memoryCanonical := (rfl)

@[simp] theorem State.signal_memoryCanonical (s : State) (k add : Nat) (error : Bool) :
    (s.signal k add error).memoryCanonical = s.memoryCanonical := (rfl)

@[simp] theorem State.mboxEnd_memoryCanonical (s : State) (code : Nat) (out : Bytes) :
    (s.mboxEnd code out).memoryCanonical = s.memoryCanonical := (rfl)

@[simp] theorem State.mboxOk_memoryCanonical (s : State) (out : Bytes) :
    (s.mboxOk out).memoryCanonical = s.memoryCanonical := (rfl)

@[simp] theorem State.mboxRange_memoryCanonical (s : State) (off : Nat) :
    (s.mboxRange off).memoryCanonical = s.memoryCanonical := (rfl)

@[simp] theorem State.mboxConflict_memoryCanonical (s : State) (kind index : Nat) :
    (s.mboxConflict kind index).memoryCanonical = s.memoryCanonical := (rfl)

/-- A mailbox command answers without an effect, or has its effect. -/
@[simp] theorem State.mailboxLc_canonical {s : State} (op : Nat) (lenOk : Nat → Bool) (states : List Nat)
    (checks : Bytes → List (Nat × Bool)) (k : Bytes → State) (hk : ∀ b, (k b).memoryCanonical = true) (h : s.memoryCanonical = true) :
    (s.mailboxLc op lenOk states checks k).memoryCanonical = true := by
  obtain he | ⟨code, out, he⟩ | ⟨b, -, -, -, -, -, he⟩ := s.mailboxLc_cases op lenOk states checks k
  · rwa [he]
  · rw [he]; simpa using h
  · rw [he]; exact hk _

@[simp] theorem State.mailbox_canonical {s : State} (op len : Nat) (checks : Bytes → List (Nat × Bool)) (k : Bytes → State)
    (hk : ∀ b, (k b).memoryCanonical = true) (h : s.memoryCanonical = true) : (s.mailbox op len checks k).memoryCanonical = true :=
  State.mailboxLc_canonical _ _ _ _ _ hk h

@[simp] theorem State.regWrite_memoryCanonical (s : State) (k : State → State)
    (hk : ∀ u : State, (k u).memoryCanonical = u.memoryCanonical) : (s.regWrite k).memoryCanonical = s.memoryCanonical := by
  simp [State.regWrite, hk]

/-! ### Machine/MemOps.lean -/

@[simp] theorem State.updGroup_memoryCanonical (s : State) (n : Nat) (f : Group → Group) :
    (s.updGroup n f).memoryCanonical = s.memoryCanonical := (rfl)

@[simp] theorem State.wakeMemory_memoryCanonical (s : State) :
    (s.wakeMemory).memoryCanonical = s.memoryCanonical := (rfl)

@[simp] theorem State.holdBeats_memoryCanonical (s : State) (d n : Nat) :
    (s.holdBeats d n).memoryCanonical = s.memoryCanonical := by
  simp [State.holdBeats]

@[simp] theorem State.updBucket_memoryCanonical (s : State) (b : Nat) (f : Bucket → Bucket) :
    (s.updBucket b f).memoryCanonical = s.memoryCanonical := (rfl)

@[simp] theorem State.charge_memoryCanonical (s : State) (b cost : Nat) :
    (s.charge b cost).memoryCanonical = s.memoryCanonical := by
  simp [State.charge]

@[simp] theorem State.bucketWait_memoryCanonical (s : State) (b : Nat) :
    (s.bucketWait b).memoryCanonical = s.memoryCanonical := by
  simp [State.bucketWait]

@[simp] theorem State.postWaits_memoryCanonical (s : State) (b : Nat) :
    (s.postWaits b).memoryCanonical = s.memoryCanonical := by
  simp [State.postWaits]

/-! ### Machine/MemErr.lean -/

@[simp] theorem State.spoilResults_memoryCanonical (s : State) (p : Nat) :
    (s.spoilResults p).memoryCanonical = s.memoryCanonical := (rfl)

@[simp] theorem State.startReset_memoryCanonical (s : State) (p cause unit : Nat) :
    (s.startReset p cause unit).memoryCanonical = s.memoryCanonical := by
  simp [State.startReset]

@[simp] theorem State.updCe_memoryCanonical (s : State) (b : Nat) (f : CeBucket → CeBucket) :
    (s.updCe b f).memoryCanonical = s.memoryCanonical := (rfl)

@[simp] theorem State.chargeCe_memoryCanonical (s : State) (b amount unit : Nat) :
    (s.chargeCe b amount unit).memoryCanonical = s.memoryCanonical := by
  simp [State.chargeCe]

@[simp] theorem State.postGroupState_memoryCanonical (s : State) (n old new : Nat) (die : Option Nat) (dead : Bool) (lost : Nat) :
    (s.postGroupState n old new die dead lost).memoryCanonical = s.memoryCanonical := (rfl)

@[simp] theorem State.bumpGroup_memoryCanonical (s : State) (n : Nat) : (s.bumpGroup n).memoryCanonical = s.memoryCanonical := by
  simp [State.bumpGroup, State.updGroup]

@[simp] theorem State.dieDead_memoryCanonical (s : State) (n a : Nat) :
    (s.dieDead n a).memoryCanonical = s.memoryCanonical := (rfl)

@[simp] theorem State.heedBeat_memoryCanonical (s : State) (k : Nat) :
    (s.heedBeat k).memoryCanonical = s.memoryCanonical := by
  unfold State.heedBeat
  dsimp only
  repeat' split
  all_goals simp

@[simp] theorem State.postUncorrectable_canonical {s : State} (d : Nat) (bs : List (Byte × Bool)) (part consumer tag : Nat) (hs : s.memoryCanonical = true) :
    (s.postUncorrectable d bs part consumer tag).memoryCanonical = true := by
  unfold State.postUncorrectable
  dsimp only
  repeat' split
  all_goals simp +contextual [State.undecodable_canonical, hs]

/-! ### Machine/CasketOps.lean -/

@[simp] theorem State.casketErr_memoryCanonical (s : State) (sl : Nat) (f : CasketErr → CasketErr) :
    (s.casketErr sl f).memoryCanonical = s.memoryCanonical := (rfl)

@[simp] theorem State.dropPending_memoryCanonical (s : State) (a n : Nat) :
    (s.dropPending a n).memoryCanonical = s.memoryCanonical := (rfl)

@[simp] theorem State.casketBadRead_memoryCanonical (s : State) (a reader part : Nat) :
    (s.casketBadRead a reader part).memoryCanonical = s.memoryCanonical := (rfl)

@[simp] theorem State.setSide_memoryCanonical (s : State) (block crc : Nat) :
    (s.setSide block crc).memoryCanonical = s.memoryCanonical := (rfl)

@[simp] theorem State.updTile_memoryCanonical (s : State) (t : Nat) (f : Tile → Tile) :
    (s.updTile t f).memoryCanonical = s.memoryCanonical := (rfl)

/-! ### Machine/SiteLink.lean -/

@[simp] theorem State.updSite_memoryCanonical (s : State) (q : Nat) (f : Site → Site) :
    (s.updSite q f).memoryCanonical = s.memoryCanonical := (rfl)

@[simp] theorem State.sitePump_memoryCanonical (s : State) (q ch : Nat) :
    (s.sitePump q ch).memoryCanonical = s.memoryCanonical := by
  simp [State.sitePump]

@[simp] theorem State.siteSend_memoryCanonical (s : State) (q ch : Nat) (m : SiteMsg) :
    (s.siteSend q ch m).memoryCanonical = s.memoryCanonical := by
  simp [State.siteSend]

@[simp] theorem State.siteAsk_memoryCanonical (s : State) (q line : Nat) :
    (s.siteAsk q line).memoryCanonical = s.memoryCanonical := by
  simp [State.siteAsk]

@[simp] theorem State.siteStatusFor_memoryCanonical (s : State) (f status : Nat) :
    (s.siteStatusFor f status).memoryCanonical = s.memoryCanonical := (rfl)

@[simp] theorem State.sitePut_memoryCanonical (s : State) (q f addr : Nat) (data : List (Byte × Bool)) :
    (s.sitePut q f addr data).memoryCanonical = s.memoryCanonical := by
  simp [State.sitePut]

@[simp] theorem State.siteDrain_memoryCanonical (s : State) (q : Nat) (index : Nat → Nat) :
    (s.siteDrain q index).memoryCanonical = s.memoryCanonical := by
  unfold State.siteDrain
  split
  · rfl
  · refine (State.foldl_fst_memoryCanonical _ (fun a w => ?_) _).trans (State.updSite_memoryCanonical ..)
    dsimp only
    split
    · simp
    · split <;> simp

/-! ### Machine/HostOps.lean -/

@[simp] theorem State.askLines_memoryCanonical (s : State) (ls : List Nat) :
    (s.askLines ls).memoryCanonical = s.memoryCanonical := by
  simp [State.askLines]

@[simp] theorem State.useLines_memoryCanonical (s : State) (ls : List Nat) :
    (s.useLines ls).memoryCanonical = s.memoryCanonical := (rfl)

@[simp] theorem State.askCtl_memoryCanonical (s : State) (l : Nat) :
    (s.askCtl l).memoryCanonical = s.memoryCanonical := by
  simp [State.askCtl]

@[simp] theorem State.useCtl_memoryCanonical (s : State) (ls : List Nat) :
    (s.useCtl ls).memoryCanonical = s.memoryCanonical := (rfl)

@[simp] theorem State.forgetLines_memoryCanonical (s : State) :
    (s.forgetLines).memoryCanonical = s.memoryCanonical := (rfl)

@[simp] theorem State.askSite_memoryCanonical (s : State) (ls : List (Nat × Nat)) :
    (s.askSite ls).memoryCanonical = s.memoryCanonical := by
  simp [State.askSite]

@[simp] theorem State.useSite_memoryCanonical (s : State) (ps : List (Place × Nat)) :
    (s.useSite ps).memoryCanonical = s.memoryCanonical := by
  refine State.foldl_memoryCanonical _ (fun u p => ?_) _
  split <;> simp

@[simp] theorem State.holdPlaces_memoryCanonical (s : State) (ps : List (Place × Nat)) :
    (s.holdPlaces ps).memoryCanonical = s.memoryCanonical := by
  refine State.foldl_memoryCanonical _ (fun u p => ?_) _
  split <;> simp

@[simp] theorem State.heedPlaces_canonical {s : State} (ps : List (Place × Nat)) (h : s.memoryCanonical = true) :
    (s.heedPlaces ps).memoryCanonical = true := by
  refine State.canonical_foldl _ (fun u p hu => ?_) s h
  split
  · exact State.heed_canonical _ _ hu
  · exact State.heedCasket_canonical _ _ hu
  · simpa using hu
  · exact hu

@[simp] theorem State.queueWrite_memoryCanonical (s : State) (w : OrderedWrite) :
    (s.queueWrite w).memoryCanonical = s.memoryCanonical := (rfl)

@[simp] theorem State.writePlace_canonical {s : State} (pl : Place) (bs : List (Byte × Bool)) (p : Nat) (hs : s.memoryCanonical = true) :
    (s.writePlace pl bs p).memoryCanonical = true := by
  unfold State.writePlace
  split <;> simp [State.writeDev_canonical, State.writeCasket_canonical, hs]

@[simp] theorem State.writePlaces_canonical {s : State} (ps : List (Place × Nat)) (bs : List (Byte × Bool)) (p : Nat)
    (h : s.memoryCanonical = true) : (s.writePlaces ps bs p).memoryCanonical = true :=
  State.foldl_fst_canonical _ (fun a x ha => State.writePlace_canonical x.1 (a.2.take x.2) p ha) h

@[simp] theorem State.stopCRing_memoryCanonical (s : State) (c cause : Nat) :
    (s.stopCRing c cause).memoryCanonical = s.memoryCanonical := by
  simp [State.stopCRing]

@[simp] theorem State.stopRing_memoryCanonical (s : State) (i cause : Nat) :
    (s.stopRing i cause).memoryCanonical = s.memoryCanonical := by
  simp [State.stopRing]

@[simp] theorem State.sendReq_memoryCanonical (s : State) :
    (s.sendReq).memoryCanonical = s.memoryCanonical := by
  unfold State.sendReq
  dsimp only
  repeat' split
  all_goals simp

@[simp] theorem State.sendReqs_memoryCanonical (s : State) :
    (s.sendReqs).memoryCanonical = s.memoryCanonical := by
  simp [State.sendReqs]

@[simp] theorem State.askPage_memoryCanonical (s : State) (pasid va : Nat) (w : Wait) :
    (s.askPage pasid va w).memoryCanonical = s.memoryCanonical := by
  simp [State.askPage]

@[simp] theorem State.writeFailed_memoryCanonical (s : State) (why : WritePurpose) :
    (s.writeFailed why).memoryCanonical = s.memoryCanonical := by
  unfold State.writeFailed
  split <;> simp

@[simp] theorem State.dropWrites_memoryCanonical (s : State) (why : WritePurpose) :
    (s.dropWrites why).memoryCanonical = s.memoryCanonical := (rfl)

@[simp] theorem State.drainWrites_canonical (fuel : Nat) {s : State} (h : s.memoryCanonical = true) :
    (State.drainWrites fuel s).memoryCanonical = true := by
  induction fuel generalizing s with
  | zero => exact h
  | succ fuel ih =>
    rw [State.drainWrites]
    split
    · exact h
    · exact ih h
    · exact ih (State.writeDev_canonical _ _ _ h)
    · split <;> exact h
    · split
      · exact ih (by simpa using h)
      · split
        · split
          · exact ih (by simpa using h)
          · exact ih h
        · simpa using h

@[simp] theorem State.drain_canonical {s : State} (h : s.memoryCanonical = true) : s.drain.memoryCanonical = true :=
  State.drainWrites_canonical _ h

/-! ### Machine/FlightOps.lean -/

@[simp] theorem State.updFlight_memoryCanonical (s : State) (f : Nat) (g : Flight → Flight) :
    (s.updFlight f g).memoryCanonical = s.memoryCanonical := (rfl)

@[simp] theorem State.updStrand_memoryCanonical (s : State) (f j : Nat) (g : Strand → Strand) :
    (s.updStrand f j g).memoryCanonical = s.memoryCanonical := (rfl)

@[simp] theorem State.updStrands_memoryCanonical (s : State) (f : Nat) (g : Strand → Strand) :
    (s.updStrands f g).memoryCanonical = s.memoryCanonical := (rfl)

@[simp] theorem State.unpinIf_memoryCanonical (s : State) (p : Nat × Nat → Bool) :
    (s.unpinIf p).memoryCanonical = s.memoryCanonical := (rfl)

@[simp] theorem State.unpinPiece_memoryCanonical (s : State) (f j : Nat) :
    (s.unpinPiece f j).memoryCanonical = s.memoryCanonical := (rfl)

@[simp] theorem State.unpin_memoryCanonical (s : State) (f : Nat) :
    (s.unpin f).memoryCanonical = s.memoryCanonical := (rfl)

@[simp] theorem State.dropWaits_memoryCanonical (s : State) (f : Nat) :
    (s.dropWaits f).memoryCanonical = s.memoryCanonical := (rfl)

@[simp] theorem State.dropReads_memoryCanonical (s : State) (f : Nat) :
    (s.dropReads f).memoryCanonical = s.memoryCanonical := by
  unfold State.dropReads
  split <;> simp

@[simp] theorem State.countOverrun_memoryCanonical (s : State) (p : Nat) :
    (s.countOverrun p).memoryCanonical = s.memoryCanonical := (rfl)

@[simp] theorem State.countAbort_memoryCanonical (s : State) (p : Nat) :
    (s.countAbort p).memoryCanonical = s.memoryCanonical := (rfl)

@[simp] theorem State.sliceOver_memoryCanonical (s : State) (x : Flight) (n : Nat) :
    (s.sliceOver x n).memoryCanonical = s.memoryCanonical := by
  simp [State.sliceOver]

@[simp] theorem State.accrue_memoryCanonical (s : State) (x : Flight) (j : Nat) :
    (s.accrue x j).memoryCanonical = s.memoryCanonical := by
  simp [State.accrue]

@[simp] theorem State.accrueFlight_memoryCanonical (s : State) (x : Flight) :
    (s.accrueFlight x).memoryCanonical = s.memoryCanonical := by
  simp [State.accrueFlight]

@[simp] theorem State.endFlight_memoryCanonical (s : State) (f status dt : Nat) :
    (s.endFlight f status dt).memoryCanonical = s.memoryCanonical := by
  unfold State.endFlight
  split <;> simp

@[simp] theorem State.workDone_memoryCanonical (s : State) (f status dt : Nat) :
    (s.workDone f status dt).memoryCanonical = s.memoryCanonical := (rfl)

@[simp] theorem State.stopWork_memoryCanonical (s : State) (x : Flight) (j status dt : Nat) :
    (s.stopWork x j status dt).memoryCanonical = s.memoryCanonical := by
  simp [State.stopWork]

@[simp] theorem State.nextPiece_memoryCanonical (s : State) (x : Flight) (j dt : Nat) :
    (s.nextPiece x j dt).memoryCanonical = s.memoryCanonical := by
  unfold State.nextPiece
  split <;> simp

@[simp] theorem State.endPiece_memoryCanonical (s : State) (x : Flight) (last : Bool) (status dt : Nat) :
    (s.endPiece x last status dt).memoryCanonical = s.memoryCanonical := by
  simp [State.endPiece]

@[simp] theorem State.postFor_memoryCanonical (s : State) (x : Flight) (code severity part unit dt : Nat) :
    (s.postFor x code severity part unit dt).memoryCanonical = s.memoryCanonical := by
  simp [State.postFor]

@[simp] theorem State.askPages_memoryCanonical (s : State) (pasid part : Nat) (ns : List PageNeed) (who : Waiter) (held : Bool) :
    (s.askPages pasid part ns who held).memoryCanonical = s.memoryCanonical := by
  simp [State.askPages]

@[simp] theorem State.installL2_memoryCanonical (s : State) (e : TlbEntry) :
    (s.installL2 e).memoryCanonical = s.memoryCanonical := (rfl)

@[simp] theorem State.installL1_memoryCanonical (s : State) (tlb : Nat) (e : TlbEntry) :
    (s.installL1 tlb e).memoryCanonical = s.memoryCanonical := (rfl)

@[simp] theorem State.installAhead_memoryCanonical (s : State) (tlb pasid : Nat) (n : PageNeed) :
    (s.installAhead tlb pasid n).memoryCanonical = s.memoryCanonical := by
  unfold State.installAhead
  split
  · rfl
  · split <;> simp

@[simp] theorem State.pinPage_memoryCanonical (s : State) (pin : Nat × Nat) (tlb pasid page : Nat) :
    (s.pinPage pin tlb pasid page).memoryCanonical = s.memoryCanonical := by
  unfold State.pinPage
  split <;> simp

@[simp] theorem State.pinNeeds_memoryCanonical (s : State) (pin : Nat × Nat) (tlb pasid : Nat) (ns : List PageNeed) :
    (s.pinNeeds pin tlb pasid ns).memoryCanonical = s.memoryCanonical := by
  simp [State.pinNeeds]

/-! ### Machine/Movers.lean -/

@[simp] theorem State.genCrc_canonical {s : State} (ws : List ChkWindow) (p space b : Nat) (hs : s.memoryCanonical = true) :
    (s.genCrc ws p space b).memoryCanonical = true := by
  simp [State.genCrc, hs]

@[simp] theorem State.countMoved_memoryCanonical (s : State) (p n : Nat) :
    (s.countMoved p n).memoryCanonical = s.memoryCanonical := (rfl)

@[simp] theorem State.countMismatch_memoryCanonical (s : State) (space b : Nat) :
    (s.countMismatch space b).memoryCanonical = s.memoryCanonical := by
  simp [State.countMismatch]

@[simp] theorem State.postCrcMismatch_memoryCanonical (s : State) (ws : List ChkWindow) (p tag space b dstSlice : Nat) :
    (s.postCrcMismatch ws p tag space b dstSlice).memoryCanonical = s.memoryCanonical := by
  simp [State.postCrcMismatch]

@[simp] theorem State.issueAll_memoryCanonical (s : State) (b : Nat) (costs : List Nat) (k : Nat) :
    (s.issueAll b costs k).1.memoryCanonical = s.memoryCanonical := by
  induction costs generalizing s k with
  | nil => rfl
  | cons c cs ih =>
    simp only [State.issueAll]
    split
    · exact ih s (k + 1)
    · split
      · simp [ih]
      · simp

/-- The state that goes on with a piece's accesses. -/
def Access.state : Access → State
  | .wait s => s
  | .go s => s

/-- A piece's accesses ask for lines, hold beats and charge a bucket. -/
theorem State.access_memoryCanonical {s : State} {x : Flight} {j : Nat} {reads writes : List (Place × Nat)} {r : Access}
    (h : s.access x j reads writes = r) : r.state.memoryCanonical = s.memoryCanonical := by
  subst h
  unfold State.access
  dsimp only
  split
  · simp [Access.state]
  · split
    · simp [Access.state]
    · split <;> simp [Access.state]

@[simp] theorem State.took_canonical {s : State} (reads : List (Place × Nat)) (h : s.memoryCanonical = true) :
    (s.took reads).memoryCanonical = true := by
  simp [State.took, State.heedPlaces_canonical reads h]

@[simp] theorem State.moverWrite_canonical {s : State} (f p : Nat) (ps : List (Place × Nat)) (bs : List (Byte × Bool))
    (h : s.memoryCanonical = true) : (s.moverWrite f p ps bs).memoryCanonical = true := by
  refine State.foldl_fst_canonical _ (fun a x ha => ?_) h
  dsimp only
  split
  · simpa using ha
  · exact State.writePlace_canonical _ _ _ ha

@[simp] theorem State.reportBad_canonical {s : State} (p tag : Nat) (bad : List (Place × List (Byte × Bool))) (h : s.memoryCanonical = true) :
    (s.reportBad p tag bad).memoryCanonical = true := by
  refine State.canonical_foldl _ (fun u b hu => ?_) s h
  split
  · simpa using hu
  · exact State.postUncorrectable_canonical _ _ _ _ _ hu
  · exact hu

@[simp] theorem State.fillRanges_canonical {s : State} (p : Nat) (fill : Nat → Nat → List (Byte × Bool)) (rs : List Range) (hs : s.memoryCanonical = true) :
    (s.fillRanges p fill rs).memoryCanonical = true := by
  simp +contextual [State.fillRanges, hs]

@[simp] theorem State.blurRanges_canonical {s : State} (p : Nat) (rs : List Range) (hs : s.memoryCanonical = true) :
    (s.blurRanges p rs).memoryCanonical = true := by
  simp [State.blurRanges, hs]

@[simp] theorem State.doCopy_canonical {s : State} (x : Flight) (h : s.memoryCanonical = true) : (s.doCopy x).memoryCanonical = true := by
  unfold State.doCopy
  dsimp only
  split
  · split
    · rename_i ha; rwa [← State.access_memoryCanonical ha] at h
    · rename_i s0 ha
      have h0 : s0.memoryCanonical = true := by rwa [← State.access_memoryCanonical ha] at h
      have ht := fun ps => State.took_canonical (s := s0) ps h0
      split
      · simp [h0]
      · split
        · split
          · simp [h0]
          · simp only [State.workDone_memoryCanonical, State.postCrcMismatch_memoryCanonical, State.countMoved_memoryCanonical]
            exact State.reportBad_canonical _ _ _ (State.blurRanges_canonical _ _ (State.moverWrite_canonical _ _ _ _ (ht _)))
        · split
          · simp +contextual [h, h0]
          · simp only [State.endPiece_memoryCanonical, State.countMoved_memoryCanonical]
            refine State.reportBad_canonical _ _ _ (State.canonical_foldl _ (fun u b hu => State.genCrc_canonical _ _ _ _ hu) _
              (State.moverWrite_canonical _ _ _ _ ?_))
            split
            · exact ht _
            · exact ht _
  · exact h

@[simp] theorem State.doFill_canonical {s : State} (x : Flight) (h : s.memoryCanonical = true) : (s.doFill x).memoryCanonical = true := by
  unfold State.doFill
  dsimp only
  split
  · exact h
  · split
    · rename_i ha; rwa [← State.access_memoryCanonical ha] at h
    · rename_i s0 ha
      have h0 : s0.memoryCanonical = true := by rwa [← State.access_memoryCanonical ha] at h
      simp +contextual [h0]

@[simp] theorem State.doCrcGen_canonical {s : State} (x : Flight) (h : s.memoryCanonical = true) : (s.doCrcGen x).memoryCanonical = true := by
  unfold State.doCrcGen
  dsimp only
  split
  · exact h
  · split
    · rename_i ha; rwa [← State.access_memoryCanonical ha] at h
    · rename_i s0 ha
      have h0 : s0.memoryCanonical = true := by rwa [← State.access_memoryCanonical ha] at h
      simp only [State.endPiece_memoryCanonical, State.countMoved_memoryCanonical]
      exact State.took_canonical _ (State.reportBad_canonical _ _ _ (State.genCrc_canonical _ _ _ _ h0))

@[simp] theorem State.doCrcVerify_canonical {s : State} (x : Flight) (h : s.memoryCanonical = true) :
    (s.doCrcVerify x).memoryCanonical = true := by
  unfold State.doCrcVerify
  dsimp only
  split
  · rename_i ha; rwa [← State.access_memoryCanonical ha] at h
  · rename_i s0 ha
    have h0 : s0.memoryCanonical = true := by rwa [← State.access_memoryCanonical ha] at h
    simp [h0]

/-! ### Machine/Sail.lean -/

@[simp] theorem State.consume_canonical {s : State} (p unit tag : Nat) (ps : List (Place × Nat)) (reader : Nat) (hs : s.memoryCanonical = true) :
    (s.consume p unit tag ps reader).memoryCanonical = true := by
  unfold State.consume
  split <;> simp [hs]

/-- The state that goes on with a piece's operands. -/
def Fetch.state : Fetch → State
  | .wait s => s
  | .stop s => s
  | .go s => s

theorem State.fetch_canonical {s : State} {x : Flight} {j : Nat} {ins outs done : List Opnd} {more : List (Place × Nat)} {r : Fetch}
    (hr : s.fetch x j ins outs done more = r) (h : s.memoryCanonical = true) : r.state.memoryCanonical = true := by
  subst hr
  unfold State.fetch
  dsimp only
  split
  · split
    · rename_i ha; rwa [← State.access_memoryCanonical ha] at h
    · rename_i s0 ha
      have h0 : s0.memoryCanonical = true := by rwa [← State.access_memoryCanonical ha] at h
      split
      · simp [Fetch.state, h0]
      · split <;> simp [Fetch.state, h0]
  · exact h

@[simp] theorem State.putRows_canonical {s : State} (x : Flight) (o : Opnd) (undef : Bool) (rows : List Bytes) (hs : s.memoryCanonical = true) :
    (s.putRows x o undef rows).memoryCanonical = true := by
  unfold State.putRows
  split <;> simp [hs]

@[simp] theorem State.countMacs_memoryCanonical (s : State) (e n : Nat) :
    (s.countMacs e n).memoryCanonical = s.memoryCanonical := (rfl)

@[simp] theorem State.doGemm_canonical {s : State} (x : Flight) (h : s.memoryCanonical = true) : (s.doGemm x).memoryCanonical = true := by
  unfold State.doGemm
  dsimp only
  split
  · rename_i hr; exact State.fetch_canonical hr h
  · rename_i hr; exact State.fetch_canonical hr h
  · rename_i s1 hr
    have h1 : s1.memoryCanonical = true := State.fetch_canonical hr h
    simp [h1]

@[simp] theorem State.doScan_canonical {s : State} (x : Flight) (h : s.memoryCanonical = true) : (s.doScan x).memoryCanonical = true := by
  unfold State.doScan
  dsimp only
  split
  · rename_i hr; exact State.fetch_canonical hr h
  · rename_i hr; exact State.fetch_canonical hr h
  · rename_i s1 hr
    have h1 : s1.memoryCanonical = true := State.fetch_canonical hr h
    simp [h1]

@[simp] theorem State.doReduce_canonical {s : State} (x : Flight) (h : s.memoryCanonical = true) : (s.doReduce x).memoryCanonical = true := by
  unfold State.doReduce
  dsimp only
  split
  · rename_i hr; exact State.fetch_canonical hr h
  · rename_i hr; exact State.fetch_canonical hr h
  · rename_i s1 hr
    have h1 : s1.memoryCanonical = true := State.fetch_canonical hr h
    simp [h1]

@[simp] theorem State.doSfu_canonical {s : State} (x : Flight) (h : s.memoryCanonical = true) : (s.doSfu x).memoryCanonical = true := by
  unfold State.doSfu
  dsimp only
  split
  · rename_i hr; exact State.fetch_canonical hr h
  · rename_i hr; exact State.fetch_canonical hr h
  · rename_i s1 hr
    have h1 : s1.memoryCanonical = true := State.fetch_canonical hr h
    rw [State.endPiece_memoryCanonical]
    refine State.canonical_foldl _ (fun u r hu => ?_) _ h1
    split <;> simp [hu]

@[simp] theorem State.sailFault_memoryCanonical (s : State) (x : Flight) (j : Nat) (e : SailFault) :
    (s.sailFault x j e).memoryCanonical = s.memoryCanonical := by
  unfold State.sailFault
  split <;> simp

theorem State.sailWork_canonical {s : State} (x : Flight) (j : Nat) (es : List SailFault) {work : State → State}
    (hw : ∀ u : State, u.memoryCanonical = true → (work u).memoryCanonical = true) (h : s.memoryCanonical = true) :
    (s.sailWork x j es work).memoryCanonical = true := by
  unfold State.sailWork
  extract_lets s1
  have h1 : s1.memoryCanonical = true := by simpa [s1] using h
  split
  · exact hw _ h1
  · simpa using h1

/-! ### Machine/Attend.lean -/

@[simp] theorem State.updSlot_memoryCanonical (s : State) (i : Nat) (f : Slot → Slot) :
    (s.updSlot i f).memoryCanonical = s.memoryCanonical := (rfl)

@[simp] theorem State.doSlotOpen_canonical {s : State} (x : Flight) (h : s.memoryCanonical = true) :
    (s.doSlotOpen x).memoryCanonical = true := by
  unfold State.doSlotOpen
  dsimp only
  split
  · rename_i ha; rwa [← State.access_memoryCanonical ha] at h
  · rename_i s0 ha
    have h0 : s0.memoryCanonical = true := by rwa [← State.access_memoryCanonical ha] at h
    simp [h0]

@[simp] theorem State.commitOpen_memoryCanonical (s : State) (x : Flight) :
    (s.commitOpen x).memoryCanonical = s.memoryCanonical := by
  simp [State.commitOpen]

@[simp] theorem State.doSlotClose_memoryCanonical (s : State) (x : Flight) :
    (s.doSlotClose x).memoryCanonical = s.memoryCanonical := (rfl)

@[simp] theorem State.commitSettle_memoryCanonical (s : State) (x : Flight) :
    (s.commitSettle x).memoryCanonical = s.memoryCanonical := by
  simp [State.commitSettle]

theorem State.metaBad_canonical {s0 s1 t : State} {x : Flight} {j : Nat} {places : List (Place × Nat)}
    (hm : s0.metaBad s1 x j places = some t) (h : s1.memoryCanonical = true) : t.memoryCanonical = true := by
  unfold State.metaBad at hm
  split at hm
  · cases hm; simp [h]
  · cases hm

@[simp] theorem State.doKvWrite_canonical {s : State} (x : Flight) (h : s.memoryCanonical = true) :
    (s.doKvWrite x).memoryCanonical = true := by
  unfold State.doKvWrite
  dsimp only
  split
  · rename_i hr; exact State.fetch_canonical hr h
  · rename_i hr; exact State.fetch_canonical hr h
  · rename_i s1 hr
    have h1 : s1.memoryCanonical = true := State.fetch_canonical hr h
    split
    · rename_i hm; exact State.metaBad_canonical hm h1
    · simp [h1]

@[simp] theorem State.commitKvWrite_canonical {s : State} (x : Flight) (h : s.memoryCanonical = true) :
    (s.commitKvWrite x).memoryCanonical = true := by
  unfold State.commitKvWrite
  split
  · exact h
  · dsimp only
    split
    · simpa using h
    · split
      · simpa using h
      · have hw := fun a bs w => State.writeDev_canonical (s := (kvStores (s.slot (dSlot x.desc)).record x.blob
          (kPos x.desc % recT (s.slot (dSlot x.desc)).record) (kN x.desc)).foldl
          (fun s w => s.writeDev (a + w.1) (clean w.2) x.part) s) a bs w
          (State.canonical_foldl _ (fun u w hu => State.writeDev_canonical _ _ _ hu) s h)
        simp [h, hw]

@[simp] theorem State.attHold_memoryCanonical (s : State) (x : Flight) (o ins : List Opnd) (data : Bytes) :
    (s.attHold x o ins data).memoryCanonical = s.memoryCanonical := by
  unfold State.attHold
  split <;> simp

@[simp] theorem State.attFinish_memoryCanonical (s : State) (x : Flight) (dt : Nat) (parts : List AttHeld) :
    (s.attFinish x dt parts).memoryCanonical = s.memoryCanonical := by
  simp [State.attFinish]

@[simp] theorem State.attNext_memoryCanonical (s : State) (x : Flight) (j : Nat) (last : Bool) (dt : Nat) (h : AttHeld) :
    (s.attNext x j last dt h).memoryCanonical = s.memoryCanonical := by
  unfold State.attNext
  dsimp only
  repeat' split
  all_goals simp

@[simp] theorem State.doAttend_canonical {s : State} (x : Flight) (j : Nat) (h : s.memoryCanonical = true) :
    (s.doAttend x j).memoryCanonical = true := by
  unfold State.doAttend
  dsimp only
  split
  · rename_i hr; exact State.fetch_canonical hr h
  · rename_i hr; exact State.fetch_canonical hr h
  · rename_i s1 hr
    have h1 : s1.memoryCanonical = true := State.fetch_canonical hr h
    split
    · simpa using h1
    · split
      · rename_i hm; exact State.metaBad_canonical hm h1
      · split
        · simpa using h1
        · simp [h1]

/-! ### Machine/MeshOps.lean -/

@[simp] theorem State.updSched_memoryCanonical (s : State) (p : Nat) (f : Sched → Sched) :
    (s.updSched p f).memoryCanonical = s.memoryCanonical := (rfl)

@[simp] theorem State.updRun_memoryCanonical (s : State) (p : Nat) (f : RunState → RunState) :
    (s.updRun p f).memoryCanonical = s.memoryCanonical := (rfl)

@[simp] theorem State.schedFault_memoryCanonical (s : State) (p t kind code : Nat) :
    (s.schedFault p t kind code).memoryCanonical = s.memoryCanonical := by
  unfold State.schedFault
  dsimp only
  split <;> simp

@[simp] theorem State.fenceCore_memoryCanonical (s : State) (t cause : Nat) :
    (s.fenceCore t cause).memoryCanonical = s.memoryCanonical := by
  simp [State.fenceCore]

@[simp] theorem State.beadFault_memoryCanonical (s : State) (p t memory addr : Nat) :
    (s.beadFault p t memory addr).memoryCanonical = s.memoryCanonical := by
  simp [State.beadFault]

@[simp] theorem State.pick_memoryCanonical (s : State) (p t e u cyc : Nat) (codes : List Nat) :
    (s.pick p t e u cyc codes).1.memoryCanonical = s.memoryCanonical := by
  induction codes generalizing s with
  | nil => rfl
  | cons code rest ih =>
    rw [State.pick]
    dsimp only
    split
    · rfl
    · split
      · simp [ih]
      · rename_i hf
        rw [ih]
        split at hf
        · simp only [Option.map_eq_some_iff] at hf
          obtain ⟨_, _, hx⟩ := hf; cases hx; rfl
        · split at hf
          · split at hf
            · cases hf
            · simp only [Option.map_eq_some_iff] at hf
              obtain ⟨_, _, hx⟩ := hf; cases hx; simp
          · split at hf
            · simp only [Option.map_eq_some_iff] at hf
              obtain ⟨_, _, hx⟩ := hf; cases hx; simp
            · simp only [Option.map_eq_some_iff] at hf
              obtain ⟨_, _, hx⟩ := hf; cases hx; rfl

@[simp] theorem State.deliver_memoryCanonical (s : State) (p t e cyc : Nat) (w : MeshWord) :
    (s.deliver p t e cyc w).memoryCanonical = s.memoryCanonical := by
  unfold State.deliver
  dsimp only
  repeat' split
  all_goals simp

@[simp] theorem State.sendX_memoryCanonical (s : State) (p t code : Nat) (w : MeshWord) :
    (s.sendX p t code w).memoryCanonical = s.memoryCanonical := by
  unfold State.sendX
  split <;> simp

@[simp] theorem State.reduce_memoryCanonical (s : State) (p t e u : Nat) (a b : MeshWord) :
    (s.reduce p t e u a b).memoryCanonical = s.memoryCanonical := by
  unfold State.reduce
  dsimp only
  repeat' split
  all_goals simp

@[simp] theorem State.wordCheck_memoryCanonical (s : State) (p t u i : Nat) :
    (s.wordCheck p t u i).memoryCanonical = s.memoryCanonical := by
  unfold State.wordCheck
  split <;> simp

@[simp] theorem State.hardFaults_memoryCanonical (s : State) (p t j u : Nat) : (s.hardFaults p t j u).memoryCanonical = s.memoryCanonical := by
  unfold State.hardFaults
  split
  · rfl
  · refine State.foldl_memoryCanonical _ (fun v f => ?_) _
    split <;> simp

@[simp] theorem State.tileSlot_memoryCanonical (s : State) (p u cyc t : Nat) : (s.tileSlot p u cyc t).memoryCanonical = s.memoryCanonical := by
  unfold State.tileSlot
  extract_lets c
  split
  · rfl
  · extract_lets unused s1 got s2 ws s3 s4 s5
    have h2 : s2.memoryCanonical = s.memoryCanonical := by simp [s2, got, s1]
    have h3 : s3.memoryCanonical = s.memoryCanonical := by
      refine (State.foldl_memoryCanonical _ (fun v dir => ?_) _).trans h2
      split <;> simp
    have h4 : s4.memoryCanonical = s.memoryCanonical := by
      simp only [s4]
      split <;> simp [h3]
    have h5 : s5.memoryCanonical = s.memoryCanonical := by
      simp only [s5]
      split <;> simp [h4]
    split
    · exact h5
    · split <;> simp [h5]

@[simp] theorem State.applySlot_memoryCanonical (s : State) (p : Nat) :
    (s.applySlot p).memoryCanonical = s.memoryCanonical := by
  unfold State.applySlot
  dsimp only
  repeat' split
  all_goals simp

@[simp] theorem State.noteEnd_memoryCanonical (s : State) (f t : Nat) (e : BeadEnd) :
    (s.noteEnd f t e).memoryCanonical = s.memoryCanonical := (rfl)

@[simp] theorem State.postTrap_memoryCanonical (s : State) (x : Flight) (ends : List (Nat × Nat × BeadEnd)) :
    (s.postTrap x ends).memoryCanonical = s.memoryCanonical := by
  unfold State.postTrap
  split <;> simp

@[simp] theorem State.stopProgs_memoryCanonical (s : State) (f : Nat) :
    (s.stopProgs f).memoryCanonical = s.memoryCanonical := (rfl)

@[simp] theorem State.closeRun_memoryCanonical (s : State) (p : Nat) :
    (s.closeRun p).memoryCanonical = s.memoryCanonical := by
  unfold State.closeRun
  split <;> simp

@[simp] theorem State.runCheck_memoryCanonical (s : State) (p : Nat) :
    (s.runCheck p).memoryCanonical = s.memoryCanonical := by
  unfold State.runCheck
  dsimp only
  repeat' split
  all_goals simp

@[simp] theorem State.endFrame_memoryCanonical (s : State) (p : Nat) :
    (s.endFrame p).memoryCanonical = s.memoryCanonical := by
  simp [State.endFrame]

@[simp] theorem State.advanceN_memoryCanonical (s : State) (p fuel : Nat) : (s.advanceN p fuel).memoryCanonical = s.memoryCanonical := by
  induction fuel generalizing s with
  | zero => rfl
  | succ fuel ih =>
    rw [State.advanceN]
    dsimp only
    split
    · rfl
    · split
      · rfl
      · split
        · simp
        · split <;> simp [ih]

@[simp] theorem State.advance_memoryCanonical (s : State) (p : Nat) : (s.advance p).memoryCanonical = s.memoryCanonical :=
  State.advanceN_memoryCanonical ..

/-! ### Machine/BeadOps.lean -/

@[simp] theorem State.windowWrite_canonical {s : State} (t w : Nat) (bs : Bytes) (h : s.memoryCanonical = true) :
    (s.windowWrite t w bs).memoryCanonical = true := by
  exact State.writeCasket_canonical w (clean bs) h

/-- What a read of the core leaves is in canonical form. -/
def BeadRead.canonical : BeadRead → Prop
  | .data s _ => s.memoryCanonical = true
  | .fault _ => True
  | .hard s => s.memoryCanonical = true

theorem State.beadRead_canonical {s : State} {t a n : Nat} {r : BeadRead} (hr : s.beadRead t a n = r) (h : s.memoryCanonical = true) :
    r.canonical := by
  subst hr
  unfold State.beadRead
  dsimp only
  split
  · split <;> simpa [BeadRead.canonical] using h
  · split
    · split
      · trivial
      · split
        · simpa [BeadRead.canonical] using h
        · exact State.heedCasket_canonical _ _ h
    · trivial

/-- What several reads leave is in canonical form. -/
def BeadReads.canonical : BeadReads → Prop
  | .data s _ => s.memoryCanonical = true
  | .fault _ => True
  | .hard s => s.memoryCanonical = true

theorem State.beadReads_canonical {s : State} {t : Nat} {rs : List (Nat × Nat)} {acc : List Bytes} {r : BeadReads}
    (hr : s.beadReads t rs acc = r) (h : s.memoryCanonical = true) : r.canonical := by
  subst hr
  induction rs generalizing s acc with
  | nil => exact h
  | cons e rs ih =>
    obtain ⟨a, n⟩ := e
    rw [State.beadReads]
    split
    · rename_i hr; exact ih (State.beadRead_canonical hr h)
    · trivial
    · rename_i hr; exact State.beadRead_canonical hr h

/-- What a write of the core leaves is in canonical form. -/
def BeadWrite.canonical : BeadWrite → Prop
  | .done s => s.memoryCanonical = true
  | .fault _ => True
  | .hard s => s.memoryCanonical = true

theorem State.beadWrite_canonical {s : State} {t a : Nat} {bs : Bytes} {r : BeadWrite} (hr : s.beadWrite t a bs = r)
    (h : s.memoryCanonical = true) : r.canonical := by
  subst hr
  unfold State.beadWrite
  dsimp only
  split
  · split <;> simpa [BeadWrite.canonical] using h
  · split
    · split
      · exact State.windowWrite_canonical _ _ _ h
      · trivial
    · trivial

@[simp] theorem State.launchCheck_memoryCanonical (s : State) (f : Nat) :
    (s.launchCheck f).memoryCanonical = s.memoryCanonical := by
  unfold State.launchCheck
  dsimp only
  repeat' split
  all_goals simp

@[simp] theorem State.beadEnded_memoryCanonical (s : State) (t : Nat) (e : BeadEnd) :
    (s.beadEnded t e).memoryCanonical = s.memoryCanonical := by
  unfold State.beadEnded
  dsimp only
  split <;> simp

@[simp] theorem State.beadTrap_memoryCanonical (s : State) (t cause tval : Nat) (window : Bool) :
    (s.beadTrap t cause tval window).memoryCanonical = s.memoryCanonical := by
  simp [State.beadTrap]

/-- What an instruction leaves is in canonical form. -/
def BeadRes.canonical : BeadRes → Prop
  | .done s _ _ => s.memoryCanonical = true
  | .trap _ _ _ => True
  | .stall s _ => s.memoryCanonical = true
  | .hard s => s.memoryCanonical = true
  | .ends s => s.memoryCanonical = true

@[simp] theorem BeadRes.canonical_done (s : State) (pc cycles : Nat) : (BeadRes.done s pc cycles).canonical ↔ s.memoryCanonical = true := .rfl

@[simp] theorem BeadRes.canonical_trap (cause tval : Nat) (w : Bool) : (BeadRes.trap cause tval w).canonical := trivial

@[simp] theorem BeadRes.canonical_stall (s : State) (why : Stall) : (BeadRes.stall s why).canonical ↔ s.memoryCanonical = true := .rfl

@[simp] theorem BeadRes.canonical_hard (s : State) : (BeadRes.hard s).canonical ↔ s.memoryCanonical = true := .rfl

@[simp] theorem BeadRes.canonical_ends (s : State) : (BeadRes.ends s).canonical ↔ s.memoryCanonical = true := .rfl

@[simp] theorem BeadRes.canonical_ite (c : Prop) [Decidable c] (r q : BeadRes) :
    (if c then r else q).canonical ↔ if c then r.canonical else q.canonical := by
  split <;> rfl

theorem State.beadCommit_canonical {s : State} (t : Nat) {r : BeadRes} (hr : r.canonical) (h : s.memoryCanonical = true) :
    (s.beadCommit t r).memoryCanonical = true := by
  cases r <;> simp_all [State.beadCommit, BeadRes.canonical]

theorem State.bead_canonical {s : State} (t : Nat) (want : Tile → BeadInstr → Bool) (sem : State → Tile → BeadInstr → Nat → Nat → BeadRes)
    (hsem : ∀ (u : State) x i w len, u.memoryCanonical = true → (sem u x i w len).canonical) (h : s.memoryCanonical = true) :
    (s.bead t want sem).memoryCanonical = true := by
  unfold State.bead
  dsimp only
  split
  · exact h
  · split
    · exact h
    · split
      · exact h
      · split
        · exact State.beadCommit_canonical t (by simpa [BeadRes.canonical] using h) h
        · have hu : ∀ f, (s.updTile t f).memoryCanonical = true := fun f => by simpa using h
          exact State.beadCommit_canonical t (hsem _ _ _ _ _ (hu _)) (hu _)

@[simp] theorem State.doneWith_canonical {s : State} (t pc cycles : Nat) (f : Tile → Tile) (h : s.memoryCanonical = true) :
    (s.doneWith t pc cycles f).canonical := by
  simpa [State.doneWith, BeadRes.canonical] using h

theorem State.semInteger_canonical {s : State} (t : Nat) (x : Tile) (i : BeadInstr) (len : Nat) (h : s.memoryCanonical = true) :
    (s.semInteger t x i len).canonical := by
  unfold State.semInteger
  dsimp only
  split <;> simp [h]

theorem State.semLoad_canonical {s : State} (t : Nat) (x : Tile) (i : BeadInstr) (len : Nat) (h : s.memoryCanonical = true) :
    (s.semLoad t x i len).canonical := by
  unfold State.semLoad
  split
  · dsimp only
    split
    · trivial
    · split
      · split
        · simp [h]
        · trivial
      · split
        · rename_i hr; exact State.doneWith_canonical _ _ _ _ (State.beadRead_canonical hr h)
        · trivial
        · rename_i hr; exact State.beadRead_canonical hr h
  · exact h

theorem State.semStore_canonical {s : State} (t : Nat) (x : Tile) (i : BeadInstr) (len : Nat) (h : s.memoryCanonical = true) :
    (s.semStore t x i len).canonical := by
  unfold State.semStore
  split
  · dsimp only
    split
    · trivial
    · split
      · rename_i hr; exact State.beadWrite_canonical hr h
      · trivial
      · rename_i hr; exact State.beadWrite_canonical hr h
  · exact h

theorem State.semCsr_canonical {s : State} (t : Nat) (x : Tile) (i : BeadInstr) (w len : Nat) (h : s.memoryCanonical = true) :
    (s.semCsr t x i w len).canonical := by
  unfold State.semCsr
  split
  · split <;> simp [h]
  · exact h

theorem State.semClaspAdd_canonical {s : State} (t : Nat) (x : Tile) (i : BeadInstr) (len : Nat) (h : s.memoryCanonical = true) :
    (s.semClaspAdd t x i len).canonical := by
  unfold State.semClaspAdd
  split <;> simp [h]

theorem State.semClaspVal_canonical {s : State} (t : Nat) (x : Tile) (i : BeadInstr) (w len : Nat) (h : s.memoryCanonical = true) :
    (s.semClaspVal t x i w len).canonical := by
  unfold State.semClaspVal
  split <;> simp [h]

/-! ### Machine/Beads.lean -/

@[simp] theorem State.beadBoundary_memoryCanonical (s : State) :
    (s.beadBoundary).memoryCanonical = s.memoryCanonical := by
  simp [State.beadBoundary]

@[simp] theorem State.beadVv_canonical {s : State} (t f : Nat) (h : s.memoryCanonical = true) : (s.beadVv t f).memoryCanonical = true := by
  refine State.bead_canonical t _ _ (fun u x i w len hu => ?_) h
  split
  · simpa [State.doneWith, BeadRes.canonical] using hu
  · exact hu

theorem State.rxTake_memoryCanonical {s : State} {t c off n : Nat} {r : Bytes × State} (h : s.rxTake t c off n = some r) :
    r.2.memoryCanonical = s.memoryCanonical := by
  unfold State.rxTake at h
  split at h
  · cases h
  · cases h
    simp

theorem State.txPut_memoryCanonical {s u : State} {t c off cycles : Nat} {bs : Bytes} (h : s.txPut t c off cycles bs = some u) :
    u.memoryCanonical = s.memoryCanonical := by
  unfold State.txPut at h
  dsimp only at h
  split at h
  · cases h; simp
  · split at h
    · cases h; simp
    · split at h
      · cases h
      · cases h; simp

@[simp] theorem State.beadFp_canonical {s : State} (t f cycles : Nat) (h : s.memoryCanonical = true) :
    (s.beadFp t f cycles).memoryCanonical = true := by
  refine State.bead_canonical t _ _ (fun u x i w len hu => ?_) h
  split
  · simpa [State.doneWith, BeadRes.canonical] using hu
  · exact hu

@[simp] theorem State.updBarrier_memoryCanonical (s : State) (p b : Nat) (f : Barrier → Barrier) :
    (s.updBarrier p b f).memoryCanonical = s.memoryCanonical := (rfl)

@[simp] theorem State.wakeFrames_memoryCanonical (s : State) (p start index : Nat) :
    (s.wakeFrames p start index).memoryCanonical = s.memoryCanonical := by
  refine State.foldl_memoryCanonical _ (fun u e => ?_) _
  dsimp only
  split
  · split <;> simp
  · rfl

@[simp] theorem State.meshRunPhase_memoryCanonical (s : State) :
    (s.meshRunPhase).memoryCanonical = s.memoryCanonical := by
  simp [State.meshRunPhase]

/-! ### Machine/MemCare.lean -/

@[simp] theorem State.beginHold_canonical {s : State} (n pc : Nat) (hs : s.memoryCanonical = true) :
    (s.beginHold n pc).memoryCanonical = true := by
  simp [State.beginHold, State.secondFault_canonical, State.writebackAll_canonical, hs]

@[simp] theorem State.programAs_memoryCanonical (s : State) (c : Nat) (m : ModeRegs) :
    (s.programAs c m).memoryCanonical = s.memoryCanonical := (rfl)

@[simp] theorem State.programModes_memoryCanonical (s : State) (c : Nat) :
    (s.programModes c).memoryCanonical = s.memoryCanonical := (rfl)

@[simp] theorem State.rejoin_memoryCanonical (s : State) (n : Nat) :
    (s.rejoin n).memoryCanonical = s.memoryCanonical := by
  simp [State.rejoin]

@[simp] theorem State.endHold_canonical {s : State} (n : Nat) (hs : s.memoryCanonical = true) :
    (s.endHold n).memoryCanonical = true := by
  simp [State.endHold, State.writebackFull_canonical, hs]

@[simp] theorem State.updScrub_memoryCanonical (s : State) (n : Nat) (f : Scrub → Scrub) :
    (s.updScrub n f).memoryCanonical = s.memoryCanonical := (rfl)

@[simp] theorem State.rowCorrected_memoryCanonical (s : State) (n st a : Nat) :
    (s.rowCorrected n st a).memoryCanonical = s.memoryCanonical := by
  simp [State.rowCorrected]

@[simp] theorem State.scrubWrite_canonical {s : State} (k : Nat) (bs : List (Byte × Bool)) (hs : s.memoryCanonical = true) :
    (s.scrubWrite k bs).memoryCanonical = true := by
  simp +contextual [State.scrubWrite, State.writeSetting_canonical, hs]

@[simp] theorem State.scrubBad_canonical {s : State} (n k beats : Nat) (hs : s.memoryCanonical = true) :
    (s.scrubBad n k beats).memoryCanonical = true := by
  simp [State.scrubBad, State.secondFault_canonical, hs]

@[simp] theorem State.scrubResult_canonical {s : State} (n st k beats : Nat) (r : Decoded) (dies : List Nat) (hs : s.memoryCanonical = true) :
    (s.scrubResult n st k beats r dies).memoryCanonical = true := by
  unfold State.scrubResult
  split <;> simp [State.heedSetting_canonical, hs]

@[simp] theorem State.scrubOn_memoryCanonical (s : State) (n st : Nat) :
    (s.scrubOn n st).memoryCanonical = s.memoryCanonical := by
  unfold State.scrubOn
  split <;> simp

@[simp] theorem State.moveSetting_canonical {s : State} (n donor : Nat) (bad : List Nat) (st : Nat) (hs : s.memoryCanonical = true) :
    (s.moveSetting n donor bad st).memoryCanonical = true := by
  simp [State.moveSetting, State.heedSetting_canonical, State.writeLine_canonical, hs]

/-! ### Machine/SafeOps.lean -/

@[simp] theorem State.syncKeel_memoryCanonical (s : State) :
    (s.syncKeel).memoryCanonical = s.memoryCanonical := (rfl)

@[simp] theorem State.setRegion_memoryCanonical (s : State) (r : Nat) (x : Region) (part : Nat) :
    (s.setRegion r x part).memoryCanonical = s.memoryCanonical := (rfl)

@[simp] theorem State.orphanRegions_memoryCanonical (s : State) :
    (s.orphanRegions).memoryCanonical = s.memoryCanonical := by
  simp [State.orphanRegions]

@[simp] theorem State.zeroise_memoryCanonical (s : State) (cause : Nat) :
    (s.zeroise cause).memoryCanonical = s.memoryCanonical := by
  simp [State.zeroise]

@[simp] theorem State.fullCooling_memoryCanonical (s : State) :
    (s.fullCooling).memoryCanonical = s.memoryCanonical := (rfl)

@[simp] theorem State.enterSafe_memoryCanonical (s : State) (c u : Nat) :
    (s.enterSafe c u).memoryCanonical = s.memoryCanonical := by
  simp [State.enterSafe]

@[simp] theorem State.warmDue_memoryCanonical (s : State) (cause : Nat) :
    (s.warmDue cause).memoryCanonical = s.memoryCanonical := by
  simp [State.warmDue]

@[simp] theorem State.restartDue_memoryCanonical (s : State) :
    (s.restartDue).memoryCanonical = s.memoryCanonical := (rfl)

@[simp] theorem State.degraded_memoryCanonical (s : State) (kind unit index : Nat) :
    (s.degraded kind unit index).memoryCanonical = s.memoryCanonical := (rfl)

/-! ### Machine/MemCmds.lean -/

theorem State.scatterRun_canonical {s : State} (x : Flight) (rs : List Bytes) (filled : List Nat) (dt : Nat) (h : s.memoryCanonical = true) :
    (s.scatterRun x rs filled dt).s.memoryCanonical = true := by
  induction rs generalizing s filled dt with
  | nil => exact h
  | cons r rs ih =>
    rw [State.scatterRun]
    dsimp only
    split
    · exact ih _ _ h
    · split
      · split
        · simpa using h
        · split
          · simpa using h
          · split
            · simp [h]
            · refine ih _ _ (State.writeDev_canonical _ _ _ (State.heed_canonical _ _ ?_))
              simpa using h
      · exact h

@[simp] theorem State.scatterApply_canonical {s : State} (x : Flight) (rs : List Bytes) (h : s.memoryCanonical = true) :
    (s.scatterApply x rs).memoryCanonical = true := by
  simp [State.scatterApply, State.scatterRun_canonical, h]

@[simp] theorem State.doScatter_canonical {s : State} (x : Flight) (h : s.memoryCanonical = true) : (s.doScatter x).memoryCanonical = true := by
  unfold State.doScatter
  dsimp only
  split
  · simp [h]
  · split
    · exact h
    · split
      · rename_i ha; rwa [← State.access_memoryCanonical ha] at h
      · rename_i s0 ha
        have h0 : s0.memoryCanonical = true := by rwa [← State.access_memoryCanonical ha] at h
        split <;> simp [h0]

@[simp] theorem State.repairEnd_canonical {s : State} (x : Flight) (good : Bool) (h : s.memoryCanonical = true) :
    (s.repairEnd x good).memoryCanonical = true := by
  unfold State.repairEnd
  extract_lets d n g c s1 s2 m s3
  have h1 : s1.memoryCanonical = true := by simpa [s1] using h
  have h3 : s3.memoryCanonical = true := by
    simp only [s3]
    split
    · simpa [m] using State.setGranule_canonical g false h1
    · exact h1
  split
  · split <;> simpa using h3
  · simpa using h3

@[simp] theorem State.writeMemReg_memoryCanonical (s : State) (b : Nat) (h : Half) (v : W64) :
    (s.writeMemReg b h v).memoryCanonical = s.memoryCanonical := (rfl)

@[simp] theorem State.writeDonor_memoryCanonical (s : State) (w : Nat) (h : Half) (v : W64) :
    (s.writeDonor w h v).memoryCanonical = s.memoryCanonical := (rfl)

@[simp] theorem State.writeKvr_memoryCanonical (s : State) (p : Nat) (limit : Bool) (h : Half) (v : W64) :
    (s.writeKvr p limit h v).memoryCanonical = s.memoryCanonical := by
  simp [State.writeKvr]

@[simp] theorem State.writeOwn_memoryCanonical (s : State) (sl : Nat) (h : Half) (v : W64) :
    (s.writeOwn sl h v).memoryCanonical = s.memoryCanonical := (rfl)

@[simp] theorem State.upsetCasket_memoryCanonical (s : State) (sl : Nat) (upset : List (Nat × BitVec 12)) :
    (s.upsetCasket sl upset).memoryCanonical = s.memoryCanonical := (rfl)

@[simp] theorem State.postAccess_memoryCanonical (s : State) (code part unit a source : Nat) (rest : List (Nat × Nat)) :
    (s.postAccess code part unit a source rest).memoryCanonical = s.memoryCanonical := by
  simp [State.postAccess]

theorem State.accessStop_memoryCanonical {s t : State} {d n source part : Nat} (h : s.accessStop d n source part = some t) :
    t.memoryCanonical = s.memoryCanonical := by
  unfold State.accessStop at h
  split at h
  · cases h; simp
  · split at h
    · cases h; simp
    · split at h <;> cases h
      simp

@[simp] theorem State.meetErrors_canonical {s : State} (st : Nat) (e : MemErrors) (h : s.memoryCanonical = true) :
    (s.meetErrors st e).memoryCanonical = true := by
  have hm : (if e.stack.isEmpty then s.mem else s.mem.holdSetting (s.group (st / settingsPerGroup)).wide st e.stack).wf = true := by
    simp only [State.memoryCanonical, Bool.and_eq_true] at h
    split
    · exact h.1.1
    · exact Mem.holdSetting_wf _ _ _ h.1.1
  have put : ∀ (m : Mem) (l : List WcbLine), m.wf = true → ({ s with mem := { m with wcb := l } } : State).memoryCanonical = true := by
    simp only [State.memoryCanonical, Bool.and_eq_true] at h ⊢
    exact fun m l hm => ⟨⟨hm, h.1.2⟩, h.2⟩
  unfold State.meetErrors
  extract_lets mem flip line s1
  have h1 : s1.memoryCanonical = true := put _ _ hm
  split
  · simpa [Mem.dropLine] using h1
  · exact h1

/-! ### Machine/MeshCmds.lean -/

theorem State.stage_canonical {s : State} (x : Flight) {k : State → Bytes → State}
    (hk : ∀ (u : State) b, u.memoryCanonical = true → (k u b).memoryCanonical = true) (h : s.memoryCanonical = true) :
    (s.stage x k).memoryCanonical = true := by
  unfold State.stage
  split
  · exact h
  · dsimp only
    split
    · rename_i hr; exact State.fetch_canonical hr h
    · rename_i s1 hr
      have h1 : s1.memoryCanonical = true := State.fetch_canonical hr h
      split
      · simp [h1]
      · exact h1
    · rename_i s1 hr
      have h1 : s1.memoryCanonical = true := State.fetch_canonical hr h
      exact hk _ _ (by simpa using h1)

@[simp] theorem State.movedFor_memoryCanonical (s : State) (x : Flight) :
    (s.movedFor x).memoryCanonical = s.memoryCanonical := (rfl)

@[simp] theorem State.staged_memoryCanonical (s : State) (f : Nat) (bytes : Bytes) :
    (s.staged f bytes).memoryCanonical = s.memoryCanonical := (rfl)

@[simp] theorem State.startSlice_memoryCanonical (s : State) (f n : Nat) (beads : List (Nat × Nat)) :
    (s.startSlice f n beads).memoryCanonical = s.memoryCanonical := (rfl)

@[simp] theorem State.stagedAs_memoryCanonical (s : State) (x : Flight) (g : Bytes) :
    (s.stagedAs x g).memoryCanonical = s.memoryCanonical := (rfl)

@[simp] theorem State.touchRuns_memoryCanonical (s : State) (p : Nat) :
    (s.touchRuns p).memoryCanonical = s.memoryCanonical := (rfl)

@[simp] theorem State.commitLoad_memoryCanonical (s : State) (x : Flight) :
    (s.commitLoad x).memoryCanonical = s.memoryCanonical := by
  simp [State.commitLoad]

@[simp] theorem State.unload_memoryCanonical (s : State) (p : Nat) :
    (s.unload p).memoryCanonical = s.memoryCanonical := by
  simp [State.unload]

@[simp] theorem State.commitUnload_memoryCanonical (s : State) (x : Flight) :
    (s.commitUnload x).memoryCanonical = s.memoryCanonical := by
  simp [State.commitUnload]

@[simp] theorem State.commitWriteback_canonical {s : State} (x : Flight) (tiles : List Nat) (off len : Nat) (h : s.memoryCanonical = true) :
    (s.commitWriteback x tiles off len).memoryCanonical = true := by
  unfold State.commitWriteback
  split
  · dsimp only
    split
    · simpa using h
    · refine State.canonical_foldl _ (fun u e hu => ?_) s h
      split
      · exact State.writePlaces_canonical _ _ _ (by simpa using hu)
      · exact hu
  · exact h

@[simp] theorem State.commitProgram_canonical {s : State} (x : Flight) (hs : s.memoryCanonical = true) :
    (s.commitProgram x).memoryCanonical = true := by
  simp [State.commitProgram, hs]

@[simp] theorem State.offerRecords_memoryCanonical (s : State) (x : Flight) (discarded : List Nat) :
    (s.offerRecords x discarded).memoryCanonical = s.memoryCanonical := by
  simp [State.offerRecords]

/-! ### Machine/Locket.lean -/

@[simp] theorem State.generated_memoryCanonical (s : State) :
    (s.generated).memoryCanonical = s.memoryCanonical := (rfl)

@[simp] theorem State.doChunk_canonical {s : State} (x : Flight) (key : Bytes) (h : s.memoryCanonical = true) :
    (s.doChunk x key).memoryCanonical = true := by
  unfold State.doChunk
  dsimp only
  split
  · split
    · rename_i ha; rwa [← State.access_memoryCanonical ha] at h
    · rename_i s0 ha
      have h0 : s0.memoryCanonical = true := by rwa [← State.access_memoryCanonical ha] at h
      simp [h0]
  · exact h

@[simp] theorem State.doLocket_canonical {s : State} (x : Flight) (hs : s.memoryCanonical = true) :
    (s.doLocket x).memoryCanonical = true := by
  unfold State.doLocket
  split <;> simp [hs]

@[simp] theorem State.aesWork_canonical {s : State} (x : Flight) (e : AesFault) (hs : s.memoryCanonical = true) :
    (s.aesWork x e).memoryCanonical = true := by
  unfold State.aesWork
  split <;> simp [hs]

@[simp] theorem State.mboxConflictFree_memoryCanonical (s : State) (index : Nat) :
    (s.mboxConflictFree index).memoryCanonical = s.memoryCanonical := (rfl)

@[simp] theorem State.importRefused_memoryCanonical (s : State) (slot off : Nat) :
    (s.importRefused slot off).memoryCanonical = s.memoryCanonical := (rfl)

@[simp] theorem State.beginUnseals_canonical {s : State} (hs : s.memoryCanonical = true) :
    (s.beginUnseals).memoryCanonical = true := by
  simp +contextual [State.beginUnseals, State.writebackAll_canonical, hs]

@[simp] theorem State.zeroSealedPlaces_canonical {s : State} (p : Nat) (h : s.memoryCanonical = true) :
    (s.zeroSealedPlaces p).memoryCanonical = true := by
  unfold State.zeroSealedPlaces
  extract_lets s1 s2 b l
  have h1 : s1.memoryCanonical = true := by
    refine State.canonical_foldl _ (fun u g hu => ?_) s h
    split
    · exact State.zeroCasket_canonical _ _ hu
    · exact hu
  have h2 : s2.memoryCanonical = true := by simpa [s2] using h1
  split
  · refine State.canonical_foldl _ (fun u r hu => ?_) _ h2
    split
    · exact State.zeroStorage_canonical _ _ (State.writebackAll_canonical _ hu)
    · exact hu
  · exact h2

@[simp] theorem State.startAttest_memoryCanonical (s : State) (q : Nat) :
    (s.startAttest q).memoryCanonical = s.memoryCanonical := by
  simp [State.startAttest]

@[simp] theorem State.attestFail_memoryCanonical (s : State) (q reason : Nat) :
    (s.attestFail q reason).memoryCanonical = s.memoryCanonical := (rfl)

@[simp] theorem State.lcMove_memoryCanonical (s : State) (goal : Nat) :
    (s.lcMove goal).memoryCanonical = s.memoryCanonical := (rfl)

/-- A return erases the memories (R438, Table 13.10). -/
@[simp] theorem State.runReturn_canonical {s : State} (h : s.memoryCanonical = true) : s.runReturn.memoryCanonical = true := by
  have hw : (((List.range 16).foldl (fun s p => s.updPart p (fun x => { x with enabled := false, scanned := false })) s).zeroise
      3 |>.writebackAll (fun _ => true)).memoryCanonical = true := by
    apply State.writebackAll_canonical
    simpa using h
  unfold State.runReturn
  split
  · exact h
  · simp only [State.memoryCanonical, Mem.wf, Bool.and_eq_true] at hw
    obtain ⟨⟨⟨⟨-, -⟩, hf⟩, -⟩, -⟩ := hw
    simp [contentsCanonical, hf, SMap.wf_nil]

@[simp] theorem State.spdmAnswer_memoryCanonical (s : State) (r : SpdmRsp) :
    (s.spdmAnswer r).memoryCanonical = s.memoryCanonical := (rfl)

@[simp] theorem State.spdmSigned_memoryCanonical (s : State) (rsp : Bytes → Bytes → SpdmRsp) (transcript : Bytes) :
    (s.spdmSigned rsp transcript).memoryCanonical = s.memoryCanonical := by
  unfold State.spdmSigned
  dsimp only
  repeat' split
  all_goals simp

@[simp] theorem State.updSession_memoryCanonical (s : State) (sid : Nat) (f : Session → Session) :
    (s.updSession sid f).memoryCanonical = s.memoryCanonical := (rfl)

theorem State.inSession_canonical {s : State} (sid : Nat) {k : State} (hk : k.memoryCanonical = true) (h : s.memoryCanonical = true) :
    (s.inSession sid k).memoryCanonical = true := by
  unfold State.inSession
  split
  · exact h
  · split
    · split
      · exact hk
      · simpa using h
    · simpa using h

/-! ### Machine/Sites.lean -/

theorem State.discIn_canonical {s : State} (q : Nat) (m : Bytes) (kind : Nat) {k : State} (hk : k.memoryCanonical = true)
    (h : s.memoryCanonical = true) : (s.discIn q m kind k).memoryCanonical = true := by
  simp [State.discIn, hk, h]

@[simp] theorem State.loseAttest_memoryCanonical (s : State) (q cause : Nat) :
    (s.loseAttest q cause).memoryCanonical = s.memoryCanonical := by
  simp [State.loseAttest]

@[simp] theorem State.partialReset_memoryCanonical (s : State) (q cause ch : Nat) :
    (s.partialReset q cause ch).memoryCanonical = s.memoryCanonical := by
  simp [State.partialReset]

@[simp] theorem State.fenceSite_memoryCanonical (s : State) (q cause : Nat) :
    (s.fenceSite q cause).memoryCanonical = s.memoryCanonical := by
  simp [State.fenceSite]

@[simp] theorem State.siteFail_memoryCanonical (s : State) (q : Nat) :
    (s.siteFail q).memoryCanonical = s.memoryCanonical := by
  simp [State.siteFail]

@[simp] theorem State.siteRecord_memoryCanonical (s : State) (q : Nat) :
    (s.siteRecord q).memoryCanonical = s.memoryCanonical := by
  simp [State.siteRecord]

@[simp] theorem State.widthMismatch_memoryCanonical (s : State) (q echoed kind : Nat) :
    (s.widthMismatch q echoed kind).memoryCanonical = s.memoryCanonical := by
  simp [State.widthMismatch]

@[simp] theorem State.siteIdle_memoryCanonical (s : State) (q ch : Nat) (nak : Bool) :
    (s.siteIdle q ch nak).memoryCanonical = s.memoryCanonical := (rfl)

@[simp] theorem State.siteUp_memoryCanonical (s : State) (q : Nat) :
    (s.siteUp q).memoryCanonical = s.memoryCanonical := by
  simp [State.siteUp]

@[simp] theorem State.siteReplay_memoryCanonical (s : State) (q ch : Nat) :
    (s.siteReplay q ch).memoryCanonical = s.memoryCanonical := by
  simp [State.siteReplay]

@[simp] theorem State.frameAck_memoryCanonical (s : State) (q ch : Nat) (b : Bytes) :
    (s.frameAck q ch b).memoryCanonical = s.memoryCanonical := by
  simp [State.frameAck]

@[simp] theorem State.frameIn_memoryCanonical (s : State) (q ch : Nat) (b : Bytes) (good : Bool) :
    (s.frameIn q ch b good).memoryCanonical = s.memoryCanonical := by
  simp [State.frameIn]

@[simp] theorem State.siteTake_memoryCanonical (s : State) (q ch vc : Nat) :
    (s.siteTake q ch vc).memoryCanonical = s.memoryCanonical := by
  unfold State.siteTake
  split <;> simp

@[simp] theorem State.bezelEvent_memoryCanonical (s : State) (q cause op part addr : Nat) :
    (s.bezelEvent q cause op part addr).memoryCanonical = s.memoryCanonical := by
  simp [State.bezelEvent]

@[simp] theorem State.bezelCheck_memoryCanonical (s : State) (q : Nat) (m : SiteMsg) (write : Bool) :
    (s.bezelCheck q m write).2.1.memoryCanonical = s.memoryCanonical := by
  unfold State.bezelCheck
  generalize (if write then siteWriteOp else siteReadOp) = w
  dsimp only
  split
  · rfl
  · split
    · simp
    · split
      · split
        · simp
        · split
          · simp
          · split <;> simp
      · split
        · simp
        · split <;> simp

@[simp] theorem State.siteAnswer_memoryCanonical (s : State) (q ch : Nat) (m : SiteMsg) (op status : Nat) (data : Bytes) (poison : Bool) :
    (s.siteAnswer q ch m op status data poison).memoryCanonical = s.memoryCanonical := by
  simp [State.siteAnswer]

@[simp] theorem State.siteRefuse_memoryCanonical (s : State) (q ch : Nat) (m : SiteMsg) (op status : Nat) :
    (s.siteRefuse q ch m op status).memoryCanonical = s.memoryCanonical := by
  simp [State.siteRefuse]

@[simp] theorem State.siteCtl_canonical {s : State} (action : Nat) (k : Nat → State) (hk : ∀ q, (k q).memoryCanonical = true)
    (h : s.memoryCanonical = true) : (s.siteCtl action k).memoryCanonical = true := by
  refine State.mailbox_canonical _ _ _ _ (fun b => ?_) h
  simp [hk, h]

@[simp] theorem State.siteBoundary_memoryCanonical (s : State) :
    (s.siteBoundary).memoryCanonical = s.memoryCanonical := by
  simp [State.siteBoundary]

/-! ### Machine/Rings.lean -/

@[simp] theorem State.updRing_memoryCanonical (s : State) (i : Nat) (f : Ring → Ring) :
    (s.updRing i f).memoryCanonical = s.memoryCanonical := (rfl)

@[simp] theorem State.updCRing_memoryCanonical (s : State) (c : Nat) (f : CRing → CRing) :
    (s.updCRing c f).memoryCanonical = s.memoryCanonical := (rfl)

@[simp] theorem State.writeRingCtl_memoryCanonical (s : State) (i w : Nat) :
    (s.writeRingCtl i w).memoryCanonical = s.memoryCanonical := (rfl)

@[simp] theorem State.writeRingBase_memoryCanonical (s : State) (i w : Nat) :
    (s.writeRingBase i w).memoryCanonical = s.memoryCanonical := (rfl)

@[simp] theorem State.writeRingCell_memoryCanonical (s : State) (i w : Nat) :
    (s.writeRingCell i w).memoryCanonical = s.memoryCanonical := (rfl)

@[simp] theorem State.writeCRingCtl_memoryCanonical (s : State) (c w : Nat) :
    (s.writeCRingCtl c w).memoryCanonical = s.memoryCanonical := by
  unfold State.writeCRingCtl
  dsimp only
  split <;> simp

@[simp] theorem State.writeCRingBase_memoryCanonical (s : State) (c w : Nat) :
    (s.writeCRingBase c w).memoryCanonical = s.memoryCanonical := (rfl)

@[simp] theorem State.writeCRingCell_memoryCanonical (s : State) (c w : Nat) :
    (s.writeCRingCell c w).memoryCanonical = s.memoryCanonical := (rfl)

@[simp] theorem State.writeEvtCtl_memoryCanonical (s : State) (w : Nat) :
    (s.writeEvtCtl w).memoryCanonical = s.memoryCanonical := (rfl)

@[simp] theorem State.writeEvtBase_memoryCanonical (s : State) (w : Nat) :
    (s.writeEvtBase w).memoryCanonical = s.memoryCanonical := by
  simp [State.writeEvtBase]

@[simp] theorem State.writeEvtCell_memoryCanonical (s : State) (w : Nat) :
    (s.writeEvtCell w).memoryCanonical = s.memoryCanonical := by
  simp [State.writeEvtCell]

/-- A read of the control plane that waits has asked for pages and lines only. -/
theorem State.ctlRead_wait_memoryCanonical {s t : State} {part pasid va n : Nat} {who : Waiter}
    (h : s.ctlRead part pasid va n who = .wait t) : t.memoryCanonical = s.memoryCanonical := by
  unfold State.ctlRead at h
  split at h
  · cases h
  · split at h
    · cases h; simp
    · dsimp only at h
      split at h
      · cases h
      · split at h
        · cases h; rfl
        · split at h <;> cases h
    · split at h
      · cases h; simp
      · split at h <;> cases h
    · cases h

@[simp] theorem State.putRecord_memoryCanonical (s : State) (x : Flight) :
    (s.putRecord x).memoryCanonical = s.memoryCanonical := by
  simp [State.putRecord]

@[simp] theorem State.putTail_memoryCanonical (s : State) (c : Nat) :
    (s.putTail c).memoryCanonical = s.memoryCanonical := by
  simp [State.putTail]

@[simp] theorem State.putHead_memoryCanonical (s : State) (i : Nat) :
    (s.putHead i).memoryCanonical = s.memoryCanonical := by
  simp [State.putHead]

@[simp] theorem State.dropRingWaits_memoryCanonical (s : State) (i : Nat) :
    (s.dropRingWaits i).memoryCanonical = s.memoryCanonical := (rfl)

@[simp] theorem State.failHead_memoryCanonical (s : State) (i status dt : Nat) :
    (s.failHead i status dt).memoryCanonical = s.memoryCanonical := by
  unfold State.failHead
  dsimp only
  split <;> simp

@[simp] theorem State.faultHead_memoryCanonical (s : State) (i status : Nat) :
    (s.faultHead i status).memoryCanonical = s.memoryCanonical := by
  simp [State.faultHead]

/-! ### Machine/TetherLink.lean -/

@[simp] theorem State.updPort_memoryCanonical (s : State) (p : Nat) (f : Port → Port) :
    (s.updPort p f).memoryCanonical = s.memoryCanonical := (rfl)

@[simp] theorem State.updLane_memoryCanonical (s : State) (l : Nat) (f : TetherLane → TetherLane) :
    (s.updLane l f).memoryCanonical = s.memoryCanonical := (rfl)

@[simp] theorem State.syncMember_memoryCanonical (s : State) :
    (s.syncMember).memoryCanonical = s.memoryCanonical := (rfl)

@[simp] theorem State.sendCodeword_memoryCanonical (s : State) (l : Nat) (slices : List Bytes) :
    (s.sendCodeword l slices).memoryCanonical = s.memoryCanonical := (rfl)

@[simp] theorem State.sendComma_memoryCanonical (s : State) (p : Nat) :
    (s.sendComma p).memoryCanonical = s.memoryCanonical := (rfl)

@[simp] theorem State.sendGroups_memoryCanonical (s : State) (p : Nat) (gs : List (List Bytes)) :
    (s.sendGroups p gs).memoryCanonical = s.memoryCanonical := by
  induction gs generalizing s with
  | nil => rfl
  | cons g gs ih => simp [State.sendGroups, ih]

@[simp] theorem State.sendFlits_memoryCanonical (s : State) (p : Nat) (fs : List Bytes) :
    (s.sendFlits p fs).memoryCanonical = s.memoryCanonical := by
  simp [State.sendFlits]

@[simp] theorem State.portIdle_memoryCanonical (s : State) (p : Nat) (nak : Bool) :
    (s.portIdle p nak).memoryCanonical = s.memoryCanonical := by
  simp [State.portIdle]

@[simp] theorem State.portPump_memoryCanonical (s : State) (p : Nat) :
    (s.portPump p).memoryCanonical = s.memoryCanonical := by
  simp [State.portPump]

@[simp] theorem State.portSend_memoryCanonical (s : State) (p : Nat) (m : TetherMsg) :
    (s.portSend p m).memoryCanonical = s.memoryCanonical := by
  simp [State.portSend]

@[simp] theorem State.sendLocal_memoryCanonical (s : State) (p op : Nat) (body : Bytes) :
    (s.sendLocal p op body).memoryCanonical = s.memoryCanonical := by
  simp [State.sendLocal]

@[simp] theorem State.sendLocals_memoryCanonical (s : State) (ps : List Nat) (op : Nat) (body : Bytes) :
    (s.sendLocals ps op body).memoryCanonical = s.memoryCanonical := by
  simp [State.sendLocals]

@[simp] theorem State.tetherOut_memoryCanonical (s : State) (m : TetherMsg) :
    (s.tetherOut m).memoryCanonical = s.memoryCanonical := by
  unfold State.tetherOut
  split <;> simp

@[simp] theorem State.tetherAnswer_memoryCanonical (s : State) (m : TetherMsg) (status : Nat) (data : Bytes) (poison : Bool) :
    (s.tetherAnswer m status data poison).memoryCanonical = s.memoryCanonical := by
  simp [State.tetherAnswer]

@[simp] theorem State.startAttempt_memoryCanonical (s : State) (p : Nat) :
    (s.startAttempt p).memoryCanonical = s.memoryCanonical := by
  simp [State.startAttempt]

@[simp] theorem State.failRequests_memoryCanonical (s : State) (p : Nat) :
    (s.failRequests p).memoryCanonical = s.memoryCanonical := (rfl)

@[simp] theorem State.portGone_memoryCanonical (s : State) (p st cause : Nat) :
    (s.portGone p st cause).memoryCanonical = s.memoryCanonical := by
  simp [State.portGone]

@[simp] theorem State.attemptFail_memoryCanonical (s : State) (p cause : Nat) :
    (s.attemptFail p cause).memoryCanonical = s.memoryCanonical := by
  simp [State.attemptFail]

@[simp] theorem State.retrain_memoryCanonical (s : State) (p cause : Nat) :
    (s.retrain p cause).memoryCanonical = s.memoryCanonical := by
  simp [State.retrain]

@[simp] theorem State.portReplay_memoryCanonical (s : State) (p : Nat) :
    (s.portReplay p).memoryCanonical = s.memoryCanonical := by
  simp [State.portReplay]

@[simp] theorem State.flitAck_memoryCanonical (s : State) (p : Nat) (b : Bytes) :
    (s.flitAck p b).memoryCanonical = s.memoryCanonical := by
  simp [State.flitAck]

@[simp] theorem State.flitIn_memoryCanonical (s : State) (p : Nat) (fecOk : Bool) (b : Bytes) :
    (s.flitIn p fecOk b).memoryCanonical = s.memoryCanonical := by
  simp [State.flitIn]

@[simp] theorem State.takeMsg_memoryCanonical (s : State) (p vc : Nat) :
    (s.takeMsg p vc).memoryCanonical = s.memoryCanonical := by
  unfold State.takeMsg
  split <;> simp

/-! ### Machine/TetherOps.lean -/

@[simp] theorem State.setRemote_memoryCanonical (s : State) (r : Remote) :
    (s.setRemote r).memoryCanonical = s.memoryCanonical := (rfl)

@[simp] theorem State.dropRemote_memoryCanonical (s : State) (f : Nat) :
    (s.dropRemote f).memoryCanonical = s.memoryCanonical := (rfl)

@[simp] theorem State.remoteCheckDone_memoryCanonical (s : State) (f : Nat) :
    (s.remoteCheckDone f).memoryCanonical = s.memoryCanonical := by
  unfold State.remoteCheckDone
  split <;> simp

@[simp] theorem State.sendRemote_memoryCanonical (s : State) (x : Flight) (op lines flags object addr value bytes : Nat) (data : Bytes) :
    (s.sendRemote x op lines flags object addr value bytes data).memoryCanonical = s.memoryCanonical := by
  unfold State.sendRemote
  dsimp only
  split <;> simp

@[simp] theorem State.remotePages_memoryCanonical (s : State) (x : Flight) (ns : List PageNeed) :
    (s.remotePages x ns).memoryCanonical = s.memoryCanonical := by
  simp [State.remotePages]

/-- The state that goes on with a remote request. -/
def RemoteStep.state : RemoteStep → State
  | .sent s => s
  | .wait s => s

theorem State.remoteSend_canonical {s : State} (x : Flight) (c : Nat × Nat × Nat) (h : s.memoryCanonical = true) :
    (s.remoteSend x c).state.memoryCanonical = true := by
  unfold State.remoteSend
  dsimp only
  split
  · exact h
  · split
    · rename_i ha; rwa [← State.access_memoryCanonical ha] at h
    · rename_i s0 ha
      have h0 : s0.memoryCanonical = true := by rwa [← State.access_memoryCanonical ha] at h
      split <;> simp [RemoteStep.state, h0]

theorem State.nextRemote_canonical {s : State} {x : Flight} {r : RemoteStep} (hr : s.nextRemote x = r) (h : s.memoryCanonical = true) :
    r.state.memoryCanonical = true := by
  subst hr
  unfold State.nextRemote
  dsimp only
  split
  · exact h
  · split
    · simpa [RemoteStep.state] using h
    · split
      · simpa [RemoteStep.state] using h
      · split
        · simpa [RemoteStep.state] using h
        · split
          · simpa [RemoteStep.state] using h
          · exact State.remoteSend_canonical _ _ (by simpa using h)

@[simp] theorem State.issueRemote_canonical {s : State} (f n : Nat) (h : s.memoryCanonical = true) :
    (s.issueRemote f n).memoryCanonical = true := by
  induction n generalizing s with
  | zero => exact h
  | succ n ih =>
    rw [State.issueRemote]
    split
    · exact h
    · split
      · exact h
      · split
        · rename_i hr; exact ih (State.nextRemote_canonical hr h)
        · rename_i hr; exact State.nextRemote_canonical hr h

@[simp] theorem State.goRemote_canonical {s : State} (f : Nat) (h : s.memoryCanonical = true) : (s.goRemote f).memoryCanonical = true := by
  simp [State.goRemote, h]

@[simp] theorem State.remoteCheck_memoryCanonical (s : State) (p : Nat) (m : TetherMsg) (n : Nat) :
    (s.remoteCheck p m n).2.memoryCanonical = s.memoryCanonical := by
  unfold State.remoteCheck
  split
  · rfl
  · dsimp only
    split
    · rename_i hs
      split at hs
      · cases hs
      · exact State.accessStop_memoryCanonical hs
    · split <;> simp

theorem State.serve_canonical {s : State} (p op : Nat) (perform : State → TetherMsg → Option State)
    (hp : ∀ m t, perform s m = some t → t.memoryCanonical = true) (h : s.memoryCanonical = true) :
    (s.serve p op perform).memoryCanonical = true := by
  unfold State.serve
  split
  · exact h
  · rename_i m _
    extract_lets n c
    have hc : c.2.memoryCanonical = true := by simpa [c] using h
    split
    · simpa using hc
    · split
      · simpa using h
      · split
        · rename_i ht; simpa using hp _ _ ht
        · split <;> simpa using h

theorem State.remoteWrite_canonical {s t : State} {m : TetherMsg} {bs : List (Nat × Byte)} {n : Nat}
    (ht : s.remoteWrite m bs n = some t) (h : s.memoryCanonical = true) : t.memoryCanonical = true := by
  unfold State.remoteWrite at ht
  split at ht
  · cases ht
  · cases ht
    have hc : (s.charge 17 (writeCost n)).memoryCanonical = true := by simpa using h
    simp only [State.tetherAnswer_memoryCanonical]
    split
    · exact State.writeDev_canonical _ _ _ hc
    · exact State.canonical_foldl _ (fun u b hu => State.writeDev_canonical _ _ _ hu) _ hc

@[simp] theorem State.signalsDone_memoryCanonical (s : State) :
    (s.signalsDone).memoryCanonical = s.memoryCanonical := by
  simp [State.signalsDone]

theorem State.respond_canonical {s : State} (p op : Nat) (k : State → Flight → RemoteReq → TetherMsg → Option (State × Nat))
    (hk : ∀ x r m u, k s x r m = some u → u.1.memoryCanonical = true) (h : s.memoryCanonical = true) :
    (s.respond p op k).memoryCanonical = true := by
  unfold State.respond
  split
  · exact h
  · split
    · simpa using h
    · split
      · simpa using h
      · split
        · exact h
        · rename_i hu
          have h1 := hk _ _ _ _ hu
          apply State.goRemote_canonical
          simpa using h1

/-! ### Machine/TetherFabric.lean -/

@[simp] theorem State.leaveFabric_memoryCanonical (s : State) :
    (s.leaveFabric).memoryCanonical = s.memoryCanonical := by
  simp [State.leaveFabric]

@[simp] theorem State.adoptTick_memoryCanonical (s : State) (p n t : Nat) :
    (s.adoptTick p n t).memoryCanonical = s.memoryCanonical := by
  simp [State.adoptTick]

@[simp] theorem State.refuseJoin_memoryCanonical (s : State) (p reason : Nat) :
    (s.refuseJoin p reason).memoryCanonical = s.memoryCanonical := by
  simp [State.refuseJoin]

@[simp] theorem State.chooseParent_memoryCanonical (s : State) :
    (s.chooseParent).memoryCanonical = s.memoryCanonical := (rfl)

@[simp] theorem State.tetherBoundary_memoryCanonical (s : State) :
    (s.tetherBoundary).memoryCanonical = s.memoryCanonical := by
  simp [State.tetherBoundary]

@[simp] theorem State.measured_memoryCanonical (s : State) (off : Int) :
    (s.measured off).memoryCanonical = s.memoryCanonical := by
  simp [State.measured]

@[simp] theorem State.setVote_memoryCanonical (s : State) (v : Vote) :
    (s.setVote v).memoryCanonical = s.memoryCanonical := (rfl)

@[simp] theorem State.openVote_memoryCanonical (s : State) :
    (s.openVote).memoryCanonical = s.memoryCanonical := by
  simp [State.openVote]

@[simp] theorem State.raiseVote_memoryCanonical (s : State) (p n st : Nat) :
    (s.raiseVote p n st).memoryCanonical = s.memoryCanonical := by
  simp [State.raiseVote]

@[simp] theorem State.postSlow_memoryCanonical (s : State) (unit m st stack origin : Nat) :
    (s.postSlow unit m st stack origin).memoryCanonical = s.memoryCanonical := by
  simp [State.postSlow]

@[simp] theorem State.sendSlow_memoryCanonical (s : State) (st stack : Nat) :
    (s.sendSlow st stack).memoryCanonical = s.memoryCanonical := by
  simp [State.sendSlow]

/-! ### Machine/TetherPorts.lean -/

@[simp] theorem State.portCtl_canonical {s : State} (action : Nat) (k : Bytes → Nat → State) (hk : ∀ b p, (k b p).memoryCanonical = true)
    (h : s.memoryCanonical = true) : (s.portCtl action k).memoryCanonical = true := by
  refine State.mailbox_canonical _ _ _ _ (fun b => ?_) h
  split
  · exact hk _ _
  · exact h

@[simp] theorem State.bringUp_memoryCanonical (s : State) (p : Nat) :
    (s.bringUp p).memoryCanonical = s.memoryCanonical := by
  simp [State.bringUp]

@[simp] theorem State.rxStop_memoryCanonical (s : State) (l : Nat) :
    (s.rxStop l).memoryCanonical = s.memoryCanonical := by
  simp [State.rxStop]

@[simp] theorem State.chooseWidth_memoryCanonical (s : State) (p : Nat) :
    (s.chooseWidth p).memoryCanonical = s.memoryCanonical := by
  unfold State.chooseWidth
  dsimp only
  repeat' split
  all_goals simp

@[simp] theorem State.sendControl_memoryCanonical (s : State) (l loop : Nat) :
    (s.sendControl l loop).memoryCanonical = s.memoryCanonical := by
  simp [State.sendControl]

@[simp] theorem State.endLoop_memoryCanonical (s : State) (p : Nat) :
    (s.endLoop p).memoryCanonical = s.memoryCanonical := by
  simp [State.endLoop]

@[simp] theorem State.adaptRx_memoryCanonical (s : State) (l : Nat) :
    (s.adaptRx l).memoryCanonical = s.memoryCanonical := (rfl)

@[simp] theorem State.retireLane_memoryCanonical (s : State) (l cause : Nat) :
    (s.retireLane l cause).memoryCanonical = s.memoryCanonical := by
  simp [State.retireLane]

@[simp] theorem State.fecCount_memoryCanonical (s : State) (p l : Nat) (g : LineDecoded) :
    (s.fecCount p l g).memoryCanonical = s.memoryCanonical := by
  simp [State.fecCount]

@[simp] theorem State.takeCodeword_memoryCanonical (s : State) (p : Nat) (w : LaneWord) :
    (s.takeCodeword p w).memoryCanonical = s.memoryCanonical := by
  simp [State.takeCodeword]

@[simp] theorem State.dropFlit_memoryCanonical (s : State) (p : Nat) :
    (s.dropFlit p).memoryCanonical = s.memoryCanonical := by
  simp [State.dropFlit]

/-! ### Machine/Power.lean -/

@[simp] theorem State.updRail_memoryCanonical (s : State) (r : Nat) (f : Rail → Rail) :
    (s.updRail r f).memoryCanonical = s.memoryCanonical := (rfl)

@[simp] theorem State.syncSetpoints_memoryCanonical (s : State) :
    (s.syncSetpoints).memoryCanonical = s.memoryCanonical := by
  simp [State.syncSetpoints]

@[simp] theorem State.shareOut_memoryCanonical (s : State) (v : PowerView) :
    (s.shareOut v).memoryCanonical = s.memoryCanonical := by
  simp [State.shareOut]

@[simp] theorem State.divergence_memoryCanonical (s : State) (v : PowerView) :
    (s.divergence v).memoryCanonical = s.memoryCanonical := by
  simp [State.divergence]

@[simp] theorem State.powerControl_memoryCanonical (s : State) :
    (s.powerControl).memoryCanonical = s.memoryCanonical := by
  simp [State.powerControl]

@[simp] theorem State.stepClock_memoryCanonical (s : State) :
    (s.stepClock).memoryCanonical = s.memoryCanonical := by
  simp [State.stepClock]

@[simp] theorem State.powerBoundary_memoryCanonical (s : State) :
    (s.powerBoundary).memoryCanonical = s.memoryCanonical := by
  simp [State.powerBoundary]

@[simp] theorem State.railFailed_memoryCanonical (s : State) (r test : Nat) :
    (s.railFailed r test).memoryCanonical = s.memoryCanonical := by
  simp [State.railFailed]

@[simp] theorem State.railSample_memoryCanonical (s : State) (old : List Rail) (r : Nat) :
    (s.railSample old r).memoryCanonical = s.memoryCanonical := by
  simp [State.railSample]

@[simp] theorem State.setStretch_memoryCanonical (s : State) (h : Nat) (x : Option Stretch) :
    (s.setStretch h x).memoryCanonical = s.memoryCanonical := (rfl)

@[simp] theorem State.tripped_memoryCanonical (s : State) (r : Nat) :
    (s.tripped r).memoryCanonical = s.memoryCanonical := (rfl)

@[simp] theorem State.setDomain_memoryCanonical (s : State) (d : Nat) (off : Bool) :
    (s.setDomain d off).memoryCanonical = s.memoryCanonical := (rfl)

@[simp] theorem State.enterIdle_memoryCanonical (s : State) (mode : Nat) :
    (s.enterIdle mode).memoryCanonical = s.memoryCanonical := by
  unfold State.enterIdle
  split <;> simp

@[simp] theorem State.leaveIdle_canonical {s : State} (mode : Nat) (h : s.memoryCanonical = true) : (s.leaveIdle mode).memoryCanonical = true := by
  unfold State.leaveIdle
  split
  · extract_lets s1
    have h1 : s1.memoryCanonical = true := by simpa [s1] using h
    simp only [State.memoryCanonical, Mem.wf, Bool.and_eq_true] at h1
    obtain ⟨⟨⟨⟨hb, hc⟩, hf⟩, -⟩, -⟩ := h1
    simp only [State.memoryCanonical_mk, contentsCanonical, hb, hc, hf, SMap.wf_nil, Bool.and_self]
  · simpa using h
  · simpa using h
  · exact h

@[simp] theorem State.postIdle_memoryCanonical (s : State) (old new cause : Nat) :
    (s.postIdle old new cause).memoryCanonical = s.memoryCanonical := by
  simp [State.postIdle]

@[simp] theorem State.idleBoundary_memoryCanonical (s : State) :
    (s.idleBoundary).memoryCanonical = s.memoryCanonical := by
  unfold State.idleBoundary
  dsimp only
  split <;> simp

@[simp] theorem State.wake_memoryCanonical (s : State) (mode : Nat) :
    (s.wake mode).memoryCanonical = s.memoryCanonical := by
  simp [State.wake]

/-! ### Machine/Thermal.lean -/

@[simp] theorem State.updThermStack_memoryCanonical (s : State) (k : Nat) (f : ThermStack → ThermStack) :
    (s.updThermStack k f).memoryCanonical = s.memoryCanonical := (rfl)

@[simp] theorem State.warnUpdate_memoryCanonical (s : State) :
    (s.warnUpdate).memoryCanonical = s.memoryCanonical := (rfl)

@[simp] theorem State.sensorFailed_memoryCanonical (s : State) (n : Nat) :
    (s.sensorFailed n).memoryCanonical = s.memoryCanonical := (rfl)

@[simp] theorem State.sensorTest_memoryCanonical (s : State) (n : Nat) :
    (s.sensorTest n).memoryCanonical = s.memoryCanonical := by
  simp [State.sensorTest]

@[simp] theorem State.applyHint_memoryCanonical (s : State) (p : Nat) (d : Bytes) :
    (s.applyHint p d).memoryCanonical = s.memoryCanonical := (rfl)

@[simp] theorem State.setDuty_memoryCanonical (s : State) (k d : Nat) :
    (s.setDuty k d).memoryCanonical = s.memoryCanonical := (rfl)

@[simp] theorem State.setStackLimit_memoryCanonical (s : State) (k l : Nat) :
    (s.setStackLimit k l).memoryCanonical = s.memoryCanonical := by
  simp [State.setStackLimit]

@[simp] theorem State.throttleStack_memoryCanonical (s : State) (k : Nat) :
    (s.throttleStack k).memoryCanonical = s.memoryCanonical := by
  simp [State.throttleStack]

@[simp] theorem State.stackHard_memoryCanonical (s : State) (k : Nat) :
    (s.stackHard k).memoryCanonical = s.memoryCanonical := (rfl)

@[simp] theorem State.judgeStack_memoryCanonical (s : State) (k : Nat) (again : Bool) :
    (s.judgeStack k again).memoryCanonical = s.memoryCanonical := by
  unfold State.judgeStack
  dsimp only
  repeat' split
  all_goals simp

@[simp] theorem State.stackWindow_memoryCanonical (s : State) (k : Nat) :
    (s.stackWindow k).memoryCanonical = s.memoryCanonical := by
  simp [State.stackWindow]

@[simp] theorem State.ballastCorrect_memoryCanonical (s : State) :
    (s.ballastCorrect).memoryCanonical = s.memoryCanonical := by
  simp [State.ballastCorrect]

@[simp] theorem State.junctionWindow_memoryCanonical (s : State) :
    (s.junctionWindow).memoryCanonical = s.memoryCanonical := by
  simp [State.junctionWindow]

/-! ### Machine/Descs.lean -/

@[simp] theorem State.postRefusedAt_memoryCanonical (s : State) (p : Nat) (d : Bytes) (st a n : Nat) :
    (s.postRefusedAt p d st a n).memoryCanonical = s.memoryCanonical := by
  unfold State.postRefusedAt
  dsimp only
  repeat' split
  all_goals simp

@[simp] theorem State.postRefused_memoryCanonical (s : State) (p : Nat) (d : Bytes) (st : Nat) :
    (s.postRefused p d st).memoryCanonical = s.memoryCanonical := by
  unfold State.postRefused
  split <;> simp

@[simp] theorem State.blur_canonical {s : State} (x : Flight) (hs : s.memoryCanonical = true) :
    (s.blur x).memoryCanonical = true := by
  simp [State.blur, hs]

@[simp] theorem State.spoilPiece_canonical {s : State} (x : Flight) (hs : s.memoryCanonical = true) :
    (s.spoilPiece x).memoryCanonical = true := by
  simp [State.spoilPiece, hs]

/-! ### Machine/Xlat.lean -/

@[simp] theorem State.postUnresolved_memoryCanonical (s : State) (p unit tag page cause : Nat) :
    (s.postUnresolved p unit tag page cause).memoryCanonical = s.memoryCanonical := by
  simp [State.postUnresolved]

@[simp] theorem State.endWait_canonical {s : State} (w : Wait) (page status cause : Nat) (hs : s.memoryCanonical = true) :
    (s.endWait w page status cause).memoryCanonical = true := by
  unfold State.endWait
  dsimp only
  repeat' split
  all_goals simp +contextual [hs]

@[simp] theorem State.joinFault_memoryCanonical (s : State) (pasid page : Nat) (w : Wait) :
    (s.joinFault pasid page w).memoryCanonical = s.memoryCanonical := (rfl)

@[simp] theorem State.foundFault_canonical {s : State} (pasid page : Nat) (w : Wait) (hs : s.memoryCanonical = true) :
    (s.foundFault pasid page w).memoryCanonical = true := by
  simp [State.foundFault, hs]

@[simp] theorem State.judgeAhead_memoryCanonical (s : State) (t : TransCompletion) (page : Nat) (w : Wait) (f j : Nat) :
    (s.judgeAhead t page w f j).memoryCanonical = s.memoryCanonical := by
  unfold State.judgeAhead
  split <;> simp

@[simp] theorem State.judgeWait_canonical {s : State} (t : TransCompletion) (noWrite : Bool) (page : Nat) (w : Wait) (hs : s.memoryCanonical = true) :
    (s.judgeWait t noWrite page w).memoryCanonical = true := by
  unfold State.judgeWait
  split <;> simp [hs]

@[simp] theorem State.judgeReq_canonical {s : State} (t : TransCompletion) (r : XlatReq) (hs : s.memoryCanonical = true) :
    (s.judgeReq t r).memoryCanonical = true := by
  simp +contextual [State.judgeReq, hs]

@[simp] theorem State.giveVerdicts_canonical {s : State} (hs : s.memoryCanonical = true) :
    (s.giveVerdicts).memoryCanonical = true := by
  simp +contextual [State.giveVerdicts, hs]

@[simp] theorem State.takeCompletion_canonical {s : State} (t : TransCompletion) (hs : s.memoryCanonical = true) :
    (s.takeCompletion t).memoryCanonical = true := by
  unfold State.takeCompletion
  split <;> simp +contextual [hs]

@[simp] theorem State.endFaults_canonical {s : State} (p : PageFault → Bool) (cause : Nat) (h : s.memoryCanonical = true) :
    (s.endFaults p cause).memoryCanonical = true :=
  State.canonical_foldl _ (fun _ f hu => State.canonical_foldl _ (fun _ w hv => State.endWait_canonical w f.page 2 cause hv) _ hu) _ h

@[simp] theorem State.dropGroup_memoryCanonical (s : State) (g : Nat) :
    (s.dropGroup g).memoryCanonical = s.memoryCanonical := (rfl)

@[simp] theorem State.retranslate_memoryCanonical (s : State) (g : Nat) :
    (s.retranslate g).memoryCanonical = s.memoryCanonical := by
  simp [State.retranslate]

@[simp] theorem State.haltPri_canonical {s : State} (pasid g : Nat) (hs : s.memoryCanonical = true) :
    (s.haltPri pasid g).memoryCanonical = true := by
  simp [State.haltPri, hs]

@[simp] theorem State.countFault_memoryCanonical (s : State) (f : PageFault) (read write : Bool) :
    (s.countFault f read write).memoryCanonical = s.memoryCanonical := by
  refine State.foldl_memoryCanonical _ (fun u p => ?_) _
  split <;> rfl

@[simp] theorem State.sendGroup_memoryCanonical (s : State) (pasid : Nat) (fs : List PageFault) :
    (s.sendGroup pasid fs).memoryCanonical = s.memoryCanonical := by
  unfold State.sendGroup
  split <;> simp

@[simp] theorem State.faultBatch_memoryCanonical (s : State) :
    (s.faultBatch).memoryCanonical = s.memoryCanonical := by
  simp [State.faultBatch]

@[simp] theorem State.invalidate_memoryCanonical (s : State) (src : InvSource) (r : InvRange) :
    (s.invalidate src r).memoryCanonical = s.memoryCanonical := (rfl)

/-! ### Machine/Admit.lean -/

@[simp] theorem State.usedVa_canonical {s : State} (pasid va n : Nat) (hs : s.memoryCanonical = true) :
    (s.usedVa pasid va n).memoryCanonical = true := by
  unfold State.usedVa
  split <;> simp [hs]

@[simp] theorem State.sampleCRing_canonical {s : State} (c : Nat) (h : s.memoryCanonical = true) : (s.sampleCRing c).memoryCanonical = true := by
  unfold State.sampleCRing
  dsimp only
  split
  · exact h
  · split
    · rename_i hr; rwa [State.ctlRead_wait_memoryCanonical hr]
    · simpa using h
    · simpa using h
    · simpa using State.usedVa_canonical _ _ _ h

@[simp] theorem State.sampleEvt_canonical {s : State} (h : s.memoryCanonical = true) : s.sampleEvt.memoryCanonical = true := by
  unfold State.sampleEvt
  split
  · exact h
  · split
    · rename_i hr; rwa [State.ctlRead_wait_memoryCanonical hr]
    · simpa using State.usedVa_canonical _ _ _ h
    · exact h

@[simp] theorem State.sampleTail_canonical {s : State} (i : Nat) (h : s.memoryCanonical = true) : (s.sampleTail i).memoryCanonical = true := by
  unfold State.sampleTail
  dsimp only
  split
  · exact h
  · split
    · rename_i hr; rwa [State.ctlRead_wait_memoryCanonical hr]
    · simpa using h
    · simpa using h
    · simpa using State.usedVa_canonical _ _ _ h

theorem State.readSlots_wait_memoryCanonical {s t : State} {i pos n : Nat} {acc : Bytes} (h : s.readSlots i pos n acc = .wait t) :
    t.memoryCanonical = s.memoryCanonical := by
  induction n generalizing pos acc with
  | zero => cases h
  | succ n ih =>
    rw [State.readSlots] at h
    split at h
    · rename_i hr; cases h; exact State.ctlRead_wait_memoryCanonical hr
    · cases h; simp
    · cases h; simp
    · exact ih h

theorem State.readDesc_wait_memoryCanonical {s t : State} {i pos tail : Nat} (h : s.readDesc i pos tail = .wait t) :
    t.memoryCanonical = s.memoryCanonical := by
  unfold State.readDesc at h
  dsimp only at h
  split at h
  · cases h
  · split at h
    · split at h
      · cases h
      · exact State.readSlots_wait_memoryCanonical h
    · exact State.readSlots_wait_memoryCanonical h

@[simp] theorem State.usedSlots_canonical {s : State} (i pos n : Nat) (hs : s.memoryCanonical = true) :
    (s.usedSlots i pos n).memoryCanonical = true := by
  simp +contextual [State.usedSlots, hs]

@[simp] theorem State.examined_memoryCanonical (s : State) (i n : Nat) :
    (s.examined i n).memoryCanonical = s.memoryCanonical := (rfl)

@[simp] theorem State.tookDesc_canonical {s : State} (i pos : Nat) (d : Bytes) (hs : s.memoryCanonical = true) :
    (s.tookDesc i pos d).memoryCanonical = true := by
  simp [State.tookDesc, hs]

@[simp] theorem State.readGroup_canonical {s : State} (i tail fuel : Nat) (h : s.memoryCanonical = true) :
    (s.readGroup i tail fuel).1.memoryCanonical = true := by
  induction fuel generalizing s with
  | zero => exact h
  | succ fuel ih =>
    rw [State.readGroup]
    dsimp only
    split
    · exact h
    · split
      · exact h
      · split
        · rename_i hr; rwa [State.readDesc_wait_memoryCanonical hr]
        · exact h
        · exact ih (State.tookDesc_canonical _ _ _ h)

@[simp] theorem State.postStageFailed_memoryCanonical (s : State) (p : Nat) (d : Bytes) (k st : Nat) :
    (s.postStageFailed p d k st).memoryCanonical = s.memoryCanonical := (rfl)

theorem State.stageSize_memoryCanonical {s : State} {p : Nat} {moves : Bool} {d : Bytes} {r : StageSize} (h : s.stageSize p moves d = r) :
    r.state.memoryCanonical = s.memoryCanonical := by
  subst h
  unfold State.stageSize
  split
  · rfl
  · split
    · rfl
    · split
      · rfl
      · dsimp only
        split
        · simp [StageSize.state]
        · split
          · rfl
          · simp [StageSize.state]

@[simp] theorem State.queueFlight_memoryCanonical (s : State) (i : Nat) (d : Bytes) (pos : Nat) (consumer : Option Nat) (need : List (Nat × Nat)) :
    (s.queueFlight i d pos consumer need).memoryCanonical = s.memoryCanonical := (rfl)

@[simp] theorem State.atAdmission_memoryCanonical (s : State) (d : Bytes) :
    (s.atAdmission d).memoryCanonical = s.memoryCanonical := by
  simp [State.atAdmission]

@[simp] theorem State.admitGroup_memoryCanonical (s : State) (i : Nat) (ms : List Bytes) (d : Bytes) (need : List (Nat × Nat)) :
    (s.admitGroup i ms d need).memoryCanonical = s.memoryCanonical := by
  have hq : ∀ (ms : List Bytes) (c : Nat) (a : State × Nat),
      (ms.foldl (fun (a : State × Nat) m => (a.1.queueFlight i m a.2 (some c) [], a.2 + dSlots m)) a).1.memoryCanonical =
        a.1.memoryCanonical := by
    intro ms c
    induction ms with
    | nil => exact fun a => rfl
    | cons m ms ih => exact fun a => by simp [ih]
  simp [State.admitGroup, hq]

@[simp] theorem State.postFailed_memoryCanonical (s : State) (p k : Nat) (ms : List Bytes) (d : Bytes) (st : Nat) :
    (s.postFailed p k ms d st).memoryCanonical = s.memoryCanonical := by
  simp [State.postFailed]

theorem State.judge_memoryCanonical {s : State} {i : Nat} {ms : List Bytes} {d : Bytes} {r : Fate} (h : s.judge i ms d = r) :
    r.state.memoryCanonical = s.memoryCanonical := by
  subst h
  unfold State.judge
  dsimp only
  split
  · rfl
  · split
    · simp [Fate.state]
    · simp [Fate.state]
    · split
      · simp [Fate.state]
      · split
        · rename_i hr; exact State.stageSize_memoryCanonical hr
        · rename_i hr
          have hs := State.stageSize_memoryCanonical hr
          split
          · exact hs
          · split <;> exact hs

@[simp] theorem State.admitHead_canonical {s : State} (i : Nat) (h : s.memoryCanonical = true) : (s.admitHead i).1.memoryCanonical = true := by
  unfold State.admitHead
  dsimp only
  split
  · exact h
  · rename_i tail _
    split
    · exact h
    · have hg := State.readGroup_canonical i tail ((s.ring i).size + 2) h
      split
      · exact hg
      · split
        · simpa using hg
        · split
          · simpa using hg
          · split
            all_goals
              rename_i hr
              have hj := State.judge_memoryCanonical hr
              simp only [Fate.state, State.examined_memoryCanonical] at hj
              simpa [hj] using hg

@[simp] theorem State.admitRing_canonical {s : State} (i fuel : Nat) (h : s.memoryCanonical = true) : (s.admitRing i fuel).memoryCanonical = true := by
  induction fuel generalizing s with
  | zero => exact h
  | succ fuel ih =>
    have ha := State.admitHead_canonical i h
    rw [State.admitRing]
    split
    · exact ih ha
    · exact ha

@[simp] theorem State.admitRings_canonical (order : List Nat) {s : State} (h : s.memoryCanonical = true) :
    (State.admitRings order s).memoryCanonical = true :=
  State.canonical_foldl _ (fun _ _ hu => State.admitRing_canonical _ _ hu) s h

@[simp] theorem State.admitProgress_canonical {s : State} (h : s.memoryCanonical = true) : s.admitProgress.memoryCanonical = true := by
  unfold State.admitProgress
  split
  · exact h
  · have he : (if s.ctl.released then s.sampleEvt else s).memoryCanonical = true := by
      split
      · exact State.sampleEvt_canonical h
      · exact h
    extract_lets s1
    split
    · exact he
    · exact State.admitRings_canonical _ (State.canonical_foldl _ (fun _ i hu => State.sampleTail_canonical i hu) _
        (State.canonical_foldl _ (fun _ c hu => State.sampleCRing_canonical c hu) _ he))

/-! ### Machine/Slices.lean -/

@[simp] theorem State.eligible_memoryCanonical (s : State) (x : Flight) :
    (s.eligible x).memoryCanonical = s.memoryCanonical := by
  simp [State.eligible]

@[simp] theorem State.judgeQueued_memoryCanonical (s : State) (f : Nat) :
    (s.judgeQueued f).memoryCanonical = s.memoryCanonical := by
  unfold State.judgeQueued
  split <;> simp

@[simp] theorem State.startRun_memoryCanonical (s : State) (edge : Nat) :
    (s.startRun edge).memoryCanonical = s.memoryCanonical := by
  simp [State.startRun]

@[simp] theorem State.lookAhead_memoryCanonical (s : State) (x : Flight) (j : Nat) :
    (s.lookAhead x j).memoryCanonical = s.memoryCanonical := by
  simp [State.lookAhead]

@[simp] theorem State.parkPiece_memoryCanonical (s : State) (x : Flight) (j : Nat) (ns : List PageNeed) :
    (s.parkPiece x j ns).memoryCanonical = s.memoryCanonical := by
  simp [State.parkPiece]

@[simp] theorem State.startPiece_memoryCanonical (s : State) (x : Flight) (j u : Nat) (ns : List PageNeed) :
    (s.startPiece x j u ns).memoryCanonical = s.memoryCanonical := by
  unfold State.startPiece
  dsimp only
  split <;> simp

@[simp] theorem State.tooManyNow_canonical {s : State} (x : Flight) (j : Nat) (ns : List PageNeed) (hs : s.memoryCanonical = true) :
    (s.tooManyNow x j ns).memoryCanonical = true := by
  simp [State.tooManyNow, hs]

@[simp] theorem State.tryPiece_canonical {s : State} (x : Flight) (j u : Nat) (hs : s.memoryCanonical = true) :
    (s.tryPiece x j u).memoryCanonical = true := by
  simp [State.tryPiece, hs]

@[simp] theorem State.startRemote_canonical {s : State} (x : Flight) (h : s.memoryCanonical = true) :
    (s.startRemote x).memoryCanonical = true := by
  simp [State.startRemote, h]

@[simp] theorem State.endStrand_memoryCanonical (s : State) (x : Flight) (j n : Nat) :
    (s.endStrand x j n).memoryCanonical = s.memoryCanonical := by
  unfold State.endStrand
  dsimp only
  split <;> simp

@[simp] theorem State.dropPrefetch_memoryCanonical (s : State) (f : Nat) :
    (s.dropPrefetch f).memoryCanonical = s.memoryCanonical := (rfl)

@[simp] theorem State.closeRunOf_memoryCanonical (s : State) (x : Flight) :
    (s.closeRunOf x).memoryCanonical = s.memoryCanonical := by
  simp [State.closeRunOf]

@[simp] theorem State.discardSpec_memoryCanonical (s : State) (f n : Nat) :
    (s.discardSpec f n).memoryCanonical = s.memoryCanonical := by
  unfold State.discardSpec
  split <;> simp

/-! ### Machine/Resets.lean -/

@[simp] theorem State.resetFlight_canonical {s : State} (x : Flight) (hs : s.memoryCanonical = true) :
    (s.resetFlight x).memoryCanonical = true := by
  unfold State.resetFlight
  dsimp only
  repeat' split
  all_goals simp +contextual [hs]

@[simp] theorem State.resetSlots_memoryCanonical (s : State) (p : Nat) :
    (s.resetSlots p).memoryCanonical = s.memoryCanonical := by
  simp [State.resetSlots]

@[simp] theorem State.resetCasket_canonical {s : State} (p : Nat) (h : s.memoryCanonical = true) : (s.resetCasket p).memoryCanonical = true := by
  refine State.canonical_foldl _ (fun u e hu => State.canonical_foldl _ (fun v g hv => ?_) u hu) s h
  split
  · split
    · exact State.zeroCasket_canonical _ _ hv
    · exact hv
  · exact hv

@[simp] theorem State.resetStop_canonical {s : State} (p : Nat) (h : s.memoryCanonical = true) : (s.resetStop p).memoryCanonical = true := by
  unfold State.resetStop
  extract_lets mine halted s1 tiles s2
  have h1 : s1.memoryCanonical = true := by
    apply State.resetCasket_canonical
    simpa using State.canonical_foldl _ (fun u x hu => State.resetFlight_canonical x hu) s h
  simpa [s2] using h1

@[simp] theorem State.rewriteTiles_memoryCanonical (s : State) (p : Nat) (again : List Nat) :
    (s.rewriteTiles p again).memoryCanonical = s.memoryCanonical := by
  simp [State.rewriteTiles]

@[simp] theorem State.spoilStack_canonical {s : State} (k : Nat) (h : s.memoryCanonical = true) : (s.spoilStack k).memoryCanonical = true := by
  simp only [State.memoryCanonical, Bool.and_eq_true] at h ⊢
  exact ⟨⟨Mem.storeStack_wf _ _ _ _ h.1.1, h.1.2⟩, h.2⟩

@[simp] theorem State.stackConsumed_canonical {s : State} (addr part consumer tag : Nat) (hs : s.memoryCanonical = true) :
    (s.stackConsumed addr part consumer tag).memoryCanonical = true := by
  unfold State.stackConsumed
  split <;> simp [State.secondFault_canonical, hs]

@[simp] theorem State.pendingByte_memoryCanonical (s : State) (f addr : Nat) (cells : BitVec 12) :
    (s.pendingByte f addr cells).memoryCanonical = s.memoryCanonical := by
  unfold State.pendingByte
  dsimp only
  repeat' split
  all_goals simp

/-! ### Machine/Settle.lean -/

@[simp] theorem State.confirmFaults_canonical {s : State} (f : Nat) (h : s.memoryCanonical = true) :
    (s.confirmFaults f).memoryCanonical = true := by
  unfold State.confirmFaults
  extract_lets mine hit clear xlat s1
  have h1 : s1.memoryCanonical = true := h
  clear_value s1
  refine State.canonical_foldl _ (fun u r hu => ?_) s1 h1
  refine State.canonical_foldl _ (fun v w hv => ?_) u hu
  exact State.foundFault_canonical _ _ _ hv

@[simp] theorem State.confirmed_memoryCanonical (s : State) (x : Flight) :
    (s.confirmed x).memoryCanonical = s.memoryCanonical := by
  simp [State.confirmed]

@[simp] theorem State.settleSpec_canonical {s : State} (f : Nat) (hs : s.memoryCanonical = true) :
    (s.settleSpec f).memoryCanonical = true := by
  unfold State.settleSpec
  split <;> simp [hs]

@[simp] theorem State.awaitWriteback_memoryCanonical (s : State) (x : Flight) :
    (s.awaitWriteback x).memoryCanonical = s.memoryCanonical := by
  simp [State.awaitWriteback]

@[simp] theorem State.stopPencils_memoryCanonical (s : State) (slot pos : Nat) (l : Option Nat) (due : List Nat) :
    (s.stopPencils slot pos l due).memoryCanonical = s.memoryCanonical := by
  simp [State.stopPencils]

@[simp] theorem State.settleStep1_memoryCanonical (s : State) (due : List Nat) (f : Nat) :
    (s.settleStep1 due f).memoryCanonical = s.memoryCanonical := by
  unfold State.settleStep1
  split <;> simp

@[simp] theorem State.commitPrefetch_canonical {s : State} (x : Flight) (h : s.memoryCanonical = true) :
    (s.commitPrefetch x).memoryCanonical = true := by
  unfold State.commitPrefetch
  extract_lets d lines s0 at_ s1 s2 s3 s4
  have h0 : s0.memoryCanonical = true := by simpa [s0] using State.reportBad_canonical _ _ _ h
  have h1 : s1.memoryCanonical = true := State.canonical_foldl _ (fun u l hu => State.writeCasket_canonical _ _ hu) _ h0
  have h2 : s2.memoryCanonical = true := by
    simp only [s2]
    split
    · exact State.canonical_foldl _ (fun u b hu => State.genCrc_canonical _ _ _ b hu) _ h1
    · exact h1
  have h3 : s3.memoryCanonical = true := by simpa [s3] using h2
  have h4 : s4.memoryCanonical = true := by
    simp only [s4]
    split <;> simpa using h3
  simp [h0, h4]

@[simp] theorem State.commitHeld_canonical {s : State} (x : Flight) (hs : s.memoryCanonical = true) :
    (s.commitHeld x).memoryCanonical = true := by
  simp +contextual [State.commitHeld, hs]

@[simp] theorem State.settleStep2_canonical {s : State} (due : List Nat) (f : Nat) (hs : s.memoryCanonical = true) :
    (s.settleStep2 due f).memoryCanonical = true := by
  unfold State.settleStep2
  dsimp only
  repeat' split
  all_goals simp +contextual [hs]

@[simp] theorem State.settleCloses_memoryCanonical (s : State) (due : List Nat) :
    (s.settleCloses due).memoryCanonical = s.memoryCanonical := by
  simp [State.settleCloses]

@[simp] theorem State.dropMoves_memoryCanonical (s : State) (cs : List Nat) :
    (s.dropMoves cs).memoryCanonical = s.memoryCanonical := by
  simp [State.dropMoves]

@[simp] theorem State.judgeStaging_memoryCanonical (s : State) (f : Nat) : (s.judgeStaging f).1.memoryCanonical = s.memoryCanonical := by
  unfold State.judgeStaging
  split
  · rfl
  · dsimp only
    split
    · rfl
    · split
      · simp
      · split
        · simp
        · rfl

@[simp] theorem State.settleStaging_memoryCanonical (s : State) : s.settleStaging.memoryCanonical = s.memoryCanonical := by
  have judged : ∀ (l : List Nat) (a : State × List (Nat × Nat)),
      (l.foldl (fun (a : State × List (Nat × Nat)) f => ((a.1.judgeStaging f).1, a.2 ++ (a.1.judgeStaging f).2.toList)) a).1.memoryCanonical =
        a.1.memoryCanonical := by
    intro l
    exact State.foldl_fst_memoryCanonical l fun _ _ => State.judgeStaging_memoryCanonical ..
  refine (State.foldl_memoryCanonical _ (fun u p => ?_) _).trans (judged _ (s, []))
  dsimp only
  split <;> simp

@[simp] theorem State.settleRecord_memoryCanonical (s : State) (x : Flight) :
    (s.settleRecord x).memoryCanonical = s.memoryCanonical := by
  simp [State.settleRecord]

@[simp] theorem State.settleRecords_memoryCanonical (s : State) (due : List Flight) :
    (s.settleRecords due).memoryCanonical = s.memoryCanonical := by
  simp [State.settleRecords]

@[simp] theorem State.settleReset_memoryCanonical (s : State) (p : Nat) :
    (s.settleReset p).memoryCanonical = s.memoryCanonical := by
  unfold State.settleReset
  split <;> simp

@[simp] theorem State.settleClasps_memoryCanonical (s : State) (due : List Flight) :
    (s.settleClasps due).memoryCanonical = s.memoryCanonical := by
  simp [State.settleClasps]

@[simp] theorem State.queueEvents_memoryCanonical (s : State) :
    (s.queueEvents).memoryCanonical = s.memoryCanonical := (rfl)

@[simp] theorem State.evtPlace_memoryCanonical (s : State) (va n : Nat) : (s.evtPlace va n).2.memoryCanonical = s.memoryCanonical := by
  unfold State.evtPlace
  split
  · rfl
  · split <;> simp

@[simp] theorem State.writeEvents_memoryCanonical (s : State) (fuel : Nat) (w : Bool) :
    (s.writeEvents fuel w).1.memoryCanonical = s.memoryCanonical := by
  induction fuel generalizing s w with
  | zero => rfl
  | succ fuel ih =>
    rw [State.writeEvents]
    dsimp only
    split
    · rfl
    · split
      · simp
      · exact ih _ _

@[simp] theorem State.settleEvents_canonical {s : State} (h : s.memoryCanonical = true) : s.settleEvents.memoryCanonical = true := by
  have he := State.sampleEvt_canonical (s := s.queueEvents) (by simpa using h)
  unfold State.settleEvents
  dsimp only
  split
  · exact he
  · split
    · simpa using he
    · simpa using he

@[simp] theorem State.applyPartSet_memoryCanonical (s : State) (b : Bytes) :
    (s.applyPartSet b).memoryCanonical = s.memoryCanonical := by
  simp [State.applyPartSet]

@[simp] theorem State.settleSeal_memoryCanonical (s : State) :
    (s.settleSeal).memoryCanonical = s.memoryCanonical := by
  simp [State.settleSeal]

@[simp] theorem State.settleMbox_memoryCanonical (s : State) :
    (s.settleMbox).memoryCanonical = s.memoryCanonical := by
  unfold State.settleMbox
  dsimp only
  repeat' split
  all_goals simp

@[simp] theorem State.showSlots_memoryCanonical (s : State) :
    (s.showSlots).memoryCanonical = s.memoryCanonical := (rfl)

@[simp] theorem State.settlePhase_canonical {s : State} (edge : Nat) (h : s.memoryCanonical = true) :
    (s.settlePhase edge).memoryCanonical = true := by
  unfold State.settlePhase
  extract_lets s1 t s2 s3 all s4 s5 due s6 s7 s8 done s9 s10
  have h3 : s3.memoryCanonical = true := by simp [s3, s2, t, s1, h]
  have h4 : s4.memoryCanonical = true := State.canonical_foldl _ (fun u f hu => State.settleSpec_canonical f hu) _ h3
  have h5 : s5.memoryCanonical = true := by
    simpa [s5] using h4
  have h6 : s6.memoryCanonical = true := by
    simpa [s6] using h5
  have h7 : s7.memoryCanonical = true := State.canonical_foldl _ (fun u f hu => State.settleStep2_canonical due f hu) _ h6
  have h10 : s10.memoryCanonical = true := State.settleEvents_canonical (by simpa [s9, s8] using h7)
  exact State.drain_canonical (by simpa using h10)

/-! ### Machine/Startup.lean -/

/-- A cold restart finds the memories empty (R486). -/
@[simp] theorem State.coldBase_canonical (s : State) (kept : Bool) : (s.coldBase kept).memoryCanonical = true := by
  simp [State.coldBase, contentsCanonical, SMap.wf_nil]

@[simp] theorem State.trainHost_memoryCanonical (s : State) :
    (s.trainHost).memoryCanonical = s.memoryCanonical := by
  unfold State.trainHost
  split <;> simp

@[simp] theorem State.bootHalt_memoryCanonical (s : State) (step : Nat) :
    (s.bootHalt step).memoryCanonical = s.memoryCanonical := by
  simp [State.bootHalt]

@[simp] theorem State.loadFields_memoryCanonical (s : State) :
    (s.loadFields).memoryCanonical = s.memoryCanonical := (rfl)

@[simp] theorem State.bootImage_memoryCanonical (s : State) (b : BootInput) :
    (s.bootImage b).memoryCanonical = s.memoryCanonical := by
  unfold State.bootImage
  split <;> simp

@[simp] theorem State.unitReport_memoryCanonical (s : State) (kind unit off given applied : Nat) :
    (s.unitReport kind unit off given applied).memoryCanonical = s.memoryCanonical := (rfl)

@[simp] theorem State.bootCore_memoryCanonical (s : State) (t : Nat) :
    (s.bootCore t).memoryCanonical = s.memoryCanonical := by
  simp [State.bootCore]

@[simp] theorem State.bootRouter_memoryCanonical (s : State) (t : Nat) :
    (s.bootRouter t).memoryCanonical = s.memoryCanonical := by
  simp [State.bootRouter]

@[simp] theorem State.bootUnits_memoryCanonical (s : State) (b : BootInput) :
    (s.bootUnits b).memoryCanonical = s.memoryCanonical := by
  simp [State.bootUnits]

@[simp] theorem State.bootRepair_memoryCanonical (s : State) (b : BootInput) (i : Nat) :
    (s.bootRepair b i).memoryCanonical = s.memoryCanonical := by
  unfold State.bootRepair
  split
  · rfl
  · split
    · rfl
    · simp

@[simp] theorem State.bootGroup_memoryCanonical (s : State) (ok : Bool) (failed : List Nat) (n : Nat) :
    (s.bootGroup ok failed n).memoryCanonical = s.memoryCanonical := by
  simp [State.bootGroup, State.updGroup, State.unitReport]

@[simp] theorem State.bootModes_memoryCanonical (s : State) (sb : StackBoot) (k : Nat) :
    (s.bootModes sb k).memoryCanonical = s.memoryCanonical := by
  simp [State.bootModes]

@[simp] theorem State.bootStack_memoryCanonical (s : State) (b : BootInput) (k : Nat) :
    (s.bootStack b k).memoryCanonical = s.memoryCanonical := by
  simp [State.bootStack]

@[simp] theorem State.bootLinks_memoryCanonical (s : State) :
    (s.bootLinks).memoryCanonical = s.memoryCanonical := by
  simp [State.bootLinks]

@[simp] theorem State.bootFill_memoryCanonical (s : State) :
    (s.bootFill).memoryCanonical = s.memoryCanonical := by
  simp [State.bootFill]

@[simp] theorem State.coldStart_memoryCanonical (s : State) (b : BootInput) (first : Bool) :
    (s.coldStart b first).memoryCanonical = s.memoryCanonical := by
  simp [State.coldStart]

@[simp] theorem State.syncEngines_memoryCanonical (s : State) :
    (s.syncEngines).memoryCanonical = s.memoryCanonical := (rfl)

@[simp] theorem State.released_memoryCanonical (s : State) :
    (s.released).memoryCanonical = s.memoryCanonical := by
  simp [State.released]

@[simp] theorem State.showUnits_memoryCanonical (s : State) :
    (s.showUnits).memoryCanonical = s.memoryCanonical := (rfl)

@[simp] theorem State.releaseEvents_memoryCanonical (s : State) :
    (s.releaseEvents).memoryCanonical = s.memoryCanonical := by
  unfold State.releaseEvents
  dsimp only
  split <;> simp

@[simp] theorem State.numberBeads_memoryCanonical (s : State) :
    (s.numberBeads).memoryCanonical = s.memoryCanonical := (rfl)

/-- A warm reset finds the Casket empty (R479). -/
@[simp] theorem State.warmCompute_canonical {s : State} (h : s.memoryCanonical = true) : s.warmCompute.memoryCanonical = true := by
  simp only [State.memoryCanonical, Mem.wf, Bool.and_eq_true] at h
  obtain ⟨⟨⟨⟨hb, hc⟩, hf⟩, -⟩, -⟩ := h
  simp only [State.warmCompute, State.memoryCanonical_mk, contentsCanonical, hb, hc, hf, SMap.wf_nil, Bool.and_self]

@[simp] theorem State.warmHost_memoryCanonical (s : State) :
    (s.warmHost).memoryCanonical = s.memoryCanonical := (rfl)

@[simp] theorem State.warmMemory_memoryCanonical (s : State) :
    (s.warmMemory).memoryCanonical = s.memoryCanonical := (rfl)

@[simp] theorem State.warmLocket_memoryCanonical (s : State) :
    (s.warmLocket).memoryCanonical = s.memoryCanonical := by
  simp [State.warmLocket]

@[simp] theorem State.warmTether_memoryCanonical (s : State) :
    (s.warmTether).memoryCanonical = s.memoryCanonical := by
  simp [State.warmTether]

@[simp] theorem State.warmSites_memoryCanonical (s : State) :
    (s.warmSites).memoryCanonical = s.memoryCanonical := by
  simp [State.warmSites]

@[simp] theorem State.warmPower_canonical {s : State} (hs : s.memoryCanonical = true) :
    (s.warmPower).memoryCanonical = true := by
  simp +contextual [State.warmPower, hs]

@[simp] theorem State.hostPortReset_memoryCanonical (s : State) :
    (s.hostPortReset).memoryCanonical = s.memoryCanonical := (rfl)

/-! ### Machine/Boundary.lean -/

@[simp] theorem State.memoryBoundary_canonical {s : State} (hs : s.memoryCanonical = true) :
    (s.memoryBoundary).memoryCanonical = true := by
  simp [State.memoryBoundary, State.writebackAll_canonical, hs]

@[simp] theorem State.fenceRouters_memoryCanonical (s : State) : s.fenceRouters.memoryCanonical = s.memoryCanonical := by
  refine State.foldl_memoryCanonical _ (fun u e => ?_) _
  cases e.2.partition <;> simp

@[simp] theorem State.forgetCell_memoryCanonical (s : State) (pasid cell base : Nat) (idx : List Nat) (width : Nat) :
    (s.forgetCell pasid cell base idx width).memoryCanonical = s.memoryCanonical := (rfl)

@[simp] theorem State.ringBoundary_memoryCanonical (s : State) (i : Nat) :
    (s.ringBoundary i).memoryCanonical = s.memoryCanonical := by
  simp [State.ringBoundary]

@[simp] theorem State.evtBoundary_memoryCanonical (s : State) :
    (s.evtBoundary).memoryCanonical = s.memoryCanonical := by
  simp [State.evtBoundary]

@[simp] theorem State.ringsBoundary_memoryCanonical (s : State) :
    (s.ringsBoundary).memoryCanonical = s.memoryCanonical := by
  simp [State.ringsBoundary]

@[simp] theorem State.sampleMbox_memoryCanonical (s : State) :
    (s.sampleMbox).memoryCanonical = s.memoryCanonical := by
  simp [State.sampleMbox]

@[simp] theorem State.workBoundary_memoryCanonical (s : State) :
    (s.workBoundary).memoryCanonical = s.memoryCanonical := (rfl)

@[simp] theorem State.nextTick_canonical {s : State} (edge : Nat) (h : s.memoryCanonical = true) : (s.nextTick edge).memoryCanonical = true := by
  unfold State.nextTick
  extract_lets s1 t s2 s3 s4 s5 s6
  have h4 : s4.memoryCanonical = true := by simp [s4, s3, s2, t, s1, h]
  clear_value s4
  have h5 : s5.memoryCanonical = true := by
    simp only [s5]
    exact State.runReturn_canonical (State.beginUnseals_canonical (by simpa using h4))
  clear_value s5
  have h6 : s6.memoryCanonical = true := by simp [s6, h5]
  exact State.drain_canonical (State.admitProgress_canonical h6)

@[simp] theorem State.edge_canonical {s : State} (hs : s.memoryCanonical = true) :
    (s.edge).memoryCanonical = true := by
  unfold State.edge
  split <;> simp [hs]

/-! ### Machine/Control.lean -/

@[simp] theorem State.writeMbox_memoryCanonical (s : State) (i : Option Nat) (h : Half) (v : W64) :
    (s.writeMbox i h v).memoryCanonical = s.memoryCanonical := by
  unfold State.writeMbox
  dsimp only
  repeat' split
  all_goals simp

/-! ### Machine/TrafficGen.lean -/

@[simp] theorem State.updGen_memoryCanonical (s : State) (c : Nat) (f : TrafficGen → TrafficGen) :
    (s.updGen c f).memoryCanonical = s.memoryCanonical := (rfl)

@[simp] theorem State.genStart_memoryCanonical (s : State) (c : Nat) :
    (s.genStart c).memoryCanonical = s.memoryCanonical := by
  unfold State.genStart
  dsimp only
  repeat' split
  all_goals simp

@[simp] theorem State.genStop_memoryCanonical (s : State) (c : Nat) :
    (s.genStop c).memoryCanonical = s.memoryCanonical := (rfl)

@[simp] theorem State.genControl_memoryCanonical (s : State) (c v : Nat) :
    (s.genControl c v).memoryCanonical = s.memoryCanonical := by
  simp [State.genControl]

@[simp] theorem State.putBeat_canonical {s : State} (c a : Nat) (raw : Bool) (b : Bytes) (h : s.memoryCanonical = true) :
    (s.putBeat c a raw b).memoryCanonical = true := by
  have put : ∀ m : Mem, m.wf = true → ({ s with mem := m } : State).memoryCanonical = true := by
    simp only [State.memoryCanonical, Bool.and_eq_true] at h ⊢
    exact fun m hm => ⟨⟨hm, h.1.2⟩, h.2⟩
  have hm : s.mem.wf = true := by
    simp only [State.memoryCanonical, Bool.and_eq_true] at h
    exact h.1.1
  unfold State.putBeat
  dsimp only
  split
  · exact h
  · split
    · exact put _ (Mem.holdSetting_wf _ _ _ hm)
    · split
      · refine put _ ?_
        have hs := Mem.storeStack_wf (beatStorage c a) (b.take 64) [] [] hm
        simp only [Mem.wf, Bool.and_eq_true] at hs ⊢
        exact ⟨⟨hs.1.1, SMap.wf_set _ _ _ _ hs.1.2⟩, hs.2⟩
      · split <;> exact put _ (Mem.storeStack_wf _ _ _ _ hm)

@[simp] theorem State.genBeat_canonical {s : State} (c p : Nat) (seen : List (Nat × Bytes)) (hs : s.memoryCanonical = true) :
    (s.genBeat c p seen).memoryCanonical = true := by
  simp [State.genBeat, hs]

@[simp] theorem State.genRun_canonical {s : State} (c n : Nat) (seen : List (Nat × Bytes)) (fuel : Nat) (h : s.memoryCanonical = true) :
    (s.genRun c n seen fuel).memoryCanonical = true := by
  induction fuel generalizing s with
  | zero => exact h
  | succ fuel ih =>
    simp only [State.genRun]
    split
    · exact h
    · split
      · simpa using h
      · exact ih (State.genBeat_canonical _ _ _ h)

/-! ### Machine/Debug.lean -/

@[simp] theorem State.dbgResume_memoryCanonical (s : State) (t : Nat) :
    (s.dbgResume t).memoryCanonical = s.memoryCanonical := by
  simp [State.dbgResume]

@[simp] theorem State.writeClaim_memoryCanonical (s : State) (v : Nat) :
    (s.writeClaim v).memoryCanonical = s.memoryCanonical := by
  simp [State.writeClaim]

/-! ### Machine/Regs.lean -/

@[simp] theorem State.writeTickCfg_memoryCanonical (s : State) (h : Half) (v : W64) :
    (s.writeTickCfg h v).memoryCanonical = s.memoryCanonical := by
  simp [State.writeTickCfg]

@[simp] theorem State.writeRingBlock_memoryCanonical (s : State) (o : Nat) (hf : Half) (v : W64) :
    (s.writeRingBlock o hf v).memoryCanonical = s.memoryCanonical := by
  unfold State.writeRingBlock
  split
  · split <;> simp
  · split <;> simp
  · rfl

@[simp] theorem State.writeXlatBlock_memoryCanonical (s : State) (o : Nat) (h : Half) (v : W64) :
    (s.writeXlatBlock o h v).memoryCanonical = s.memoryCanonical := by
  unfold State.writeXlatBlock
  dsimp only
  repeat' split
  all_goals simp

@[simp] theorem State.writeSailBlock_memoryCanonical (s : State) (o : Nat) (h : Half) (v : W64) :
    (s.writeSailBlock o h v).memoryCanonical = s.memoryCanonical := by
  unfold State.writeSailBlock
  split <;> simp

@[simp] theorem State.writeCasketBlock_memoryCanonical (s : State) (o : Nat) (h : Half) (v : W64) :
    (s.writeCasketBlock o h v).memoryCanonical = s.memoryCanonical := by
  unfold State.writeCasketBlock
  dsimp only
  repeat' split
  all_goals simp

@[simp] theorem State.writeMemBlock_memoryCanonical (s : State) (o : Nat) (h : Half) (v : W64) :
    (s.writeMemBlock o h v).memoryCanonical = s.memoryCanonical := by
  unfold State.writeMemBlock
  dsimp only
  repeat' split
  all_goals simp

@[simp] theorem State.writeMemcBlock_memoryCanonical (s : State) (o : Nat) (h : Half) (v : W64) :
    (s.writeMemcBlock o h v).memoryCanonical = s.memoryCanonical := by
  unfold State.writeMemcBlock
  dsimp only
  repeat' split
  all_goals simp

@[simp] theorem State.writeTetherBlock_memoryCanonical (s : State) (o : Nat) (h : Half) (v : W64) :
    (s.writeTetherBlock o h v).memoryCanonical = s.memoryCanonical := by
  unfold State.writeTetherBlock
  dsimp only
  repeat' split
  all_goals simp

@[simp] theorem State.writeEvtBlock_memoryCanonical (s : State) (o : Nat) (h : Half) (v : W64) :
    (s.writeEvtBlock o h v).memoryCanonical = s.memoryCanonical := by
  unfold State.writeEvtBlock
  split <;> simp

@[simp] theorem State.writeMboxBlock_memoryCanonical (s : State) (o : Nat) (hf : Half) (v : W64) :
    (s.writeMboxBlock o hf v).memoryCanonical = s.memoryCanonical := by
  unfold State.writeMboxBlock
  split
  · simp
  · split <;> simp

@[simp] theorem State.writeBlock_memoryCanonical (s : State) (off : Nat) (h : Half) (v : W64) :
    (s.writeBlock off h v).memoryCanonical = s.memoryCanonical := by
  unfold State.writeBlock
  split <;> simp

end Sys2Proof.Machine
end

section
/-! SUPPORT. What every command makes of the canonical form, and the statement O4 (R208, R235, R268). -/

namespace Sys2Proof.Machine

/-! ### Machine/Movers.lean -/

@[simp] theorem execCopy_canonical {s : State} (f : Nat) (h : s.memoryCanonical = true) :
    nextCanonical (execCopy f s) := by
  unfold execCopy
  split <;> simp [h]

@[simp] theorem execFill_canonical {s : State} (f : Nat) (h : s.memoryCanonical = true) :
    nextCanonical (execFill f s) := by
  unfold execFill
  split <;> simp [h]

@[simp] theorem execCrcgen_canonical {s : State} (f : Nat) (h : s.memoryCanonical = true) :
    nextCanonical (execCrcgen f s) := by
  unfold execCrcgen
  split <;> simp [h]

@[simp] theorem execCrcverify_canonical {s : State} (f : Nat) (h : s.memoryCanonical = true) :
    nextCanonical (execCrcverify f s) := by
  unfold execCrcverify
  split <;> simp [h]

/-! ### Machine/Sail.lean -/

@[simp] theorem execGemm_canonical {s : State} (f : Nat) (e : List SailFault) (h : s.memoryCanonical = true) :
    nextCanonical (execGemm f e s) := by
  unfold execGemm
  split
  · exact (nextCanonical_next _).2 (State.sailWork_canonical _ _ _ (fun u hu => by simp [hu]) h)
  · exact (nextCanonical_next _).2 h

@[simp] theorem execScan_canonical {s : State} (f : Nat) (e : List SailFault) (h : s.memoryCanonical = true) :
    nextCanonical (execScan f e s) := by
  unfold execScan
  split
  · exact (nextCanonical_next _).2 (State.sailWork_canonical _ _ _ (fun u hu => by simp [hu]) h)
  · exact (nextCanonical_next _).2 h

@[simp] theorem execReduce_canonical {s : State} (f : Nat) (e : List SailFault) (h : s.memoryCanonical = true) :
    nextCanonical (execReduce f e s) := by
  unfold execReduce
  split
  · exact (nextCanonical_next _).2 (State.sailWork_canonical _ _ _ (fun u hu => by simp [hu]) h)
  · exact (nextCanonical_next _).2 h

@[simp] theorem execSfu_canonical {s : State} (f : Nat) (e : List SailFault) (h : s.memoryCanonical = true) :
    nextCanonical (execSfu f e s) := by
  unfold execSfu
  split
  · exact (nextCanonical_next _).2 (State.sailWork_canonical _ _ _ (fun u hu => by simp [hu]) h)
  · exact (nextCanonical_next _).2 h

/-! ### Machine/Attend.lean -/

@[simp] theorem execSlotOpen_canonical {s : State} (f : Nat) (h : s.memoryCanonical = true) :
    nextCanonical (execSlotOpen f s) := by
  unfold execSlotOpen
  split <;> simp [h]

@[simp] theorem execSlotClose_canonical {s : State} (f : Nat) (h : s.memoryCanonical = true) :
    nextCanonical (execSlotClose f s) := by
  unfold execSlotClose
  split <;> simp [h]

@[simp] theorem execKvWrite_canonical {s : State} (f : Nat) (h : s.memoryCanonical = true) :
    nextCanonical (execKvWrite f s) := by
  unfold execKvWrite
  split <;> simp [h]

@[simp] theorem execKvSettle_canonical {s : State} (f : Nat) (h : s.memoryCanonical = true) :
    nextCanonical (execKvSettle f s) := by
  unfold execKvSettle
  split <;> simp [h]

@[simp] theorem execAttend_canonical {s : State} (f j : Nat) (e : List SailFault) (h : s.memoryCanonical = true) :
    nextCanonical (execAttend f j e s) := by
  unfold execAttend
  split
  · exact (nextCanonical_next _).2 (State.sailWork_canonical _ _ _ (fun u hu => by simp [hu]) h)
  · exact (nextCanonical_next _).2 h

/-! ### Machine/Beads.lean -/

@[simp] theorem execIntegerOp_canonical {s : State} (t : Nat) (h : s.memoryCanonical = true) : nextCanonical (execIntegerOp t s) :=
  nextCanonical_guarded _ _ (State.bead_canonical t _ _ (fun _ _ _ _ _ hu => State.semInteger_canonical _ _ _ _ hu) h)

@[simp] theorem execBranch_canonical {s : State} (t : Nat) (h : s.memoryCanonical = true) :
    nextCanonical (execBranch t s) := by
  refine nextCanonical_guarded _ _ (State.bead_canonical t _ _ (fun u x i w len hu => ?_) h)
  split <;> simp [hu]

@[simp] theorem execJump_canonical {s : State} (t : Nat) (h : s.memoryCanonical = true) :
    nextCanonical (execJump t s) := by
  refine nextCanonical_guarded _ _ (State.bead_canonical t _ _ (fun u x i w len hu => ?_) h)
  split <;> simp [hu]

@[simp] theorem execBeadLoad_canonical {s : State} (t : Nat) (upset : List (Nat × Bool)) (h : s.memoryCanonical = true) :
    nextCanonical (execBeadLoad t upset s) :=
  nextCanonical_guarded _ _
    (State.bead_canonical t _ _ (fun _ _ _ _ _ hu => State.semLoad_canonical _ _ _ _ hu) (by simpa using h))

@[simp] theorem execBeadStore_canonical {s : State} (t : Nat) (upset : List (Nat × Bool)) (h : s.memoryCanonical = true) :
    nextCanonical (execBeadStore t upset s) :=
  nextCanonical_guarded _ _
    (State.bead_canonical t _ _ (fun _ _ _ _ _ hu => State.semStore_canonical _ _ _ _ hu) (by simpa using h))

@[simp] theorem execMul_canonical {s : State} (t : Nat) (h : s.memoryCanonical = true) :
    nextCanonical (execMul t s) := by
  refine nextCanonical_guarded _ _ (State.bead_canonical t _ _ (fun u x i w len hu => ?_) h)
  split <;> simp [hu]

@[simp] theorem execDiv_canonical {s : State} (t : Nat) (h : s.memoryCanonical = true) :
    nextCanonical (execDiv t s) := by
  refine nextCanonical_guarded _ _ (State.bead_canonical t _ _ (fun u x i w len hu => ?_) h)
  split <;> simp [hu]

@[simp] theorem execCsrAccess_canonical {s : State} (t : Nat) (h : s.memoryCanonical = true) : nextCanonical (execCsrAccess t s) :=
  nextCanonical_guarded _ _ (State.bead_canonical t _ _ (fun _ _ _ _ _ hu => State.semCsr_canonical _ _ _ _ _ hu) h)

@[simp] theorem execFence_canonical {s : State} (t : Nat) (h : s.memoryCanonical = true) :
    nextCanonical (execFence t s) := by
  refine nextCanonical_guarded _ _ (State.bead_canonical t _ _ (fun u x i w len hu => ?_) h)
  simp [hu]

@[simp] theorem execEcall_canonical {s : State} (t : Nat) (h : s.memoryCanonical = true) :
    nextCanonical (execEcall t s) := by
  refine nextCanonical_guarded _ _ (State.bead_canonical t _ _ (fun u x i w len hu => ?_) h)
  simp [hu]

@[simp] theorem execEbreak_canonical {s : State} (t : Nat) (h : s.memoryCanonical = true) :
    nextCanonical (execEbreak t s) := by
  refine nextCanonical_guarded _ _ (State.bead_canonical t _ _ (fun u x i w len hu => ?_) h)
  simp [hu]

@[simp] theorem execMret_canonical {s : State} (t : Nat) (h : s.memoryCanonical = true) :
    nextCanonical (execMret t s) := by
  refine nextCanonical_guarded _ _ (State.bead_canonical t _ _ (fun u x i w len hu => ?_) h)
  simp [hu]

@[simp] theorem execWfi_canonical {s : State} (t : Nat) (h : s.memoryCanonical = true) :
    nextCanonical (execWfi t s) := by
  refine nextCanonical_guarded _ _ (State.bead_canonical t _ _ (fun u x i w len hu => ?_) h)
  simp [hu]

@[simp] theorem execWfiWake_canonical {s : State} (t : Nat) (h : s.memoryCanonical = true) :
    nextCanonical (execWfiWake t s) := by
  refine nextCanonical_guarded _ _ ?_
  dsimp only
  repeat' split
  all_goals simp +contextual [h]

@[simp] theorem execIllegalInstruction_canonical {s : State} (t : Nat) (h : s.memoryCanonical = true) :
    nextCanonical (execIllegalInstruction t s) := by
  refine nextCanonical_guarded _ _ ?_
  dsimp only
  split
  · split
    · exact h
    · exact State.beadCommit_canonical t (BeadRes.canonical_trap _ _ _) h
  · exact State.bead_canonical t _ _ (fun _ _ _ _ _ _ => BeadRes.canonical_trap _ _ _) h

@[simp] theorem execVaddB_canonical {s : State} (t : Nat) (h : s.memoryCanonical = true) :
    nextCanonical (execVaddB t s) := by
  simp [execVaddB, h]

@[simp] theorem execVsubB_canonical {s : State} (t : Nat) (h : s.memoryCanonical = true) :
    nextCanonical (execVsubB t s) := by
  simp [execVsubB, h]

@[simp] theorem execVaddsuB_canonical {s : State} (t : Nat) (h : s.memoryCanonical = true) :
    nextCanonical (execVaddsuB t s) := by
  simp [execVaddsuB, h]

@[simp] theorem execVsubsuB_canonical {s : State} (t : Nat) (h : s.memoryCanonical = true) :
    nextCanonical (execVsubsuB t s) := by
  simp [execVsubsuB, h]

@[simp] theorem execVminuB_canonical {s : State} (t : Nat) (h : s.memoryCanonical = true) :
    nextCanonical (execVminuB t s) := by
  simp [execVminuB, h]

@[simp] theorem execVmaxuB_canonical {s : State} (t : Nat) (h : s.memoryCanonical = true) :
    nextCanonical (execVmaxuB t s) := by
  simp [execVmaxuB, h]

@[simp] theorem execVand_canonical {s : State} (t : Nat) (h : s.memoryCanonical = true) :
    nextCanonical (execVand t s) := by
  simp [execVand, h]

@[simp] theorem execVor_canonical {s : State} (t : Nat) (h : s.memoryCanonical = true) :
    nextCanonical (execVor t s) := by
  simp [execVor, h]

@[simp] theorem execVxor_canonical {s : State} (t : Nat) (h : s.memoryCanonical = true) :
    nextCanonical (execVxor t s) := by
  simp [execVxor, h]

@[simp] theorem execVandn_canonical {s : State} (t : Nat) (h : s.memoryCanonical = true) :
    nextCanonical (execVandn t s) := by
  simp [execVandn, h]

@[simp] theorem execVcmpeqB_canonical {s : State} (t : Nat) (h : s.memoryCanonical = true) :
    nextCanonical (execVcmpeqB t s) := by
  simp [execVcmpeqB, h]

@[simp] theorem execVcmpltuB_canonical {s : State} (t : Nat) (h : s.memoryCanonical = true) :
    nextCanonical (execVcmpltuB t s) := by
  simp [execVcmpltuB, h]

@[simp] theorem execVshufB_canonical {s : State} (t : Nat) (h : s.memoryCanonical = true) :
    nextCanonical (execVshufB t s) := by
  simp [execVshufB, h]

@[simp] theorem execVsel_canonical {s : State} (t : Nat) (h : s.memoryCanonical = true) :
    nextCanonical (execVsel t s) := by
  simp [execVsel, h]

@[simp] theorem execVshrB_canonical {s : State} (t : Nat) (h : s.memoryCanonical = true) :
    nextCanonical (execVshrB t s) := by
  simp [execVshrB, h]

@[simp] theorem execVmsk_canonical {s : State} (t : Nat) (h : s.memoryCanonical = true) :
    nextCanonical (execVmsk t s) := by
  refine nextCanonical_guarded _ _ (State.bead_canonical t _ _ (fun u x i w len hu => ?_) h)
  split <;> simp [hu]

@[simp] theorem execVextW_canonical {s : State} (t : Nat) (h : s.memoryCanonical = true) :
    nextCanonical (execVextW t s) := by
  refine nextCanonical_guarded _ _ (State.bead_canonical t _ _ (fun u x i w len hu => ?_) h)
  split <;> simp [hu]

@[simp] theorem execVsplatB_canonical {s : State} (t : Nat) (h : s.memoryCanonical = true) :
    nextCanonical (execVsplatB t s) := by
  refine nextCanonical_guarded _ _ (State.bead_canonical t _ _ (fun u x i w len hu => ?_) h)
  split <;> simp [hu]

@[simp] theorem execVinsW_canonical {s : State} (t : Nat) (h : s.memoryCanonical = true) :
    nextCanonical (execVinsW t s) := by
  refine nextCanonical_guarded _ _ (State.bead_canonical t _ _ (fun u x i w len hu => ?_) h)
  split <;> simp [hu]

@[simp] theorem execVld_canonical {s : State} (t : Nat) (h : s.memoryCanonical = true) : nextCanonical (execVld t s) := by
  refine nextCanonical_guarded _ _ (State.bead_canonical t _ _ (fun u x i w len hu => ?_) h)
  split
  · dsimp only
    split
    · trivial
    · split
      · split
        · split
          · rename_i hr; exact State.doneWith_canonical _ _ _ _ ((State.rxTake_memoryCanonical hr).trans hu)
          · exact hu
        · trivial
      · split
        · rename_i hr; exact State.doneWith_canonical _ _ _ _ (State.beadRead_canonical hr hu)
        · trivial
        · rename_i hr; exact State.beadRead_canonical hr hu
  · exact hu

@[simp] theorem execVst_canonical {s : State} (t : Nat) (h : s.memoryCanonical = true) : nextCanonical (execVst t s) := by
  refine nextCanonical_guarded _ _ (State.bead_canonical t _ _ (fun u x i w len hu => ?_) h)
  split
  · dsimp only
    split
    · trivial
    · split
      · split
        · split
          · rename_i hr; simpa [State.txPut_memoryCanonical hr] using hu
          · exact hu
        · trivial
      · split
        · rename_i hr; exact State.beadWrite_canonical hr hu
        · trivial
        · rename_i hr; exact State.beadWrite_canonical hr hu
  · exact hu

@[simp] theorem execKround_canonical {s : State} (t : Nat) (h : s.memoryCanonical = true) :
    nextCanonical (execKround t s) := by
  refine nextCanonical_guarded _ _ (State.bead_canonical t _ _ (fun u x i w len hu => ?_) h)
  split <;> simp [hu]

@[simp] theorem execTstep_canonical {s : State} (t : Nat) (h : s.memoryCanonical = true) : nextCanonical (execTstep t s) := by
  refine nextCanonical_guarded _ _ (State.bead_canonical t _ _ (fun u x i w len hu => ?_) h)
  split
  · dsimp only
    split
    · trivial
    · split
      · trivial
      · split
        · rename_i hr
          have h1 := State.beadRead_canonical hr hu
          split
          · trivial
          · split
            · trivial
            · split
              · rename_i hr'; exact State.doneWith_canonical _ _ _ _ (State.beadRead_canonical hr' h1)
              · trivial
              · rename_i hr'; exact State.beadRead_canonical hr' h1
        · trivial
        · rename_i hr; exact State.beadRead_canonical hr hu
  · exact hu

@[simp] theorem execTopk_canonical {s : State} (t : Nat) (h : s.memoryCanonical = true) : nextCanonical (execTopk t s) := by
  refine nextCanonical_guarded _ _ (State.bead_canonical t _ _ (fun u x i w len hu => ?_) h)
  split
  · dsimp only
    split
    · trivial
    split
    · trivial
    split
    · trivial
    split
    · trivial
    split
    · rename_i hr
      have h1 : State.memoryCanonical _ = true := State.beadReads_canonical hr hu
      split
      · trivial
      split
      · trivial
      split
      · rename_i hr'
        have h2 : State.memoryCanonical _ = true := State.beadRead_canonical hr' h1
        split <;> exact State.doneWith_canonical _ _ _ _ h2
      · trivial
      · rename_i hr'; exact State.beadRead_canonical hr' h1
    · rename_i hr; exact State.beadReads_canonical hr hu
    · trivial
  · exact hu

@[simp] theorem execLsec_canonical {s : State} (t : Nat) (h : s.memoryCanonical = true) : nextCanonical (execLsec t s) := by
  refine nextCanonical_guarded _ _ (State.bead_canonical t _ _ (fun u x i w len hu => ?_) h)
  split
  · dsimp only
    split
    · trivial
    split
    · trivial
    split
    · trivial
    split
    · trivial
    split
    · rename_i hr
      have h1 : State.memoryCanonical _ = true := State.beadReads_canonical hr hu
      simp [h1]
    · rename_i hr; exact State.beadReads_canonical hr hu
    · trivial
  · exact hu

@[simp] theorem execLsef_canonical {s : State} (t : Nat) (h : s.memoryCanonical = true) : nextCanonical (execLsef t s) := by
  refine nextCanonical_guarded _ _ (State.bead_canonical t _ _ (fun u x i w len hu => ?_) h)
  split
  · dsimp only
    split
    · trivial
    split
    · trivial
    split
    · trivial
    split
    · trivial
    split
    · trivial
    split
    · rename_i hr
      have h1 : State.memoryCanonical _ = true := State.beadReads_canonical hr hu
      simp [h1]
    · rename_i hr; exact State.beadReads_canonical hr hu
    · trivial
  · exact hu

@[simp] theorem execFadd32_canonical {s : State} (t : Nat) (h : s.memoryCanonical = true) :
    nextCanonical (execFadd32 t s) := by
  simp [execFadd32, h]

@[simp] theorem execFmul32_canonical {s : State} (t : Nat) (h : s.memoryCanonical = true) :
    nextCanonical (execFmul32 t s) := by
  simp [execFmul32, h]

@[simp] theorem execFmax32_canonical {s : State} (t : Nat) (h : s.memoryCanonical = true) :
    nextCanonical (execFmax32 t s) := by
  simp [execFmax32, h]

@[simp] theorem execFexp2_canonical {s : State} (t : Nat) (h : s.memoryCanonical = true) :
    nextCanonical (execFexp2 t s) := by
  simp [execFexp2, h]

@[simp] theorem execFrcp_canonical {s : State} (t : Nat) (h : s.memoryCanonical = true) :
    nextCanonical (execFrcp t s) := by
  simp [execFrcp, h]

@[simp] theorem execFkey_canonical {s : State} (t : Nat) (h : s.memoryCanonical = true) :
    nextCanonical (execFkey t s) := by
  simp [execFkey, h]

@[simp] theorem execBeadClaspAdd_canonical {s : State} (t : Nat) (h : s.memoryCanonical = true) : nextCanonical (execBeadClaspAdd t s) :=
  nextCanonical_guarded _ _ (State.bead_canonical t _ _ (fun _ _ _ _ _ hu => State.semClaspAdd_canonical _ _ _ _ hu) h)

@[simp] theorem execBeadClaspValRead_canonical {s : State} (t : Nat) (h : s.memoryCanonical = true) :
    nextCanonical (execBeadClaspValRead t s) :=
  nextCanonical_guarded _ _ (State.bead_canonical t _ _ (fun _ _ _ _ _ hu => State.semClaspVal_canonical _ _ _ _ _ hu) h)

@[simp] theorem execTxStore_canonical {s : State} (t : Nat) (h : s.memoryCanonical = true) : nextCanonical (execTxStore t s) := by
  refine nextCanonical_guarded _ _ (State.bead_canonical t _ _ (fun u x i w len hu => ?_) h)
  split
  · split
    · split
      · rename_i hr; simpa [State.txPut_memoryCanonical hr] using hu
      · exact hu
    · trivial
  · exact hu

@[simp] theorem execRxLoad_canonical {s : State} (t : Nat) (h : s.memoryCanonical = true) : nextCanonical (execRxLoad t s) := by
  refine nextCanonical_guarded _ _ (State.bead_canonical t _ _ (fun u x i w len hu => ?_) h)
  split
  · split
    · split
      · rename_i hr; exact State.doneWith_canonical _ _ _ _ ((State.rxTake_memoryCanonical hr).trans hu)
      · exact hu
    · trivial
  · exact hu

@[simp] theorem execTxCfgWrite_canonical {s : State} (t : Nat) (h : s.memoryCanonical = true) : nextCanonical (execTxCfgWrite t s) := by
  refine nextCanonical_guarded _ _ (State.bead_canonical t _ _ (fun u x i w len hu => ?_) h)
  split
  · split <;> simp [hu]
  · exact hu

@[simp] theorem execRxCfgWrite_canonical {s : State} (t : Nat) (h : s.memoryCanonical = true) : nextCanonical (execRxCfgWrite t s) := by
  refine nextCanonical_guarded _ _ (State.bead_canonical t _ _ (fun u x i w len hu => ?_) h)
  split
  · split <;> simp [hu]
  · exact hu

@[simp] theorem execRxAwait_canonical {s : State} (t : Nat) (h : s.memoryCanonical = true) : nextCanonical (execRxAwait t s) := by
  refine nextCanonical_guarded _ _ (State.bead_canonical t _ _ (fun u x i w len hu => ?_) h)
  split
  · split <;> simp [hu]
  · exact hu

@[simp] theorem execBarrierArrive_canonical {s : State} (t : Nat) (h : s.memoryCanonical = true) :
    nextCanonical (execBarrierArrive t s) := by
  refine nextCanonical_guarded _ _ (State.bead_canonical t _ _ (fun u x i w len hu => ?_) h)
  dsimp only
  repeat' split
  all_goals simp [hu]

@[simp] theorem execBarrierWait_canonical {s : State} (t : Nat) (h : s.memoryCanonical = true) :
    nextCanonical (execBarrierWait t s) := by
  refine nextCanonical_guarded _ _ (State.bead_canonical t _ _ (fun u x i w len hu => ?_) h)
  dsimp only
  repeat' split
  all_goals simp [hu]

@[simp] theorem execBarrierRelease_canonical {s : State} (p b : Nat) (h : s.memoryCanonical = true) :
    nextCanonical (execBarrierRelease p b s) := by
  unfold execBarrierRelease
  split <;> simp [h]

@[simp] theorem execFrame_canonical {s : State} (t : Nat) (h : s.memoryCanonical = true) : nextCanonical (execFrame t s) := by
  refine nextCanonical_guarded _ _ (State.bead_canonical t _ _ (fun u x i w len hu => ?_) h)
  split
  · split <;> simp [hu]
  · exact hu

@[simp] theorem execFrameStart_canonical {s : State} (p : Nat) (e : List MeshFault) (h : s.memoryCanonical = true) :
    nextCanonical (execFrameStart p e s) := by
  refine nextCanonical_guarded _ _ ?_
  dsimp only
  repeat' split
  all_goals simp +contextual [h]

/-! ### Machine/MemCare.lean -/

@[simp] theorem execLeakPeriod_canonical {s : State} (h : s.memoryCanonical = true) :
    nextCanonical (execLeakPeriod s) := by
  simp [execLeakPeriod, h]

@[simp] theorem execStormWindowEnd_canonical {s : State} (b : Nat) (h : s.memoryCanonical = true) :
    nextCanonical (execStormWindowEnd b s) := by
  simp [execStormWindowEnd, h]

@[simp] theorem execStackCommandFailure_canonical {s : State} (c kind : Nat) (h : s.memoryCanonical = true) :
    nextCanonical (execStackCommandFailure c kind s) := by
  simp [execStackCommandFailure, h]

@[simp] theorem execHoldBudgetExpiry_canonical {s : State} (n : Nat) (h : s.memoryCanonical = true) :
    nextCanonical (execHoldBudgetExpiry n s) := by
  simp [execHoldBudgetExpiry, h]

@[simp] theorem execRetrainAttemptEnd_canonical {s : State} (n : Nat) (ok : Bool) (h : s.memoryCanonical = true) :
    nextCanonical (execRetrainAttemptEnd n ok s) := by
  simp [execRetrainAttemptEnd, h]

@[simp] theorem execRebuildDone_canonical {s : State} (n : Nat) (h : s.memoryCanonical = true) :
    nextCanonical (execRebuildDone n s) := by
  simp [execRebuildDone, h]

@[simp] theorem execCanaryRead_canonical {s : State} (c : Nat) (ok : Bool) (h : s.memoryCanonical = true) :
    nextCanonical (execCanaryRead c ok s) := by
  simp [execCanaryRead, h]

/-- One of the results of a scrub read, over the setting as it was read. -/
@[simp] theorem execScrubRead_canonical {s : State} (n st : Nat) (raw : List Bytes) (h : s.memoryCanonical = true) :
    nextCanonical (execScrubRead n st raw s) := by
  refine nextCanonical_guarded _ _ ?_
  extract_lets wide k s1 r s2
  split
  · exact h
  · have h1 : s1.memoryCanonical = true := by
      simp only [State.memoryCanonical, Bool.and_eq_true] at h ⊢
      exact ⟨⟨Mem.holdSetting_wf _ _ _ h.1.1, h.1.2⟩, h.2⟩
    rw [State.scrubOn_memoryCanonical]
    unfold s2
    split
    · exact State.scrubResult_canonical _ _ _ _ _ _ h1
    · exact State.canonical_foldl _ (fun u b hu => State.scrubResult_canonical _ _ _ _ _ _ hu) _ h1

@[simp] theorem execGranuleFillDone_canonical {s : State} (g : Nat) (h : s.memoryCanonical = true) :
    nextCanonical (execGranuleFillDone g s) := by
  simp [execGranuleFillDone, State.writebackFull_canonical, h]

@[simp] theorem execStackRefresh_canonical {s : State} (c bank : Nat) (h : s.memoryCanonical = true) :
    nextCanonical (execStackRefresh c bank s) := by
  simp [execStackRefresh, h]

@[simp] theorem execCalibration_canonical {s : State} (n : Nat) (pc : Option Nat) (h : s.memoryCanonical = true) :
    nextCanonical (execCalibration n pc s) := by
  refine nextCanonical_guarded _ _ ?_
  dsimp only
  repeat' split
  all_goals simp +contextual [State.writebackAll_canonical, h]

@[simp] theorem execEvacuationSlabDone_canonical {s : State} (n : Nat) (bad : List Nat) (h : s.memoryCanonical = true) :
    nextCanonical (execEvacuationSlabDone n bad s) := by
  refine nextCanonical_guarded _ _ ?_
  extract_lets e
  split
  · exact h
  · split
    · exact h
    · extract_lets donor dst bad' moved s1 s2 s3 mem s4 next care evac s5 s6
      have h1 : s1.memoryCanonical = true := by
        simp only [State.memoryCanonical, Mem.wf, Bool.and_eq_true] at h ⊢
        obtain ⟨⟨⟨⟨hb, hc⟩, hf⟩, hcb⟩, hbad⟩ := h
        exact ⟨⟨⟨⟨SMap.wf_clear _ _ _ _ hb, SMap.wf_clear _ _ _ _ hc⟩, hf⟩, hcb⟩, hbad⟩
      have h2 : s2.memoryCanonical = true := State.canonical_foldl _ (fun u x hu => State.moveSetting_canonical _ _ _ _ hu) _ h1
      have h3 : s3.memoryCanonical = true := State.writebackAll_canonical _ h2
      have h5 : s5.memoryCanonical = true := h3
      have h6 : s6.memoryCanonical = true := State.mappedOut_canonical n h5
      clear_value s6 s5 evac next
      split
      · exact State.beginSlab_canonical _ _ _ h5
      · repeat' split
        all_goals simp [h6]

/-! ### Machine/MemCmds.lean -/

@[simp] theorem execScatterAdd_canonical {s : State} (f : Nat) (h : s.memoryCanonical = true) :
    nextCanonical (execScatterAdd f s) := by
  unfold execScatterAdd
  split <;> simp [h]

@[simp] theorem execRepair_canonical {s : State} (f : Nat) (h : s.memoryCanonical = true) :
    nextCanonical (execRepair f s) := by
  unfold execRepair
  split <;> simp [State.writebackAll_canonical, h]

@[simp] theorem execRepairDone_canonical {s : State} (f : Nat) (good : Bool) (h : s.memoryCanonical = true) :
    nextCanonical (execRepairDone f good s) := by
  unfold execRepairDone
  split <;> simp [h]

@[simp] theorem execMapOut_canonical {s : State} (f : Nat) (h : s.memoryCanonical = true) :
    nextCanonical (execMapOut f s) := by
  unfold execMapOut
  split <;> simp [State.startEvac_canonical, h]

@[simp] theorem execMemRegWrite_canonical {s : State} (b : Nat) (hf : Half) (v : W64) (h : s.memoryCanonical = true) :
    nextCanonical (execMemRegWrite b hf v s) := by
  simp [execMemRegWrite, h]

@[simp] theorem execDonorWrite_canonical {s : State} (w : Nat) (hf : Half) (v : W64) (h : s.memoryCanonical = true) :
    nextCanonical (execDonorWrite w hf v s) := by
  simp [execDonorWrite, h]

@[simp] theorem execKvrWrite_canonical {s : State} (p : Nat) (limit : Bool) (hf : Half) (v : W64) (h : s.memoryCanonical = true) :
    nextCanonical (execKvrWrite p limit hf v s) := by
  simp [execKvrWrite, h]

@[simp] theorem execCasketOwnWrite_canonical {s : State} (sl : Nat) (hf : Half) (v : W64) (h : s.memoryCanonical = true) :
    nextCanonical (execCasketOwnWrite sl hf v s) := by
  simp [execCasketOwnWrite, h]

@[simp] theorem execCasketOwnApply_canonical {s : State} (sl : Nat) (h : s.memoryCanonical = true) :
    nextCanonical (execCasketOwnApply sl s) := by
  refine nextCanonical_guarded _ _ ?_
  dsimp only
  repeat' split
  all_goals simp +contextual [State.zeroCasket_canonical, h]

@[simp] theorem execCasketPatrolScrub_canonical {s : State} (sl off : Nat) (codeword : BitVec 12) (upset : List (Nat × BitVec 12)) (h : s.memoryCanonical = true) :
    nextCanonical (execCasketPatrolScrub sl off codeword upset s) := by
  simp [execCasketPatrolScrub, State.heedCasketByte_canonical, h]

@[simp] theorem execHdmDecoderCommit_canonical {s : State} (d base size : Nat) (h : s.memoryCanonical = true) :
    nextCanonical (execHdmDecoderCommit d base size s) := by
  simp [execHdmDecoderCommit, h]

/-- A read of device memory on the account of a partition, with what it finds of the errors there. -/
theorem State.charge_heed_canonical {s : State} (p c d n : Nat) (h : s.memoryCanonical = true) :
    ((s.charge p c).heed d n).memoryCanonical = true :=
  State.heed_canonical d n (by simpa using h)

/-- An answer to an uncorrectable read posts its event. -/
theorem State.postUncorrectable_ite_canonical {s : State} (c : Prop) [Decidable c] (d : Nat) (bs : List (Byte × Bool)) (p src j : Nat)
    (h : s.memoryCanonical = true) : (if c then s.postUncorrectable d bs p src j else s).memoryCanonical = true := by
  split
  · exact State.postUncorrectable_canonical _ _ _ _ _ h
  · exact h

@[simp] theorem execCxlMemRead_canonical {s : State} (hpa : Nat) (e : MemErrors) (h : s.memoryCanonical = true) :
    nextCanonical (execCxlMemRead hpa e s) := by
  refine nextCanonical_guarded _ _ ?_
  split
  · rename_i d _
    split
    · simpa using h
    · split
      · rename_i hs; simpa [State.accessStop_memoryCanonical hs] using h
      · extract_lets s1 bs s2 s3
        have h1 : s1.memoryCanonical = true := by
          unfold s1
          split
          · exact State.meetErrors_canonical _ _ h
          · exact h
        have h2 : s2.memoryCanonical = true := State.charge_heed_canonical 16 _ d 64 h1
        have h3 : s3.memoryCanonical = true := State.postUncorrectable_ite_canonical _ _ _ _ _ _ h2
        repeat' split
        all_goals simp [h1, h3]
  · exact h

@[simp] theorem execCxlMemWrite_canonical {s : State} (hpa : Nat) (mask : W64) (data : Bytes) (h : s.memoryCanonical = true) :
    nextCanonical (execCxlMemWrite hpa mask data s) := by
  refine nextCanonical_guarded _ _ ?_
  split
  · rename_i d _
    split
    · simpa using h
    · split
      · rename_i hs; simpa [State.accessStop_memoryCanonical hs] using h
      · extract_lets s1 s2
        have h1 : s1.memoryCanonical = true := by simpa [s1] using h
        have h2 : s2.memoryCanonical = true := by
          unfold s2
          split
          · exact State.writeDev_canonical _ _ _ h1
          · exact State.canonical_foldl _ (fun u b hu => State.writeDev_canonical _ _ _ hu) _ h1
        repeat' split
        all_goals simp [h, h2]
  · exact h

/-! ### Machine/MeshCmds.lean -/

@[simp] theorem execLaunch_canonical {s : State} (f : Nat) (h : s.memoryCanonical = true) :
    nextCanonical (execLaunch f s) := by
  unfold execLaunch
  split
  · exact (nextCanonical_next _).2 h
  · exact (nextCanonical_next _).2 (State.stage_canonical _ (fun u b hu => by simp [hu]) h)

@[simp] theorem execLaunchStart_canonical {s : State} (f : Nat) (h : s.memoryCanonical = true) :
    nextCanonical (execLaunchStart f s) := by
  unfold execLaunchStart
  split <;> simp [h]

@[simp] theorem execLoad_canonical {s : State} (f : Nat) (h : s.memoryCanonical = true) : nextCanonical (execLoad f s) := by
  unfold execLoad
  split
  · exact (nextCanonical_next _).2 h
  · refine (nextCanonical_next _).2 (State.stage_canonical _ (fun u b hu => ?_) h)
    dsimp only
    repeat' split
    all_goals simp [hu]

@[simp] theorem execLoadStart_canonical {s : State} (f : Nat) (h : s.memoryCanonical = true) :
    nextCanonical (execLoadStart f s) := by
  unfold execLoadStart
  split <;> simp [h]

@[simp] theorem execRun_canonical {s : State} (f : Nat) (h : s.memoryCanonical = true) : nextCanonical (execRun f s) := by
  unfold execRun
  split
  · exact (nextCanonical_next _).2 h
  · split
    · simpa using h
    · split
      · simpa using h
      · exact (nextCanonical_next _).2 (State.stage_canonical _ (fun u b hu => by simpa using hu) h)

@[simp] theorem execRunStart_canonical {s : State} (f : Nat) (h : s.memoryCanonical = true) :
    nextCanonical (execRunStart f s) := by
  unfold execRunStart
  split <;> simp [h]

@[simp] theorem execUnload_canonical {s : State} (f : Nat) (h : s.memoryCanonical = true) :
    nextCanonical (execUnload f s) := by
  unfold execUnload
  split <;> simp [h]

@[simp] theorem execMeshOfferDrop_canonical {s : State} (p : Nat) (h : s.memoryCanonical = true) :
    nextCanonical (execMeshOfferDrop p s) := by
  simp [execMeshOfferDrop, h]

/-! ### Machine/Locket.lean -/

@[simp] theorem execGcmDecrypt_canonical {s : State} (f : Nat) (e : AesFault) (h : s.memoryCanonical = true) :
    nextCanonical (execGcmDecrypt f e s) := by
  unfold execGcmDecrypt
  split <;> simp [h]

@[simp] theorem execGcmEncrypt_canonical {s : State} (f : Nat) (e : AesFault) (h : s.memoryCanonical = true) :
    nextCanonical (execGcmEncrypt f e s) := by
  unfold execGcmEncrypt
  split <;> simp [h]

@[simp] theorem execXtsDecrypt_canonical {s : State} (f : Nat) (e : AesFault) (h : s.memoryCanonical = true) :
    nextCanonical (execXtsDecrypt f e s) := by
  unfold execXtsDecrypt
  split <;> simp [h]

@[simp] theorem execXtsEncrypt_canonical {s : State} (f : Nat) (e : AesFault) (h : s.memoryCanonical = true) :
    nextCanonical (execXtsEncrypt f e s) := by
  unfold execXtsEncrypt
  split <;> simp [h]

@[simp] theorem execHash_canonical {s : State} (f : Nat) (h : s.memoryCanonical = true) :
    nextCanonical (execHash f s) := by
  unfold execHash
  split <;> simp [h]

@[simp] theorem execReleaseDescriptor_canonical {s : State} (f : Nat) (h : s.memoryCanonical = true) :
    nextCanonical (execReleaseDescriptor f s) := by
  unfold execReleaseDescriptor
  split <;> simp [h]

@[simp] theorem execLocketOwnerLoad_canonical {s : State} (h : s.memoryCanonical = true) :
    nextCanonical (execLocketOwnerLoad s) := by
  simp [execLocketOwnerLoad, h]

@[simp] theorem execLocketImportNonce_canonical {s : State} (h : s.memoryCanonical = true) :
    nextCanonical (execLocketImportNonce s) := by
  simp [execLocketImportNonce, h]

@[simp] theorem execLocketKeyImport_canonical {s : State} (h : s.memoryCanonical = true) :
    nextCanonical (execLocketKeyImport s) := by
  refine (nextCanonical_next _).2 (State.mailboxLc_canonical _ _ _ _ _ (fun b => ?_) h)
  dsimp only
  repeat' split
  all_goals simp [h]

@[simp] theorem execLocketKeyErase_canonical {s : State} (h : s.memoryCanonical = true) :
    nextCanonical (execLocketKeyErase s) := by
  simp [execLocketKeyErase, h]

@[simp] theorem execLocketKemPublic_canonical {s : State} (h : s.memoryCanonical = true) :
    nextCanonical (execLocketKemPublic s) := by
  unfold execLocketKemPublic
  split <;> simp [h]

@[simp] theorem execLocketSeal_canonical {s : State} (h : s.memoryCanonical = true) : nextCanonical (execLocketSeal s) := by
  unfold execLocketSeal
  split
  · exact (nextCanonical_next _).2 h
  · refine (nextCanonical_next _).2 (State.mailboxLc_canonical _ _ _ _ _ (fun b => ?_) h)
    dsimp only
    repeat' split
    all_goals simp [h]

@[simp] theorem execSealTakeEffect_canonical {s : State} (r : Nat) (h : s.memoryCanonical = true) :
    nextCanonical (execSealTakeEffect r s) := by
  unfold execSealTakeEffect
  split <;> simp [h]

@[simp] theorem execLocketUnseal_canonical {s : State} (h : s.memoryCanonical = true) :
    nextCanonical (execLocketUnseal s) := by
  simp [execLocketUnseal, h]

@[simp] theorem execUnsealZeroDone_canonical {s : State} (r : Nat) (h : s.memoryCanonical = true) :
    nextCanonical (execUnsealZeroDone r s) := by
  refine nextCanonical_guarded _ _ ?_
  extract_lets x s1 s2
  split
  · exact h
  · have h1 : s1.memoryCanonical = true := State.canonical_foldl _ (fun u i hu => State.zeroStorage_canonical _ _ hu) _ h
    have h2 : s2.memoryCanonical = true := by simpa [s2] using h1
    rw [State.syncKeel_memoryCanonical]
    split
    · exact State.zeroSealedPlaces_canonical _ h2
    · exact h2

@[simp] theorem execEntropyHealthFail_canonical {s : State} (test : Nat) (h : s.memoryCanonical = true) :
    nextCanonical (execEntropyHealthFail test s) := by
  simp [execEntropyHealthFail, h]

@[simp] theorem execLocketAttestSite_canonical {s : State} (h : s.memoryCanonical = true) :
    nextCanonical (execLocketAttestSite s) := by
  simp [execLocketAttestSite, h]

@[simp] theorem execSiteAttestPoll_canonical {s : State} (q : Nat) (r : Option AttestAnswer) (h : s.memoryCanonical = true) :
    nextCanonical (execSiteAttestPoll q r s) := by
  unfold execSiteAttestPoll
  split <;> simp [h]

@[simp] theorem execSiteAttestTimeout_canonical {s : State} (q : Nat) (h : s.memoryCanonical = true) :
    nextCanonical (execSiteAttestTimeout q s) := by
  unfold execSiteAttestTimeout
  split <;> simp [h]

@[simp] theorem execLcField_canonical {s : State} (h : s.memoryCanonical = true) :
    nextCanonical (execLcField s) := by
  simp [execLcField, h]

@[simp] theorem execLcReturn_canonical {s : State} (h : s.memoryCanonical = true) :
    nextCanonical (execLcReturn s) := by
  simp [execLcReturn, h]

@[simp] theorem execLcScrap_canonical {s : State} (h : s.memoryCanonical = true) :
    nextCanonical (execLcScrap s) := by
  simp [execLcScrap, h]

@[simp] theorem execInstrumentLcTransition_canonical {s : State} (goal : Nat) (token : Bytes) (h : s.memoryCanonical = true) :
    nextCanonical (execInstrumentLcTransition goal token s) := by
  simp [execInstrumentLcTransition, h]

@[simp] theorem execSpdmGetVersion_canonical {s : State} (h : s.memoryCanonical = true) :
    nextCanonical (execSpdmGetVersion s) := by
  simp [execSpdmGetVersion, h]

@[simp] theorem execSpdmGetCapabilities_canonical {s : State} (h : s.memoryCanonical = true) :
    nextCanonical (execSpdmGetCapabilities s) := by
  simp [execSpdmGetCapabilities, h]

@[simp] theorem execSpdmNegotiateAlgorithms_canonical {s : State} (o : SpdmOffer) (h : s.memoryCanonical = true) :
    nextCanonical (execSpdmNegotiateAlgorithms o s) := by
  simp [execSpdmNegotiateAlgorithms, h]

@[simp] theorem execSpdmGetDigests_canonical {s : State} (h : s.memoryCanonical = true) :
    nextCanonical (execSpdmGetDigests s) := by
  simp [execSpdmGetDigests, h]

@[simp] theorem execSpdmGetCertificate_canonical {s : State} (slot off len : Nat) (h : s.memoryCanonical = true) :
    nextCanonical (execSpdmGetCertificate slot off len s) := by
  simp [execSpdmGetCertificate, h]

@[simp] theorem execSpdmChallenge_canonical {s : State} (slot : Nat) (nonce : Bytes) (h : s.memoryCanonical = true) :
    nextCanonical (execSpdmChallenge slot nonce s) := by
  simp [execSpdmChallenge, h]

@[simp] theorem execSpdmGetMeasurements_canonical {s : State} (index : Nat) (nonce : Bytes) (h : s.memoryCanonical = true) :
    nextCanonical (execSpdmGetMeasurements index nonce s) := by
  simp [execSpdmGetMeasurements, h]

@[simp] theorem execSpdmKeyExchange_canonical {s : State} (ek : Bytes) (h : s.memoryCanonical = true) :
    nextCanonical (execSpdmKeyExchange ek s) := by
  simp [execSpdmKeyExchange, h]

@[simp] theorem execSpdmFinish_canonical {s : State} (sid : Nat) (mac : Bytes) (h : s.memoryCanonical = true) :
    nextCanonical (execSpdmFinish sid mac s) := by
  unfold execSpdmFinish
  refine (nextCanonical_next _).2 ?_
  repeat' split
  all_goals simp [h]

@[simp] theorem execSpdmEndSession_canonical {s : State} (sid : Nat) (h : s.memoryCanonical = true) :
    nextCanonical (execSpdmEndSession sid s) := by
  refine (nextCanonical_next _).2 (State.inSession_canonical _ ?_ h)
  simp [h]

@[simp] theorem execSpdmKeyUpdate_canonical {s : State} (sid op : Nat) (h : s.memoryCanonical = true) :
    nextCanonical (execSpdmKeyUpdate sid op s) := by
  refine (nextCanonical_next _).2 (State.inSession_canonical _ ?_ h)
  simp [h]

@[simp] theorem execSpdmHeartbeat_canonical {s : State} (sid : Nat) (h : s.memoryCanonical = true) :
    nextCanonical (execSpdmHeartbeat sid s) := by
  refine (nextCanonical_next _).2 (State.inSession_canonical _ ?_ h)
  simp [h]

@[simp] theorem execSpdmVendorDefinedRequest_canonical {s : State} (sid : Nat) (m : IdeKm) (h : s.memoryCanonical = true) :
    nextCanonical (execSpdmVendorDefinedRequest sid m s) := by
  refine (nextCanonical_next _).2 (State.inSession_canonical _ ?_ h)
  repeat' split
  all_goals simp [h]

/-! ### Machine/Sites.lean -/

@[simp] theorem execSiteTrainingAttempt_canonical {s : State} (q : Nat) (h : s.memoryCanonical = true) :
    nextCanonical (execSiteTrainingAttempt q s) := by
  simp [execSiteTrainingAttempt, h]

@[simp] theorem execXRstNRelease_canonical {s : State} (q : Nat) (h : s.memoryCanonical = true) :
    nextCanonical (execXRstNRelease q s) := by
  simp [execXRstNRelease, h]

@[simp] theorem execAdvert_canonical {s : State} (q : Nat) (m : Bytes) (h : s.memoryCanonical = true) : nextCanonical (execAdvert q m s) := by
  refine nextCanonical_guarded _ _ (State.discIn_canonical _ _ _ ?_ h)
  dsimp only
  repeat' split
  all_goals simp [h]

@[simp] theorem execAdvertTimeout_canonical {s : State} (q : Nat) (h : s.memoryCanonical = true) :
    nextCanonical (execAdvertTimeout q s) := by
  simp [execAdvertTimeout, h]

@[simp] theorem execLaneTestEnd_canonical {s : State} (q : Nat) (failing : List (List Nat)) (h : s.memoryCanonical = true) :
    nextCanonical (execLaneTestEnd q failing s) := by
  simp [execLaneTestEnd, h]

@[simp] theorem execLanes_canonical {s : State} (q : Nat) (m : Bytes) (h : s.memoryCanonical = true) : nextCanonical (execLanes q m s) := by
  refine nextCanonical_guarded _ _ (State.discIn_canonical _ _ _ ?_ h)
  simp [h]

@[simp] theorem execEcho_canonical {s : State} (q : Nat) (m : Bytes) (h : s.memoryCanonical = true) : nextCanonical (execEcho q m s) := by
  refine nextCanonical_guarded _ _ ?_
  dsimp only
  split
  · exact h
  · split
    · simpa using h
    · refine State.discIn_canonical _ _ _ ?_ h
      simp [h]

@[simp] theorem execEchoTimeout_canonical {s : State} (q : Nat) (h : s.memoryCanonical = true) :
    nextCanonical (execEchoTimeout q s) := by
  simp [execEchoTimeout, h]

@[simp] theorem execFrameAlignTimeout_canonical {s : State} (q : Nat) (h : s.memoryCanonical = true) :
    nextCanonical (execFrameAlignTimeout q s) := by
  simp [execFrameAlignTimeout, h]

@[simp] theorem execSiteTrainingTimeout_canonical {s : State} (q : Nat) (h : s.memoryCanonical = true) :
    nextCanonical (execSiteTrainingTimeout q s) := by
  simp [execSiteTrainingTimeout, h]

@[simp] theorem execSiteAlert_canonical {s : State} (q : Nat) (h : s.memoryCanonical = true) :
    nextCanonical (execSiteAlert q s) := by
  simp [execSiteAlert, h]

@[simp] theorem execSiteFrame_canonical {s : State} (q ch : Nat) (b : Bytes) (h : s.memoryCanonical = true) :
    nextCanonical (execSiteFrame q ch b s) := by
  simp [execSiteFrame, h]

@[simp] theorem execSiteReplayTimeout_canonical {s : State} (q ch : Nat) (h : s.memoryCanonical = true) :
    nextCanonical (execSiteReplayTimeout q ch s) := by
  simp [execSiteReplayTimeout, h]

@[simp] theorem execSiteRead_canonical {s : State} (q ch : Nat) (h : s.memoryCanonical = true) :
    nextCanonical (execSiteRead q ch s) := by
  unfold execSiteRead
  split <;> simp [State.heed_canonical, h]

@[simp] theorem execSiteWrite_canonical {s : State} (q ch : Nat) (h : s.memoryCanonical = true) :
    nextCanonical (execSiteWrite q ch s) := by
  unfold execSiteWrite
  split <;> simp [State.writeDev_canonical, h]

@[simp] theorem execSiteReadData_canonical {s : State} (q ch : Nat) (h : s.memoryCanonical = true) :
    nextCanonical (execSiteReadData q ch s) := by
  refine nextCanonical_guarded _ _ ?_
  dsimp only
  repeat' split
  all_goals simp +contextual [h]

@[simp] theorem execSiteDone_canonical {s : State} (q ch : Nat) (h : s.memoryCanonical = true) :
    nextCanonical (execSiteDone q ch s) := by
  refine nextCanonical_guarded _ _ ?_
  dsimp only
  repeat' split
  all_goals simp +contextual [h]

@[simp] theorem execSiteDisable_canonical {s : State} (h : s.memoryCanonical = true) :
    nextCanonical (execSiteDisable s) := by
  simp [execSiteDisable, h]

@[simp] theorem execSiteEnable_canonical {s : State} (h : s.memoryCanonical = true) :
    nextCanonical (execSiteEnable s) := by
  simp [execSiteEnable, h]

@[simp] theorem execSiteRetrain_canonical {s : State} (h : s.memoryCanonical = true) :
    nextCanonical (execSiteRetrain s) := by
  simp [execSiteRetrain, h]

@[simp] theorem execSiteUnfence_canonical {s : State} (h : s.memoryCanonical = true) :
    nextCanonical (execSiteUnfence s) := by
  simp [execSiteUnfence, h]

@[simp] theorem execSiteGrant_canonical {s : State} (h : s.memoryCanonical = true) :
    nextCanonical (execSiteGrant s) := by
  refine (nextCanonical_next _).2 (State.mailbox_canonical _ _ _ _ (fun b => ?_) h)
  dsimp only
  repeat' split
  all_goals simp [h]

@[simp] theorem execSiteBezelSet_canonical {s : State} (h : s.memoryCanonical = true) :
    nextCanonical (execSiteBezelSet s) := by
  simp [execSiteBezelSet, h]

@[simp] theorem execSiteBezelRead_canonical {s : State} (h : s.memoryCanonical = true) :
    nextCanonical (execSiteBezelRead s) := by
  simp [execSiteBezelRead, h]

/-! ### Machine/Rings.lean -/

@[simp] theorem execRingEnable_canonical {s : State} (r : Nat) (v : W64) (h : s.memoryCanonical = true) :
    nextCanonical (execRingEnable r v s) := by
  simp [execRingEnable, h]

@[simp] theorem execRingDisable_canonical {s : State} (r : Nat) (h : s.memoryCanonical = true) :
    nextCanonical (execRingDisable r s) := by
  simp [execRingDisable, h]

@[simp] theorem execCringEnable_canonical {s : State} (c : Nat) (v : W64) (h : s.memoryCanonical = true) :
    nextCanonical (execCringEnable c v s) := by
  simp [execCringEnable, h]

@[simp] theorem execCringDisable_canonical {s : State} (c : Nat) (h : s.memoryCanonical = true) :
    nextCanonical (execCringDisable c s) := by
  simp [execCringDisable, h]

@[simp] theorem execCringDrained_canonical {s : State} (c : Nat) (h : s.memoryCanonical = true) :
    nextCanonical (execCringDrained c s) := by
  simp [execCringDrained, h]

@[simp] theorem execEvtRingEnable_canonical {s : State} (v : W64) (h : s.memoryCanonical = true) :
    nextCanonical (execEvtRingEnable v s) := by
  simp [execEvtRingEnable, h]

@[simp] theorem execEvtRingDisable_canonical {s : State} (h : s.memoryCanonical = true) :
    nextCanonical (execEvtRingDisable s) := by
  simp [execEvtRingDisable, h]

/-! ### Machine/TetherOps.lean -/

@[simp] theorem execRwrite_canonical {s : State} (f : Nat) (h : s.memoryCanonical = true) :
    nextCanonical (execRwrite f s) := by
  unfold execRwrite
  split <;> simp [h]

@[simp] theorem execRread_canonical {s : State} (f : Nat) (h : s.memoryCanonical = true) :
    nextCanonical (execRread f s) := by
  unfold execRread
  split <;> simp [h]

@[simp] theorem execRadd_canonical {s : State} (f : Nat) (h : s.memoryCanonical = true) :
    nextCanonical (execRadd f s) := by
  unfold execRadd
  split <;> simp [h]

@[simp] theorem execRsignal_canonical {s : State} (f : Nat) (h : s.memoryCanonical = true) :
    nextCanonical (execRsignal f s) := by
  unfold execRsignal
  split <;> simp [h]

@[simp] theorem execTetherRead_canonical {s : State} (p : Nat) (h : s.memoryCanonical = true) : nextCanonical (execTetherRead p s) := by
  refine nextCanonical_guarded _ _ (State.serve_canonical _ _ _ (fun m t ht => ?_) h)
  dsimp only at ht
  split at ht
  · cases ht
  · cases ht
    rw [State.tetherAnswer_memoryCanonical]
    exact State.postUncorrectable_ite_canonical _ _ _ _ _ _ (State.charge_heed_canonical _ _ _ _ h)

@[simp] theorem execTetherWrite_canonical {s : State} (p : Nat) (h : s.memoryCanonical = true) : nextCanonical (execTetherWrite p s) :=
  nextCanonical_guarded _ _ (State.serve_canonical _ _ _ (fun _ _ ht => State.remoteWrite_canonical ht h) h)

@[simp] theorem execTetherWritePartial_canonical {s : State} (p : Nat) (h : s.memoryCanonical = true) :
    nextCanonical (execTetherWritePartial p s) :=
  nextCanonical_guarded _ _ (State.serve_canonical _ _ _ (fun _ _ ht => State.remoteWrite_canonical ht h) h)

@[simp] theorem execTetherAdd_canonical {s : State} (p : Nat) (h : s.memoryCanonical = true) : nextCanonical (execTetherAdd p s) := by
  refine nextCanonical_guarded _ _ (State.serve_canonical _ _ _ (fun m t ht => ?_) h)
  extract_lets n cost f s1 r bad s2 at ht
  split at ht
  · cases ht
  · cases ht
    have h1 : s1.memoryCanonical = true := by simpa [s1] using h
    have hr : r.1.memoryCanonical = true := by
      refine State.foldl_fst_canonical _ (fun a i ha => ?_) (State.heed_canonical _ _ h1)
      dsimp only
      split
      · exact ha
      · exact State.writeDev_canonical _ _ _ ha
    rw [State.tetherAnswer_memoryCanonical]
    exact State.postUncorrectable_ite_canonical _ _ _ _ _ _ hr

@[simp] theorem execTetherSignal_canonical {s : State} (p : Nat) (h : s.memoryCanonical = true) : nextCanonical (execTetherSignal p s) :=
  nextCanonical_guarded _ _ (State.serve_canonical _ _ _ (fun _ _ ht => by cases ht; simpa using h) h)

@[simp] theorem execTetherReadData_canonical {s : State} (p : Nat) (h : s.memoryCanonical = true) :
    nextCanonical (execTetherReadData p s) := by
  refine nextCanonical_guarded _ _ (State.respond_canonical _ _ _ (fun x r m u hu => ?_) h)
  split at hu
  · cases hu; exact h
  · dsimp only at hu
    split at hu
    · cases hu
    · split at hu
      · cases hu
      · cases hu; exact State.writePlaces_canonical _ _ _ (by simpa using h)

@[simp] theorem execTetherDone_canonical {s : State} (p : Nat) (h : s.memoryCanonical = true) : nextCanonical (execTetherDone p s) :=
  nextCanonical_guarded _ _ (State.respond_canonical _ _ _ (fun _ _ _ _ hu => by cases hu; exact h) h)

/-! ### Machine/TetherFabric.lean -/

@[simp] theorem execTetherFabricSet_canonical {s : State} (h : s.memoryCanonical = true) :
    nextCanonical (execTetherFabricSet s) := by
  simp [execTetherFabricSet, h]

@[simp] theorem execTetherRouteSet_canonical {s : State} (h : s.memoryCanonical = true) :
    nextCanonical (execTetherRouteSet s) := by
  simp [execTetherRouteSet, h]

@[simp] theorem execTetherLeave_canonical {s : State} (h : s.memoryCanonical = true) :
    nextCanonical (execTetherLeave s) := by
  simp [execTetherLeave, h]

@[simp] theorem execJoin_canonical {s : State} (p : Nat) (h : s.memoryCanonical = true) :
    nextCanonical (execJoin p s) := by
  unfold execJoin
  split <;> simp [h]

@[simp] theorem execAdopt_canonical {s : State} (p : Nat) (h : s.memoryCanonical = true) :
    nextCanonical (execAdopt p s) := by
  unfold execAdopt
  split <;> simp [h]

@[simp] theorem execSyncReqSend_canonical {s : State} (phase : Nat) (h : s.memoryCanonical = true) :
    nextCanonical (execSyncReqSend phase s) := by
  simp [execSyncReqSend, h]

@[simp] theorem execSyncReq_canonical {s : State} (p t2tick t2phase turn : Nat) (h : s.memoryCanonical = true) :
    nextCanonical (execSyncReq p t2tick t2phase turn s) := by
  unfold execSyncReq
  split <;> simp [h]

@[simp] theorem execSyncRsp_canonical {s : State} (p t4tick t4phase : Nat) (h : s.memoryCanonical = true) :
    nextCanonical (execSyncRsp p t4tick t4phase s) := by
  refine nextCanonical_guarded _ _ ?_
  dsimp only
  repeat' split
  all_goals simp +contextual [h]

@[simp] theorem execVote_canonical {s : State} (p : Nat) (h : s.memoryCanonical = true) :
    nextCanonical (execVote p s) := by
  unfold execVote
  split <;> simp [h]

@[simp] theorem execVoteDeadline_canonical {s : State} (h : s.memoryCanonical = true) :
    nextCanonical (execVoteDeadline s) := by
  simp [execVoteDeadline, h]

@[simp] theorem execSlowNotice_canonical {s : State} (p : Nat) (h : s.memoryCanonical = true) :
    nextCanonical (execSlowNotice p s) := by
  unfold execSlowNotice
  split <;> simp [h]

@[simp] theorem execMessageForward_canonical {s : State} (p : Nat) (h : s.memoryCanonical = true) :
    nextCanonical (execMessageForward p s) := by
  refine nextCanonical_guarded _ _ ?_
  dsimp only
  repeat' split
  all_goals simp +contextual [h]

/-! ### Machine/TetherPorts.lean -/

@[simp] theorem execTetherPortDisable_canonical {s : State} (h : s.memoryCanonical = true) :
    nextCanonical (execTetherPortDisable s) := by
  simp [execTetherPortDisable, h]

@[simp] theorem execTetherPortEnable_canonical {s : State} (h : s.memoryCanonical = true) :
    nextCanonical (execTetherPortEnable s) := by
  simp [execTetherPortEnable, h]

@[simp] theorem execTetherPortRetrain_canonical {s : State} (h : s.memoryCanonical = true) :
    nextCanonical (execTetherPortRetrain s) := by
  simp [execTetherPortRetrain, h]

@[simp] theorem execTetherPortSetFarLoop_canonical {s : State} (h : s.memoryCanonical = true) :
    nextCanonical (execTetherPortSetFarLoop s) := by
  simp [execTetherPortSetFarLoop, h]

@[simp] theorem execTrainingFrame_canonical {s : State} (l levels height spacing : Nat) (h : s.memoryCanonical = true) :
    nextCanonical (execTrainingFrame l levels height spacing s) := by
  simp [execTrainingFrame, h]

@[simp] theorem execAdaptationTimeout_canonical {s : State} (p : Nat) (h : s.memoryCanonical = true) :
    nextCanonical (execAdaptationTimeout p s) := by
  simp [execAdaptationTimeout, h]

@[simp] theorem execCommaBlock_canonical {s : State} (l ui levels : Nat) (h : s.memoryCanonical = true) :
    nextCanonical (execCommaBlock l ui levels s) := by
  simp [execCommaBlock, h]

@[simp] theorem execCommaLockLoss_canonical {s : State} (l : Nat) (h : s.memoryCanonical = true) :
    nextCanonical (execCommaLockLoss l s) := by
  simp [execCommaLockLoss, h]

@[simp] theorem execLanesLocked_canonical {s : State} (p : Nat) (h : s.memoryCanonical = true) :
    nextCanonical (execLanesLocked p s) := by
  simp [execLanesLocked, h]

@[simp] theorem execHello_canonical {s : State} (p : Nat) (h : s.memoryCanonical = true) :
    nextCanonical (execHello p s) := by
  unfold execHello
  split <;> simp [h]

@[simp] theorem execPortBringupTimeout_canonical {s : State} (p : Nat) (h : s.memoryCanonical = true) :
    nextCanonical (execPortBringupTimeout p s) := by
  simp [execPortBringupTimeout, h]

@[simp] theorem execPortRetryTimer_canonical {s : State} (p : Nat) (h : s.memoryCanonical = true) :
    nextCanonical (execPortRetryTimer p s) := by
  simp [execPortRetryTimer, h]

@[simp] theorem execEqnMeasurement_canonical {s : State} (l height spacing : Nat) (h : s.memoryCanonical = true) :
    nextCanonical (execEqnMeasurement l height spacing s) := by
  simp [execEqnMeasurement, h]

@[simp] theorem execTetherFlit_canonical {s : State} (p : Nat) (words : List LaneWord) (h : s.memoryCanonical = true) :
    nextCanonical (execTetherFlit p words s) := by
  refine nextCanonical_guarded _ _ ?_
  dsimp only
  repeat' split
  all_goals simp +contextual [h]

@[simp] theorem execTetherReplayTimeout_canonical {s : State} (p : Nat) (h : s.memoryCanonical = true) :
    nextCanonical (execTetherReplayTimeout p s) := by
  simp [execTetherReplayTimeout, h]

@[simp] theorem execTetherLoopback_canonical {s : State} (h : s.memoryCanonical = true) :
    nextCanonical (execTetherLoopback s) := by
  simp [execTetherLoopback, h]

@[simp] theorem execLoopbackEnd_canonical {s : State} (p : Nat) (r : List LoopResult) (h : s.memoryCanonical = true) :
    nextCanonical (execLoopbackEnd p r s) := by
  simp [execLoopbackEnd, h]

/-! ### Machine/Power.lean -/

@[simp] theorem execVrAlert_canonical {s : State} (h : s.memoryCanonical = true) :
    nextCanonical (execVrAlert s) := by
  simp [execVrAlert, h]

@[simp] theorem execVrAlertRelease_canonical {s : State} (h : s.memoryCanonical = true) :
    nextCanonical (execVrAlertRelease s) := by
  simp [execVrAlertRelease, h]

@[simp] theorem execThrottleRecoveryStep_canonical {s : State} (h : s.memoryCanonical = true) :
    nextCanonical (execThrottleRecoveryStep s) := by
  unfold execThrottleRecoveryStep
  dsimp only
  repeat' split
  all_goals simp +contextual [h]

@[simp] theorem execSetpointReached_canonical {s : State} (rail : Nat) (h : s.memoryCanonical = true) :
    nextCanonical (execSetpointReached rail s) := by
  simp [execSetpointReached, h]

@[simp] theorem execSetpointTimeout_canonical {s : State} (rail : Nat) (h : s.memoryCanonical = true) :
    nextCanonical (execSetpointTimeout rail s) := by
  simp [execSetpointTimeout, h]

@[simp] theorem execPmbusPoll_canonical {s : State} (r : List RailReading) (h : s.memoryCanonical = true) :
    nextCanonical (execPmbusPoll r s) := by
  simp [execPmbusPoll, h]

@[simp] theorem execDroopTrip_canonical {s : State} (region at_ : Nat) (h : s.memoryCanonical = true) :
    nextCanonical (execDroopTrip region at_ s) := by
  simp [execDroopTrip, h]

@[simp] theorem execDroopStretchEnd_canonical {s : State} (half at_ : Nat) (h : s.memoryCanonical = true) :
    nextCanonical (execDroopStretchEnd half at_ s) := by
  unfold execDroopStretchEnd
  split <;> simp [h]

@[simp] theorem execPersistentDroop_canonical {s : State} (half at_ : Nat) (h : s.memoryCanonical = true) :
    nextCanonical (execPersistentDroop half at_ s) := by
  unfold execPersistentDroop
  split <;> simp [h]

@[simp] theorem execPwrLimitSet_canonical {s : State} (h : s.memoryCanonical = true) :
    nextCanonical (execPwrLimitSet s) := by
  simp [execPwrLimitSet, h]

@[simp] theorem execPwrCapClear_canonical {s : State} (h : s.memoryCanonical = true) :
    nextCanonical (execPwrCapClear s) := by
  simp [execPwrCapClear, h]

@[simp] theorem execPwrHalfSet_canonical {s : State} (h : s.memoryCanonical = true) :
    nextCanonical (execPwrHalfSet s) := by
  simp [execPwrHalfSet, h]

@[simp] theorem execPwrIdleSet_canonical {s : State} (h : s.memoryCanonical = true) :
    nextCanonical (execPwrIdleSet s) := by
  simp [execPwrIdleSet, h]

@[simp] theorem execIdleWake_canonical {s : State} (mode : Nat) (h : s.memoryCanonical = true) :
    nextCanonical (execIdleWake mode s) := by
  simp [execIdleWake, h]

@[simp] theorem execIdleExitDone_canonical {s : State} (mode : Nat) (h : s.memoryCanonical = true) :
    nextCanonical (execIdleExitDone mode s) := by
  simp [execIdleExitDone, h]

/-! ### Machine/Thermal.lean -/

@[simp] theorem execJunctionSensorRead_canonical {s : State} (t : List Int) (h : s.memoryCanonical = true) :
    nextCanonical (execJunctionSensorRead t s) := by
  simp [execJunctionSensorRead, h]

@[simp] theorem execHardwiredTrip_canonical {s : State} (h : s.memoryCanonical = true) :
    nextCanonical (execHardwiredTrip s) := by
  simp [execHardwiredTrip, h]

@[simp] theorem execCollectiveHint_canonical {s : State} (f : Nat) (h : s.memoryCanonical = true) :
    nextCanonical (execCollectiveHint f s) := by
  unfold execCollectiveHint
  split <;> simp [h]

@[simp] theorem execHintExpiry_canonical {s : State} (p : Nat) (h : s.memoryCanonical = true) :
    nextCanonical (execHintExpiry p s) := by
  unfold execHintExpiry
  split <;> simp [h]

@[simp] theorem execStackTempRead_canonical {s : State} (k temp : Nat) (h : s.memoryCanonical = true) :
    nextCanonical (execStackTempRead k temp s) := by
  simp [execStackTempRead, h]

@[simp] theorem execStackDeferralEnd_canonical {s : State} (k : Nat) (h : s.memoryCanonical = true) :
    nextCanonical (execStackDeferralEnd k s) := by
  simp [execStackDeferralEnd, h]

@[simp] theorem execCattrip_canonical {s : State} (k : Nat) (h : s.memoryCanonical = true) :
    nextCanonical (execCattrip k s) := by
  simp [execCattrip, h]

@[simp] theorem execBallastWindow_canonical {s : State} (h : s.memoryCanonical = true) :
    nextCanonical (execBallastWindow s) := by
  simp [execBallastWindow, h]

@[simp] theorem execThermCoolantSet_canonical {s : State} (h : s.memoryCanonical = true) :
    nextCanonical (execThermCoolantSet s) := by
  simp [execThermCoolantSet, h]

/-! ### Machine/Xlat.lean -/

@[simp] theorem execPageRequestResponse_canonical {s : State} (pasid group : Nat) (code : PrgCode) (h : s.memoryCanonical = true) :
    nextCanonical (execPageRequestResponse pasid group code s) := by
  unfold execPageRequestResponse
  dsimp only
  repeat' split
  all_goals simp +contextual [h]

@[simp] theorem execPageRequestTimeout_canonical {s : State} (group : Nat) (h : s.memoryCanonical = true) :
    nextCanonical (execPageRequestTimeout group s) := by
  unfold execPageRequestTimeout
  split <;> simp [h]

@[simp] theorem execAtsInvalidateRequest_canonical {s : State} (itag : Nat) (r : InvRange) (h : s.memoryCanonical = true) :
    nextCanonical (execAtsInvalidateRequest itag r s) := by
  simp [execAtsInvalidateRequest, h]

@[simp] theorem execInvalidate_canonical {s : State} (f : Nat) (h : s.memoryCanonical = true) :
    nextCanonical (execInvalidate f s) := by
  unfold execInvalidate
  split <;> simp [h]

@[simp] theorem execXlatInvalidate_canonical {s : State} (h : s.memoryCanonical = true) :
    nextCanonical (execXlatInvalidate s) := by
  simp [execXlatInvalidate, h]

@[simp] theorem execInvalidationDrained_canonical {s : State} (id : Nat) (h : s.memoryCanonical = true) :
    nextCanonical (execInvalidationDrained id s) := by
  unfold execInvalidationDrained
  dsimp only
  repeat' split
  all_goals simp +contextual [h]

@[simp] theorem execPriRestart_canonical {s : State} (h : s.memoryCanonical = true) :
    nextCanonical (execPriRestart s) := by
  simp [execPriRestart, h]

/-! ### Machine/Admit.lean -/

@[simp] theorem execTranslationCompletion_canonical {s : State} (t : TransCompletion) (h : s.memoryCanonical = true) :
    nextCanonical (execTranslationCompletion t s) :=
  (nextCanonical_next _).2 (State.admitProgress_canonical (State.drain_canonical (State.takeCompletion_canonical t h)))

@[simp] theorem execCxlCacheReadData_canonical {s : State} (line : Nat) (data : Bytes) (poison : Bool) (h : s.memoryCanonical = true) :
    nextCanonical (execCxlCacheReadData line data poison s) := by
  simp [execCxlCacheReadData, h]

@[simp] theorem execGlobalObservation_canonical {s : State} (h : s.memoryCanonical = true) :
    nextCanonical (execGlobalObservation s) := by
  unfold execGlobalObservation
  split <;> simp [h]

/-! ### Machine/Slices.lean -/

@[simp] theorem execRunPhaseStart_canonical {s : State} (at_ : Nat) (h : s.memoryCanonical = true) :
    nextCanonical (execRunPhaseStart at_ s) := by
  simp [execRunPhaseStart, h]

@[simp] theorem execPieceStart_canonical {s : State} (f j : Nat) (h : s.memoryCanonical = true) :
    nextCanonical (execPieceStart f j s) := by
  unfold execPieceStart
  dsimp only
  repeat' split
  all_goals simp +contextual [h]

@[simp] theorem execSliceEnd_canonical {s : State} (f j at_ : Nat) (h : s.memoryCanonical = true) :
    nextCanonical (execSliceEnd f j at_ s) := by
  unfold execSliceEnd
  dsimp only
  repeat' split
  all_goals simp +contextual [h]

@[simp] theorem execOverrunDeadline_canonical {s : State} (f at_ : Nat) (h : s.memoryCanonical = true) :
    nextCanonical (execOverrunDeadline f at_ s) := by
  unfold execOverrunDeadline
  dsimp only
  repeat' split
  all_goals simp +contextual [h]

@[simp] theorem execSpecConfirmTimeout_canonical {s : State} (f : Nat) (h : s.memoryCanonical = true) :
    nextCanonical (execSpecConfirmTimeout f s) := by
  unfold execSpecConfirmTimeout
  split <;> simp [h]

@[simp] theorem execPrefetchConfirmTimeout_canonical {s : State} (f : Nat) (h : s.memoryCanonical = true) :
    nextCanonical (execPrefetchConfirmTimeout f s) := by
  unfold execPrefetchConfirmTimeout
  split <;> simp [h]

@[simp] theorem execSpecFaultTimeout_canonical {s : State} (f : Nat) (h : s.memoryCanonical = true) :
    nextCanonical (execSpecFaultTimeout f s) := by
  unfold execSpecFaultTimeout
  split <;> simp [h]

/-! ### Machine/Resets.lean -/

@[simp] theorem execPartitionReset_canonical {s : State} (p : Nat) (again : List Nat) (h : s.memoryCanonical = true) :
    nextCanonical (execPartitionReset p again s) := by
  unfold execPartitionReset
  split <;> simp [h]

@[simp] theorem execUncorrectableConsumed_canonical {s : State} (c : Consumer) (h : s.memoryCanonical = true) :
    nextCanonical (execUncorrectableConsumed c s) := by
  unfold execUncorrectableConsumed
  dsimp only
  repeat' split
  all_goals simp +contextual [State.spoilCasket_canonical, h]

@[simp] theorem execWcbWriteback_canonical {s : State} (n st : Nat) (e : MemErrors) (h : s.memoryCanonical = true) :
    nextCanonical (execWcbWriteback n st e s) := by
  refine nextCanonical_guarded _ _ ?_
  dsimp only
  repeat' split
  all_goals simp +contextual [State.writeback_canonical, h]

@[simp] theorem execLockstepMismatch_canonical {s : State} (h : s.memoryCanonical = true) :
    nextCanonical (execLockstepMismatch s) := by
  simp [execLockstepMismatch, h]

@[simp] theorem execRefclkLoss_canonical {s : State} (h : s.memoryCanonical = true) :
    nextCanonical (execRefclkLoss s) := by
  simp [execRefclkLoss, h]

@[simp] theorem execOscillatorCheck_canonical {s : State} (a b : Int) (h : s.memoryCanonical = true) :
    nextCanonical (execOscillatorCheck a b s) := by
  simp [execOscillatorCheck, h]

@[simp] theorem execSupplyComparator_canonical {s : State} (rail mv us : Nat) (h : s.memoryCanonical = true) :
    nextCanonical (execSupplyComparator rail mv us s) := by
  simp [execSupplyComparator, h]

@[simp] theorem execEgressTransfer_canonical {s : State} (x : Transfer) (h : s.memoryCanonical = true) :
    nextCanonical (execEgressTransfer x s) := by
  simp [execEgressTransfer, h]

@[simp] theorem execCopyCompare_canonical {s : State} (h : s.memoryCanonical = true) :
    nextCanonical (execCopyCompare s) := by
  simp [execCopyCompare, h]

@[simp] theorem execLatentTest_canonical {s : State} (test : Nat) (pass : Bool) (h : s.memoryCanonical = true) :
    nextCanonical (execLatentTest test pass s) := by
  simp [execLatentTest, h]

@[simp] theorem execFaultNReadback_canonical {s : State} (low : Bool) (h : s.memoryCanonical = true) :
    nextCanonical (execFaultNReadback low s) := by
  simp [execFaultNReadback, h]

@[simp] theorem execWatchdogExpiry_canonical {s : State} (h : s.memoryCanonical = true) :
    nextCanonical (execWatchdogExpiry s) := by
  simp [execWatchdogExpiry, h]

@[simp] theorem execControlPlaneUncorrectable_canonical {s : State} (h : s.memoryCanonical = true) :
    nextCanonical (execControlPlaneUncorrectable s) := by
  simp [execControlPlaneUncorrectable, h]

/-! ### Machine/Settle.lean -/

@[simp] theorem execSettlePhase_canonical {s : State} (at_ : Nat) (parityOk : Bool) (h : s.memoryCanonical = true) :
    nextCanonical (execSettlePhase at_ parityOk s) := by
  simp [execSettlePhase, h]

/-! ### Machine/Startup.lean -/

@[simp] theorem execPwrgoodRise_canonical {s : State} (b : BootInput) (h : s.memoryCanonical = true) :
    nextCanonical (execPwrgoodRise b s) := by
  simp [execPwrgoodRise, h]

@[simp] theorem execInternalColdRestart_canonical {s : State} (b : BootInput) (h : s.memoryCanonical = true) :
    nextCanonical (execInternalColdRestart b s) := by
  simp [execInternalColdRestart, h]

@[simp] theorem execPwrgoodFall_canonical {s : State} (h : s.memoryCanonical = true) :
    nextCanonical (execPwrgoodFall s) := by
  simp [execPwrgoodFall, h]

@[simp] theorem execRelease_canonical {s : State} (at_ : Nat) (h : s.memoryCanonical = true) :
    nextCanonical (execRelease at_ s) := by
  simp [execRelease, h]

@[simp] theorem execWarmReset_canonical {s : State} (h : s.memoryCanonical = true) :
    nextCanonical (execWarmReset s) := by
  simp [execWarmReset, h]

/-- What a warm reset does to the parts, one after the other. -/
theorem State.warm_canonical {s : State} (h : s.memoryCanonical = true) :
    s.warmCompute.warmHost.warmMemory.warmLocket.warmPower.warmTether.warmSites.memoryCanonical = true := by
  have hp : s.warmCompute.warmHost.warmMemory.warmLocket.warmPower.memoryCanonical = true :=
    State.warmPower_canonical (by simpa using State.warmCompute_canonical h)
  simpa using hp

@[simp] theorem execWarmResetBegin_canonical {s : State} (at_ : Nat) (h : s.memoryCanonical = true) :
    nextCanonical (execWarmResetBegin at_ s) := by
  refine (nextCanonical_next _).2 ?_
  split
  · exact h
  · split
    · exact h
    · extract_lets s1 now recent storm times keel ctl s2 s3 s4 s5
      have h1 : s1.memoryCanonical = true := by simpa [s1] using h
      split
      · simpa using h1
      · have h3 : s3.memoryCanonical = true := by simpa [s3, s2] using h1
        have h4 : s4.memoryCanonical = true := by
          refine State.canonical_foldl _ (fun u x hu => ?_) _ h3
          split
          · exact State.repairEnd_canonical _ _ hu
          · exact hu
        exact State.warm_canonical (State.writebackAll_canonical _ h4)

@[simp] theorem execWarmResetRelease_canonical {s : State} (at_ : Nat) (h : s.memoryCanonical = true) :
    nextCanonical (execWarmResetRelease at_ s) := by
  unfold execWarmResetRelease
  split <;> simp [h]

@[simp] theorem execPerstNAssert_canonical {s : State} (h : s.memoryCanonical = true) :
    nextCanonical (execPerstNAssert s) := by
  simp [execPerstNAssert, h]

@[simp] theorem execPerstNDeassert_canonical {s : State} (hf : HostCfg) (h : s.memoryCanonical = true) :
    nextCanonical (execPerstNDeassert hf s) := by
  simp [execPerstNDeassert, h]

@[simp] theorem execHostLinkReset_canonical {s : State} (kind : LinkReset) (h : s.memoryCanonical = true) :
    nextCanonical (execHostLinkReset kind s) := by
  unfold execHostLinkReset
  dsimp only
  repeat' split
  all_goals simp +contextual [h]

@[simp] theorem execD3hotEntry_canonical {s : State} (h : s.memoryCanonical = true) :
    nextCanonical (execD3hotEntry s) := by
  simp [execD3hotEntry, h]

@[simp] theorem execRecoveryBegin_canonical {s : State} (h : s.memoryCanonical = true) :
    nextCanonical (execRecoveryBegin s) := by
  simp [execRecoveryBegin, h]

@[simp] theorem execRecoveryChunk_canonical {s : State} (h : s.memoryCanonical = true) :
    nextCanonical (execRecoveryChunk s) := by
  refine (nextCanonical_next _).2 (State.mailboxLc_canonical _ _ _ _ _ (fun b => ?_) h)
  dsimp only
  repeat' split
  all_goals simp [h]

@[simp] theorem execRecoveryCommit_canonical {s : State} (flash : FlashWrite) (h : s.memoryCanonical = true) :
    nextCanonical (execRecoveryCommit flash s) := by
  unfold execRecoveryCommit
  dsimp only
  repeat' split
  all_goals simp +contextual [h]

@[simp] theorem execRecoveryRequest_canonical {s : State} (h : s.memoryCanonical = true) :
    nextCanonical (execRecoveryRequest s) := by
  simp [execRecoveryRequest, h]

@[simp] theorem execRecoveryStatus_canonical {s : State} (h : s.memoryCanonical = true) :
    nextCanonical (execRecoveryStatus s) := by
  simp [execRecoveryStatus, h]

@[simp] theorem execLevelSet_canonical {s : State} (h : s.memoryCanonical = true) :
    nextCanonical (execLevelSet s) := by
  simp [execLevelSet, h]

@[simp] theorem execCfgReportRead_canonical {s : State} (h : s.memoryCanonical = true) :
    nextCanonical (execCfgReportRead s) := by
  simp [execCfgReportRead, h]

/-! ### Machine/Boundary.lean -/

@[simp] theorem execTickBoundary_canonical {s : State} (edge : Nat) (h : s.memoryCanonical = true) :
    nextCanonical (execTickBoundary edge s) := by
  simp [execTickBoundary, h]

/-! ### Machine/Control.lean -/

@[simp] theorem execNop_canonical {s : State} (f : Nat) (h : s.memoryCanonical = true) :
    nextCanonical (execNop f s) := by
  unfold execNop
  split <;> simp [h]

@[simp] theorem execClaspSet_canonical {s : State} (f : Nat) (h : s.memoryCanonical = true) :
    nextCanonical (execClaspSet f s) := by
  unfold execClaspSet
  split <;> simp [h]

@[simp] theorem execPartSet_canonical {s : State} (h : s.memoryCanonical = true) :
    nextCanonical (execPartSet s) := by
  refine (nextCanonical_next _).2 (State.mailbox_canonical _ _ _ _ (fun b => ?_) h)
  dsimp only
  repeat' split
  all_goals simp [h]

@[simp] theorem execPartEnable_canonical {s : State} (h : s.memoryCanonical = true) :
    nextCanonical (execPartEnable s) := by
  simp [execPartEnable, h]

@[simp] theorem execMboxCmdWrite_canonical {s : State} (k : Option Nat) (hf : Half) (v : W64) (h : s.memoryCanonical = true) :
    nextCanonical (execMboxCmdWrite k hf v s) := by
  simp [execMboxCmdWrite, h]

/-! ### Machine/TrafficGen.lean -/

@[simp] theorem execTgStart_canonical {s : State} (c : Nat) (v : W64) (h : s.memoryCanonical = true) :
    nextCanonical (execTgStart c v s) := by
  simp [execTgStart, h]

@[simp] theorem execTgStop_canonical {s : State} (c : Nat) (h : s.memoryCanonical = true) :
    nextCanonical (execTgStop c s) := by
  simp [execTgStop, h]

@[simp] theorem execTgDone_canonical {s : State} (c : Nat) (r : TgResult) (h : s.memoryCanonical = true) :
    nextCanonical (execTgDone c r s) := by
  simp [execTgDone, h]

/-! ### Machine/Debug.lean -/

@[simp] theorem execDbgClaimWrite_canonical {s : State} (v : W64) (h : s.memoryCanonical = true) :
    nextCanonical (execDbgClaimWrite v s) := by
  simp [execDbgClaimWrite, h]

@[simp] theorem execTapAccess_canonical {s : State} (a : TapAccess) (h : s.memoryCanonical = true) :
    nextCanonical (execTapAccess a s) := by
  unfold execTapAccess
  dsimp only
  repeat' split
  all_goals simp +contextual [h]

@[simp] theorem execDoeDiscovery_canonical {s : State} (index : Nat) (h : s.memoryCanonical = true) :
    nextCanonical (execDoeDiscovery index s) := by
  simp [execDoeDiscovery, h]

@[simp] theorem execCdatRead_canonical {s : State} (entry : Nat) (h : s.memoryCanonical = true) :
    nextCanonical (execCdatRead entry s) := by
  simp [execCdatRead, h]

/-! ### Machine/Regs.lean -/

@[simp] theorem execRegisterWrite_canonical {s : State} (off : Nat) (hf : Half) (v : W64) (h : s.memoryCanonical = true) :
    nextCanonical (execRegisterWrite off hf v s) := by
  simp [execRegisterWrite, h]

@[simp] theorem execBar0UnsupportedAccess_canonical {s : State} (off bytes : Nat) (_write : Bool) (h : s.memoryCanonical = true) :
    nextCanonical (execBar0UnsupportedAccess off bytes _write s) := by
  simp [execBar0UnsupportedAccess, h]

/-! ### Every command and every step -/

theorem exec_canonical {s : State} (i : Instr) (h : s.memoryCanonical = true) : nextCanonical (exec i s) := by
  cases i <;> simp [exec, h]

theorem State.edge_of_step {s t : State} (hp : s.pending = []) (h : step s = .next t) : t = s.edge := by
  simp only [step, hp] at h
  cases h
  rfl

/-- Settles O4: every operation keeps the canonical form, so every command does, and so does the edge that comes when no command
waits. -/
theorem stepsKeepMemoryCanonical : Obligations.StepsKeepMemoryCanonical := by
  intro s t h hst
  cases hp : s.pending with
  | nil => exact State.edge_of_step hp hst ▸ State.edge_canonical h
  | cons c rest =>
    simp only [step, hp] at hst
    exact exec_canonical c (by simpa using h) t hst

end Sys2Proof.Machine
end

section
/-! SUPPORT. Casket segments that change owner, the patrol scrub of the Casket, and the statement O30 (R208, R210, R212). -/

namespace Sys2Proof.Machine

/-! ### The fields of a segment in an ownership word (R210) -/

/-- The bits of an ownership word that are segment `g`'s. -/
def segMask (g : Nat) : Nat := 15 * 2 ^ (4 * g) + 2 ^ (32 + g) + 2 ^ (40 + g)

/-- Bit `i` of an ownership word is one of segment `g`'s: its owner's number, its owned bit or its kind. -/
def segHas (g i : Nat) : Bool := (i / 4 == g) || (i == 32 + g) || (i == 40 + g)

theorem testBit_segMask : ∀ g, g < 8 → ∀ i, i < 48 → (segMask g).testBit i = segHas g i := by decide

theorem segMask_lt : ∀ g, g < 8 → segMask g < 2 ^ 48 := by decide

theorem testBit_copySeg (o w : Nat) {g i : Nat} (hg : g < 8) (hi : i < 48) :
    (copySeg o w g).testBit i = if segHas g i then w.testBit i else o.testBit i := by
  rw [← testBit_segMask g hg i hi]
  exact testBit_merge o w (segMask_lt g hg) hi

/-- Numbers that agree in a run of bits have the same number there. -/
theorem bits_congr {v w hi lo : Nat} (h : ∀ i, lo ≤ i → i ≤ hi → v.testBit i = w.testBit i) : bits v hi lo = bits w hi lo := by
  refine Nat.eq_of_testBit_eq fun j => ?_
  rw [bits, bits, Nat.testBit_mod_two_pow, Nat.testBit_mod_two_pow, Nat.testBit_div_two_pow, Nat.testBit_div_two_pow]
  by_cases hj : j < hi + 1 - lo
  · rw [h (j + lo) (by omega) (by omega)]
  · simp [hj]

/-- The owner of a segment is what its own bits say. -/
theorem segOwner_congr {v w g : Nat} (h : ∀ i, i < 48 → segHas g i = true → v.testBit i = w.testBit i) (hg : g < 8) :
    segOwner v g = segOwner w g := by
  have hnum : bits v (4 * g + 3) (4 * g) = bits w (4 * g + 3) (4 * g) := by
    refine bits_congr fun i hlo hhi => h i (by omega) ?_
    simp only [segHas, Bool.or_eq_true, beq_iff_eq]
    omega
  rw [segOwner, segOwner, bit_eq_testBit, bit_eq_testBit, bit_eq_testBit, bit_eq_testBit, hnum,
    h (32 + g) (by omega) (by simp [segHas]), h (40 + g) (by omega) (by simp [segHas])]

theorem segOwner_copySeg_same (o w : Nat) {g : Nat} (hg : g < 8) : segOwner (copySeg o w g) g = segOwner w g :=
  segOwner_congr (fun i hi hs => by rw [testBit_copySeg o w hg hi, if_pos hs]) hg

theorem segOwner_copySeg_other (o w : Nat) {g k : Nat} (hg : g < 8) (hk : k < 8) (hne : k ≠ g) :
    segOwner (copySeg o w g) k = segOwner o k := by
  refine segOwner_congr (fun i hi hs => ?_) hk
  have hout : segHas g i = false := by
    simp only [segHas, Bool.or_eq_true, Bool.or_eq_false_iff, beq_iff_eq, beq_eq_false_iff_ne] at hs ⊢
    omega
  rw [testBit_copySeg o w hg hi, hout, if_neg Bool.false_ne_true]

/-- A segment that is copied is the requested one's in the end, whatever is copied beside it. -/
theorem segOwner_foldl_copySeg {l : List Nat} {g : Nat} (w o : Nat) (hl : ∀ k, k ∈ l → k < 8) (hg : g ∈ l) :
    segOwner (l.foldl (fun v k => copySeg v w k) o) g = segOwner w g := by
  refine foldl_reaches (I := fun _ => True) (P := fun v => segOwner v g = segOwner w g) hg trivial (fun _ _ _ _ => trivial)
    (fun v _ => segOwner_copySeg_same v w (hl g hg)) fun v k hk hv => ?_
  by_cases hne : g = k
  · subst hne
    exact segOwner_copySeg_same v w (hl _ hg)
  · rw [segOwner_copySeg_other v w (hl k hk) (hl g hg) hne, hv]

/-! ### A change of owner (R212) -/

/-- With nothing in flight every segment that is asked to change may change. -/
theorem State.mem_segsToApply {s : State} (sl : Nat) (h : s.work.flights = []) {g : Nat} :
    g ∈ s.segsToApply sl ↔ g < 8 ∧ segOwner (s.casketOwn sl).requested g ≠ segOwner (s.casketOwn sl).current g := by
  simp only [State.segsToApply, List.mem_filter, List.mem_range, Bool.and_eq_true, bne_iff_ne]
  refine and_congr_right fun _ => ⟨And.left, fun hne => ⟨hne, ?_⟩⟩
  split
  · rfl
  · simp [State.segTouched, h]

/-- The segment `g` of slice `sl` is given up: its bytes are zeroed, and writes that wait for it are dropped. -/
def State.zeroSegment (s : State) (sl g : Nat) : State :=
  (s.zeroCasket (sl * 0x80000 + g * 0x10000) 0x10000).dropPending (sl * 0x80000 + g * 0x10000) 0x10000

theorem State.zeroSegment_get (s : State) (sl g k : Nat) :
    SMap.get 0 (s.zeroSegment sl g).casket.bytes k =
      if sl * 0x80000 + g * 0x10000 ≤ k ∧ k < sl * 0x80000 + g * 0x10000 + 0x10000 then 0 else SMap.get 0 s.casket.bytes k :=
  SMap.get_clear ..

theorem State.zeroSegment_unchanged (s : State) (sl g : Nat) : unchangedBut [.casket] s (s.zeroSegment sl g) :=
  unchangedBut_withCasket ..

theorem State.zeroSegments_own (s : State) (sl : Nat) (l : List Nat) :
    (l.foldl (fun s g => s.zeroSegment sl g) s).casket.own = s.casket.own :=
  List.foldlRecOn (motive := fun u : State => u.casket.own = s.casket.own) l _ rfl fun _ hu _ _ => hu

theorem State.zeroSegments_zero (s : State) (sl : Nat) {l : List Nat} {g i : Nat} (hg : g ∈ l) (hi : i < 0x10000) :
    SMap.get 0 (l.foldl (fun s g => s.zeroSegment sl g) s).casket.bytes (sl * 0x80000 + g * 0x10000 + i) = 0 := by
  refine foldl_reaches (I := fun _ => True) (P := fun u : State => SMap.get 0 u.casket.bytes (sl * 0x80000 + g * 0x10000 + i) = 0)
    hg trivial (fun _ _ _ _ => trivial) (fun u _ => ?_) fun u k _ hu => ?_
  · rw [State.zeroSegment_get, if_pos (by omega)]
  · rw [State.zeroSegment_get, hu, ite_self]

section
variable {s : State} {sl : Nat}

/-- The ownership of a slice when the segments that may change have changed. -/
def State.appliedOwn (s : State) (sl : Nat) : CasketOwn :=
  { s.casketOwn sl with
    current := (s.segsToApply sl ++ (List.range 8).filter (fun g =>
      segOwner (s.casketOwn sl).requested g == segOwner (s.casketOwn sl).current g)).foldl
        (fun w g => copySeg w (s.casketOwn sl).requested g) (s.casketOwn sl).current }

/-- With nothing in flight every segment gets the owner asked for. -/
theorem State.segOwner_appliedOwn (h : s.work.flights = []) {g : Nat} (hg : g < 8) :
    segOwner (s.appliedOwn sl).current g = segOwner (s.casketOwn sl).requested g := by
  refine segOwner_foldl_copySeg _ _ (fun k hk => ?_) ?_
  · rcases List.mem_append.1 hk with hgo | hsame
    · exact ((State.mem_segsToApply sl h).1 hgo).1
    · exact List.mem_range.1 (List.mem_filter.1 hsame).1
  · by_cases he : segOwner (s.casketOwn sl).requested g = segOwner (s.casketOwn sl).current g
    · exact List.mem_append_right _ (List.mem_filter.2 ⟨List.mem_range.2 hg, beq_iff_eq.2 he⟩)
    · exact List.mem_append_left _ ((State.mem_segsToApply sl h).2 ⟨hg, he⟩)

/-- In an Admit phase the segments that may change are zeroed and the slice takes their new owners. -/
theorem exec_casketOwnApply_admit (hsl : sl < 576) (hp : s.tick.phase = 0) :
    completesWith (exec (.casketOwnApply sl) s) fun t =>
      t.casket.own = SMap.set {} s.casket.own sl (s.appliedOwn sl) ∧
      t.casket.bytes = ((s.segsToApply sl).foldl (fun s g => s.zeroSegment sl g) s).casket.bytes ∧
      unchangedBut [.casket, .evt] s t := by
  have hexec : exec (.casketOwnApply sl) s = execCasketOwnApply sl s := rfl
  rw [hexec, execCasketOwnApply, decide_eq_true hsl, guarded_true, if_neg (not_not_intro hp)]
  extract_lets o go same current zeroed casket moved owners
  have hzero : unchangedBut [.casket] s zeroed := .foldl _ (fun u g => u.zeroSegment_unchanged sl g) s
  have hmoved : unchangedBut [.casket] zeroed moved := unchangedBut_withCasket ..
  have hcasket (e : State → Nat → State) (he : ∀ u p, unchangedBut [.evt] u (e u p)) : (owners.foldl e moved).casket = moved.casket :=
    (unchangedBut.foldl owners he moved).1 .casket (by simp)
  have hown : moved.casket.own = SMap.set {} s.casket.own sl (s.appliedOwn sl) :=
    congrArg (fun m => SMap.set {} m sl (s.appliedOwn sl)) (s.zeroSegments_own sl go)
  refine ⟨owners.foldl _ moved, rfl, ?_, ?_, ?_⟩
  · rw [hcasket _ fun u p => u.post_unchanged .., hown]
  · rw [hcasket _ fun u p => u.post_unchanged ..]
    rfl
  · exact ((hzero.mono (by simp)).trans (hmoved.mono (by simp))).trans
      ((unchangedBut.foldl owners (fun u p => u.post_unchanged ..) moved).mono (by simp))

/-- A segment that changes owner is zero, and the other slices keep theirs (R210, R212). -/
theorem exec_casketOwnApply_zeroes (hsl : sl < 576) (hp : s.tick.phase = 0) (hf : s.work.flights = []) :
    completesWith (exec (.casketOwnApply sl) s) fun t =>
      (∀ g, g < 8 → segOwner (t.casketOwn sl).current g = segOwner (s.casketOwn sl).requested g) ∧
      (∀ g i, g < 8 → segOwner (s.casketOwn sl).requested g ≠ segOwner (s.casketOwn sl).current g → i < 0x10000 →
        SMap.get 0 t.casket.bytes (sl * 0x80000 + g * 0x10000 + i) = 0) ∧
      (∀ q, q ≠ sl → t.casketOwn q = s.casketOwn q) ∧ unchangedBut [.casket, .evt] s t := by
  obtain ⟨t, hexec, hown, hbytes, hsame⟩ := exec_casketOwnApply_admit hsl hp
  have hslice : t.casketOwn sl = s.appliedOwn sl := by rw [State.casketOwn, hown, SMap.get_set_same]
  refine ⟨t, hexec, fun g hg => ?_, fun g i hg hne hi => ?_, fun q hq => ?_, hsame⟩
  · rw [hslice, State.segOwner_appliedOwn hf hg]
  · rw [hbytes]
    exact State.zeroSegments_zero s sl ((State.mem_segsToApply sl hf).2 ⟨hg, hne⟩) hi
  · rw [State.casketOwn, hown, SMap.get_set_other _ _ _ _ _ hq]
    rfl

end

/-! ### The patrol scrub (R208) -/

section
variable {s : State}

theorem State.updCe_unchanged (s : State) (b : Nat) (f : CeBucket → CeBucket) : unchangedBut [.care] s (s.updCe b f) :=
  unchangedBut_withCare ..

theorem State.chargeCe_unchanged (s : State) (b amount unit : Nat) : unchangedBut [.care, .evt] s (s.chargeCe b amount unit) := by
  have hce (f : CeBucket → CeBucket) : unchangedBut [.care, .evt] s (s.updCe b f) := (s.updCe_unchanged b f).mono (by simp)
  exact .ite (hce _) (.ite (hce _) ((hce _).trans ((State.post_unchanged ..).mono (by simp))))

/-- A byte whose codeword has one upset bit is corrected where it stands, and counted. -/
theorem State.heedCasketByte_corrects {a b : Nat}
    (h : hammingDecode (hammingEncode (SMap.get 0 s.casket.bytes a).toNat ^^^ SMap.get 0 s.casket.errs a) = some (b, true)) :
    (s.heedCasketByte a).casket = { s.casket with
      bytes := SMap.set 0 s.casket.bytes a (BitVec.ofNat 8 b)
      errs := SMap.set 0 s.casket.errs a 0
      err := SMap.upd {} s.casket.err (a / 0x80000) (fun e => { e with corrected := satAdd 0xFFFF e.corrected 1 }) } ∧
    unchangedBut [.casket, .care, .evt] s (s.heedCasketByte a) := by
  rw [State.heedCasketByte, h]
  refine ⟨State.chargeCe_casket .., ?_⟩
  have hfix (c : Casket) (f : CasketErr → CasketErr) : unchangedBut [.casket, .care, .evt] s
      (({ s with casket := c } : State).casketErr (a / 0x80000) f) :=
    ((unchangedBut_withCasket s c).trans (unchangedBut_withCasket _ _)).mono (by simp)
  exact (hfix _ _).trans ((State.chargeCe_unchanged ..).mono (by simp))

/-- The codeword that the patrol reads stands at its address. -/
def State.patrolReads (s : State) (sl off : Nat) (cw : BitVec 12) : State :=
  { s with casket := { s.casket with
    errs := SMap.set 0 s.casket.errs (sl * 0x80000 + off)
      (hammingEncode (SMap.get 0 s.casket.bytes (sl * 0x80000 + off)).toNat ^^^ cw.toNat)
    scrubbed := SMap.upd 0 s.casket.scrubbed sl (fun n => (n + 1) % 0x80000) } }

theorem State.patrolReads_codeword (sl off : Nat) (cw : BitVec 12) :
    hammingEncode (SMap.get 0 (s.patrolReads sl off cw).casket.bytes (sl * 0x80000 + off)).toNat ^^^
      SMap.get 0 (s.patrolReads sl off cw).casket.errs (sl * 0x80000 + off) = cw.toNat := by
  simp only [State.patrolReads, SMap.get_set_same]
  rw [← Nat.xor_assoc, Nat.xor_self, Nat.zero_xor]

/-- A codeword with one upset bit is corrected by the patrol. -/
theorem exec_casketPatrolScrub_corrects {sl off b : Nat} {cw : BitVec 12} (hsl : sl < 576) (hoff : off < 0x80000)
    (hd : hammingDecode cw.toNat = some (b, true)) (hbad : SMap.get false s.casket.bad (sl * 0x80000 + off) = false) :
    exec (.casketPatrolScrub sl off cw []) s = .next ((s.patrolReads sl off cw).heedCasketByte (sl * 0x80000 + off)) := by
  obtain ⟨hcasket, -⟩ := State.heedCasketByte_corrects ((congrArg hammingDecode (s.patrolReads_codeword sl off cw)).trans hd)
  have hclean : (((s.patrolReads sl off cw).heedCasketByte (sl * 0x80000 + off)).casketByte (sl * 0x80000 + off)).2 = false := by
    rw [State.casketByte, hcasket]
    simp [upsetByte, State.patrolReads, hbad]
  have hrun : exec (.casketPatrolScrub sl off cw []) s = .next
      (if (((s.patrolReads sl off cw).heedCasketByte (sl * 0x80000 + off)).casketByte (sl * 0x80000 + off)).2 then
        ((s.patrolReads sl off cw).heedCasketByte (sl * 0x80000 + off)).casketBadRead (sl * 0x80000 + off) 5 0xFF
      else (s.patrolReads sl off cw).heedCasketByte (sl * 0x80000 + off)) :=
    (guarded_eq "CASKET_PATROL_SCRUB" _ _).1 (by simp [hsl, hoff])
  rw [hrun, hclean, if_neg Bool.false_ne_true]

/-- The patrol corrects a single error in place and counts it for the slice (R208). -/
theorem exec_casketPatrolScrub_counts {sl off b : Nat} {cw : BitVec 12} (hsl : sl < 576) (hoff : off < 0x80000)
    (hd : hammingDecode cw.toNat = some (b, true)) (hbad : SMap.get false s.casket.bad (sl * 0x80000 + off) = false) :
    completesWith (exec (.casketPatrolScrub sl off cw []) s) fun t =>
      SMap.get 0 t.casket.bytes (sl * 0x80000 + off) = BitVec.ofNat 8 b ∧ SMap.get 0 t.casket.errs (sl * 0x80000 + off) = 0 ∧
      (∀ i, i ≠ sl * 0x80000 + off → SMap.get 0 t.casket.bytes i = SMap.get 0 s.casket.bytes i) ∧
      (SMap.get {} t.casket.err sl).corrected = satAdd 0xFFFF (SMap.get {} s.casket.err sl).corrected 1 ∧
      unchangedBut [.casket, .care, .evt] s t := by
  obtain ⟨hcasket, hsame⟩ := State.heedCasketByte_corrects ((congrArg hammingDecode (s.patrolReads_codeword sl off cw)).trans hd)
  have hslice : (sl * 0x80000 + off) / 0x80000 = sl := by omega
  have hreads : unchangedBut [.casket, .care, .evt] s (s.patrolReads sl off cw) := (unchangedBut_withCasket ..).mono (by simp)
  refine ⟨_, exec_casketPatrolScrub_corrects hsl hoff hd hbad, ?_, ?_, fun i hi => ?_, ?_, hreads.trans hsame⟩
  · rw [hcasket, SMap.get_set_same]
  · rw [hcasket, SMap.get_set_same]
  · rw [hcasket]
    exact SMap.get_set_other _ _ _ _ _ hi
  · rw [hcasket, hslice, SMap.get_upd_same]
    rfl

end

/-- Settles O30: every segment is either as it was asked for or changes to that, zeroed; the patrol finds the codeword it reads at
its address and corrects it there. -/
theorem casketOwnershipAndScrub : Obligations.CasketOwnershipAndScrub :=
  ⟨fun _ _ => exec_casketOwnApply_zeroes, fun _ _ _ _ _ => exec_casketPatrolScrub_counts⟩

end Sys2Proof.Machine
end

section
/-! SUPPORT. The mover descriptors on the Casket: what their pieces read and write there, how they end, and the statement O13 (R208, R209,
R215, R221, R224). -/

namespace Sys2Proof.Machine

/-! ### The end of a mover's piece (R61) -/

/-- The components that the end of a piece changes. -/
theorem State.endPiece_leaves (s : State) (x : Flight) (last : Bool) (status dt : Nat) :
    unchangedBut [.work, .tick, .xlat] s (s.endPiece x last status dt) := by
  have pin : unchangedBut [.work, .xlat] (s.judged x 0) ((s.judged x 0).unpinPiece x.id 0) :=
    ((unchangedBut_withXlat ..).mono (by simp)).trans ((State.updStrand_unchanged ..).mono (by simp))
  refine .ite ((State.updFlight_unchanged ..).mono (by simp)) ?_
  rw [State.nextPiece_eq]
  exact ((((s.judged_unchanged x 0).mono (by simp)).trans (pin.mono (by simp))).trans
    ((State.updStrand_unchanged ..).mono (by simp))).trans ((State.updFlight_unchanged ..).mono (by simp))

section
variable {s u : State} {f key n : Nat} {x : Flight} {last : Bool}

/-- Work that left the flights alone ends the piece of a working flight. -/
theorem State.endPiece_of_working (dt : Nat) (hw : s.working f 0 key = some x) (hu : u.work = s.work)
    (hlast : last = true ↔ (x.strand 0).piece + 1 = n) : pieceWorked (u.endPiece x last 0 dt) f x n 0 := by
  obtain ⟨hx, -⟩ := State.working_some hw
  exact State.endPiece_worked dt ((State.flight_of_work hu f).trans hx) (State.flight_id hx) (State.working_atPiece hw) hlast

/-- The status of a mover that met poison comes with its last piece (R224). -/
theorem State.endPiece_poison {pois : Bool} (dt : Nat) (hw : s.working f 0 key = some x) (hu : u.work = s.work)
    (hlast : last = true ↔ (x.strand 0).piece + 1 = n) :
    pieceWorked (u.endPiece x last (if last && pois then 1 else 0) dt) f x n (flag pois) := by
  obtain ⟨hx, -⟩ := State.working_some hw
  cases last with
  | true =>
    have hf : u.flight x.id = some x := by rw [State.flight_of_work hu, State.flight_id hx, hx]
    obtain ⟨⟨y, hy, hyw, hys, hyd, hyst⟩, -⟩ := State.workDone_worked hf (flag pois) dt
    refine ⟨y, State.flight_id hx ▸ hy, hyd, hyst, ?_⟩
    rw [if_pos (hlast.1 rfl)]
    exact ⟨hyw, hys⟩
  | false =>
    obtain ⟨y, hy, hyd, hyst, hend⟩ := State.endPiece_of_working (last := false) dt hw hu hlast
    have hmore : ¬ (x.strand 0).piece + 1 = n := fun h => Bool.false_ne_true (hlast.2 h)
    rw [if_neg hmore] at hend
    exact ⟨y, hy, hyd, hyst, by rwa [if_neg hmore]⟩

end

/-! ### Places in the Casket -/

/-- Runs of the Casket as places. -/
def casketPlaces (rs : List (Nat × Nat)) : List (Place × Nat) := rs.map (fun r => (.casket r.1, r.2))

section
variable (s : State) (x : Flight) (ws : List ChkWindow) (p a n : Nat)

@[simp] theorem State.endPlaces_casket (r : Nat × Nat) (read write : Bool) : s.endPlaces p 1 r read write = some (casketPlaces [r]) := rfl

@[simp] theorem State.endPlacesAll_casket (r : Nat × Nat) (read write : Bool) :
    s.endPlacesAll p 1 [r] read write = some (casketPlaces [r]) := rfl

@[simp] theorem State.entryPlaces_casket (bs : List Nat) : s.entryPlaces ws p 1 bs = [] := rfl

@[simp] theorem State.checkPlaces_casket (b : Nat) : s.checkPlaces ws p 1 [b] = casketPlaces [(b, 4096)] := rfl

@[simp] theorem State.checkPlaces_nil (space : Nat) : s.checkPlaces ws p space [] = [] := rfl

@[simp] theorem State.blockBytes_casket (b : Nat) : s.blockBytes p 1 b = s.readCasket b 4096 :=
  List.append_nil _

/-- Accesses of the Casket wait for nothing and cost nothing of the partition's bucket (R224, R253). -/
theorem State.access_casket (j : Nat) (reads writes : List (Nat × Nat)) :
    s.access x j (casketPlaces reads) (casketPlaces writes) = .go s := by
  simp [State.access, casketPlaces, State.missingLines, State.missingSite, State.tilesBusy, State.placesHeld, State.placesRepaired,
    State.accessCosts, State.issueAll, Function.comp_def]

@[simp] theorem State.siteStatus_casket (rs : List (Nat × Nat)) : s.siteStatus (casketPlaces rs) = 0 := by
  simp [State.siteStatus, casketPlaces, Function.comp_def]

theorem State.useLines_nil : s.useLines [] = s := by
  simp [State.useLines, SMap.keep]

/-- Without upset bits nothing is to be corrected, and no line is used up. -/
theorem State.took_casket (he : s.casket.errs = []) : s.took (casketPlaces [(a, n)]) = s := by
  have hheed : s.heedPlaces (casketPlaces [(a, n)]) = s := by simp [casketPlaces, State.heedPlaces, State.heedCasket, he]
  have hlines : hostLinesOf (casketPlaces [(a, n)]) = [] := rfl
  rw [State.took, hheed, hlines, State.useLines_nil]
  rfl

/-- The bad bytes of a line are counted for the line, whichever byte it is asked for at (R209). -/
theorem State.badInLine_congr {a b : Nat} (h : a / 64 = b / 64) : s.badInLine a = s.badInLine b := by
  rw [State.badInLine, State.badInLine, h]

theorem State.poisoned_line (l : Nat) : poisoned (s.readCasket (64 * l) 64) = (s.badInLine (64 * l) != 0) := by
  have hsame (i : Nat) (hi : i < 64) : s.badInLine (64 * l + i) = s.badInLine (64 * l) := s.badInLine_congr (by omega)
  rw [Bool.eq_iff_iff, poisoned, State.readCasket, List.any_map, List.any_eq_true]
  simp only [List.mem_range, Function.comp_apply]
  refine ⟨fun ⟨i, hi, hb⟩ => ?_, fun hb => ⟨0, by omega, hb⟩⟩
  rwa [hsame i hi] at hb

/-- A line is bad in every read of it alike: the read by whole lines gives what the read of the bytes gives (R209). -/
theorem State.readLinesOf_casket : s.readLinesOf (casketPlaces [(a, n)]) = s.readCasket a n := by
  have hlines : s.readLines (.casket a, n) = s.readCasket a n := by
    refine List.ext_getElem (by simp [State.readLines, State.readPlace]) fun i hi hj => ?_
    have hbad : (s.badLines (.casket a, n)).contains ((a + i) / 64) = true → s.badInLine (a + i) ≠ 0 := by
      intro h
      have hline := (List.mem_filter.1 (List.contains_iff_mem.1 h)).2
      have hp := (s.poisoned_line ((a + i) / 64)).symm.trans hline
      rw [s.badInLine_congr (show (a + i) / 64 = 64 * ((a + i) / 64) / 64 by omega)]
      exact bne_iff_ne.1 hp
    simp only [State.readLines, State.readPlace, State.readCasket, List.getElem_mapIdx, List.getElem_map, List.getElem_range, Place.addr]
    refine Prod.ext rfl ?_
    rw [Bool.or_eq_left_iff_imp]
    exact fun h => bne_iff_ne.2 (hbad h)
  exact (List.append_nil _).trans hlines

/-- A line of a run holds a byte of it. -/
theorem exists_of_mem_linesOf {a n l : Nat} (h : l ∈ linesOf a n) : ∃ i, i < n ∧ (a + i) / 64 = l := by
  unfold linesOf at h
  split at h
  · cases h
  · obtain ⟨j, hj, rfl⟩ := List.mem_map.1 h
    have hj := List.mem_range.1 hj
    exact ⟨64 * (a / 64 + j) - a, by omega, by omega⟩

/-- A run that reads without poison meets no bad line. -/
theorem State.badReads_casket (h : ∀ b, b ∈ s.readCasket a n → b.2 = false) : s.badReads (casketPlaces [(a, n)]) = [] := by
  have hlines : s.badLines (.casket a, n) = [] := by
    refine List.filter_eq_nil_iff.2 fun l hl => ?_
    obtain ⟨i, hi, rfl⟩ := exists_of_mem_linesOf hl
    have hclean : (s.badInLine (a + i) != 0) = false :=
      h _ (List.mem_map.2 ⟨i, List.mem_range.2 hi, rfl⟩)
    have hp := s.poisoned_line ((a + i) / 64)
    rw [s.badInLine_congr (show 64 * ((a + i) / 64) / 64 = (a + i) / 64 by omega), hclean] at hp
    exact Bool.eq_false_iff.1 hp
  simp [State.badReads, casketPlaces, hlines]

/-- `t` is `s` with errors of the Casket counted and posted. -/
def casketReported (s t : State) : Prop := (∃ err, t.casket = { s.casket with err := err }) ∧ unchangedBut [.casket, .evt] s t

theorem casketReported.refl (s : State) : casketReported s s := ⟨⟨s.casket.err, rfl⟩, .refl ..⟩

theorem casketReported.trans {s t u : State} (h : casketReported s t) (k : casketReported t u) : casketReported s u := by
  obtain ⟨⟨e, he⟩, hs⟩ := h
  obtain ⟨⟨d, hd⟩, ht⟩ := k
  exact ⟨⟨d, by rw [hd, he]⟩, hs.trans ht⟩

/-- A count of the slice and an event are a report. -/
theorem State.casketErr_post_reported (sl code severity part unit dt : Nat) (g : CasketErr → CasketErr) :
    casketReported s ((s.casketErr sl g).post code severity part unit dt) :=
  ⟨⟨_, rfl⟩, ((unchangedBut_withCasket ..).mono (by simp)).trans ((State.post_unchanged ..).mono (by simp))⟩

theorem State.postCrcMismatch_reported (tag b slice : Nat) : casketReported s (s.postCrcMismatch ws p tag 1 b slice) :=
  s.casketErr_post_reported ..

/-- The bad reads of a run of the Casket are reported as the Casket's (R209). -/
theorem State.reportBad_casket (u : State) (tag : Nat) :
    casketReported u (u.reportBad p tag (s.badReads (casketPlaces [(a, n)]))) := by
  refine List.foldlRecOn (motive := casketReported u) _ _ (casketReported.refl u) fun v hv b hb => ?_
  have hplace : ∃ l, b.1 = .casket l := by
    simp only [State.badReads, casketPlaces, List.mem_eraseDups, List.map_cons, List.map_nil, List.flatten_singleton, List.mem_map] at hb
    obtain ⟨l, -, rfl⟩ := hb
    exact ⟨_, rfl⟩
  obtain ⟨l, hl⟩ := hplace
  rw [hl]
  exact hv.trans (v.casketErr_post_reported ..)

theorem State.moverWrite_casket (f : Nat) (bs : List (Byte × Bool)) :
    s.moverWrite f p (casketPlaces [(a, n)]) bs = s.writeCasket a (bs.take n) := rfl

theorem State.length_readCasket : (s.readCasket a n).length = n := by
  simp [State.readCasket]

/-- Without upset bits the bytes read as they stand. -/
theorem State.readCasket_getD (he : s.casket.errs = []) {i : Nat} (hi : i < n) :
    ((s.readCasket a n).getD i (0, false)).1 = SMap.get 0 s.casket.bytes (a + i) := by
  simp [State.readCasket, hi, State.casketByte, he, upsetByte]

theorem State.countMoved_unchanged : unchangedBut [.casket] s (s.countMoved p n) := unchangedBut_withCasket ..

theorem State.writeCasket_unchanged (bs : List (Byte × Bool)) : unchangedBut [.casket] s (s.writeCasket a bs) := unchangedBut_withCasket ..

end

/-! ### FILL and COPY (R221, R224) -/

/-- The bytes of the piece of a FILL at `a`: its pattern, repeated from the descriptor's address on. -/
def fillPiece (d : Bytes) (a n : Nat) : Bytes :=
  (fillBytes (slice d 56 8) ((a - linAddr d) % 8 + n)).drop ((a - linAddr d) % 8)

@[simp] theorem length_fillPiece (d : Bytes) (a n : Nat) : (fillPiece d a n).length = n := by
  simp [fillPiece, fillBytes]

theorem getD_fillPiece (d : Bytes) (a : Nat) {n i : Nat} (hi : i < n) :
    (fillPiece d a n).getD i 0 = d.getD (56 + (a - linAddr d + i) % 8) 0 := by
  have hlt : (a - linAddr d + i) % 8 < 8 := Nat.mod_lt _ (by decide)
  simp [fillPiece, fillBytes, slice, hi, hlt, List.getElem?_take]

section
variable {s : State} {f key a b n : Nat} {x : Flight}

theorem exec_fill_working (h : s.working f 0 0x10002 = some x) : exec (.fill f) s = .next (s.doFill x) := by
  simp only [exec, execFill, h]

theorem exec_copy_working (h : s.working f 0 0x10001 = some x) : exec (.copy f) s = .next (s.doCopy x) := by
  simp only [exec, execCopy, h]

theorem exec_crcgen_working (h : s.working f 0 0x10003 = some x) : exec (.crcgen f) s = .next (s.doCrcGen x) := by
  simp only [exec, execCrcgen, h]

theorem exec_crcverify_working (h : s.working f 0 0x10004 = some x) : exec (.crcverify f) s = .next (s.doCrcVerify x) := by
  simp only [exec, execCrcverify, h]

/-- One piece of a FILL of the Casket without checksums. -/
theorem State.doFill_casket (hsp : linSpace x.desc = 1) (hgen : bit (byteAt x.desc 33) 1 = false)
    (hp : (linPieces x.desc)[(x.strand 0).piece]? = some (a, n)) :
    s.doFill x = ((s.writeCasket a (clean (fillPiece x.desc a n))).countMoved x.part n).endPiece x
      ((x.strand 0).piece + 1 == (linPieces x.desc).length) 0 (moverDetail (a - linAddr x.desc + n) false false) := by
  have hr : (linPieces x.desc).getD (x.strand 0).piece (0, 0) = (a, n) := by rw [List.getD_eq_getElem?_getD, hp]; rfl
  have htake : (clean (fillPiece x.desc a n)).take n = clean (fillPiece x.desc a n) := List.take_of_length_le (by simp [clean])
  have hgo : s.access x 0 [] (casketPlaces [(a, n)]) = .go s := s.access_casket x 0 [] [(a, n)]
  rw [← htake, ← State.moverWrite_casket s x.part a n x.id]
  simp only [State.doFill, hsp, hr, hgen, State.endPlaces_casket, State.entryPlaces_casket, List.append_nil, hgo, Bool.false_eq_true,
    if_false, List.foldl_nil]
  rfl

/-- One piece of a COPY of one run of the Casket to another that it does not meet, without checksums. -/
theorem State.doCopy_casket (hs : copySrcSpace x.desc = 1) (hd : copyDstSpace x.desc = 1) (hchk : copySrcCheck x.desc = false)
    (hgen : copyDstGen x.desc = false) (hspec : dSpeculative x.desc = false)
    (hp : (copyPieces x.desc)[(x.strand 0).piece]? = some [(a, b, n)]) (hov : s.copyOverlaps x.part x.desc = false)
    (he : s.casket.errs = []) :
    ∃ dt, s.doCopy x =
      (((s.writeCasket b (s.readCasket a n)).reportBad x.part (dTag x.desc) (s.badReads (casketPlaces [(a, n)]))).countMoved x.part
        n).endPiece x ((x.strand 0).piece + 1 == (copyPieces x.desc).length)
        (if (x.strand 0).piece + 1 == (copyPieces x.desc).length && (x.detail % 2 == 1 || poisoned (s.readCasket a n)) then 1 else 0)
        dt := by
  have hr : (copyPieces x.desc).getD (x.strand 0).piece [] = [(a, b, n)] := by rw [List.getD_eq_getElem?_getD, hp]; rfl
  have hn : partsLen [(a, b, n)] = n := Nat.add_zero n
  have hsrc : srcOf [(a, b, n)] = [(a, n)] := rfl
  have hdst : dstOf [(a, b, n)] = [(b, n)] := rfl
  have htake : (s.readCasket a n).take n = s.readCasket a n := List.take_of_length_le (by rw [State.length_readCasket])
  refine ⟨moverDetail ((((copyPieces x.desc).take (x.strand 0).piece).map partsLen).sum + n) false
    (x.detail % 2 == 1 || poisoned (s.readCasket a n)), ?_⟩
  rw [← htake, ← State.moverWrite_casket s x.part b n x.id, htake]
  simp only [State.doCopy, hs, hd, hr, hn, hsrc, hdst, hchk, hgen, hspec, hov, State.endPlacesAll_casket, State.entryPlaces_casket,
    State.checkPlaces_nil, List.append_nil, s.access_casket, State.siteStatus_casket, State.readLinesOf_casket, State.took_casket _ _ _ he,
    Bool.false_eq_true, if_false, List.foldl_nil, List.findIdx?_nil, ne_eq, not_true_eq_false]

/-- A piece of a FILL writes its pattern, and nothing else of the Casket (R221). -/
theorem exec_fill_writes (hw : s.working f 0 0x10002 = some x) (hsp : linSpace x.desc = 1) (hgen : bit (byteAt x.desc 33) 1 = false)
    (hp : (linPieces x.desc)[(x.strand 0).piece]? = some (a, n)) :
    completesWith (exec (.fill f) s) fun t =>
      (∀ i, i < n → SMap.get 0 t.casket.bytes (a + i) = x.desc.getD (56 + (a - linAddr x.desc + i) % 8) 0 ∧
        SMap.get false t.casket.bad (a + i) = false) ∧
      casketSameOutside s t a n ∧ pieceWorked t f x (linPieces x.desc).length 0 ∧ unchangedBut [.work, .casket, .tick, .xlat] s t := by
  have hend := ((s.writeCasket a (clean (fillPiece x.desc a n))).countMoved x.part n).endPiece_leaves x
    ((x.strand 0).piece + 1 == (linPieces x.desc).length) 0 (moverDetail (a - linAddr x.desc + n) false false)
  have hholds := s.writeCasket_clean_holds a (fillPiece x.desc a n)
  have hsame := s.writeCasket_same_le a (n := n) (bs := clean (fillPiece x.desc a n)) (by simp [clean])
  refine ⟨_, (exec_fill_working hw).trans (congrArg _ (State.doFill_casket hsp hgen hp)), fun i hi => ?_, ?_,
    State.endPiece_of_working _ hw rfl beq_iff_eq, ?_⟩
  · rw [hend.1 .casket (by simp), ← getD_fillPiece _ _ hi]
    exact hholds i (by simpa using hi)
  · rw [casketSameOutside, hend.1 .casket (by simp)]
    exact hsame
  · exact (((s.writeCasket_unchanged ..).trans (State.countMoved_unchanged ..)).mono (by simp)).trans (hend.mono (by simp))

/-- A piece of a COPY writes the bytes of its source, and nothing else of the Casket; poison shows in the status (R221, R224). -/
theorem exec_copy_writes (hw : s.working f 0 0x10001 = some x) (hs : copySrcSpace x.desc = 1) (hd : copyDstSpace x.desc = 1)
    (hchk : copySrcCheck x.desc = false) (hgen : copyDstGen x.desc = false) (hspec : dSpeculative x.desc = false)
    (hp : (copyPieces x.desc)[(x.strand 0).piece]? = some [(a, b, n)]) (hov : s.copyOverlaps x.part x.desc = false)
    (he : s.casket.errs = []) :
    completesWith (exec (.copy f) s) fun t =>
      (∀ i, i < n → SMap.get 0 t.casket.bytes (b + i) = SMap.get 0 s.casket.bytes (a + i)) ∧ casketSameOutside s t b n ∧
      pieceWorked t f x (copyPieces x.desc).length (flag (x.detail % 2 == 1 || poisoned (s.readCasket a n))) ∧
      unchangedBut [.work, .casket, .evt, .tick, .xlat] s t := by
  obtain ⟨dt, hdo⟩ := State.doCopy_casket hs hd hchk hgen hspec hp hov he
  obtain ⟨⟨err, hcasket⟩, hreport⟩ := s.reportBad_casket x.part a n (s.writeCasket b (s.readCasket a n)) (dTag x.desc)
  have hend := (((s.writeCasket b (s.readCasket a n)).reportBad x.part (dTag x.desc)
    (s.badReads (casketPlaces [(a, n)]))).countMoved x.part n).endPiece_leaves x
      ((x.strand 0).piece + 1 == (copyPieces x.desc).length)
      (if (x.strand 0).piece + 1 == (copyPieces x.desc).length && (x.detail % 2 == 1 || poisoned (s.readCasket a n)) then 1 else 0) dt
  have hlen := s.length_readCasket a n
  refine ⟨_, (exec_copy_working hw).trans (congrArg _ hdo), fun i hi => ?_, ?_, ?_, ?_⟩
  · rw [hend.1 .casket (by simp), ← s.readCasket_getD a n he hi]
    refine Eq.trans ?_ (s.writeCasket_holds b i (s.readCasket a n) (by rwa [hlen])).1
    exact congrArg (fun c => SMap.get 0 c.bytes (b + i)) hcasket
  · rw [casketSameOutside, hend.1 .casket (by simp)]
    intro i hi
    obtain ⟨hbyte, hbad⟩ := s.writeCasket_same b (s.readCasket a n) i (by rwa [hlen])
    exact ⟨(congrArg (fun c => SMap.get 0 c.bytes i) hcasket).trans hbyte, (congrArg (fun c => SMap.get false c.bad i) hcasket).trans hbad⟩
  · exact State.endPiece_poison dt hw (hreport.1 .work (by simp)) beq_iff_eq
  · exact (((s.writeCasket_unchanged ..).mono (by simp)).trans (hreport.mono (by simp))).trans
      (((State.countMoved_unchanged ..).mono (by simp)).trans (hend.mono (by simp)))

/-! ### CRCGEN and CRCVERIFY (R215, R221) -/

theorem poisoned_of_clean {bs : List (Byte × Bool)} (h : ∀ b, b ∈ bs → b.2 = false) : poisoned bs = false :=
  List.any_eq_false.2 fun b hb => Bool.eq_false_iff.1 (h b hb)

/-- One block of a CRCGEN of the Casket that reads without poison. -/
theorem State.doCrcGen_casket (hsp : linSpace x.desc = 1) (hp : (linPieces x.desc)[(x.strand 0).piece]? = some (a, n))
    (he : s.casket.errs = []) (hold : x.detail % 2 = 0) (hclean : ∀ b, b ∈ s.readCasket a n → b.2 = false) :
    ∃ dt, s.doCrcGen x = ((s.setSide (a / 4096) (crc64 (plain (s.readCasket a 4096)))).countMoved x.part 8).endPiece x
      ((x.strand 0).piece + 1 == (linPieces x.desc).length) 0 dt := by
  have hr : (linPieces x.desc).getD (x.strand 0).piece (0, 0) = (a, n) := by rw [List.getD_eq_getElem?_getD, hp]; rfl
  have hgo : s.access x 0 (casketPlaces [(a, n)]) [] = .go s := s.access_casket x 0 [(a, n)] []
  have hcrc : s.genCrc x.windows x.part 1 a = s.setSide (a / 4096) (crc64 (plain (s.readCasket a 4096))) := by
    rw [State.genCrc, State.blockBytes_casket, if_pos rfl]
  have hpois : (x.detail % 2 == 1 || poisoned (s.readCasket a n)) = false := by rw [hold, poisoned_of_clean hclean]; rfl
  have htook : (s.setSide (a / 4096) (crc64 (plain (s.readCasket a 4096)))).took (casketPlaces [(a, n)]) = _ :=
    State.took_casket _ a n he
  refine ⟨moverDetail (8 * ((x.strand 0).piece + 1)) false false, ?_⟩
  simp only [State.doCrcGen, hsp, hr, State.endPlaces_casket, State.entryPlaces_casket, hgo, hcrc, s.badReads_casket a n hclean,
    State.reportBad, List.foldl_nil, htook, State.readLinesOf_casket, hpois, Bool.and_false, Bool.false_eq_true, if_false]

theorem State.blockFails_casket (ws : List ChkWindow) (p b : Nat) :
    s.blockFails ws p 1 b = (SMap.get none s.casket.side (b / 4096) != some (crc64 (plain (s.readCasket b 4096)))) := by
  rw [State.blockFails, State.blockBytes_casket, State.storedCrc, if_pos rfl]

/-- One block of a CRCVERIFY of the Casket: its bad lines are reported, and it passes or fails. -/
theorem State.doCrcVerify_casket (hsp : linSpace x.desc = 1) (hp : (linPieces x.desc)[(x.strand 0).piece]? = some (a, n))
    (he : s.casket.errs = []) :
    ∃ dt, s.doCrcVerify x =
      if s.blockFails x.windows x.part 1 a then
        ((s.reportBad x.part (dTag x.desc) (s.badReads (casketPlaces [(a, 4096)]))).postCrcMismatch x.windows x.part (dTag x.desc) 1 a
          0xFFFF).workDone x.id 9 dt
      else (s.reportBad x.part (dTag x.desc) (s.badReads (casketPlaces [(a, 4096)]))).endPiece x
        ((x.strand 0).piece + 1 == (linPieces x.desc).length)
        (if (x.strand 0).piece + 1 == (linPieces x.desc).length && (x.detail % 2 == 1 || poisoned (s.readCasket a 4096)) then 1 else 0)
        dt := by
  have hr : (linPieces x.desc).getD (x.strand 0).piece (0, 0) = (a, n) := by rw [List.getD_eq_getElem?_getD, hp]; rfl
  have hgo : s.access x 0 (casketPlaces [(a, 4096)]) [] = .go s := s.access_casket x 0 [(a, 4096)] []
  obtain ⟨⟨err, hcasket⟩, -⟩ := s.reportBad_casket x.part a 4096 s (dTag x.desc)
  have htook := State.took_casket _ a 4096 ((congrArg Casket.errs hcasket).trans he)
  simp only [State.doCrcVerify, hsp, hr, State.checkPlaces_casket, hgo, State.blockBytes_casket, htook]
  split <;> exact ⟨_, rfl⟩

/-- A block that reads without poison and matches its entry passes (R215, R221). -/
theorem exec_crcverify_passes (hw : s.working f 0 0x10004 = some x) (hsp : linSpace x.desc = 1)
    (hp : (linPieces x.desc)[(x.strand 0).piece]? = some (a, n)) (he : s.casket.errs = []) (hold : x.detail % 2 = 0)
    (hclean : ∀ b, b ∈ s.readCasket a 4096 → b.2 = false)
    (hcrc : SMap.get none s.casket.side (a / 4096) = some (crc64 (plain (s.readCasket a 4096)))) :
    completesWith (exec (.crcverify f) s) fun t =>
      t.casket.bytes = s.casket.bytes ∧ t.casket.side = s.casket.side ∧ pieceWorked t f x (linPieces x.desc).length 0 ∧
      unchangedBut [.work, .casket, .tick, .xlat] s t := by
  obtain ⟨dt, hdo⟩ := State.doCrcVerify_casket (s := s) hsp hp he
  have hmatch : s.blockFails x.windows x.part 1 a = false := by rw [State.blockFails_casket, hcrc, bne_self_eq_false]
  have hpois : (x.detail % 2 == 1 || poisoned (s.readCasket a 4096)) = false := by rw [hold, poisoned_of_clean hclean]; rfl
  rw [hmatch, if_neg Bool.false_ne_true, s.badReads_casket a 4096 hclean, hpois, Bool.and_false, if_neg Bool.false_ne_true] at hdo
  have hend := s.endPiece_leaves x ((x.strand 0).piece + 1 == (linPieces x.desc).length) 0 dt
  have hcasket := hend.1 .casket (by simp)
  exact ⟨_, (exec_crcverify_working hw).trans (congrArg _ hdo), congrArg Casket.bytes hcasket, congrArg Casket.side hcasket,
    State.endPiece_of_working dt hw rfl beq_iff_eq, hend.mono (by simp)⟩

/-- A block that does not match its entry stops the work with status 0x09 (R215, R221). -/
theorem exec_crcverify_stops (hw : s.working f 0 0x10004 = some x) (hsp : linSpace x.desc = 1)
    (hp : (linPieces x.desc)[(x.strand 0).piece]? = some (a, n)) (he : s.casket.errs = [])
    (hcrc : SMap.get none s.casket.side (a / 4096) ≠ some (crc64 (plain (s.readCasket a 4096)))) :
    completesWith (exec (.crcverify f) s) fun t =>
      workedWith t f x 9 ∧ t.casket.bytes = s.casket.bytes ∧ unchangedBut [.work, .casket, .evt] s t := by
  obtain ⟨dt, hdo⟩ := State.doCrcVerify_casket (s := s) hsp hp he
  rw [State.blockFails_casket, bne_iff_ne.2 hcrc, if_pos rfl] at hdo
  obtain ⟨⟨err, hcasket⟩, hreport⟩ := (s.reportBad_casket x.part a 4096 s (dTag x.desc)).trans
    (State.postCrcMismatch_reported _ x.windows x.part (dTag x.desc) a 0xFFFF)
  obtain ⟨hx, -⟩ := State.working_some hw
  obtain rfl : x.id = f := State.flight_id hx
  obtain ⟨hworked, -, hwork⟩ := State.workDone_worked ((State.flight_of_work (hreport.1 .work (by simp)) _).trans hx) 9 dt
  have hbytes := congrArg Casket.bytes hcasket
  exact ⟨_, (exec_crcverify_working hw).trans (congrArg _ hdo), hworked,
    (congrArg Casket.bytes (hwork.1 .casket (by simp))).trans hbytes, (hreport.mono (by simp)).trans (hwork.mono (by simp))⟩

/-- A block without poison gets its checksum (R215, R221). -/
theorem exec_crcgen_stores (hw : s.working f 0 0x10003 = some x) (hsp : linSpace x.desc = 1)
    (hp : (linPieces x.desc)[(x.strand 0).piece]? = some (a, n)) (he : s.casket.errs = []) (hold : x.detail % 2 = 0)
    (hclean : ∀ b, b ∈ s.readCasket a n → b.2 = false) :
    completesWith (exec (.crcgen f) s) fun t =>
      SMap.get none t.casket.side (a / 4096) = some (crc64 (plain (s.readCasket a 4096))) ∧
      (∀ b, b ≠ a / 4096 → SMap.get none t.casket.side b = SMap.get none s.casket.side b) ∧
      t.casket.bytes = s.casket.bytes ∧ pieceWorked t f x (linPieces x.desc).length 0 ∧
      unchangedBut [.work, .casket, .tick, .xlat] s t := by
  obtain ⟨dt, hdo⟩ := State.doCrcGen_casket hsp hp he hold hclean
  have hend := ((s.setSide (a / 4096) (crc64 (plain (s.readCasket a 4096)))).countMoved x.part 8).endPiece_leaves x
    ((x.strand 0).piece + 1 == (linPieces x.desc).length) 0 dt
  have hside := congrArg Casket.side (hend.1 .casket (by simp))
  have hbytes := congrArg Casket.bytes (hend.1 .casket (by simp))
  refine ⟨_, (exec_crcgen_working hw).trans (congrArg _ hdo), ?_, fun b hb => ?_, hbytes.trans rfl,
    State.endPiece_of_working dt hw rfl beq_iff_eq, ?_⟩
  · rw [hside]
    simp [State.setSide, State.countMoved]
  · rw [hside]
    simp [State.setSide, State.countMoved, hb]
  · exact (((unchangedBut_withCasket s _).trans (State.countMoved_unchanged ..)).mono (by simp)).trans (hend.mono (by simp))

end

/-- Settles O13: each command on Casket operands is an equation of what it writes, and the end of a piece leaves that. -/
theorem moverDescriptors : Obligations.MoverDescriptors := by
  refine ⟨⟨?fill, ?copy⟩, ?gen, ?pass, ?stop⟩
  case fill => exact fun _ _ _ _ _ => exec_fill_writes
  case copy => exact fun _ _ _ _ _ _ => exec_copy_writes
  case gen => exact fun _ _ _ _ _ => exec_crcgen_stores
  case pass => exact fun _ _ _ _ _ => exec_crcverify_passes
  case stop => exact fun _ _ _ _ _ => exec_crcverify_stops

end Sys2Proof.Machine
end

section
/-! SUPPORT. The places of the stacks' bytes, the two views of them, and the statement O32 (R235 to R237). -/

namespace Sys2Proof.Machine

/-! ### Places in the stacks (R235) -/

/-- The storage byte at byte `b` of row `r` of slab `j` of group `g`. -/
def storageAt (g j r b : Nat) : Nat := (g * settingsPerGroup + j * 2 ^ 20 + r) * 1024 + b

theorem storageAt_lt {g j r b : Nat} (hg : g < 32) (hj : j < 24) (hr : r < 2 ^ 20) (hb : b < 1024) :
    storageAt g j r b < 32 * settingsPerGroup * 1024 := by
  simp only [storageAt, settingsPerGroup]
  omega

/-- Every storage byte has a place. -/
theorem exists_storageAt {k : Nat} (hk : k < 32 * settingsPerGroup * 1024) :
    ∃ g j r b, g < 32 ∧ j < 24 ∧ r < 2 ^ 20 ∧ b < 1024 ∧ k = storageAt g j r b := by
  refine ⟨k / 1024 / settingsPerGroup, k / 1024 % settingsPerGroup / 2 ^ 20, k / 1024 % settingsPerGroup % 2 ^ 20, k % 1024, ?_⟩
  simp only [storageAt, settingsPerGroup] at hk ⊢
  omega

/-- The place of a storage byte is read off its number. -/
theorem storageAt_parts {g j r b : Nat} (hj : j < 24) (hr : r < 2 ^ 20) (hb : b < 1024) :
    groupOf (storageAt g j r b) = g ∧ storageAt g j r b / 1024 % settingsPerGroup / 2 ^ 20 = j ∧
      storageAt g j r b / 1024 % settingsPerGroup % 2 ^ 20 = r ∧ storageAt g j r b % 1024 = b := by
  have setting : storageAt g j r b / 1024 = g * settingsPerGroup + (j * 2 ^ 20 + r) := by simp only [storageAt]; omega
  have byte : storageAt g j r b % 1024 = b := by simp only [storageAt]; omega
  rw [groupOf, setting]
  refine ⟨?_, ?_, ?_, byte⟩ <;> simp only [settingsPerGroup] <;> omega

/-- No two places are one byte. -/
theorem storageAt_injective {g j r b g' j' r' b' : Nat} (hj : j < 24) (hr : r < 2 ^ 20) (hb : b < 1024) (hj' : j' < 24)
    (hr' : r' < 2 ^ 20) (hb' : b' < 1024) (h : storageAt g j r b = storageAt g' j' r' b') : g = g' ∧ j = j' ∧ r = r' ∧ b = b' := by
  obtain ⟨hg, hslab, hrow, hbyte⟩ := storageAt_parts (g := g) hj hr hb
  obtain ⟨hg', hslab', hrow', hbyte'⟩ := storageAt_parts (g := g') hj' hr' hb'
  rw [h] at hg hslab hrow hbyte
  exact ⟨hg.symm.trans hg', hslab.symm.trans hslab', hrow.symm.trans hrow', hbyte.symm.trans hbyte'⟩

/-! ### The striped view (R236) -/

/-- The group of the `i`-th setting of a striped row. -/
def stripedGroup (i : Nat) : Nat := 4 * (i % 8) + i / 8

theorem stripedStorage_eq (d : Nat) :
    stripedStorage d = storageAt (stripedGroup (d / 1024 % 32)) (d / 2 ^ 35) (d / 2 ^ 15 % 2 ^ 20) (d % 1024) := by
  have i : d / 1024 % 2 ^ 25 % 32 = d / 1024 % 32 := by omega
  have j : d / 1024 / 2 ^ 25 = d / 2 ^ 35 := by omega
  have r : d / 1024 % 2 ^ 25 / 32 = d / 2 ^ 15 % 2 ^ 20 := by omega
  simp only [stripedStorage, storageAt, stripedGroup, i, j, r]

theorem stripedStorage_lt {d : Nat} (hd : d < 0xC000000000) : stripedStorage d < 32 * settingsPerGroup * 1024 := by
  rw [stripedStorage_eq]
  exact storageAt_lt (by simp only [stripedGroup]; omega) (by omega) (by omega) (by omega)

theorem stripedStorage_injective {d e : Nat} (hd : d < 0xC000000000) (he : e < 0xC000000000) (h : stripedStorage d = stripedStorage e) :
    d = e := by
  rw [stripedStorage_eq, stripedStorage_eq] at h
  obtain ⟨hg, hslab, hrow, hbyte⟩ := storageAt_injective (by omega) (by omega) (by omega) (by omega) (by omega) (by omega) h
  have hi : d / 1024 % 32 = e / 1024 % 32 := by simp only [stripedGroup] at hg; omega
  omega

/-! ### The local view (R237) -/

theorem localStorage_eq {l : Nat} : localStorage l = storageAt (l / 2 ^ 30 % 32) (l / 2 ^ 35) (l / 2 ^ 10 % 2 ^ 20) (l % 1024) := by
  have r : l % 2 ^ 30 / 1024 = l / 2 ^ 10 % 2 ^ 20 := by omega
  have b : l % 2 ^ 30 % 1024 = l % 1024 := by omega
  simp only [localStorage, storageAt, r, b]

theorem localStorage_injective {l m : Nat} (hl : l < 0xC000000000) (hm : m < 0xC000000000) (h : localStorage l = localStorage m) : l = m := by
  rw [localStorage_eq, localStorage_eq] at h
  obtain ⟨hg, hslab, hrow, hbyte⟩ := storageAt_injective (by omega) (by omega) (by omega) (by omega) (by omega) (by omega) h
  omega

theorem localAddr_storageAt {g j r b : Nat} (hj : j < 24) (hr : r < 2 ^ 20) (hb : b < 1024) :
    localAddr (storageAt g j r b) = 0x10000000000 + j * 2 ^ 35 + g * 2 ^ 30 + r * 1024 + b := by
  obtain ⟨hg, hslab, hrow, hbyte⟩ := storageAt_parts (g := g) hj hr hb
  simp only [localAddr, hg, hslab, hrow, hbyte]

/-! ### Device memory addresses (R235) -/

theorem storageOf_striped {d : Nat} (hd : d < 0xC000000000) : storageOf d = some (stripedStorage d) := if_pos hd

theorem storageOf_local {d : Nat} (hlo : 0x10000000000 ≤ d) (hhi : d < 0x1C000000000) :
    storageOf d = some (localStorage (d - 0x10000000000)) :=
  (if_neg (by omega)).trans (if_pos ⟨hlo, hhi⟩)

/-- The local address of a storage byte names it. -/
theorem storageOf_localAddr {k : Nat} (hk : k < 32 * settingsPerGroup * 1024) : storageOf (localAddr k) = some k := by
  obtain ⟨g, j, r, b, hg, hj, hr, hb, rfl⟩ := exists_storageAt hk
  have offset : 0x10000000000 + j * 2 ^ 35 + g * 2 ^ 30 + r * 1024 + b - 0x10000000000 = j * 2 ^ 35 + g * 2 ^ 30 + r * 1024 + b := by omega
  have group : (j * 2 ^ 35 + g * 2 ^ 30 + r * 1024 + b) / 2 ^ 30 % 32 = g := by omega
  have slab : (j * 2 ^ 35 + g * 2 ^ 30 + r * 1024 + b) / 2 ^ 35 = j := by omega
  have row : (j * 2 ^ 35 + g * 2 ^ 30 + r * 1024 + b) / 2 ^ 10 % 2 ^ 20 = r := by omega
  have byte : (j * 2 ^ 35 + g * 2 ^ 30 + r * 1024 + b) % 1024 = b := by omega
  rw [localAddr_storageAt hj hr hb, storageOf_local (by omega) (by omega), offset, localStorage_eq, group, slab, row, byte]

/-- Settles O32: the views are two orders of the same places, each of which is read off its address. -/
theorem viewsAreOneToOne : Obligations.ViewsAreOneToOne := by
  refine ⟨fun d hd => ⟨_, storageOf_striped hd, stripedStorage_lt hd⟩, fun d e hd he h => ?_, fun d e hd hd' he he' h => ?_,
    fun k hk => storageOf_localAddr hk⟩
  · rw [storageOf_striped hd, storageOf_striped he] at h
    exact stripedStorage_injective hd he (Option.some.inj h)
  · rw [storageOf_local hd hd', storageOf_local he he'] at h
    have offsets := localStorage_injective (by omega) (by omega) (Option.some.inj h)
    omega

end Sys2Proof.Machine
end

section
/-! SUPPORT. The rules of the groups' states, of what is driven out and of buffers that hold nothing of a group, and the statements O26 and O27
on them (R233, R244, R249, R254, R260, R268, R274, R283 to R285, R293). -/

namespace Sys2Proof.Machine

/-! ### Frames -/

theorem unchangedBut.append {cs ds : List Comp} {s t u : State} (h : unchangedBut cs s t) (k : unchangedBut ds t u) :
    unchangedBut (cs ++ ds) s u :=
  (h.mono fun _ hc => List.mem_append_left _ hc).trans (k.mono fun _ hc => List.mem_append_right _ hc)

theorem State.emit_unchanged (s : State) (o : Out) : unchangedBut [.out] s (s.emit o) :=
  ⟨fun c hc => by cases c with | out => simp at hc | _ => rfl, rfl⟩

theorem State.postOnce_unchanged (s : State) (same : Event → Bool) (code severity part unit dt : Nat) :
    unchangedBut [.evt] s (s.postOnce same code severity part unit dt) :=
  .ite (.refl ..) (State.post_unchanged ..)

theorem State.postOnce_mem (s : State) (same : Event → Bool) (code severity part unit dt : Nat) :
    (s.postOnce same code severity part unit dt).mem = s.mem :=
  (s.postOnce_unchanged ..).1 .mem (by simp)

/-! ### Correctable-error buckets (R274) -/

theorem State.ce_updCe_same (s : State) (b : Nat) (f : CeBucket → CeBucket) : (s.updCe b f).ce b = f (s.ce b) := SMap.get_upd_same ..

theorem State.ce_updCe_other (s : State) {b c : Nat} (f : CeBucket → CeBucket) (h : c ≠ b) : (s.updCe b f).ce c = s.ce c :=
  SMap.get_upd_other _ _ _ _ _ h

/-- One bucket leaks. -/
def State.leakCe (s : State) (b : Nat) : State := s.updCe b (fun x => { x with count := x.count - s.care.leak })

/-- Leaks of buckets that are named once each: each of them leaks by the one amount, and the amount and the other buckets stay. -/
theorem State.ce_leakCes (l : List Nat) (hl : l.Nodup) (s : State) (b : Nat) :
    (l.foldl State.leakCe s).ce b = if b ∈ l then { s.ce b with count := (s.ce b).count - s.care.leak } else s.ce b := by
  induction l generalizing s with
  | nil => rfl
  | cons c l ih =>
    obtain ⟨hc, hl⟩ := List.nodup_cons.1 hl
    have leak : (s.leakCe c).care.leak = s.care.leak := rfl
    rw [List.foldl_cons, ih hl, leak]
    by_cases hb : b = c
    · subst hb
      rw [if_neg hc, if_pos (.head _), State.leakCe, State.ce_updCe_same]
    · rw [State.leakCe, State.ce_updCe_other _ _ hb]
      simp [hb]

theorem exec_leakPeriod_eq (s : State) : exec .leakPeriod s = .next ((List.range 34).foldl State.leakCe s) := rfl

theorem exec_stormWindowEnd_eq {s : State} {b : Nat} (hb : b < 34) :
    exec (.stormWindowEnd b) s = .next (s.updCe b (fun x => { x with storm := false })) :=
  (guarded_eq ..).1 (decide_eq_true hb)

/-! ### Groups (R285) -/

theorem State.group_updGroup_same (s : State) (n : Nat) (f : Group → Group) : (s.updGroup n f).group n = f (s.group n) :=
  SMap.get_upd_same ..

theorem State.group_updGroup_other (s : State) {n m : Nat} (f : Group → Group) (h : m ≠ n) : (s.updGroup n f).group m = s.group m :=
  SMap.get_upd_other _ _ _ _ _ h

theorem State.updGroup_unchanged (s : State) (n : Nat) (f : Group → Group) : unchangedBut [.mem] s (s.updGroup n f) :=
  unchangedBut_withMem ..

/-- Group `n` has become `g`; the other groups, the stacks' bytes and everything outside memory are as they were. -/
def groupBecomes (s t : State) (n : Nat) (g : Group) : Prop :=
  t.group n = g ∧ (∀ m, m ≠ n → t.group m = s.group m) ∧ t.mem.bytes = s.mem.bytes

theorem State.updGroup_becomes (s : State) (n : Nat) (f : Group → Group) : groupBecomes s (s.updGroup n f) n (f (s.group n)) :=
  ⟨s.group_updGroup_same n f, fun _ hm => s.group_updGroup_other f hm, rfl⟩

/-! ### Buffers that hold nothing of what is asked for (R249) -/

theorem State.writebackAll_none {s : State} {p : WcbLine → Bool} (h : ∀ l, l ∈ s.mem.wcb → p l = false) : s.writebackAll p = s := by
  have none : s.mem.wcb.filter p = [] := List.filter_eq_nil_iff.2 fun l hl => by simp [h l hl]
  rw [State.writebackAll, none, List.foldl_nil]

/-- A writeback of lines of a group that has none changes nothing. -/
theorem State.writebackAll_ofGroup {s : State} {n : Nat} {p : WcbLine → Bool}
    (hp : ∀ l, p l = true → l.setting / settingsPerGroup = n) (h : ∀ l, l ∈ s.mem.wcb → l.setting / settingsPerGroup ≠ n) :
    s.writebackAll p = s :=
  State.writebackAll_none fun l hl => Bool.eq_false_iff.2 fun hpl => h l hl (hp l hpl)

theorem State.writebackFull_none {s : State} {n : Nat} (h : ∀ l, l ∈ s.mem.wcb → l.setting / settingsPerGroup ≠ n) :
    s.writebackFull n = s := by
  rw [State.writebackFull, State.writebackAll_ofGroup (n := n) (fun l hl => by simp at hl; exact hl.1.2) h, ite_self]

/-! ### Holds (R283) -/

/-- A group that works is held from now on. -/
theorem State.beginHold_working {s : State} {n pc : Nat} (hs : (s.group n).state = 0)
    (hw : ∀ l, l ∈ s.mem.wcb → l.setting / settingsPerGroup ≠ n) :
    s.beginHold n pc = s.updGroup n (fun g =>
      { g with state := 1, formerState := 0, holdStart := s.tick.time, heldPc := pc, attempts := 0 }) := by
  simp only [State.beginHold, hs, if_true]
  rw [State.writebackAll_ofGroup (n := n) (fun l hl => by simp at hl; exact hl.1.1.1) hw]

/-! ### The groups' regular commands (R249, R254, R260, R268) -/

theorem exec_granuleFillDone_eq {s : State} {g : Nat} (hg : g < 12582912) (hr : s.memoryRests = false)
    (hw : ∀ l, l ∈ s.mem.wcb → l.setting / settingsPerGroup ≠ g / 393216) :
    exec (.granuleFillDone g) s = .next { s with mem := { s.mem with filling := s.mem.filling.filter (fun x => x != g) } } := by
  refine ((guarded_eq ..).1 (decide_eq_true hg)).trans (congrArg _ ?_)
  rw [hr, if_neg Bool.false_ne_true]
  exact State.writebackFull_none hw

theorem exec_stackRefresh_eq {s : State} {c bank : Nat} (hc : c < 512) (hb : bank < 64) (hr : s.memoryRests = false)
    (hs : (s.group (c / 16)).state ≠ 1) : exec (.stackRefresh c bank) s = .next (s.emit (.refresh c bank)) := by
  refine ((guarded_eq ..).1 (by simp [hc, hb])).trans (congrArg _ (if_neg ?_))
  simp [hr, hs]

/-- A regular calibration with nothing in the buffers. -/
theorem exec_calibration_regular {s : State} {n : Nat} (hn : n < 32) (hr : s.memoryRests = false) (hs : (s.group n).state ≠ 1)
    (hw : s.mem.wcb = []) :
    exec (.calibration n none) s = .next ((s.updGroup n (fun g => { g with recal := false })).emit (.calibrate n)) := by
  refine ((guarded_eq ..).1 (by simp [hn])).trans (congrArg _ ?_)
  rw [hr, if_neg Bool.false_ne_true, if_neg hs]
  dsimp only
  rw [State.writebackAll_none]
  exact fun l hl => absurd (hw ▸ hl) List.not_mem_nil

/-- A recalibration of one pseudo-channel holds its group. -/
theorem exec_calibration_single {s : State} {n c : Nat} (hn : n < 32) (hc : c < 16) (hr : s.memoryRests = false)
    (hs : (s.group n).state = 0) : exec (.calibration n (some c)) s = .next (s.beginHold n c) := by
  refine ((guarded_eq ..).1 (by simp [hn, hc])).trans (congrArg _ ?_)
  simp [hr, hs]

/-- Settles O26: each command's equation names the one bucket, granule or group it changes and what it drives out. -/
theorem stackUpkeep : Obligations.StackUpkeep := by
  refine ⟨⟨fun s => ⟨_, exec_leakPeriod_eq s, fun b hb => ?_, ?_, .foldl _ (fun u b => u.updCe_unchanged b _) s⟩, fun s b hb =>
    ⟨_, exec_stormWindowEnd_eq hb, s.ce_updCe_same b _, fun c hc => s.ce_updCe_other _ hc, s.updCe_unchanged b _⟩⟩,
    fun s g => exec_granuleFillDone_eq, fun s c bank => exec_stackRefresh_eq, fun s n hn hr hs hw => ?_, fun s n c hn hc hr hs hw => ?_⟩
  · rw [State.ce_leakCes _ List.nodup_range, if_pos (List.mem_range.2 hb)]
  · exact (unchangedBut.foldl _ (fun u b => u.updCe_unchanged b _) s : unchangedBut [.care] s _).1 .mem (by simp)
  · obtain ⟨hg, hother, hbytes⟩ := s.updGroup_becomes n (fun g => { g with recal := false })
    exact ⟨_, exec_calibration_regular hn hr hs hw, rfl, hg, hother, hbytes, (s.updGroup_unchanged n _).append (State.emit_unchanged ..)⟩
  · refine ⟨_, (exec_calibration_single hn hc hr hs).trans (congrArg _ (State.beginHold_working hs hw)), ?_⟩
    obtain ⟨hg, hother, hbytes⟩ := s.updGroup_becomes n (fun g =>
      { g with state := 1, formerState := 0, holdStart := s.tick.time, heldPc := c, attempts := 0 })
    rw [hg]
    exact ⟨rfl, rfl, rfl, hother, hbytes, s.updGroup_unchanged n _⟩

end Sys2Proof.Machine
end
section
/-! SUPPORT. How failures, holds, retrains, rebuilds and canary reads move a group between its states, and the statement O27 (R233, R244, R283 to
R285, R293). -/

namespace Sys2Proof.Machine

/-! ### A group that changes, step by step -/

theorem groupBecomes.trans {s t u : State} {n : Nat} {g g' : Group} (h : groupBecomes s t n g) (k : groupBecomes t u n g') :
    groupBecomes s u n g' := by
  obtain ⟨-, hother, hbytes⟩ := h
  obtain ⟨kg, kother, kbytes⟩ := k
  exact ⟨kg, fun m hm => (kother m hm).trans (hother m hm), kbytes.trans hbytes⟩

/-- What keeps the groups and the stacks' bytes keeps what the group has become. -/
theorem groupBecomes.keeps {s t u : State} {n : Nat} {g : Group} (h : groupBecomes s t n g) (hg : u.mem.groups = t.mem.groups)
    (hb : u.mem.bytes = t.mem.bytes) : groupBecomes s u n g :=
  h.trans ⟨by rw [State.group, hg, ← h.1]; rfl, fun m _ => by rw [State.group, hg]; rfl, hb⟩

/-- The group returns with the next epoch (R292). -/
theorem State.bumpGroup_becomes (s : State) (n : Nat) :
    groupBecomes s (s.bumpGroup n) n { s.group n with epoch := ((s.group n).epoch + 1) % 65536 } := by
  have step := s.updGroup_becomes n (fun g => { g with epoch := (g.epoch + 1) % 65536 })
  refine step.keeps ?_ ?_ <;> rfl

theorem State.bumpGroup_unchanged (s : State) (n : Nat) : unchangedBut [.mem] s (s.bumpGroup n) := unchangedBut_withMem ..

theorem State.bumpGroup_wcb (s : State) (n : Nat) : (s.bumpGroup n).mem.wcb = s.mem.wcb := by
  unfold State.bumpGroup
  rfl

theorem State.bumpGroup_out (s : State) (n : Nat) : (s.bumpGroup n).out = s.out := (s.bumpGroup_unchanged n).1 .out (by simp)

theorem State.postGroupState_unchanged (s : State) (n old new : Nat) (die : Option Nat) (dead : Bool) (lost : Nat) :
    unchangedBut [.evt] s (s.postGroupState n old new die dead lost) := State.post_unchanged ..

theorem State.arrive_unchanged (s : State) (t : Nat) : unchangedBut [.tick] s (s.arrive t) := unchangedBut_withTick ..

/-! ### Failed commands (R233) -/

/-- A failure is posted and counted; the third in a row is counted as a link failure, from which the count starts again. -/
def State.failureNoted (s : State) (c kind : Nat) : State :=
  let k := SMap.get 0 s.mem.failures c + 1
  let s := s.postOnce (fun e => e.unit == 0x3000 + c) 0x1013 0 0xFF (0x3000 + c) (detail [(1, kind), (1, k)])
  { s with mem := { s.mem with failures := SMap.set 0 s.mem.failures c (if 3 ≤ k then 0 else k) } }

theorem State.failureNoted_mem (s : State) (c kind : Nat) :
    (s.failureNoted c kind).mem = { s.mem with
      failures := SMap.set 0 s.mem.failures c (if 3 ≤ SMap.get 0 s.mem.failures c + 1 then 0 else SMap.get 0 s.mem.failures c + 1) } := by
  simp only [State.failureNoted, State.postOnce_mem]

theorem State.failureNoted_unchanged (s : State) (c kind : Nat) : unchangedBut [.evt, .mem] s (s.failureNoted c kind) :=
  (s.postOnce_unchanged ..).append (unchangedBut_withMem ..)

theorem exec_stackCommandFailure_passed (s : State) {c : Nat} (hc : c < 512) :
    exec (.stackCommandFailure c 0) s = .next { s with mem := { s.mem with failures := SMap.set 0 s.mem.failures c 0 } } :=
  (guarded_eq ..).1 (by simp [hc])

theorem exec_stackCommandFailure_failed (s : State) {c kind : Nat} (hc : c < 512) (hk : 1 ≤ kind) (hk' : kind ≤ 3) :
    exec (.stackCommandFailure c kind) s = .next
      (if 3 ≤ SMap.get 0 s.mem.failures c + 1 then (s.failureNoted c kind).beginHold (c / 16) (c % 16)
       else (s.failureNoted c kind).emit (.reissue c kind)) := by
  refine ((guarded_eq ..).1 (by simp [hc, hk'])).trans (congrArg _ ?_)
  rw [if_neg (by omega)]
  rfl

/-- The third failure in a row holds a group that works. -/
theorem exec_stackCommandFailure_holds {s : State} {c kind : Nat} (hc : c < 512) (hk : 1 ≤ kind) (hk' : kind ≤ 3)
    (hf : 2 ≤ SMap.get 0 s.mem.failures c) (hs : (s.group (c / 16)).state = 0)
    (hw : ∀ l, l ∈ s.mem.wcb → l.setting / settingsPerGroup ≠ c / 16) :
    exec (.stackCommandFailure c kind) s = .next ((s.failureNoted c kind).updGroup (c / 16) (fun g =>
      { g with state := 1, formerState := 0, holdStart := s.tick.time, heldPc := c % 16, attempts := 0 })) := by
  have time : (s.failureNoted c kind).tick = s.tick := (s.failureNoted_unchanged c kind).1 .tick (by simp)
  have hold := State.beginHold_working (s := s.failureNoted c kind) (n := c / 16) (pc := c % 16)
    (by rw [State.group, State.failureNoted_mem]; exact hs) (by rw [State.failureNoted_mem]; exact hw)
  rw [exec_stackCommandFailure_failed s hc hk hk', if_pos (by omega), hold, time]

/-! ### Holds and retrains (R283, R284) -/

theorem exec_holdBudgetExpiry_held {s : State} {n : Nat} (hn : n < 32) (hs : (s.group n).state = 1) :
    exec (.holdBudgetExpiry n) s = .next (((s.arrive ((s.group n).holdStart + 8000)).updGroup n (fun g =>
      { g with state := 2, attempts := 1, erased := if g.wide then some g.heldPc else none })).postGroupState n 1 2
        (some (s.group n).heldPc) false 0) := by
  refine ((guarded_eq ..).1 (decide_eq_true hn)).trans (congrArg _ ?_)
  exact if_neg (not_not_intro hs)

theorem State.programModes_wcb (s : State) (c : Nat) : (s.programModes c).mem.wcb = s.mem.wcb := rfl

theorem State.programModes_unchanged (s : State) (c : Nat) : unchangedBut ([.mem] ++ [.out]) s (s.programModes c) :=
  (unchangedBut_withMem ..).append (State.emit_unchanged ..)

theorem State.programModes_becomes (s : State) (c n : Nat) : groupBecomes s (s.programModes c) n (s.group n) := ⟨rfl, fun _ _ => rfl, rfl⟩

/-- The mode registers of a pseudo-channel are those that have been driven out. -/
theorem State.programModes_drives (s : State) (c : Nat) :
    ∃ m, SMap.get none (s.programModes c).mem.modes c = some m ∧ (s.programModes c).out = s.out ++ [.modeRegisters c m] :=
  ⟨(SMap.get none s.mem.modes c).getD (modeRegs 0 0), by rw [State.programModes, State.programAs, State.emit_mem, SMap.get_set_same], rfl⟩

/-- A good retrain within its budget ends the hold. -/
theorem exec_retrainAttemptEnd_good {s : State} {n : Nat} (hn : n < 32) (hs : (s.group n).state = 1)
    (hw : ∀ l, l ∈ s.mem.wcb → l.setting / settingsPerGroup ≠ n) :
    exec (.retrainAttemptEnd n true) s = .next (((s.updGroup n (fun g => { g with state := g.formerState })).bumpGroup n).programModes
      (16 * n + (s.group n).heldPc)) := by
  refine ((guarded_eq ..).1 (decide_eq_true hn)).trans (congrArg _ ?_)
  dsimp only
  rw [if_pos hs, if_pos rfl, State.endHold, State.writebackFull_none]
  rwa [State.programModes_wcb, State.bumpGroup_wcb]

/-! ### Rebuilds and canaries (R244, R293) -/

theorem exec_rebuildDone_eq {s : State} {n : Nat} (hn : n < 32) (hw : (s.group n).wide = true) (hs : (s.group n).state = 2)
    (hj : (s.group n).rejoining = true) (hr : s.memoryRests = false) :
    exec (.rebuildDone n) s = .next ((s.updGroup n (fun g => { g with state := 0, rejoining := false, erased := none, rebuild := [] })
      ).postGroupState n 2 0 (some (s.group n).heldPc) false 0) := by
  refine ((guarded_eq ..).1 (decide_eq_true hn)).trans (congrArg _ (if_pos ?_))
  simp [hw, hs, hj, hr]

/-- A canary read that is made: on a narrow group in service, of a die that is not dead. -/
def State.canaryReads (s : State) (c : Nat) : Prop :=
  (s.group (c / 16)).wide = false ∧ (s.group (c / 16)).state ≠ 1 ∧ (s.group (c / 16)).state ≠ 5 ∧
    (s.group (c / 16)).deadDie ≠ some (c % 16) ∧ s.memoryRests = false

/-- The canary read that fails outside state 0 marks the core die failed. -/
theorem exec_canaryRead_fails {s : State} {c : Nat} (hc : c < 512) (h : s.canaryReads c) (hs : (s.group (c / 16)).state ≠ 0) :
    exec (.canaryRead c false) s = .next (({ s with mem := { s.mem with
      failedDies := SMap.set false s.mem.failedDies (16 * (c / 16 / 4) + c % 16) true
      corrected := s.mem.corrected.filter (fun e => !(groupOf (64 * e.1) / 4 == c / 16 / 4 && e.1 % 16 == c % 16)) } } : State).post
        0x1012 2 0xFF (0x3000 + c) (detail [(1, c / 16), (1, c % 16)])) := by
  obtain ⟨hw, h1, h5, hd, hr⟩ := h
  refine ((guarded_eq ..).1 (decide_eq_true hc)).trans (congrArg _ ?_)
  refine (if_neg (by simp [hw, h1, h5, hd, hr])).trans ?_
  refine (if_neg (by simp)).trans ?_
  exact if_neg hs

/-- The canary read that returns the pattern. -/
theorem exec_canaryRead_passes {s : State} {c : Nat} (hc : c < 512) (h : s.canaryReads c) (hi : s.canaryIntact c = true) :
    exec (.canaryRead c true) s = .next { s with mem := { s.mem with corrected := s.mem.corrected.map (fun e =>
      if pcUnit (64 * e.1) = 0x3000 + c then (e.1, some true) else e) } } := by
  obtain ⟨hw, h1, h5, hd, hr⟩ := h
  refine ((guarded_eq ..).1 (decide_eq_true hc)).trans (congrArg _ ?_)
  refine (if_neg (by simp [hw, h1, h5, hd, hr])).trans ?_
  exact if_pos (by simp [hi])

/-- A listed member whose index is picked out gets the value. -/
theorem SMap.get_map_pick {α : Type} {p : Nat → Prop} [DecidablePred p] {x d : α} {k : Nat} (hp : p k) (m : SMap α)
    (h : SMap.get d m k ≠ d) : SMap.get d (m.map (fun e => if p e.1 then (e.1, x) else e)) k = x := by
  induction m with
  | nil => exact absurd rfl h
  | cons e m ih =>
    obtain ⟨j, v⟩ := e
    by_cases hj : k = j
    · subst hj
      simp [hp, SMap.get]
    · have rest : SMap.get d m k ≠ d := by simpa [SMap.get, hj] using h
      by_cases hpj : p j <;> simpa [hpj, SMap.get, hj] using ih rest

/-- Settles O27: each command's equation is one change of the group, beside what it posts and drives out. -/
theorem groupStates : Obligations.GroupStates := by
  refine ⟨exec_stackCommandFailure_passed, fun s c kind hc hk hk' hf => ?reissue, fun s c kind hc hk hk' hf hs hw => ?hold,
    fun s n hn hs => ?degraded, fun s n hn hs hw => ?retrain, fun s n hn hw hs hj hr => ?rebuild,
    fun s c hc hw hs hd hr => ?canaryFails, fun s c hc hw hs hd hr hi => ?canaryPasses⟩
  case reissue =>
    have few : ¬ 3 ≤ SMap.get 0 s.mem.failures c + 1 := by omega
    refine ⟨_, (exec_stackCommandFailure_failed s hc hk hk').trans (congrArg _ (if_neg few)), ?_⟩
    have mem := s.failureNoted_mem c kind
    have same := s.failureNoted_unchanged c kind
    rw [if_neg few] at mem
    simp only [State.emit_mem, mem, SMap.get_set_same, true_and]
    exact ⟨congrArg (· ++ _) (same.1 .out (by simp)), (same.append (State.emit_unchanged ..)).mono (by simp)⟩
  case hold =>
    refine ⟨_, exec_stackCommandFailure_holds hc hk hk' hf hs hw, ?_⟩
    have third : 3 ≤ SMap.get 0 s.mem.failures c + 1 := by omega
    have mem := s.failureNoted_mem c kind
    rw [if_pos third] at mem
    have noted : groupBecomes s (s.failureNoted c kind) (c / 16) (s.group (c / 16)) := by
      refine ⟨?_, fun m _ => ?_, ?_⟩ <;> simp only [State.group, mem]
    obtain ⟨hg, hother, hbytes⟩ := noted.trans (State.updGroup_becomes _ _ (fun g =>
      { g with state := 1, formerState := 0, holdStart := s.tick.time, heldPc := c % 16, attempts := 0 }))
    refine ⟨congrArg Group.state hg, congrArg Group.heldPc hg, congrArg Group.holdStart hg, hother, ?_, hbytes,
      ((s.failureNoted_unchanged c kind).append (State.updGroup_unchanged ..)).mono (by simp)⟩
    exact (congrArg (fun x : Mem => SMap.get 0 x.failures c) mem).trans (SMap.get_set_same 0 s.mem.failures c 0)
  case degraded =>
    refine ⟨_, exec_holdBudgetExpiry_held hn hs, ?_⟩
    obtain ⟨hg, hother, hbytes⟩ := State.updGroup_becomes (s.arrive ((s.group n).holdStart + 8000)) n (fun g =>
      { g with state := 2, attempts := 1, erased := if g.wide then some g.heldPc else none })
    refine ⟨congrArg Group.state hg, congrArg Group.attempts hg, hother, hbytes, ?_⟩
    exact (((s.arrive_unchanged _).append (State.updGroup_unchanged ..)).append (State.postGroupState_unchanged ..)).mono (by simp)
  case retrain =>
    refine ⟨_, exec_retrainAttemptEnd_good hn hs hw, ?_⟩
    have bumped := (s.updGroup_becomes n (fun g => { g with state := g.formerState })).trans (State.bumpGroup_becomes _ n)
    rw [State.group_updGroup_same] at bumped
    obtain ⟨hg, hother, hbytes⟩ := bumped.trans (State.programModes_becomes _ (16 * n + (s.group n).heldPc) n)
    rw [bumped.1] at hg
    refine ⟨congrArg Group.state hg, congrArg Group.epoch hg, hother, ?_, hbytes, ?_⟩
    · obtain ⟨m, hm, hout⟩ := State.programModes_drives
        ((s.updGroup n (fun g => { g with state := g.formerState })).bumpGroup n) (16 * n + (s.group n).heldPc)
      exact ⟨m, hm, hout.trans (congrArg (· ++ _) (State.bumpGroup_out ..))⟩
    exact (((s.updGroup_unchanged n _).append (State.bumpGroup_unchanged ..)).append (State.programModes_unchanged ..)).mono (by simp)
  case rebuild =>
    refine ⟨_, exec_rebuildDone_eq hn hw hs hj hr, ?_⟩
    obtain ⟨hg, hother, -⟩ := s.updGroup_becomes n (fun g => { g with state := 0, rejoining := false, erased := none, rebuild := [] })
    exact ⟨congrArg Group.state hg, congrArg Group.erased hg, congrArg Group.rebuild hg, hother,
      (s.updGroup_unchanged n _).append (State.postGroupState_unchanged ..)⟩
  case canaryFails =>
    exact ⟨_, exec_canaryRead_fails hc ⟨hw, by omega, by omega, hd, hr⟩ (by omega),
      SMap.get_set_same false s.mem.failedDies _ true, rfl, rfl,
      (unchangedBut_withMem s _).append (State.post_unchanged ..)⟩
  case canaryPasses =>
    refine ⟨_, exec_canaryRead_passes hc ⟨hw, by omega, by omega, hd, hr⟩ hi, fun k hk hl => ?_, rfl, rfl, unchangedBut_withMem ..⟩
    exact SMap.get_map_pick (p := fun k => pcUnit (64 * k) = 0x3000 + c) hk _ hl

end Sys2Proof.Machine
end

section
/-! SUPPORT. Runs of a sparse family read back, the traffic generators' beats, the debug claim, the test port, DOE and the CDAT, and the statement
O25 on them (R262 to R264, R300, R437, R523, R532). -/

namespace Sys2Proof.Machine

/-! ### Runs of a sparse family -/

theorem SMap.length_getList {α : Type} (d : α) (m : SMap α) (n len : Nat) : (SMap.getList d m n len).length = len := by
  simp [SMap.getList_eq]

/-- A part of a run of writes reads back as that part of what was written. -/
theorem SMap.getList_setList {α : Type} [DecidableEq α] (d : α) (m : SMap α) {xs : List α} (n : Nat) {off len : Nat}
    (h : off + len ≤ xs.length) : SMap.getList d (SMap.setList d m n xs) (n + off) len = (xs.drop off).take len := by
  rw [SMap.getList_eq]
  refine List.ext_getElem (by simp; omega) fun i hi _ => ?_
  have hlen : i < len := by simpa using hi
  simp only [List.getElem_map, List.getElem_range, List.getElem_take, List.getElem_drop]
  rw [Nat.add_assoc, SMap.get_setList_in d xs m n (off + i) (by omega)]

/-- One of equally long lists is cut out of their concatenation again. -/
theorem take_drop_flatten {α : Type} {n : Nat} {l : List (List α)} (h : ∀ x, x ∈ l → x.length = n) {i : Nat} (hi : i < l.length) :
    (l.flatten.drop (n * i)).take n = l[i] := by
  induction l generalizing i with
  | nil => cases hi
  | cons x l ih =>
    have hx : x.length = n := h x (.head _)
    cases i with
    | zero => simp [← hx]
    | succ i =>
      have rest : (x ++ l.flatten).drop (n * (i + 1)) = l.flatten.drop (n * i) := by
        rw [Nat.mul_succ, Nat.add_comm, ← hx, List.drop_length_add_append]
      rw [List.flatten_cons, rest]
      exact ih (fun y hy => h y (.tail _ hy)) (by simpa using hi)

/-! ### The generators -/

theorem State.gen_updGen_same (s : State) (c : Nat) (f : TrafficGen → TrafficGen) : (s.updGen c f).gen c = f (s.gen c) :=
  SMap.get_upd_same ..

theorem State.gen_updGen_other (s : State) {c k : Nat} (f : TrafficGen → TrafficGen) (h : k ≠ c) : (s.updGen c f).gen k = s.gen k :=
  SMap.get_upd_other _ _ _ _ _ h

theorem State.updGen_unchanged (s : State) (c : Nat) (f : TrafficGen → TrafficGen) : unchangedBut [.mem] s (s.updGen c f) :=
  unchangedBut_withMem ..

theorem State.updGen_bytes (s : State) (c : Nat) (f : TrafficGen → TrafficGen) : (s.updGen c f).mem.bytes = s.mem.bytes := rfl

theorem State.rawBeatAt_updGen (s : State) (c : Nat) (f : TrafficGen → TrafficGen) (k a : Nat) :
    (s.updGen c f).rawBeatAt k a = s.rawBeatAt k a := rfl

/-! ### Beats that are written (R234, R262) -/

/-- A beat takes 64 whole bytes of the storage. -/
theorem beatStorage_eq (c a : Nat) :
    beatStorage c a = 64 * (beatStorage c a / 64) ∧ beatStorage c a = 1024 * (beatStorage c a / 1024) + 64 * (c % 16) := by
  simp only [beatStorage, settingsPerGroup]
  omega

theorem Mem.length_rawBeat (m : Mem) (wide : Bool) (k : Nat) : (m.rawBeat wide k).length = 72 := by
  simp [Mem.rawBeat, Mem.beatData, SMap.length_getList]

/-- The data of a beat as the stack stores it is what it holds at the beat's bytes. -/
theorem State.take_rawBeatAt (s : State) {c a : Nat} (ha : a ≤ lastBeat) :
    (s.rawBeatAt c a).take 64 = SMap.getList 0 s.mem.bytes (beatStorage c a) 64 := by
  rw [State.rawBeatAt, if_pos ha, Mem.rawBeat, Mem.beatData, List.take_left' (SMap.length_getList ..), ← (beatStorage_eq c a).1]

/-- A setting that is held again with one beat replaced holds that beat's data at its place. -/
theorem Mem.getList_holdSetting {m : Mem} {st i : Nat} {b : Bytes} (hi : i < 16) (hb : b.length = 72) :
    SMap.getList 0 (m.holdSetting true st ((m.rawSetting true st).set i b)).bytes (1024 * st + 64 * i) 64 = b.take 64 := by
  have beats : (((m.rawSetting true st).set i b).map (fun b => b.take 64)).length = 16 := by simp [Mem.rawSetting]
  have data : ∀ x, x ∈ ((m.rawSetting true st).set i b).map (fun b => b.take 64) → x.length = 64 := by
    intro x hx
    obtain ⟨y, hy, rfl⟩ := List.mem_map.1 hx
    have whole : y.length = 72 := by
      rcases List.mem_or_eq_of_mem_set hy with hy | rfl
      · obtain ⟨q, -, rfl⟩ := List.mem_map.1 hy
        exact m.length_rawBeat ..
      · exact hb
    rw [List.length_take, whole]
    rfl
  have total : (((m.rawSetting true st).set i b).map (fun b => b.take 64)).flatten.length = 1024 := by
    rw [List.length_flatten, List.map_congr_left data, List.map_const', List.sum_replicate, beats]
    rfl
  refine (SMap.getList_setList 0 m.bytes (1024 * st) (by rw [total]; omega)).trans ?_
  rw [take_drop_flatten data (by omega)]
  simp

/-- The data of a beat that has been put stands at its place. -/
theorem State.take_rawBeatAt_putBeat (s : State) {c a : Nat} (raw : Bool) {b : Bytes} (ha : a ≤ lastBeat) (hb : b.length = 72) :
    ((s.putBeat c a raw b).rawBeatAt c a).take 64 = b.take 64 := by
  have data : (b.take 64).length = 64 := by rw [List.length_take, hb]; rfl
  have store (bad good : List Nat) : SMap.getList 0 (s.mem.storeStack (beatStorage c a) (b.take 64) bad good).bytes (beatStorage c a) 64 =
      b.take 64 := by
    have back := SMap.getList_setList 0 s.mem.bytes (xs := b.take 64) (beatStorage c a) (off := 0) (len := 64) (by omega)
    rwa [Nat.add_zero, List.drop_zero, List.take_take, min_self] at back
  rw [State.take_rawBeatAt _ ha, State.putBeat]
  dsimp only
  rw [if_neg (Nat.not_lt.2 ha)]
  split
  · have held := s.mem.getList_holdSetting (st := beatStorage c a / 1024) (Nat.mod_lt c (by decide : 0 < 16)) hb
    rwa [← (beatStorage_eq c a).2] at held
  · split
    · exact store [] []
    · split <;> exact store ..

theorem State.gen_putBeat (s : State) (c a : Nat) (raw : Bool) (b : Bytes) (k : Nat) : (s.putBeat c a raw b).gen k = s.gen k := by
  unfold State.putBeat
  dsimp only
  repeat' split
  all_goals rfl

theorem State.putBeat_unchanged (s : State) (c a : Nat) (raw : Bool) (b : Bytes) : unchangedBut [.mem] s (s.putBeat c a raw b) :=
  .ite (unchangedBut_withMem ..) (.ite (unchangedBut_withMem ..) (.ite (unchangedBut_withMem ..)
    (.ite (unchangedBut_withMem ..) (unchangedBut_withMem ..))))

/-! ### The beats of a run (R262, R264) -/

/-- The beats worked have come to `p + 1`. -/
def State.genAt (s : State) (c p : Nat) : State := s.updGen c (fun g => { g with progress := p + 1 })

/-- A beat that is not read is written with the pattern's word. -/
theorem State.genBeat_writes {s : State} {c p : Nat} (hp : (s.gen c).reads p = false) :
    s.genBeat c p [] = (s.genAt c p).putBeat c ((s.gen c).beatAt ((s.gen c).place p)) (s.gen c).raw
      (natLe 72 ((s.gen c).word ((s.gen c).place p) ((s.gen c).beatAt ((s.gen c).place p)))) := by
  simp only [State.genBeat, hp, Bool.not_false, if_true]
  rfl

/-- A raw beat that is read and compared is noted, undecoded. -/
theorem State.genBeat_compares {s : State} {c p : Nat} (hp : (s.gen c).reads p = true) (hm : (s.gen c).mode ≠ 0) (hr : (s.gen c).raw = true) :
    s.genBeat c p [] = (s.genAt c p).updGen c (fun g => g.noted none ((s.gen c).beatAt ((s.gen c).place p))
      (firstDiff 576 ((s.gen c).word ((s.gen c).place p) ((s.gen c).beatAt ((s.gen c).place p)))
        (leNat (s.rawBeatAt c ((s.gen c).beatAt ((s.gen c).place p)))))) := by
  have width : (s.gen c).width = 576 := if_pos hr
  simp only [State.genBeat, hp, hm, hr, width, Bool.not_true, Bool.false_eq_true, if_false, if_true, false_and]
  rfl

theorem TrafficGen.noted_progress (g : TrafficGen) (a : Nat) (diff : Option Nat) : (g.noted none a diff).progress = g.progress := by
  unfold TrafficGen.noted
  dsimp only
  repeat' split
  all_goals rfl

theorem TrafficGen.mode_of_writes {g : TrafficGen} {p : Nat} (h : g.reads p = false) : g.mode ≠ 0 := by
  intro hm
  simp [TrafficGen.reads, hm] at h

/-- A run that a stop ends with its next beat works that beat and is done. -/
theorem exec_tgDone_stops {s : State} {c : Nat} {r : TgResult} (hc : c < 512) (hr : r.seen = []) (hbusy : (s.gen c).busy = true)
    (hstop : (s.gen c).stopping = true) (hpass : (s.gen c).passes = 0) (hb : r.beats = (s.gen c).progress + 1) (hm : (s.gen c).mode ≠ 0)
    (hprog : ((s.genBeat c (s.gen c).progress []).gen c).progress = (s.gen c).progress + 1) :
    exec (.tgDone c r) s = .next ((s.genBeat c (s.gen c).progress []).updGen c (fun g =>
      { g with busy := false, done := true, stopping := false })) := by
  have run : s.genRun c r.beats r.seen (r.beats - (s.gen c).progress) = s.genBeat c (s.gen c).progress [] := by
    rw [hb, hr, Nat.add_sub_cancel_left, State.genRun, if_neg (by omega), if_neg (fun h => hm h.1), State.genRun]
  refine ((guarded_eq ..).1 (by simp [hc, hr])).trans (congrArg _ ?_)
  refine (if_neg (by simp [hbusy, hstop, hpass])).trans ?_
  dsimp only
  rw [run, hprog, hb, if_neg (Nat.lt_irrefl _)]

/-! ### Starts and stops (R263, R264) -/

theorem exec_tgStop_eq {s : State} {c : Nat} (ho : s.regOpen = true) (hc : c < 512) :
    exec (.tgStop c) s = .next (s.updGen c (fun g => { g with stopping := g.busy })) := by
  refine ((guarded_eq ..).1 (decide_eq_true hc)).trans (congrArg _ ?_)
  rw [State.regWrite_open _ _ ho]
  rfl

/-- A generator that starts. -/
def TrafficGen.started (g : TrafficGen) : TrafficGen :=
  { g with mismatches := 0, corrected := 0, uncorrectable := 0, refused := false, done := false, busy := true, stopping := false
           failBit := 0, failValid := false, failBeat := 0, progress := 0 }

/-- A start that is not refused, without a stop beside it. -/
theorem exec_tgStart_starts {s : State} {c : Nat} {v : W64} (ho : s.regOpen = true) (hc : c < 512) (hs : bit (v.toNat ||| 1) 1 = false)
    (hr : s.genRefused c ((s.gen c).control (v.toNat ||| 1)) = false) :
    exec (.tgStart c v) s = .next ((s.updGen c (fun g => g.control (v.toNat ||| 1))).updGen c TrafficGen.started) := by
  have starts : bit (v.toNat ||| 1) 0 = true := by simp [bit_eq_testBit]
  have accepted : (s.updGen c (fun g => g.control (v.toNat ||| 1))).genRefused c ((s.gen c).control (v.toNat ||| 1)) = false := hr
  refine ((guarded_eq ..).1 (decide_eq_true hc)).trans (congrArg _ ?_)
  rw [State.regWrite_open _ _ ho, State.genControl, starts, hs, if_pos rfl, if_neg Bool.false_ne_true, State.genStart,
    State.gen_updGen_same, accepted, if_neg Bool.false_ne_true]
  rfl

/-! ### The debug claim (R532) -/

theorem State.dbgResume_unchanged (s : State) (t : Nat) : unchangedBut [.tiles] s (s.dbgResume t) :=
  .ite (State.updTile_unchanged ..) (.refl ..)

theorem unchangedBut_withDbg (s : State) (x : Dbg) : unchangedBut [.dbg] s { s with dbg := x } :=
  ⟨fun c hc => by cases c with | dbg => simp at hc | _ => rfl, rfl⟩

theorem exec_dbgClaimWrite_claims {s : State} {v : W64} (ho : s.regOpen = true) (hd : s.claimDropped v.toNat = false) :
    completesWith (exec (.dbgClaimWrite v) s) fun t =>
      t.dbg = { tile := bits v.toNat 12 0, claim := bit v.toNat 16 } ∧ unchangedBut [.dbg, .tiles] s t := by
  refine ⟨s.writeClaim v.toNat, congrArg _ (State.regWrite_open _ _ ho), ?_⟩
  rw [State.writeClaim, hd, if_neg Bool.false_ne_true]
  have resumed (c : Prop) [Decidable c] : unchangedBut [.tiles] s (if c then s.dbgResume s.dbg.tile else s) :=
    .ite (s.dbgResume_unchanged _) (.refl ..)
  exact ⟨rfl, ((resumed _).append (unchangedBut_withDbg ..)).mono (by simp)⟩

/-! ### The test port, DOE and the CDAT (R300, R437, R523) -/

theorem exec_tapAccess_powered {s : State} (a : TapAccess) (hp : s.ctl.pwrgood = true) (hs : a ≠ .instrument .secret) :
    exec (.tapAccess a) s = .next (s.emit (match a with
      | .reset => .tap true 0
      | .jtag i => .tap (s.jtagOpen i) (if i = .idcode then idcode else 0)
      | .instrument i => .tap (s.instrumentOpen i) 0)) := by
  refine congrArg _ ((if_neg (by simp [hp])).trans ?_)
  cases a with
  | reset => rfl
  | jtag i => rfl
  | instrument i =>
    have hi : i ≠ .secret := fun h => hs (congrArg _ h)
    simp [hi]

/-- Settles O25: a start, a stop and a run's last beat are each one change of the generator, and of the stack where the beat is written; the others
drive out their one answer. -/
theorem debugAndDiscovery : Obligations.DebugAndDiscovery := by
  refine ⟨fun s c ho hc hb => ?stop, fun s c v ho hc hv hr => ?start, fun s v => exec_dbgClaimWrite_claims,
    fun s c r p hc hr hb hs hp hprog hbeats hw ha => ?write, fun s c r p a hc hr hb hs hp hprog hbeats hread hm hraw ha => ?read,
    fun s hp => exec_tapAccess_powered _ hp (by simp), fun s i hp => exec_tapAccess_powered _ hp (by simp),
    fun s i hp hi => exec_tapAccess_powered _ hp (by simpa using hi), fun s index hl => congrArg _ (if_pos hl), fun s e he hl => ?cdat⟩
  case stop =>
    refine ⟨_, exec_tgStop_eq ho hc, ?_, fun k hk => s.gen_updGen_other _ hk, rfl, s.updGen_unchanged c _⟩
    exact (s.gen_updGen_same c _).trans (congrArg (fun b => { s.gen c with stopping := b }) hb)
  case start =>
    refine ⟨_, exec_tgStart_starts ho hc hv hr, ?_⟩
    beta_reduce
    rw [State.gen_updGen_same]
    exact ⟨rfl, rfl, rfl, rfl, rfl, (s.updGen_unchanged c _).trans (State.updGen_unchanged ..)⟩
  case write =>
    subst hprog
    have beat := State.genBeat_writes hw
    refine ⟨_, exec_tgDone_stops hc hr hb hs hp hbeats (TrafficGen.mode_of_writes hw) ?_, ?_⟩
    · rw [beat, State.gen_putBeat, State.genAt, State.gen_updGen_same]
    · beta_reduce
      rw [beat, State.gen_updGen_same, State.gen_putBeat, State.rawBeatAt_updGen, State.take_rawBeatAt_putBeat _ _ ha (length_natLe ..),
        State.genAt, State.gen_updGen_same]
      exact ⟨rfl, rfl, ((s.updGen_unchanged c _).trans (State.putBeat_unchanged ..)).trans (State.updGen_unchanged ..)⟩
  case read =>
    subst hprog ha
    have beat := State.genBeat_compares hread hm hraw
    refine ⟨_, exec_tgDone_stops hc hr hb hs hp hbeats hm ?_, ?_⟩
    · rw [beat, State.gen_updGen_same, TrafficGen.noted_progress, State.genAt, State.gen_updGen_same]
    · beta_reduce
      rw [beat, State.gen_updGen_same, State.gen_updGen_same, State.genAt, State.gen_updGen_same]
      refine ⟨rfl, ?_, ((s.updGen_unchanged c _).trans (State.updGen_unchanged ..)).trans (State.updGen_unchanged ..)⟩
      rw [State.updGen_bytes, State.updGen_bytes, State.updGen_bytes]
  case cdat => exact ((guarded_eq ..).1 (decide_eq_true he)).trans (congrArg _ (if_pos hl))

end Sys2Proof.Machine
end

section
/-! SUPPORT. What the reports of reads leave standing (R242 to R244, R247, R273, R285, R287): the stacks' bytes, the buffers' lines but for
rewritten bytes, the redirections of slabs, and everything outside memory, memory care, Sail and the events. -/

namespace Sys2Proof.Machine

/-! ### What stands -/

/-- What a report of a read leaves as it is. -/
structure Standing where
  bytes : List Host.Cell
  wcb : List WcbLine
  movedTo : Nat → Option Nat
  outside : HostPort × Casket × SMap Tile × SMap Site

def State.standing (s : State) : Standing :=
  ⟨s.mem.bytes, s.mem.wcb, fun i => (s.slab i).movedTo, s.host, s.casket, s.tiles, s.sites⟩

/-- The components that a report can change. -/
def reportComps : List Comp := [.evt, .sail, .mem, .care]

/-- What reads without touching what is outside memory changes only what reports do. -/
theorem unchangedBut_reports {s t : State} (h : unchangedBut readComps s t) (ho : t.standing.outside = s.standing.outside) :
    unchangedBut reportComps s t := by
  obtain ⟨hhost, hcasket, htiles, hsites⟩ : t.host = s.host ∧ t.casket = s.casket ∧ t.tiles = s.tiles ∧ t.sites = s.sites := by
    simpa [State.standing] using ho
  refine ⟨fun c hc => ?_, h.2⟩
  cases c with
  | host => exact hhost
  | casket => exact hcasket
  | tiles => exact htiles
  | sites => exact hsites
  | _ => exact h.1 _ (by simp [readComps, reportComps] at hc ⊢)

/-! ### Machine/Ops.lean, Machine/MemOps.lean -/

@[simp] theorem State.post_standing (s : State) (code severity part unit dt : Nat) :
    (s.post code severity part unit dt).standing = s.standing := rfl

@[simp] theorem State.updGroup_standing (s : State) (n : Nat) (f : Group → Group) : (s.updGroup n f).standing = s.standing := rfl

@[simp] theorem State.setGranule_standing (s : State) (g : Nat) (v : Bool) : (s.setGranule g v).standing = s.standing := rfl

@[simp] theorem State.charge_standing (s : State) (b cost : Nat) : (s.charge b cost).standing = s.standing := by
  unfold State.charge
  split <;> rfl

/-! ### Machine/MemErr.lean -/

@[simp] theorem State.updCe_standing (s : State) (b : Nat) (f : CeBucket → CeBucket) : (s.updCe b f).standing = s.standing := rfl

@[simp] theorem State.chargeCe_standing (s : State) (b amount unit : Nat) : (s.chargeCe b amount unit).standing = s.standing := by
  unfold State.chargeCe
  dsimp only
  split
  · rfl
  · split <;> rfl

@[simp] theorem State.postGroupState_standing (s : State) (n old new : Nat) (die : Option Nat) (dead : Bool) (lost : Nat) :
    (s.postGroupState n old new die dead lost).standing = s.standing := rfl

@[simp] theorem State.mappedOut_standing (s : State) (n : Nat) : (s.mappedOut n).standing = s.standing := rfl

@[simp] theorem State.beginSlab_standing (s : State) (n j donor : Nat) : (s.beginSlab n j donor).standing = s.standing := by
  refine List.foldlRecOn (motive := fun u : State => u.standing = s.standing) _ _ rfl fun u hu i _ => ?_
  dsimp only
  split
  · exact hu
  · rwa [State.setGranule_standing]

/-- Slabs that become holes stay where they have been moved to. -/
theorem movedTo_holes (holes : List Nat) (m : SMap Slab) (i : Nat) :
    (SMap.get {} (holes.foldl (fun m i => SMap.upd {} m i (fun x => { x with hole := true })) m) i).movedTo = (SMap.get {} m i).movedTo := by
  refine List.foldlRecOn (motive := fun v : SMap Slab => (SMap.get {} v i).movedTo = (SMap.get {} m i).movedTo) _ _ rfl fun v hv j _ => ?_
  by_cases hi : i = j
  · subst hi
    rw [SMap.get_upd_same]
    exact hv
  · rwa [SMap.get_upd_other _ _ _ _ _ hi]

@[simp] theorem State.startEvac_standing (s : State) (n : Nat) (flight : Option Nat) : (s.startEvac n flight).standing = s.standing := by
  unfold State.startEvac
  extract_lets g donors lost holes slabs die _ _ s1 s2 s3
  have moved : (fun i => (SMap.get {} slabs i).movedTo) = s.standing.movedTo := funext (movedTo_holes holes s.mem.slabs)
  have h1 : s1.standing = s.standing := by
    clear_value slabs donors
    exact congrArg (fun f => { s.standing with movedTo := f }) moved
  have h3 : s3.standing = s.standing := (State.postGroupState_standing ..).trans ((State.updGroup_standing ..).trans h1)
  clear_value s3 donors
  cases donors with
  | nil => exact h3
  | cons d ds => exact (State.beginSlab_standing ..).trans h3

@[simp] theorem State.secondFault_standing (s : State) (n : Nat) : (s.secondFault n).standing = s.standing := by
  unfold State.secondFault
  split
  · simp
  · rfl

@[simp] theorem State.dieDead_standing (s : State) (n a : Nat) : (s.dieDead n a).standing = s.standing := rfl

@[simp] theorem State.dieLocated_standing (s : State) (n a st : Nat) : (s.dieLocated n a st).standing = s.standing := by
  unfold State.dieLocated
  extract_lets s1
  have h1 : s1.standing = s.standing := by
    unfold s1
    split <;> rfl
  split
  · simpa using h1
  · split
    · simpa using h1
    · exact h1

@[simp] theorem State.heedSetting_standing (s : State) (st : Nat) : (s.heedSetting st).standing = s.standing := by
  unfold State.heedSetting
  split
  · rfl
  · dsimp only
    split <;> simp

@[simp] theorem State.heedBeat_standing (s : State) (k : Nat) : (s.heedBeat k).standing = s.standing := by
  unfold State.heedBeat
  split
  · rfl
  · dsimp only
    split
    · exact State.chargeCe_standing ..
    · rfl

@[simp] theorem State.undecodable_standing (s : State) (k : Nat) : (s.undecodable k).standing = s.standing := by
  unfold State.undecodable
  dsimp only
  split <;> simp

theorem State.undecodable_reads (s : State) (k : Nat) : unchangedBut readComps s (s.undecodable k) :=
  .ite (State.secondFault_reads ..) (.refl ..)

theorem State.heedBeats_standing (s : State) (bs : List Nat) : (bs.foldl (fun s b => s.heedBeat b) s).standing = s.standing :=
  List.foldlRecOn (motive := fun u : State => u.standing = s.standing) _ _ rfl fun _ hu _ _ => (State.heedBeat_standing ..).trans hu

/-! ### Buffered bytes that are read (R247) -/

/-- The buffers' lines are of the same settings, in the same order, and everything else stands. -/
def State.rewrites (s t : State) : Prop :=
  ∃ w : List WcbLine, w.map (·.setting) = s.mem.wcb.map (·.setting) ∧ t.standing = { s.standing with wcb := w }

theorem State.rewrites.of_eq {s t : State} (h : t.standing = s.standing) : s.rewrites t := ⟨s.mem.wcb, rfl, h⟩

theorem State.rewrites.trans {s t u : State} (h : s.rewrites t) (k : t.rewrites u) : s.rewrites u := by
  obtain ⟨w, hw, ht⟩ := h
  obtain ⟨x, hx, hu⟩ := k
  have lines : t.mem.wcb = w := congrArg Standing.wcb ht
  exact ⟨x, by rw [hx, lines, hw], by rw [hu, ht]⟩

theorem State.rewrites.foldl {α : Type} {f : State → α → State} (l : List α) (hf : ∀ s a, State.rewrites s (f s a)) (s : State) :
    s.rewrites (l.foldl f s) :=
  List.foldlRecOn (motive := s.rewrites) _ _ (.of_eq rfl) fun u hu a _ => hu.trans (hf u a)

theorem State.heedBuffered_rewrites (s : State) (st i : Nat) : s.rewrites (s.heedBuffered st i) := by
  unfold State.heedBuffered
  split
  · exact .of_eq rfl
  · rename_i l hl
    have setting : l.setting = st := by simpa using List.find?_some hl
    dsimp only
    split
    · exact .of_eq rfl
    · split
      · exact .of_eq rfl
      · split
        · exact .of_eq rfl
        · refine ⟨_, ?_, State.chargeCe_standing ..⟩
          rw [List.map_map]
          refine List.map_congr_left fun x _ => ?_
          by_cases hx : x.setting = st <;> simp [hx, setting]

theorem State.heed_rewrites (s : State) (d n : Nat) : s.rewrites (s.heed d n) := by
  unfold State.heed
  split
  · exact .of_eq rfl
  · refine .foldl _ (fun u r => ?_) s
    split
    · exact .of_eq rfl
    · rename_i k0 _
      dsimp only
      refine (State.rewrites.foldl (List.range r.2) (fun s i => s.heedBuffered_rewrites (u.redirect k0 / 1024) ((u.redirect k0 + i) % 1024))
        u).trans (.of_eq ?_)
      split
      · rfl
      · split
        · simp
        · exact State.heedBeats_standing ..

/-- A report of a read leaves the stacks' bytes, and what is outside memory. -/
theorem State.heed_bytes (s : State) (d n : Nat) : (s.heed d n).mem.bytes = s.mem.bytes := by
  obtain ⟨w, -, h⟩ := s.heed_rewrites d n
  exact congrArg Standing.bytes h

theorem State.heed_unchanged (s : State) (d n : Nat) : unchangedBut reportComps s (s.heed d n) := by
  obtain ⟨w, -, h⟩ := s.heed_rewrites d n
  exact unchangedBut_reports (s.heed_reads d n) (congrArg Standing.outside h :)

end Sys2Proof.Machine
end

section
/-! SUPPORT. What a writeback leaves (R246, R249, R250): the line is out of the buffers, the beats it writes hold its valid bytes, and no byte of
another setting changes. -/

namespace Sys2Proof.Machine

/-! ### Beats that are stored -/

/-- Beats `bs` of the setting at storage byte `k` take these bytes. -/
def Mem.storeBeats (m : Mem) (k : Nat) (bs : List Nat) (f : Nat → List (Byte × Bool)) : Mem :=
  (bs.map (fun b => (b, f b))).foldl (fun mm x => mm.storeStack (k + 64 * x.1) (x.2.map (fun y => y.1)) [] [k / 64 + x.1]) m

theorem Mem.storeBeats_cons (m : Mem) (k b : Nat) (bs : List Nat) (f : Nat → List (Byte × Bool)) :
    m.storeBeats k (b :: bs) f = (m.storeStack (k + 64 * b) ((f b).map (fun y => y.1)) [] [k / 64 + b]).storeBeats k bs f := rfl

theorem Mem.storeBeats_keeps {β : Type} (g : Mem → β) (hg : ∀ m k bs bad good, g (Mem.storeStack m k bs bad good) = g m) (m : Mem) (k : Nat)
    (bs : List Nat) (f : Nat → List (Byte × Bool)) : g (m.storeBeats k bs f) = g m := by
  induction bs generalizing m with
  | nil => rfl
  | cons b bs ih => rw [Mem.storeBeats_cons, ih, hg]

section
variable {m : Mem} {k : Nat} {bs : List Nat} {f : Nat → List (Byte × Bool)}

/-- Outside their setting the bytes are as they were. -/
theorem Mem.storeBeats_out {i : Nat} (hb : ∀ b, b ∈ bs → b < 16) (hf : ∀ b, (f b).length = 64) (hi : i < k ∨ k + 1024 ≤ i) :
    SMap.get 0 (m.storeBeats k bs f).bytes i = SMap.get 0 m.bytes i := by
  induction bs generalizing m with
  | nil => rfl
  | cons b bs ih =>
    have beat := hb b (.head _)
    rw [Mem.storeBeats_cons, ih fun c hc => hb c (.tail _ hc)]
    exact SMap.get_setList_out _ _ _ _ _ (by rw [List.length_map, hf]; omega)

/-- Each stored beat holds its bytes. -/
theorem Mem.storeBeats_in {b i : Nat} (hb : b ∈ bs) (hi : i < 64) (hf : ∀ b, (f b).length = 64) :
    SMap.get 0 (m.storeBeats k bs f).bytes (k + 64 * b + i) = ((f b).getD i (0, false)).1 := by
  have stored : ∀ m : Mem, SMap.get 0 (m.storeStack (k + 64 * b) ((f b).map (fun y => y.1)) [] [k / 64 + b]).bytes (k + 64 * b + i) =
      ((f b).getD i (0, false)).1 := fun m => by
    refine (SMap.get_setList_in (0 : Byte) ((f b).map (fun y => y.1)) m.bytes (k + 64 * b) i (by rw [List.length_map, hf]; exact hi)).trans ?_
    simp [hf, hi]
  rw [Mem.storeBeats, List.foldl_map]
  refine foldl_reaches (I := fun _ => True) (P := fun m : Mem => SMap.get 0 m.bytes (k + 64 * b + i) = ((f b).getD i (0, false)).1) hb trivial
    (fun _ _ _ _ => trivial) (fun m _ => stored m) fun m c _ hm => ?_
  by_cases hc : c = b
  · subst hc
    exact stored m
  · exact (SMap.get_setList_out _ _ _ _ _ (by rw [List.length_map, hf]; omega)).trans hm

end

/-! ### The steps of a writeback -/

@[simp] theorem State.markRebuild_standing (s : State) (g : Nat) : (s.markRebuild g).standing = s.standing := by
  unfold State.markRebuild
  dsimp only
  split <;> rfl

theorem State.wroteBack_standing (s : State) (l : WcbLine) (parts : List Nat) :
    (s.wroteBack l parts).standing = { s.standing with wcb := s.mem.wcb.filter (fun x => x.setting != l.setting) } := by
  unfold State.wroteBack
  dsimp only
  split
  · rfl
  · split
    · exact State.charge_standing ..
    · rfl

/-- The components that a writeback can change. -/
def writebackComps : List Comp := [.mem, .evt, .care, .host, .sites, .sail]

theorem State.markRebuild_unchanged (s : State) (g : Nat) : unchangedBut [.mem] s (s.markRebuild g) :=
  .ite (State.updGroup_unchanged ..) (.refl ..)

theorem State.charge_unchanged (s : State) (b cost : Nat) : unchangedBut [.mem] s (s.charge b cost) :=
  .ite (.refl ..) (unchangedBut_withMem ..)

theorem State.wroteBack_unchanged (s : State) (l : WcbLine) (parts : List Nat) : unchangedBut [.mem] s (s.wroteBack l parts) :=
  .ite (unchangedBut_withMem ..) (.ite ((unchangedBut_withMem s _).trans (State.charge_unchanged ..)) (unchangedBut_withMem ..))

theorem State.reportWb_unchanged (s : State) (l : WcbLine) (b : Nat) (read : Bool) : unchangedBut writebackComps s (s.reportWb l b read) := by
  unfold State.reportWb
  extract_lets k part a s1 s2
  have h1 : unchangedBut [.evt] s s1 := State.post_unchanged ..
  have h2 : unchangedBut [.evt] s s2 := .ite (h1.trans (State.post_unchanged ..)) h1
  exact (h2.append (State.startReset_unchanged ..)).mono (by simp [writebackComps])

theorem State.reportWbs_mem (s : State) (l : WcbLine) (r : Nat → Bool) (bs : List Nat) :
    (bs.foldl (fun s b => s.reportWb l b (r b)) s).mem = s.mem :=
  List.foldlRecOn (motive := fun u : State => u.mem = s.mem) _ _ rfl fun _ hu _ _ => (State.reportWb_mem ..).trans hu

/-- The corrected bytes of a line have been read. -/
def State.heedLine (s : State) (l : WcbLine) : State := l.errs.foldl (fun s e => s.heedBuffered l.setting e.1) s

/-- The line as it then stands in the buffers. -/
def State.lineNow (s : State) (l : WcbLine) : WcbLine := ((s.heedLine l).mem.wcb.find? (fun x => x.setting == l.setting)).getD l

theorem State.heedLine_rewrites (s : State) (l : WcbLine) : s.rewrites (s.heedLine l) :=
  .foldl l.errs (fun s e => s.heedBuffered_rewrites l.setting e.1) s

theorem State.heedLine_reads (s : State) (l : WcbLine) : unchangedBut readComps s (s.heedLine l) :=
  .foldl l.errs (fun s e => s.heedBuffered_reads l.setting e.1) s

theorem State.lineNow_setting (s : State) (l : WcbLine) : (s.lineNow l).setting = l.setting := by
  unfold State.lineNow
  cases h : (s.heedLine l).mem.wcb.find? (fun x => x.setting == l.setting) with
  | none => rfl
  | some x => simpa using List.find?_some h

/-- A report that leaves what stands. -/
def State.reports (s t : State) : Prop := unchangedBut readComps s t ∧ t.standing = s.standing

theorem State.reports.refl (s : State) : s.reports s := ⟨.refl .., rfl⟩

/-- A writeback said once: the reports of the line and of its merge reads, the merged beats that are stored, the counters and the buffers, and
the reports of the beats that failed. -/
theorem State.writeback_cases (s : State) (l : WcbLine) : ∃ (v u : State) (line : WcbLine) (m : Mem) (bad parts failed : List Nat)
    (read : Nat → Bool), line = s.lineNow l ∧ (s.heedLine l).reports v ∧ v.reports u ∧
    m = u.mem.storeBeats (l.setting * 1024) ((s.heedLine l).wbBeats line) (v.mergedBeat line) ∧
    s.writeback l = failed.foldl (fun s b => s.reportWb line b (read b))
      ((({ u with mem := m.storeStack (l.setting * 1024) [] bad [] } : State).wroteBack line parts).markRebuild (line.setting / 64)) := by
  unfold State.writeback
  extract_lets n wide k s1 line beats parts v merged readFailed upset badB badBeats failed failed' second u mem mem' t
  have hv : (s.heedLine l).reports v := by
    unfold v
    split
    · exact .refl _
    · split
      · exact ⟨State.heedSetting_reads .., State.heedSetting_standing ..⟩
      · refine ⟨.foldl parts (fun s b => s.heedBeat_reads (k / 64 + b)) _, ?_⟩
        exact List.foldlRecOn (motive := fun x : State => x.standing = s1.standing) _ _ rfl
          fun _ hx _ _ => (State.heedBeat_standing ..).trans hx
  have hu : v.reports u := by
    unfold u
    split
    · exact ⟨State.undecodable_reads .., State.undecodable_standing ..⟩
    · exact .refl _
  exact ⟨v, u, line, mem, badBeats.map (fun b => k / 64 + b), parts, failed', _, rfl, hv, hu, rfl, rfl⟩

/-- A writeback changes memory, memory care, what was on its way out of the partition that wrote the line, Sail and the events. -/
theorem State.writeback_unchanged (s : State) (l : WcbLine) : unchangedBut writebackComps s (s.writeback l) := by
  obtain ⟨v, u, line, m, bad, parts, failed, read, -, ⟨hv, hv'⟩, ⟨hu, hu'⟩, -, h⟩ := s.writeback_cases l
  obtain ⟨w, -, hline⟩ := s.heedLine_rewrites l
  have outside : u.standing.outside = s.standing.outside := by rw [hu', hv', hline]
  have reported : unchangedBut writebackComps s u :=
    (unchangedBut_reports (((s.heedLine_reads l).trans hv).trans hu) outside).mono (by simp [reportComps, writebackComps])
  rw [h]
  refine (reported.trans ?_).trans (.foldl failed (fun s b => s.reportWb_unchanged line b (read b)) _)
  exact (((unchangedBut_withMem u _).trans (State.wroteBack_unchanged ..)).trans (State.markRebuild_unchanged ..)).mono
    (by simp [writebackComps])

/-- What stands after a writeback: the stored beats in the stacks, the other lines in the buffers, and the redirections. -/
theorem State.writeback_standing (s : State) (l : WcbLine) : ∃ (v : State) (m : Mem), m.bytes = s.mem.bytes ∧
    (s.writeback l).mem.bytes =
      (m.storeBeats (l.setting * 1024) ((s.heedLine l).wbBeats (s.lineNow l)) (v.mergedBeat (s.lineNow l))).bytes ∧
    (s.writeback l).mem.wcb = (s.heedLine l).mem.wcb.filter (fun x => x.setting != l.setting) ∧
    (s.writeback l).standing.movedTo = s.standing.movedTo := by
  obtain ⟨v, u, line, m, bad, parts, failed, read, rfl, ⟨-, hv⟩, ⟨-, hu⟩, rfl, h⟩ := s.writeback_cases l
  obtain ⟨w, -, hline⟩ := s.heedLine_rewrites l
  have stands : u.standing = { s.standing with wcb := (s.heedLine l).mem.wcb } := by
    rw [hu, hv, hline]
    exact congrArg (fun w => { s.standing with wcb := w }) (congrArg Standing.wcb hline).symm
  have lines := congrArg Standing.wcb stands
  have moved := congrArg Standing.movedTo stands
  generalize hm : u.mem.storeBeats (l.setting * 1024) ((s.heedLine l).wbBeats (s.lineNow l)) (v.mergedBeat (s.lineNow l)) = m at h
  have mwcb : m.wcb = (s.heedLine l).mem.wcb := by
    rw [← hm, Mem.storeBeats_keeps (fun m => m.wcb) fun _ _ _ _ _ => rfl]
    exact lines
  have mslabs : m.slabs = u.mem.slabs := by
    rw [← hm, Mem.storeBeats_keeps (fun m => m.slabs) fun _ _ _ _ _ => rfl]
  have final : (s.writeback l).mem = _ := (congrArg State.mem h).trans (State.reportWbs_mem ..)
  have left := (State.markRebuild_standing _ ((s.lineNow l).setting / 64)).trans (State.wroteBack_standing
    { u with mem := m.storeStack (l.setting * 1024) [] bad [] } (s.lineNow l) parts)
  refine ⟨v, u.mem, congrArg Standing.bytes stands, ?_, ?_, ?_⟩
  · rw [hm, final]
    exact congrArg Standing.bytes left
  · rw [final]
    refine (congrArg Standing.wcb left).trans ?_
    rw [State.lineNow_setting, ← mwcb]
    rfl
  · have slabs : (s.writeback l).standing.movedTo = fun i => (SMap.get {} m.slabs i).movedTo := by
      rw [State.standing]
      dsimp only [State.slab]
      rw [final]
      exact congrArg Standing.movedTo left
    rw [slabs, mslabs]
    exact moved

end Sys2Proof.Machine
end

section
/-! SUPPORT. The writeback of a line without upset bytes, a scrub of a clean setting, and the statement O28 (R246, R250, R271). -/

namespace Sys2Proof.Machine

/-! ### Lines without upset bytes (R247, R250) -/

section
variable {s : State} {l : WcbLine}

theorem State.heedLine_sound (he : l.errs = []) : s.heedLine l = s := by
  rw [State.heedLine, he, List.foldl_nil]

theorem State.lineNow_found (he : l.errs = []) (hf : s.mem.wcb.find? (fun x => x.setting == l.setting) = some l) : s.lineNow l = l := by
  rw [State.lineNow, State.heedLine_sound he, hf, Option.getD_some]

theorem WcbLine.byte_sound (he : l.errs = []) (i : Nat) : l.byte i = SMap.get none l.bytes i := by
  rw [WcbLine.byte, he]
  exact Option.map_id'

theorem State.length_mergedBeat (s : State) (l : WcbLine) (b : Nat) : (s.mergedBeat l b).length = 64 := by simp [State.mergedBeat]

/-- A valid byte of the line is the merged beat's. -/
theorem State.mergedBeat_valid {b i : Nat} {x : Byte × Bool} (he : l.errs = []) (hi : i < 64)
    (hx : SMap.get none l.bytes (64 * b + i) = some x) : (s.mergedBeat l b).getD i (0, false) = x := by
  simp [State.mergedBeat, hi, WcbLine.byte_sound he, hx]

theorem State.lt_of_mem_wbBeats {b : Nat} (h : b ∈ s.wbBeats l) : b < 16 := by
  unfold State.wbBeats at h
  split at h
  · exact List.mem_range.1 h
  · exact List.mem_range.1 (List.mem_filter.1 h).1

/-- A member that is not the default is listed. -/
theorem SMap.exists_mem_of_get {α : Type} {d : α} {m : SMap α} {k : Nat} (h : SMap.get d m k ≠ d) : ∃ v, (k, v) ∈ m := by
  induction m with
  | nil => exact absurd rfl h
  | cons e m ih =>
    obtain ⟨j, v⟩ := e
    by_cases hj : k = j
    · exact ⟨v, hj ▸ .head _⟩
    · obtain ⟨w, hw⟩ := ih (by simpa [SMap.get, hj] using h)
      exact ⟨w, .tail _ hw⟩

/-- The beat of a valid byte is written. -/
theorem State.mem_wbBeats {i : Nat} {x : Byte × Bool} (hi : i < 1024) (hx : SMap.get none l.bytes i = some x) : i / 64 ∈ s.wbBeats l := by
  have beat : i / 64 ∈ List.range 16 := List.mem_range.2 (by omega)
  obtain ⟨v, hv⟩ := SMap.exists_mem_of_get (d := none) (by rw [hx]; exact Option.some_ne_none x)
  have valid : l.validIn (i / 64) ≠ 0 := by
    rw [WcbLine.validIn, ← Nat.pos_iff_ne_zero]
    exact List.length_pos_of_mem (List.mem_filter.2 ⟨hv, beq_self_eq_true _⟩)
  unfold State.wbBeats
  split
  · exact beat
  · exact List.mem_filter.2 ⟨beat, by simpa using valid⟩

/-- The writeback of a line without upset bytes takes it out of the buffers, and its valid bytes stand in the stack. -/
theorem State.writeback_sound (he : l.errs = []) (hf : s.mem.wcb.find? (fun x => x.setting == l.setting) = some l) :
    (s.writeback l).mem.wcb = s.mem.wcb.filter (fun x => x.setting != l.setting) ∧
    (∀ k, k / 1024 ≠ l.setting → SMap.get 0 (s.writeback l).mem.bytes k = SMap.get 0 s.mem.bytes k) ∧
    (∀ i b, i < 1024 → SMap.get none l.bytes i = some b → SMap.get 0 (s.writeback l).mem.bytes (l.setting * 1024 + i) = b.1) := by
  obtain ⟨v, m, hm, hbytes, hlines, -⟩ := s.writeback_standing l
  rw [State.heedLine_sound he] at hbytes hlines
  rw [State.lineNow_found he hf] at hbytes
  refine ⟨hlines, fun k hk => ?_, fun i b hi hb => ?_⟩
  · rw [hbytes, Mem.storeBeats_out (fun _ => State.lt_of_mem_wbBeats) (v.length_mergedBeat l) (by omega), hm]
  · have place : l.setting * 1024 + i = l.setting * 1024 + 64 * (i / 64) + i % 64 := by omega
    have offset : 64 * (i / 64) + i % 64 = i := by omega
    rw [hbytes, place, Mem.storeBeats_in (State.mem_wbBeats hi hb) (by omega) (v.length_mergedBeat l),
      State.mergedBeat_valid he (by omega) (offset ▸ hb)]

end

/-! ### Hardware errors that are none (R247, R278) -/

theorem State.meetErrors_none (s : State) (st : Nat) {c : Nat} (hc : c ≠ 0) : s.meetErrors st ⟨[], [], c⟩ = s := by
  simp [State.meetErrors, hc]

theorem exec_wcbWriteback_line {s : State} {n st c : Nat} {l : WcbLine} (hn : n < 32) (hst : st < settingsPerGroup)
    (hf : s.mem.wcb.find? (fun x => x.setting == settingsPerGroup * n + st) = some l)
    (hh : s.mem.wcb.any (fun x => x.setting == settingsPerGroup * n + st && s.lineHeld x) = false) (hc : c ≠ 0) :
    exec (.wcbWriteback n st ⟨[], [], c⟩) s = .next (s.writeback l) := by
  refine ((guarded_eq ..).1 (by simp [hn, hst])).trans (congrArg _ ?_)
  simp only [hh, Bool.false_eq_true, if_false, s.meetErrors_none _ hc, hf]

/-! ### The patrol scrub (R271) -/

theorem State.updScrub_unchanged (s : State) (n : Nat) (f : Scrub → Scrub) : unchangedBut [.care] s (s.updScrub n f) :=
  unchangedBut_withCare ..

theorem State.scrub_updScrub (s : State) (n : Nat) (f : Scrub → Scrub) : (s.updScrub n f).scrub n = f (s.scrub n) := SMap.get_upd_same ..

theorem State.scrubOn_more {s : State} {n st q : Nat} (h : s.nextWritten n (st + 1) = some q) :
    s.scrubOn n st = s.updScrub n (fun x => { x with pos := q }) := by
  rw [State.scrubOn, h]

theorem State.scrubOn_end {s : State} {n st : Nat} (h : s.nextWritten n (st + 1) = none) :
    s.scrubOn n st = s.updScrub n (fun x => { x with passes := satAdd max32 x.passes 1, rows := [], pos := 0, hours := s.care.scrubHours }) := by
  rw [State.scrubOn, h]

theorem State.scrubOn_unchanged (s : State) (n st : Nat) : unchangedBut [.care] s (s.scrubOn n st) := by
  unfold State.scrubOn
  split <;> exact State.updScrub_unchanged ..

/-- The stack holds what the scrub has read in local setting `st` of group `n`. -/
def State.scrubReads (s : State) (n st : Nat) (raw : List Bytes) : State :=
  { s with mem := s.mem.holdSetting true (n * settingsPerGroup + st) raw }

theorem State.nextWritten_scrubReads (s : State) (n st q : Nat) (raw : List Bytes) :
    (s.scrubReads n st raw).nextWritten n q = s.nextWritten n q := rfl

/-- A wide setting that decodes clean: the stack holds what was read, and the pass goes on. -/
theorem exec_scrubRead_clean {s : State} {n st : Nat} {raw : List Bytes} {data : Bytes} (hn : n < 32) (hst : st < settingsPerGroup)
    (hl : raw.length = 16) (hb : ∀ b, b ∈ raw → b.length = 72) (hw : (s.group n).wide = true)
    (hp : s.nextWritten n (s.scrub n).pos = some st) (hh : s.scrubWaits n ((n * settingsPerGroup + st) * 1024) = false)
    (hd : (s.scrubReads n st raw).readSetting (n * settingsPerGroup + st) = .clean data) :
    exec (.scrubRead n st raw) s = .next ((s.scrubReads n st raw).scrubOn n st) := by
  unfold State.scrubReads at hd ⊢
  have setting : (n * settingsPerGroup + st) * 1024 / 1024 = n * settingsPerGroup + st := Nat.mul_div_cancel _ (by decide)
  refine ((guarded_eq ..).1 ?_).trans (congrArg _ ?_)
  · simp only [hn, hst, hl, decide_true, beq_self_eq_true, Bool.and_self, Bool.true_and, List.all_eq_true, beq_iff_eq]
    exact hb
  · simp only [hw, hp, hh, setting, hd, State.scrubResult, ne_eq, not_true_eq_false, Bool.false_eq_true, or_self, if_false, if_true]

/-- Settles O28: a clean scrub holds what it read and moves the pass on; a writeback stores the line's beats in its own setting. -/
theorem scrubAndWriteback : Obligations.ScrubAndWriteback := by
  refine ⟨fun s n st raw data hn hst hl hb hw hp hh hd => ⟨_, exec_scrubRead_clean hn hst hl hb hw hp hh hd, ?_⟩,
    fun s n st l c hn hst hf hh he hc => ⟨_, exec_wcbWriteback_line hn hst hf hh hc, ?_⟩⟩
  · have same := (s.scrubReads n st raw).scrubOn_unchanged n st
    refine ⟨same.1 .mem (by simp), fun q hq => ?_, fun hq => ?_, (unchangedBut_withMem s _).append same⟩
    · rw [← s.nextWritten_scrubReads n st _ raw] at hq
      rw [State.scrubOn_more hq, State.scrub_updScrub]
      exact ⟨rfl, rfl⟩
    · rw [← s.nextWritten_scrubReads n st _ raw] at hq
      rw [State.scrubOn_end hq, State.scrub_updScrub]
      exact ⟨rfl, rfl, rfl⟩
  · have setting : l.setting = settingsPerGroup * n + st := by simpa using List.find?_some hf
    rw [← setting] at hf
    obtain ⟨hlines, hout, hin⟩ := State.writeback_sound he hf
    exact ⟨hlines, hout, hin, s.writeback_unchanged l⟩

end Sys2Proof.Machine
end

section
/-! SUPPORT. Writes of device memory into a new line of the buffers (R235, R239, R246): the bytes written are read back from the line, whatever
makes way for it. -/

namespace Sys2Proof.Machine

/-! ### Runs within one setting (R235 to R239) -/

theorem runsOf_one {d n : Nat} (h0 : 0 < n) (hn : d % 1024 + n ≤ 1024) : runsOf d n = [(d, n)] := by
  have first : min n (1024 - d % 1024) = n := by omega
  simp [runsOf, settingRuns, first, Nat.pos_iff_ne_zero.1 h0]

theorem stripedStorage_add {d i : Nat} (hi : d % 1024 + i < 1024) :
    stripedStorage (d + i) = stripedStorage d + i ∧ stripedStorage d % 1024 = d % 1024 := by
  have setting : (d + i) / 1024 = d / 1024 := by omega
  have byte : (d + i) % 1024 = d % 1024 + i := by omega
  simp only [stripedStorage, setting, byte]
  omega

theorem localStorage_add {l i : Nat} (hi : l % 1024 + i < 1024) :
    localStorage (l + i) = localStorage l + i ∧ localStorage l % 1024 = l % 1024 := by
  have group : (l + i) / 2 ^ 30 = l / 2 ^ 30 := by omega
  have slab : (l + i) / 2 ^ 35 = l / 2 ^ 35 := by omega
  have row : (l + i) % 2 ^ 30 / 1024 = l % 2 ^ 30 / 1024 := by omega
  have byte : (l + i) % 2 ^ 30 % 1024 = l % 1024 + i := by omega
  have first : l % 2 ^ 30 % 1024 = l % 1024 := by omega
  simp only [localStorage, group, slab, row, byte, first]
  omega

/-- The addresses of one setting name its bytes in order. -/
theorem storageOf_add {d k i : Nat} (h : storageOf d = some k) (hi : d % 1024 + i < 1024) :
    storageOf (d + i) = some (k + i) ∧ k % 1024 = d % 1024 := by
  by_cases striped : d < 0xC000000000
  · rw [storageOf_striped striped] at h
    obtain rfl := Option.some.inj h
    obtain ⟨hadd, hmod⟩ := stripedStorage_add hi
    exact ⟨by rw [storageOf_striped (by omega), hadd], hmod⟩
  · by_cases localView : 0x10000000000 ≤ d ∧ d < 0x1C000000000
    · obtain ⟨hlo, hhi⟩ := localView
      rw [storageOf_local hlo hhi] at h
      obtain rfl := Option.some.inj h
      obtain ⟨hadd, hmod⟩ := localStorage_add (l := d - 0x10000000000) (i := i) (by omega)
      have offset : d + i - 0x10000000000 = d - 0x10000000000 + i := by omega
      exact ⟨by rw [storageOf_local (by omega) (by omega), offset, hadd], by omega⟩
    · rw [storageOf, if_neg striped, if_neg localView] at h
      cases h

/-- Where no slab has been moved, a storage byte serves itself (R239). -/
theorem State.redirect_unmoved {s : State} (h : ∀ i, (s.slab i).movedTo = none) (k : Nat) : s.redirect k = k := by
  simp [State.redirect, State.redirectN, h]

/-! ### Room for a line (R249) -/

/-- No buffer line is of setting `st`. -/
def State.noLineOf (s : State) (st : Nat) : Prop := ∀ l, l ∈ s.mem.wcb → l.setting ≠ st

theorem State.noLineOf.find? {s : State} {st : Nat} (h : s.noLineOf st) : s.mem.wcb.find? (fun l => l.setting == st) = none :=
  List.find?_eq_none.2 fun l hl => by simpa using h l hl

/-- A writeback brings no line into the buffers. -/
theorem State.writeback_noLineOf {s : State} {st : Nat} (l : WcbLine) (h : s.noLineOf st) : (s.writeback l).noLineOf st := by
  obtain ⟨v, m, -, -, hlines, -⟩ := s.writeback_standing l
  obtain ⟨w, hsettings, hw⟩ := s.heedLine_rewrites l
  have lines : (s.heedLine l).mem.wcb = w := congrArg Standing.wcb hw
  intro x hx
  rw [hlines, lines] at hx
  have setting : x.setting ∈ s.mem.wcb.map (·.setting) := hsettings ▸ List.mem_map_of_mem (List.mem_filter.1 hx).1
  obtain ⟨y, hy, hyx⟩ := List.mem_map.1 setting
  exact hyx ▸ h y hy

theorem State.makeWay_cases (s : State) (st : Nat) : s.makeWay st = s ∨ ∃ l, s.makeWay st = s.writeback l := by
  unfold State.makeWay
  dsimp only
  split
  · exact .inl rfl
  · split
    · exact .inl rfl
    · split
      · exact .inl rfl
      · exact .inr ⟨_, rfl⟩

theorem State.touchGranule_keeps (s : State) (g : Nat) :
    (s.touchGranule g).mem.wcb = s.mem.wcb ∧ (s.touchGranule g).standing.movedTo = s.standing.movedTo ∧
      unchangedBut [.mem] s (s.touchGranule g) := by
  unfold State.touchGranule
  split
  · exact ⟨rfl, rfl, .refl ..⟩
  · exact ⟨congrArg Standing.wcb (State.markRebuild_standing ..), (congrArg Standing.movedTo (State.markRebuild_standing ..)).trans rfl,
      ((unchangedBut_withMem s _).trans (unchangedBut_withMem (s.setGranule g true) _)).trans (State.markRebuild_unchanged ..)⟩

/-- The state in which a line of setting `st` is entered: its granule is written, and there is room. -/
def State.readyFor (s : State) (st : Nat) : State := (s.touchGranule (st / 64)).makeWay st

theorem State.readyFor_keeps {s : State} {st : Nat} (h : s.noLineOf st) :
    (s.readyFor st).noLineOf st ∧ (s.readyFor st).standing.movedTo = s.standing.movedTo ∧
      unchangedBut writebackComps s (s.readyFor st) := by
  obtain ⟨hlines, hmoved, hsame⟩ := s.touchGranule_keeps (st / 64)
  have touched : (s.touchGranule (st / 64)).noLineOf st := fun l hl => h l (hlines ▸ hl)
  have same : unchangedBut writebackComps s (s.touchGranule (st / 64)) := hsame.mono (by simp [writebackComps])
  unfold State.readyFor
  rcases State.makeWay_cases (s.touchGranule (st / 64)) st with hway | ⟨l, hway⟩
  · rw [hway]
    exact ⟨touched, hmoved, same⟩
  · obtain ⟨-, -, -, -, -, moved⟩ := State.writeback_standing (s.touchGranule (st / 64)) l
    rw [hway]
    exact ⟨State.writeback_noLineOf l touched, moved.trans hmoved, same.trans (State.writeback_unchanged ..)⟩

/-! ### A new line (R246) -/

/-- The line that bytes written from byte `off` of setting `st` on begin. -/
def newLine (st off : Nat) (bs : List (Byte × Bool)) (writer tick : Nat) : WcbLine :=
  { setting := st, bytes := SMap.setList none [] off (bs.map some), writer := writer, tick := tick }

theorem SMap.length_set_le {α : Type} [DecidableEq α] (d : α) (m : SMap α) (n : Nat) (x : α) : (SMap.set d m n x).length ≤ m.length + 1 := by
  unfold SMap.set
  split
  · exact (List.length_filter_le ..).trans (Nat.le_succ _)
  · induction m with
    | nil => exact Nat.le_refl _
    | cons e m ih =>
      unfold SMap.put
      repeat' split
      · exact Nat.le_refl _
      · exact Nat.le_succ _
      · exact Nat.succ_le_succ ih

theorem SMap.length_setList_le {α : Type} [DecidableEq α] (d : α) (xs : List α) (m : SMap α) (n : Nat) :
    (SMap.setList d m n xs).length ≤ m.length + xs.length := by
  induction xs generalizing m n with
  | nil => exact Nat.le_refl _
  | cons x xs ih =>
    have rest := ih (SMap.set d m n x) (n + 1)
    have one := SMap.length_set_le d m n x
    rw [SMap.setList, List.length_cons]
    omega

/-- Fewer bytes than a setting has do not fill a new line. -/
theorem newLine_full {st off w t : Nat} {bs : List (Byte × Bool)} (h : bs.length < 1024) : (newLine st off bs w t).full = false := by
  have few := SMap.length_setList_le none (bs.map some) ([] : SMap (Option (Byte × Bool))) off
  rw [List.length_map, List.length_nil] at few
  refine beq_false_of_ne ?_
  simp only [newLine]
  omega

theorem newLine_byte {st off w t i : Nat} {bs : List (Byte × Bool)} (hi : i < bs.length) :
    (newLine st off bs w t).byte (off + i) = some (bs.getD i (0, false)) := by
  have written := SMap.get_setList_in none (bs.map some) [] off i (by simpa using hi)
  rw [WcbLine.byte_sound rfl]
  exact written.trans (by simp [hi])

/-- The line of setting `st` is this one, and the most recently written. -/
def State.enterLine (s : State) (st : Nat) (line : WcbLine) : State :=
  { s with mem := { s.mem.dropLine st with wcb := line :: (s.mem.dropLine st).wcb } }

/-- The line of setting `st`, or an empty one. -/
def State.lineFor (s : State) (st writer : Nat) : WcbLine :=
  (s.mem.wcb.find? (fun l => l.setting == st)).getD ⟨st, [], writer, s.tick.count, []⟩

/-- A line that bytes enter from byte `off` on. -/
def WcbLine.enter (l : WcbLine) (off : Nat) (bs : List (Byte × Bool)) (writer : Nat) : WcbLine :=
  { l with bytes := SMap.setList none l.bytes off (bs.map some), errs := SMap.clear l.errs off (off + bs.length), writer := writer }

theorem State.writeLine_eq (s : State) (k : Nat) (bs : List (Byte × Bool)) (w : Nat) :
    s.writeLine k bs w =
      if (((s.readyFor (k / 1024)).lineFor (k / 1024) w).enter (k % 1024) bs w).full then
        ((s.readyFor (k / 1024)).enterLine (k / 1024) (((s.readyFor (k / 1024)).lineFor (k / 1024) w).enter (k % 1024) bs w)).writebackFull
          (k / 1024 / settingsPerGroup)
      else (s.readyFor (k / 1024)).enterLine (k / 1024) (((s.readyFor (k / 1024)).lineFor (k / 1024) w).enter (k % 1024) bs w) := rfl

/-- Bytes that enter a setting of which no line stands begin a new line. -/
theorem State.writeLine_new {s : State} {k w : Nat} {bs : List (Byte × Bool)} (hn : s.noLineOf (k / 1024)) (hl : bs.length < 1024) :
    s.writeLine k bs w =
      (s.readyFor (k / 1024)).enterLine (k / 1024) (newLine (k / 1024) (k % 1024) bs w (s.readyFor (k / 1024)).tick.count) := by
  obtain ⟨hu, -, -⟩ := State.readyFor_keeps hn
  have new : ((s.readyFor (k / 1024)).lineFor (k / 1024) w).enter (k % 1024) bs w =
      newLine (k / 1024) (k % 1024) bs w (s.readyFor (k / 1024)).tick.count := by
    rw [State.lineFor, hu.find?]
    rfl
  rw [State.writeLine_eq, new, newLine_full hl, if_neg Bool.false_ne_true]

theorem State.wcbByte_enterLine (s : State) {line : WcbLine} {k : Nat} (h : line.setting = k / 1024) :
    (s.enterLine (k / 1024) line).wcbByte k = line.byte (k % 1024) := by
  simp [State.wcbByte, State.enterLine, h]

theorem State.enterLine_unchanged (s : State) (st : Nat) (line : WcbLine) : unchangedBut [.mem] s (s.enterLine st line) :=
  unchangedBut_withMem ..

/-! ### A write of one run (R246) -/

section
variable {s : State} {d k w : Nat} {bs : List (Byte × Bool)}

/-- A write of part of a setting that has not been moved and of which no line stands begins a line. -/
theorem State.writeDev_new (hk : storageOf d = some k) (h0 : 0 < bs.length) (hn : d % 1024 + bs.length ≤ 1024) (hl : bs.length < 1024)
    (hs : s.mem.slabs = []) (hm : s.movingTo k = none) (hw : s.noLineOf (k / 1024)) :
    s.writeDev d bs w =
      (s.readyFor (k / 1024)).enterLine (k / 1024) (newLine (k / 1024) (k % 1024) bs w (s.readyFor (k / 1024)).tick.count) := by
  have stays : s.redirect k = k := State.redirect_unmoved (fun i => by rw [State.slab, hs]; rfl) k
  rw [State.writeDev_run (runsOf_one h0 hn) hk stays hm, State.writeLine_new hw hl]

/-- What has been written is read back, and the write changes only what a writeback can. -/
theorem State.writeDev_reads (hk : storageOf d = some k) (h0 : 0 < bs.length) (hn : d % 1024 + bs.length ≤ 1024) (hl : bs.length < 1024)
    (hs : s.mem.slabs = []) (hm : s.movingTo k = none) (hw : s.noLineOf (k / 1024)) :
    (∀ i, i < bs.length → (s.writeDev d bs w).readDevByte (d + i) = bs.getD i (0, false)) ∧
      unchangedBut writebackComps s (s.writeDev d bs w) := by
  rw [State.writeDev_new hk h0 hn hl hs hm hw]
  obtain ⟨-, moved, same⟩ := State.readyFor_keeps hw
  refine ⟨fun i hi => ?_, same.trans ((State.enterLine_unchanged ..).mono (by simp [writebackComps]))⟩
  obtain ⟨hki, hmod⟩ := storageOf_add (i := i) hk (by omega)
  have setting : (k + i) / 1024 = k / 1024 := by omega
  have offset : (k + i) % 1024 = k % 1024 + i := by omega
  have unmoved (line : WcbLine) (j : Nat) : (((s.readyFor (k / 1024)).enterLine (k / 1024) line).slab j).movedTo = none := by
    refine (congrFun moved j).trans ?_
    show (SMap.get {} s.mem.slabs j).movedTo = none
    rw [hs]
    rfl
  rw [State.readDevByte, hki]
  dsimp only
  rw [State.redirect_unmoved (unmoved _), State.readStorage, ← setting, State.wcbByte_enterLine _ rfl, offset, newLine_byte hi]

theorem State.readDev_eq_of {t : State} (h : ∀ i, i < bs.length → t.readDevByte (d + i) = bs.getD i (0, false)) :
    t.readDev d bs.length = bs := by
  refine List.ext_getElem (by simp [State.readDev]) fun i hi hi' => ?_
  simp [State.readDev, h i hi', hi']

end

end Sys2Proof.Machine
end

section
/-! SUPPORT. The host's reads and writes of HDM, one piece of a SCATTER_ADD, and the statement O31 on them (R256 to R258, R303, Table 9.3). -/

namespace Sys2Proof.Machine

/-! ### Bytes without poison -/

theorem getD_clean {bs : Bytes} {i : Nat} (hi : i < bs.length) : (clean bs).getD i (0, false) = (bs.getD i 0, false) := by
  simp [clean, hi]

/-! ### A host access that is carried out (R303) -/

theorem State.charge_bytes (s : State) (b cost : Nat) : (s.charge b cost).mem.bytes = s.mem.bytes :=
  congrArg Standing.bytes (State.charge_standing ..)

/-- What a read within a bucket's charge does to the state. -/
theorem State.readHeed_unchanged (s : State) (b cost d n : Nat) : unchangedBut reportComps s ((s.charge b cost).heed d n) :=
  ((State.charge_unchanged ..).mono (by simp [reportComps])).trans (State.heed_unchanged ..)

/-- The end of a host read: the line goes out. -/
def State.hostRead (s : State) (hpa d : Nat) : State :=
  ((s.charge 16 (s.readCost d 64)).heed d 64).emit (.memData hpa (plain (s.readDev d 64)) false)

theorem State.hostRead_bytes (s : State) (hpa d : Nat) : (s.hostRead hpa d).mem.bytes = s.mem.bytes :=
  (State.heed_bytes ..).trans (State.charge_bytes ..)

theorem State.hostRead_out (s : State) (hpa d : Nat) : (s.hostRead hpa d).out = s.out ++ [.memData hpa (plain (s.readDev d 64)) false] := by
  have same := (s.readHeed_unchanged 16 (s.readCost d 64) d 64).1 .out (by simp [reportComps])
  exact congrArg (· ++ _) same

theorem State.hostRead_unchanged (s : State) (hpa d : Nat) : unchangedBut [.mem, .care, .evt, .sail, .out] s (s.hostRead hpa d) :=
  ((s.readHeed_unchanged ..).append (State.emit_unchanged ..)).mono (by simp [reportComps])

section
variable {s : State} {hpa d : Nat} (aligned : hpa % 64 = 0) (inRange : hpa < 2 ^ 64) (place : s.placeOfHpa hpa = .dev d)
  (up : s.keel.safe = false)
include aligned inRange place up

theorem exec_cxlMemRead_served {c : Nat} (go : s.accessStop d 64 1 0xFF = none) (awake : s.memoryRests = false)
    (free : s.readHeld d 64 = false) (may : s.mayIssue 16 = true) (good : poisoned (s.readDev d 64) = false) (hc : c ≠ 0) :
    exec (.cxlMemRead hpa ⟨[], [], c⟩) s = .next (s.hostRead hpa d) := by
  have awake' : bit s.pwr.idle 2 = false := awake
  refine ((guarded_eq _ _ _).1 (by simpa [aligned] using inRange)).trans ?_
  cases hk : storageOf d <;>
    · simp only [place, up, go, hk, State.meetErrors_none s _ hc, awake', free, may, good, Bool.not_true, Bool.and_false, Bool.false_eq_true,
        if_false]
      rfl

theorem exec_cxlMemRead_stopped {e : MemErrors} {s' : State} (stop : s.accessStop d 64 1 0xFF = some s') :
    exec (.cxlMemRead hpa e) s = .next (s'.emit (.memData hpa (List.replicate 64 0xFF) false)) := by
  refine ((guarded_eq _ _ _).1 (by simpa [aligned] using inRange)).trans ?_
  simp only [place, up, stop, Bool.false_eq_true, if_false]

theorem exec_cxlMemWrite_served {data : Bytes} (whole : data.length = 64) (go : s.accessStop d 64 2 0xFF = none)
    (awake : s.memoryRests = false) (free : s.repairHeld d 64 = false) (may : s.mayIssue 16 = true) :
    exec (.cxlMemWrite hpa (BitVec.allOnes 64) data) s =
      .next (((s.charge 16 (writeCost 64)).writeDev d (clean data) 16).emit (.memCompletion hpa)) := by
  have awake' : bit s.pwr.idle 2 = false := awake
  refine ((guarded_eq _ _ _).1 (by simpa [aligned, whole] using inRange)).trans ?_
  simp only [place, up, go, awake', free, may, Bool.not_true, Bool.false_eq_true, if_false, if_true]

end

/-- A stopped access leaves its event, and nothing else. -/
theorem State.accessStop_unchanged {s t : State} {d n source part : Nat} (h : s.accessStop d n source part = some t) :
    unchangedBut [.evt] s t := by
  unfold State.accessStop at h
  split at h
  · cases h
    exact State.postOnce_unchanged ..
  · split at h
    · cases h
      exact State.postOnce_unchanged ..
    · split at h <;> cases h
      exact State.postOnce_unchanged ..

/-! ### A write into memory that stands (R246) -/

/-- What a charge leaves of what a write looks at. -/
theorem State.charge_mem (s : State) (b cost : Nat) :
    (s.charge b cost).mem.slabs = s.mem.slabs ∧ (s.charge b cost).mem.wcb = s.mem.wcb ∧ (s.charge b cost).mem.checks = s.mem.checks ∧
      ∀ k, (s.charge b cost).movingTo k = s.movingTo k := by
  unfold State.charge
  split
  · exact ⟨rfl, rfl, rfl, fun _ => rfl⟩
  · exact ⟨rfl, rfl, rfl, fun _ => rfl⟩

/-- A write of bytes without poison, its bucket charged, is read back, and changes only what a writeback can. -/
theorem State.chargedWrite_reads {s : State} {d k w b cost : Nat} {bs : Bytes} (hk : storageOf d = some k) (h0 : 0 < bs.length)
    (hn : d % 1024 + bs.length ≤ 1024) (hl : bs.length < 1024) (hs : s.mem.slabs = []) (hm : s.movingTo k = none)
    (hw : s.noLineOf (k / 1024)) :
    (∀ i, i < bs.length → ((s.charge b cost).writeDev d (clean bs) w).readDevByte (d + i) = (bs.getD i 0, false)) ∧
      unchangedBut writebackComps s ((s.charge b cost).writeDev d (clean bs) w) := by
  obtain ⟨slabs, wcb, -, moving⟩ := s.charge_mem b cost
  have len : (clean bs).length = bs.length := by simp [clean]
  obtain ⟨reads, same⟩ := State.writeDev_reads (s := s.charge b cost) (w := w) hk (len ▸ h0) (len ▸ hn) (len ▸ hl) (slabs.trans hs)
    ((moving k).trans hm) (fun l hl => hw l (wcb ▸ hl))
  refine ⟨fun i hi => (reads i (len ▸ hi)).trans (getD_clean hi), ?_⟩
  exact ((State.charge_unchanged ..).mono (by simp [writebackComps])).trans same

/-- Bytes read from device memory are read from memory. -/
theorem State.readDevByte_of_mem {s t : State} (h : t.mem = s.mem) (d : Nat) : t.readDevByte d = s.readDevByte d := by
  have redirect (n k : Nat) : t.redirectN n k = s.redirectN n k := by
    induction n generalizing k with
    | zero => rfl
    | succ n ih => simp only [State.redirectN, State.slab, h, ih]
  have storage (k : Nat) : t.readStorage k = s.readStorage k := by
    cases s
    cases t
    cases h
    rfl
  unfold State.readDevByte
  split
  · rfl
  · rw [storage, State.redirect, redirect]
    rfl

/-! ### What a read of the places leaves of the stacks (R208, R242, R247) -/

theorem State.heedCasketByte_mem (s : State) (a : Nat) : (s.heedCasketByte a).mem = s.mem := by
  unfold State.heedCasketByte
  split
  · exact State.chargeCe_mem ..
  · rfl

theorem State.heedCasket_mem (s : State) (a n : Nat) : (s.heedCasket a n).mem = s.mem :=
  List.foldlRecOn (motive := fun u : State => u.mem = s.mem) _ _ rfl fun _ hu _ _ => (State.heedCasketByte_mem ..).trans hu

theorem State.heedPlaces_bytes (s : State) (ps : List (Place × Nat)) : (s.heedPlaces ps).mem.bytes = s.mem.bytes := by
  refine List.foldlRecOn (motive := fun u : State => u.mem.bytes = s.mem.bytes) _ _ rfl fun u hu p _ => ?_
  split
  · exact (State.heed_bytes ..).trans hu
  · exact (congrArg Mem.bytes (State.heedCasket_mem ..)).trans hu
  · exact hu
  · exact hu

theorem State.useSite_mem (s : State) (ps : List (Place × Nat)) : (s.useSite ps).mem = s.mem := by
  refine List.foldlRecOn (motive := fun u : State => u.mem = s.mem) _ _ rfl fun u hu p _ => ?_
  split <;> exact hu

theorem State.took_bytes (s : State) (ps : List (Place × Nat)) : (s.took ps).mem.bytes = s.mem.bytes :=
  (congrArg Mem.bytes (State.useSite_mem ..)).trans (s.heedPlaces_bytes ps)

theorem State.issueAll_bytes (s : State) (b : Nat) (cs : List Nat) (k : Nat) : (s.issueAll b cs k).1.mem.bytes = s.mem.bytes := by
  induction cs generalizing s k with
  | nil => rfl
  | cons c cs ih =>
    rw [State.issueAll]
    split
    · exact ih ..
    · split
      · exact (ih ..).trans (State.charge_bytes ..)
      · unfold State.bucketWait
        split <;> rfl

/-- Accesses that have all been issued leave the stacks as they are. -/
theorem State.access_go_bytes {s u : State} {x : Flight} {j : Nat} {reads writes : List (Place × Nat)}
    (h : s.access x j reads writes = .go u) : u.mem.bytes = s.mem.bytes := by
  unfold State.access at h
  dsimp only at h
  split at h
  · cases h
  · split at h
    · cases h
    · split at h
      · cases h
        exact State.issueAll_bytes ..
      · cases h

/-! ### One piece of a SCATTER_ADD (R257, R258) -/

section
variable {s : State} {x : Flight}

/-- The end of a piece all of whose records have been applied. -/
def State.scatterEnd (s : State) (x : Flight) (dt : Nat) : State :=
  ((s.updStrand x.id 0 (fun y => { y with blob := [] })).updFlight x.id (fun y => { y with blob := [] })).endPiece x
    ((x.strand 0).piece + 1 == scatterPieces x.desc) 0 dt

theorem State.scatterApply_end {rs : List Bytes} {u : State} {filled : List Nat} {dt : Nat}
    (h : s.scatterRun x rs ((chunks 8 (x.blob.length / 8) x.blob).map leNat) x.detail = ⟨u, [], filled, dt⟩) :
    s.scatterApply x rs = u.scatterEnd x dt := by
  rw [State.scatterApply, h]
  rfl

theorem State.scatterEnd_unchanged (s : State) (x : Flight) (dt : Nat) : unchangedBut endComps s (s.scatterEnd x dt) :=
  (((State.updStrand_unchanged ..).trans (State.updFlight_unchanged ..)).mono (by simp [endComps])).trans (State.endPiece_unchanged ..)

/-- The end of a piece gives its flight the detail. -/
theorem State.endPiece_detail {y : Flight} (last : Bool) (st dt : Nat) (h : s.flight x.id = some y) :
    ∃ z, (s.endPiece x last st dt).flight x.id = some z ∧ z.detail = dt := by
  unfold State.endPiece
  split
  · refine ⟨_, (State.flight_updFlight _ _ _ ?_).trans (congrArg _ h), rfl⟩
    intro _; rfl
  · exact ⟨_, State.flight_nextPiece 0 dt h, rfl⟩

/-- With its last record a piece has been worked, and its flight has the detail word. -/
theorem State.scatterEnd_worked {u : State} {f : Nat} (hw : s.working f 0 0x60001 = some x) (hu : u.work = s.work) (dt : Nat) :
    pieceWorked (u.scatterEnd x dt) f x (scatterPieces x.desc) 0 ∧ ∃ y, (u.scatterEnd x dt).flight f = some y ∧ y.detail = dt := by
  obtain ⟨hx, -⟩ := State.working_some hw
  obtain rfl := State.flight_id hx
  have strand := State.flight_updStrand 0 (fun y => { y with blob := [] }) ((State.flight_of_work hu x.id).trans hx)
  have flight : ((u.updStrand x.id 0 (fun y => { y with blob := [] })).updFlight x.id (fun y => { y with blob := [] })).flight x.id =
      some { x.onStrand 0 (fun y => { y with blob := [] }) with blob := [] } := by
    refine (State.flight_updFlight _ _ _ ?_).trans (congrArg _ strand)
    intro _; rfl
  have piece : x.atPieceOf (x.onStrand 0 (fun y => { y with blob := [] })) :=
    Flight.atPieceOf_onStrand (State.working_atPiece hw) (fun _ => rfl)
  exact ⟨State.endPiece_worked dt flight rfl piece beq_iff_eq, State.endPiece_detail _ 0 dt flight⟩

/-- Records beyond the array are skipped and counted (R257). -/
theorem State.scatterRun_skips {rs : List Bytes} (h : ∀ r, r ∈ rs → xElems x.desc ≤ fieldLe r 0 8) (filled : List Nat) (dt : Nat) :
    s.scatterRun x rs filled dt = ⟨s, [], filled, dt + 2 ^ 32 * rs.length⟩ := by
  induction rs generalizing dt with
  | nil => rfl
  | cons r rs ih =>
    rw [State.scatterRun, if_pos (h r (.head _)), ih (fun q hq => h q (.tail _ hq))]
    congr 1
    rw [List.length_cons]
    omega

theorem exec_scatterAdd_working {f : Nat} (hw : s.working f 0 0x60001 = some x) : exec (.scatterAdd f) s = .next (s.doScatter x) := by
  simp only [exec, execScatterAdd, hw]

/-- A piece whose records are there, unverified and without poison, applies them. -/
theorem State.doScatter_fetched {ps : List (Place × Nat)} {s0 : State} (plainRun : bit (xFlags x.desc) 1 = false)
    (fresh : (x.strand 0).blob = [])
    (src : s.endPlaces x.part (xFrom x.desc).1 (xRun x.desc (scatterTile x.desc (x.strand 0).piece).1
      (scatterTile x.desc (x.strand 0).piece).2) true false = some ps)
    (go : s.access x 0 ps [] = .go s0) (good : poisoned (s0.readLinesOf ps) = false) :
    s.doScatter x = (s0.took ps).scatterApply x (chunks 16 (scatterTile x.desc (x.strand 0).piece).2 (plain (s0.readLinesOf ps))) := by
  simp only [State.doScatter, fresh, src, plainRun, State.checkPlaces, List.isEmpty_nil, Bool.not_true, Bool.false_eq_true, if_false,
    List.map_nil, List.flatten_nil, List.append_nil, go, List.find?_nil, good, flag, Nat.zero_mul, Nat.or_zero]

/-- A piece with one record left goes on with it. -/
theorem State.doScatter_one {r : Bytes} (left : (x.strand 0).blob = r) (one : r.length = 16) : s.doScatter x = s.scatterApply x [r] := by
  have some : r ≠ [] := fun h => by simp [h] at one
  have cut : chunks 16 (r.length / 16) r = [r] := by simp [one, chunks, some, List.take_of_length_le]
  simp only [State.doScatter, left, List.isEmpty_eq_false_iff.2 some, Bool.not_false, if_true, cut]

/-- Where nothing is upset, a read reports nothing. -/
theorem State.heed_sound (checks : s.mem.checks = []) (errs : ∀ l, l ∈ s.mem.wcb → l.errs = []) (d n : Nat) : s.heed d n = s := by
  have sound : s.mem.wcb.all (fun l => l.errs.isEmpty) = true := List.all_eq_true.2 fun l hl => by simp [errs l hl]
  rw [State.heed, checks, sound]
  rfl

/-- The bytes of the element at device address `a` once record `r` has been added to it (R257). -/
def State.scatterSum (s : State) (x : Flight) (r : Bytes) (a : Nat) : Bytes :=
  natLe (xSize (xFmt x.desc)) (scatterAdd (xFmt x.desc) (bit (xFlags x.desc) 0) (leNat (plain (s.readDev a (xSize (xFmt x.desc)))))
    (fieldLe r 8 (xSize (xFmt x.desc)))).1

/-- A record within the array, whose line is there to be had, writes its element's sum. -/
theorem State.scatterRun_updates {r : Bytes} {a : Nat} (within : fieldLe r 0 8 < xElems x.desc)
    (place : s.placeOfVa (s.part x.part).pasid (xDst x.desc + fieldLe r 0 8 * xSize (xFmt x.desc)) false true = some (.dev a))
    (free : s.readHeld a (xSize (xFmt x.desc)) = false) (may : s.mayIssue x.part = true)
    (good : poisoned (s.readDev a (xSize (xFmt x.desc))) = false) (checks : s.mem.checks = [])
    (errs : ∀ l, l ∈ s.mem.wcb → l.errs = []) (filled : List Nat) (dt : Nat) : ∃ cost filled' dt',
      s.scatterRun x [r] filled dt = ⟨(s.charge x.part cost).writeDev a (clean (s.scatterSum x r a)) x.part, [], filled', dt'⟩ := by
  have heeds (cost : Nat) : (s.charge x.part cost).heed a (xSize (xFmt x.desc)) = s.charge x.part cost := by
    obtain ⟨-, wcb, chk, -⟩ := s.charge_mem x.part cost
    exact State.heed_sound (chk.trans checks) (fun l hl => errs l (wcb ▸ hl)) ..
  rw [State.scatterRun]
  simp only [if_neg (Nat.not_le.2 within), place, free, may, good, heeds, Bool.not_true, Bool.false_eq_true, if_false]
  exact ⟨_, _, _, rfl⟩

/-- An element takes 2, 4 or 8 bytes (R255). -/
theorem xSize_cases (fmt : Nat) : xSize fmt = 2 ∨ xSize fmt = 4 ∨ xSize fmt = 8 := by
  unfold xSize
  split
  · exact .inl rfl
  · split
    · exact .inr (.inr rfl)
    · exact .inr (.inl rfl)

/-- An aligned element lies within one setting. -/
theorem xSize_within {fmt a : Nat} (h : a % xSize fmt = 0) : 0 < xSize fmt ∧ a % 1024 + xSize fmt ≤ 1024 ∧ xSize fmt < 1024 := by
  rcases xSize_cases fmt with hf | hf | hf <;> (rw [hf] at h ⊢; omega)

/-- A piece all of whose records lie beyond the array ends with all of them counted. -/
theorem exec_scatterAdd_beyond {f : Nat} {ps : List (Place × Nat)} {s0 : State} (hw : s.working f 0 0x60001 = some x)
    (plainRun : bit (xFlags x.desc) 1 = false) (fresh : (x.strand 0).blob = [])
    (src : s.endPlaces x.part (xFrom x.desc).1 (xRun x.desc (scatterTile x.desc (x.strand 0).piece).1
      (scatterTile x.desc (x.strand 0).piece).2) true false = some ps)
    (go : s.access x 0 ps [] = .go s0) (good : poisoned (s0.readLinesOf ps) = false)
    (beyond : ∀ r, r ∈ chunks 16 (scatterTile x.desc (x.strand 0).piece).2 (plain (s0.readLinesOf ps)) → xElems x.desc ≤ fieldLe r 0 8) :
    exec (.scatterAdd f) s = .next ((s0.took ps).scatterEnd x (x.detail +
      2 ^ 32 * (chunks 16 (scatterTile x.desc (x.strand 0).piece).2 (plain (s0.readLinesOf ps))).length)) := by
  rw [exec_scatterAdd_working hw, State.doScatter_fetched plainRun fresh src go good,
    State.scatterApply_end (State.scatterRun_skips beyond ..)]

/-- A piece whose last record lies within the array, its line there to be had, ends with the element written. -/
theorem exec_scatterAdd_within {f a : Nat} {r : Bytes} (hw : s.working f 0 0x60001 = some x) (noFilled : x.blob = [])
    (left : (x.strand 0).blob = r) (one : r.length = 16) (within : fieldLe r 0 8 < xElems x.desc)
    (place : s.placeOfVa (s.part x.part).pasid (xDst x.desc + fieldLe r 0 8 * xSize (xFmt x.desc)) false true = some (.dev a))
    (free : s.readHeld a (xSize (xFmt x.desc)) = false) (may : s.mayIssue x.part = true)
    (good : poisoned (s.readDev a (xSize (xFmt x.desc))) = false) (checks : s.mem.checks = [])
    (errs : ∀ l, l ∈ s.mem.wcb → l.errs = []) : ∃ cost dt,
      exec (.scatterAdd f) s = .next (((s.charge x.part cost).writeDev a (clean (s.scatterSum x r a)) x.part).scatterEnd x dt) := by
  obtain ⟨cost, filled, dt, run⟩ := State.scatterRun_updates within place free may good checks errs [] x.detail
  refine ⟨cost, dt, ?_⟩
  rw [exec_scatterAdd_working hw, State.doScatter_one left one, State.scatterApply_end (filled := filled) (by rw [noFilled]; exact run)]

end

/-! ### The statement -/

/-- Settles O31: an access that is carried out reads or begins a buffer line, a stopped one leaves its event, and a piece of a SCATTER_ADD
runs record by record. -/
theorem hostAccessesAndScatterAdd : Obligations.HostAccessesAndScatterAdd := by
  unfold Obligations.HostAccessesAndScatterAdd
  refine ⟨⟨?_, ?_, ?_⟩, ?_, ?_⟩
  · intro s hpa d c aligned inRange place up go awake free may good hc
    exact ⟨_, exec_cxlMemRead_served aligned inRange place up go awake free may good hc, s.hostRead_out hpa d, s.hostRead_bytes hpa d,
      s.hostRead_unchanged hpa d⟩
  · intro s hpa d e s' aligned inRange place up stop
    have same := State.accessStop_unchanged stop
    refine ⟨_, exec_cxlMemRead_stopped aligned inRange place up stop, congrArg (· ++ _) (same.1 .out (by simp)), ?_⟩
    exact (same.append (State.emit_unchanged ..)).mono (by simp)
  · intro s hpa d k data aligned inRange whole place up go awake free may hk hd hs hm hw
    obtain ⟨reads, same⟩ := State.chargedWrite_reads (b := 16) (cost := writeCost 64) (w := 16) (bs := data) hk (by omega) (by omega)
      (by omega) hs hm hw
    refine ⟨_, exec_cxlMemWrite_served aligned inRange place up whole go awake free may, ?_⟩
    exact ⟨fun i hi => reads i (by omega), congrArg (· ++ _) (same.1 .out (by simp [writebackComps])),
      same.1 .casket (by simp [writebackComps]), same.1 .tiles (by simp [writebackComps])⟩
  · intro s f x ps s0 hw plainRun fresh src go good beyond
    have work : (s0.took ps).work = s.work :=
      ((State.access_go go).trans (State.took_reads ..)).1 .work (by simp [readComps])
    have bytes : (s0.took ps).mem.bytes = s.mem.bytes := (s0.took_bytes ps).trans (State.access_go_bytes go)
    obtain ⟨worked, detail⟩ := State.scatterEnd_worked hw work _
    refine ⟨_, exec_scatterAdd_beyond hw plainRun fresh src go good beyond, worked, ?_, ?_, detail⟩
    · exact (congrArg Mem.bytes ((State.scatterEnd_unchanged ..).1 .mem (by simp [endComps]))).trans bytes
    · exact congrArg Mem.wcb ((State.scatterEnd_unchanged ..).1 .mem (by simp [endComps]))
  · intro s f x r a k hw noFilled left one within place hk aligned free may good checks hs hm lines
    obtain ⟨positive, inSetting, small⟩ := xSize_within aligned
    obtain ⟨cost, dt, run⟩ := exec_scatterAdd_within hw noFilled left one within place free may good checks (fun l hl => (lines l hl).2)
    have len : (s.scatterSum x r a).length = xSize (xFmt x.desc) := length_natLe ..
    obtain ⟨reads, same⟩ := State.chargedWrite_reads (b := x.part) (cost := cost) (w := x.part) (bs := s.scatterSum x r a) hk
      (len ▸ positive) (len ▸ inSetting) (len ▸ small) hs hm (fun l hl => (lines l hl).1)
    generalize (s.charge x.part cost).writeDev a (clean (s.scatterSum x r a)) x.part = u at run reads same
    obtain ⟨worked, -⟩ := State.scatterEnd_worked hw (same.1 .work (by simp [writebackComps])) dt
    have ended := State.scatterEnd_unchanged u x dt
    refine ⟨_, run, worked, ?_, ?_, ?_⟩
    · have element : (u.scatterEnd x dt).readDev a (clean (s.scatterSum x r a)).length = clean (s.scatterSum x r a) :=
        State.readDev_eq_of fun i hi => by
          have hi' : i < (s.scatterSum x r a).length := by simpa [clean] using hi
          rw [State.readDevByte_of_mem (ended.1 .mem (by simp [endComps])), reads i hi', getD_clean hi']
      have cleanLen : (clean (s.scatterSum x r a)).length = xSize (xFmt x.desc) := by simp [clean, len]
      rwa [cleanLen] at element
    · exact (ended.1 .casket (by simp [endComps])).trans (same.1 .casket (by simp [writebackComps]))
    · exact (ended.1 .tiles (by simp [endComps])).trans (same.1 .tiles (by simp [writebackComps]))

end Sys2Proof.Machine
end

section
/-! SUPPORT. What moving a slab leaves of an evacuation (R242 to R250, R287, R291): whatever the reads and the writebacks report, the group that is
evacuated stays in state 4, its count of slabs done stays, and so does the work in flight. -/

namespace Sys2Proof.Machine

/-- Group `n` is being evacuated, with this many slabs done and this work in flight. -/
def State.evacuates (s : State) (n done : Nat) (w : Work) : Prop := (s.group n).state = 4 ∧ (s.evac n).done = done ∧ s.work = w

section
variable {s : State} {n done : Nat} {w : Work}

theorem State.evacuates.foldl {α : Type} {f : State → α → State} (l : List α) (h : s.evacuates n done w)
    (hf : ∀ (u : State) (a : α), u.evacuates n done w → (f u a).evacuates n done w) : (l.foldl f s).evacuates n done w :=
  List.foldlRecOn (motive := fun u : State => u.evacuates n done w) l f h fun u hu a _ => hf u a hu

/-- What leaves the groups, the evacuations and the work in flight. -/
theorem State.evacuates.of_same {t : State} (h : s.evacuates n done w) (groups : t.mem.groups = s.mem.groups)
    (evac : t.care.evac = s.care.evac) (work : t.work = s.work) : t.evacuates n done w := by
  simpa only [State.evacuates, State.group, State.evac, groups, evac, work] using h

/-! ### Machine/Ops.lean, Machine/MemOps.lean -/

/-- A change of a group that leaves it in state 4 if it is the one. -/
theorem State.evacuates.updGroup {m : Nat} {f : Group → Group} (h : s.evacuates n done w) (hf : m = n → (f (s.group n)).state = 4) :
    (s.updGroup m f).evacuates n done w := by
  obtain ⟨state, rest⟩ := h
  refine ⟨?_, rest⟩
  by_cases hm : m = n
  · rw [hm, State.group_updGroup_same, hf hm]
  · rwa [State.group_updGroup_other _ _ (Ne.symm hm)]

/-- A group in another state is not the one. -/
theorem State.evacuates.ne {m k : Nat} (h : s.evacuates n done w) (hm : (s.group m).state = k) (hk : k ≠ 4) : m ≠ n := by
  rintro rfl
  exact hk (hm.symm.trans h.1)

theorem State.evacuates.charge (b cost : Nat) (h : s.evacuates n done w) : (s.charge b cost).evacuates n done w := by
  unfold State.charge
  split <;> exact h

/-- The start of a slab sets valid bits of granules. -/
theorem State.beginSlab_eq (s : State) (n j donor : Nat) : ∃ x, s.beginSlab n j donor = { s with mem := { s.mem with flipped := x } } := by
  refine List.foldlRecOn (motive := fun u : State => ∃ x, u = { s with mem := { s.mem with flipped := x } }) _ _ ⟨s.mem.flipped, rfl⟩ ?_
  rintro _ ⟨x, rfl⟩ i -
  dsimp only
  split
  · exact ⟨x, rfl⟩
  · exact ⟨_, rfl⟩

@[simp] theorem State.beginSlab_slab (s : State) (n j donor i : Nat) : (s.beginSlab n j donor).slab i = s.slab i := by
  obtain ⟨x, hx⟩ := s.beginSlab_eq n j donor
  rw [hx]
  rfl

@[simp] theorem State.beginSlab_group (s : State) (n j donor m : Nat) : (s.beginSlab n j donor).group m = s.group m := by
  obtain ⟨x, hx⟩ := s.beginSlab_eq n j donor
  rw [hx]
  rfl

@[simp] theorem State.beginSlab_evac (s : State) (n j donor m : Nat) : (s.beginSlab n j donor).evac m = s.evac m := by
  obtain ⟨x, hx⟩ := s.beginSlab_eq n j donor
  rw [hx]
  rfl

theorem State.evacuates.beginSlab (m j donor : Nat) (h : s.evacuates n done w) : (s.beginSlab m j donor).evacuates n done w := by
  obtain ⟨x, hx⟩ := s.beginSlab_eq m j donor
  rw [hx]
  exact h

/-! ### Machine/MemErr.lean -/

theorem State.evacuates.chargeCe (b amount unit : Nat) (h : s.evacuates n done w) : (s.chargeCe b amount unit).evacuates n done w := by
  unfold State.chargeCe
  dsimp only
  split
  · exact h
  · split <;> exact h

theorem State.evacuates.mappedOut {m : Nat} (h : s.evacuates n done w) (hm : m ≠ n) : (s.mappedOut m).evacuates n done w :=
  State.evacuates.updGroup (f := fun g => { g with state := 5 }) h (absurd · hm)

/-- Another group's evacuation starts. -/
theorem State.evacuates.startEvac {m : Nat} (flight : Option Nat) (h : s.evacuates n done w) (hm : m ≠ n) :
    (s.startEvac m flight).evacuates n done w := by
  unfold State.startEvac
  extract_lets g donors lost holes slabs die _ _ s1 s2 s3
  have h1 : s1.evacuates n done w := by
    clear_value slabs
    obtain ⟨state, count, work⟩ := h
    refine ⟨state, ?_, work⟩
    rwa [State.evac, SMap.get_set_other _ _ _ _ _ hm.symm]
  have h3 : s3.evacuates n done w := h1.updGroup (absurd · hm)
  clear_value s3 donors
  cases donors with
  | nil => exact h3.mappedOut hm
  | cons d ds => exact h3.beginSlab m 0 d

theorem State.evacuates.secondFault (m : Nat) (h : s.evacuates n done w) : (s.secondFault m).evacuates n done w := by
  unfold State.secondFault
  split
  · rename_i hm
    simp only [Bool.and_eq_true, beq_iff_eq] at hm
    exact h.startEvac none (h.ne hm.2 (by decide))
  · exact h

theorem State.evacuates.dieLocated (m a st : Nat) (h : s.evacuates n done w) : (s.dieLocated m a st).evacuates n done w := by
  unfold State.dieLocated
  extract_lets s1
  have h1 : s1.evacuates n done w := by
    unfold s1
    split
    · exact h
    · exact State.evacuates.updGroup (f := fun g => { g with located := true }) h fun _ => h.1
  clear_value s1
  split
  · rename_i working
    exact State.evacuates.updGroup h1 (absurd · (h1.ne working (by decide)))
  · split
    · exact h1.secondFault m
    · exact h1

theorem State.evacuates.heedSetting (st : Nat) (h : s.evacuates n done w) : (s.heedSetting st).evacuates n done w := by
  unfold State.heedSetting
  split
  · exact h
  · dsimp only
    split
    · exact h.chargeCe ..
    · exact h.dieLocated ..
    · exact h

theorem State.evacuates.heedBeat (k : Nat) (h : s.evacuates n done w) : (s.heedBeat k).evacuates n done w := by
  unfold State.heedBeat
  split
  · exact h
  · dsimp only
    split
    · exact State.evacuates.chargeCe _ _ _ h
    · exact h

theorem State.evacuates.heedBeats (f : Nat → Nat) (bs : List Nat) (h : s.evacuates n done w) :
    (bs.foldl (fun s b => s.heedBeat (f b)) s).evacuates n done w :=
  h.foldl bs fun _ b hu => hu.heedBeat (f b)

theorem State.evacuates.heedBuffered (st i : Nat) (h : s.evacuates n done w) : (s.heedBuffered st i).evacuates n done w := by
  unfold State.heedBuffered
  split
  · exact h
  · dsimp only
    split
    · exact h
    · split
      · exact h
      · split
        · exact h
        · exact State.evacuates.chargeCe _ _ _ h

theorem State.evacuates.undecodable (k : Nat) (h : s.evacuates n done w) : (s.undecodable k).evacuates n done w := by
  unfold State.undecodable
  dsimp only
  split
  · exact h.secondFault _
  · exact h

theorem State.evacuates.startReset (p cause unit : Nat) (h : s.evacuates n done w) : (s.startReset p cause unit).evacuates n done w := by
  unfold State.startReset
  split
  · exact h
  · dsimp only
    split <;> exact h

/-! ### Machine/MemBuf.lean -/

theorem State.evacuates.markRebuild (g : Nat) (h : s.evacuates n done w) : (s.markRebuild g).evacuates n done w := by
  unfold State.markRebuild
  dsimp only
  split
  · exact h.updGroup fun _ => h.1
  · exact h

theorem State.evacuates.wroteBack (l : WcbLine) (parts : List Nat) (h : s.evacuates n done w) : (s.wroteBack l parts).evacuates n done w := by
  unfold State.wroteBack
  dsimp only
  split
  · exact h
  · split
    · exact State.evacuates.charge _ _ h
    · exact h

theorem State.evacuates.reportWb (l : WcbLine) (b : Nat) (read : Bool) (h : s.evacuates n done w) :
    (s.reportWb l b read).evacuates n done w := by
  unfold State.reportWb
  extract_lets k part a s1 s2
  have h2 : s2.evacuates n done w := by
    unfold s2
    split <;> exact h
  exact h2.startReset ..

/-- Beats that are stored, with or without poison. -/
theorem State.evacuates.store (k i : Nat) (bs bad : List Nat) (f : Nat → List (Byte × Bool)) (h : s.evacuates n done w) :
    ({ s with mem := (s.mem.storeBeats k bs f).storeStack i [] bad [] } : State).evacuates n done w :=
  h.of_same (Mem.storeBeats_keeps (fun m => m.groups) (fun _ _ _ _ _ => rfl) ..) rfl rfl

theorem State.evacuates.writeback (l : WcbLine) (h : s.evacuates n done w) : (s.writeback l).evacuates n done w := by
  unfold State.writeback
  extract_lets _ wide k s1 line beats parts v merged readFailed upset badB badBeats failed failed' second u mem mem' t
  have h1 : s1.evacuates n done w := h.foldl l.errs fun _ e hu => hu.heedBuffered l.setting e.1
  have hv : v.evacuates n done w := by
    unfold v
    split
    · exact h1
    · split
      · exact h1.heedSetting _
      · exact h1.heedBeats (k / 64 + ·) parts
  have hu : u.evacuates n done w := by
    unfold u
    split
    · exact hv.undecodable k
    · exact hv
  have ht : t.evacuates n done w := ((hu.store k k beats _ _).wroteBack line parts).markRebuild (line.setting / 64)
  exact ht.foldl failed' fun _ b hx => hx.reportWb line b _

theorem State.evacuates.writebackAll (p : WcbLine → Bool) (h : s.evacuates n done w) : (s.writebackAll p).evacuates n done w :=
  h.foldl _ fun _ l hu => hu.writeback l

theorem State.evacuates.writebackFull (m : Nat) (h : s.evacuates n done w) : (s.writebackFull m).evacuates n done w := by
  unfold State.writebackFull
  split
  · exact h.writebackAll _
  · exact h

theorem State.evacuates.touchGranule (g : Nat) (h : s.evacuates n done w) : (s.touchGranule g).evacuates n done w := by
  unfold State.touchGranule
  split
  · exact h
  · exact State.evacuates.markRebuild g h

theorem State.evacuates.readyFor (st : Nat) (h : s.evacuates n done w) : (s.readyFor st).evacuates n done w := by
  have touched := h.touchGranule (st / 64)
  unfold State.readyFor
  rcases (s.touchGranule (st / 64)).makeWay_cases st with hway | ⟨l, hway⟩
  · rwa [hway]
  · rw [hway]
    exact touched.writeback l

theorem State.evacuates.enterLine (st : Nat) (line : WcbLine) (h : s.evacuates n done w) : (s.enterLine st line).evacuates n done w := h

theorem State.evacuates.writeLine (k : Nat) (bs : List (Byte × Bool)) (writer : Nat) (h : s.evacuates n done w) :
    (s.writeLine k bs writer).evacuates n done w := by
  have ready := h.readyFor (k / 1024)
  rw [State.writeLine_eq]
  split
  · exact (ready.enterLine ..).writebackFull _
  · exact ready.enterLine ..

/-! ### Machine/MemCare.lean -/

theorem State.evacuates.moveSetting (donor st : Nat) (bad : List Nat) (h : s.evacuates n done w) :
    (s.moveSetting n donor bad st).evacuates n done w := by
  unfold State.moveSetting
  extract_lets k data lost s1 s2 e
  have h1 : s1.evacuates n done w := by
    unfold s1
    split
    · exact h.heedSetting st
    · exact h.heedBeats (k / 64 + ·) _
  have h2 : s2.evacuates n done w := h1.writeLine ..
  clear_value s2
  split
  · obtain ⟨state, count, work⟩ := h2
    refine ⟨state, ?_, work⟩
    rw [State.evac, SMap.get_set_same]
    exact count
  · exact h2

end

end Sys2Proof.Machine
end

section
/-! SUPPORT. A slab that has been moved: the next one starts, or the group is mapped out and the MAP_OUT that waits for it ends (R288, R291). -/

namespace Sys2Proof.Machine

/-! ### A flight that ends (R338) -/

/-- The busy cycles of a flight are counted, and it is still there. -/
theorem State.flight_accrueFlight {s : State} {f : Nat} {x : Flight} (h : s.flight f = some x) :
    ∃ y, (s.accrueFlight x).flight f = some y := by
  refine List.foldlRecOn (motive := fun u : State => ∃ y, u.flight f = some y) _ _ ⟨x, h⟩ ?_
  rintro u ⟨y, hy⟩ j -
  unfold State.accrue
  dsimp only
  split
  · exact ⟨y, hy⟩
  · rw [State.flight_id h]
    exact ⟨_, State.flight_updStrand j _ hy⟩

/-- A flight that is ended has ended with the status it is given, on an engine or not. -/
theorem State.endFlight_status {s : State} {f : Nat} {x : Flight} (h : s.flight f = some x) (status dt : Nat) :
    ∃ y, (s.endFlight f status dt).flight f = some y ∧ y.state = .ended ∧ y.status = status := by
  obtain ⟨y, hy⟩ := State.flight_accrueFlight h
  have finished : ((s.accrueFlight x).updFlight f (fun y => y.finish status (s.detailOf y dt) s.settleTick)).flight f =
      some (y.finish status (s.detailOf y dt) s.settleTick) := by
    refine (State.flight_updFlight _ _ _ ?_).trans (congrArg _ hy)
    exact fun _ => rfl
  simp only [State.endFlight, h]
  exact ⟨_, State.flight_unpin finished, rfl, rfl⟩

theorem State.endFlight_mem (s : State) (f status dt : Nat) : (s.endFlight f status dt).mem = s.mem :=
  (s.endFlight_unchanged f status dt).1 .mem (by simp)

theorem State.endFlight_care (s : State) (f status dt : Nat) : (s.endFlight f status dt).care = s.care :=
  (s.endFlight_unchanged f status dt).1 .care (by simp)

@[simp] theorem State.endFlight_group (s : State) (f status dt n : Nat) : (s.endFlight f status dt).group n = s.group n := by
  rw [State.group, State.endFlight_mem, ← State.group]

@[simp] theorem State.endFlight_granuleValid (s : State) (f status dt g : Nat) :
    (s.endFlight f status dt).granuleValid g = s.granuleValid g := by
  rw [State.granuleValid, State.endFlight_mem, ← State.granuleValid]

@[simp] theorem State.endFlight_slab (s : State) (f status dt i : Nat) : (s.endFlight f status dt).slab i = s.slab i := by
  rw [State.slab, State.endFlight_mem, ← State.slab]

@[simp] theorem State.endFlight_evac (s : State) (f status dt n : Nat) : (s.endFlight f status dt).evac n = s.evac n := by
  rw [State.evac, State.endFlight_care, ← State.evac]

/-! ### The steps of EVACUATION_SLAB_DONE (R291) -/

/-- The stacks and buffers hold nothing of slab `i`. -/
def State.slabEmptied (s : State) (i : Nat) : State :=
  { s with mem := { s.mem with
    bytes := SMap.clear s.mem.bytes (slabBase i) (slabBase i + 2 ^ 30)
    checks := SMap.clear s.mem.checks (slabBase i / 64) (slabBase i / 64 + 2 ^ 24)
    wcb := s.mem.wcb.filter (fun l => l.setting * 1024 / 2 ^ 30 != i) } }

/-- Every setting of slab `j` of group `n` is its donor's, and the source's lines are written back. -/
def State.slabCopied (s : State) (n j donor : Nat) : State :=
  ((nub (s.slabSettings n j)).foldl (fun s st => s.moveSetting n donor [] st) (s.slabEmptied donor)).writebackAll
    (fun l => l.setting * 1024 / 2 ^ 30 == 24 * n + j)

/-- The donor serves slab `j` of group `n` from now on, and slab `next`, if any, is moved next. -/
def State.slabRemapped (s : State) (n j donor : Nat) (next : Option Nat) : State :=
  { s with
    mem := { s.mem with
      wcb := s.mem.wcb.filter (fun l => l.setting * 1024 / 2 ^ 30 != 24 * n + j)
      slabs := SMap.upd {} s.mem.slabs (24 * n + j) (fun x => { x with movedTo := some donor }) }
    care := { s.care with evac := SMap.set {} s.care.evac n { s.evac n with current := next, done := (s.evac n).done + 1 } } }

/-- Slab `j` of group `n` has been moved. -/
def State.slabMoved (s : State) (n j : Nat) (next : Option Nat) : State :=
  (s.slabCopied n j ((s.evac n).donors.getD j 0)).slabRemapped n j ((s.evac n).donors.getD j 0) next

/-- Group `n` is mapped out, and flight `waiting`, if it still runs, ends with status 0x00. -/
def State.evacuated (s : State) (n : Nat) (waiting : Option Nat) : State :=
  match waiting.bind (s.mappedOut n).flight with
  | some x => if x.state = .ended then s.mappedOut n else (s.mappedOut n).endFlight x.id 0 ((s.mappedOut n).evac n).word
  | none => s.mappedOut n

section
variable {s : State} {n j : Nat}

theorem exec_evacuationSlabDone_next (hn : n < 32) (hc : (s.evac n).current = some j) (hg : (s.group n).state = 4)
    (hj : j + 1 < (s.evac n).donors.length) (hw : s.mem.wcb = []) :
    exec (.evacuationSlabDone n []) s =
      .next ((s.slabMoved n j (some (j + 1))).beginSlab n (j + 1) ((s.evac n).donors.getD (j + 1) 0)) := by
  have free : s.mem.wcb.any (fun l => l.setting * 1024 / 2 ^ 30 == 24 * n + j && s.lineHeld l) = false := by
    rw [hw]
    rfl
  refine ((guarded_eq ..).1 (by simp [hn])).trans (congrArg _ ?_)
  simp only [hc, hg, free, hj, ne_eq, not_true_eq_false, nub, List.filter_nil,
    List.map_nil, List.append_nil, Bool.false_eq_true, or_self, if_false, if_true]
  rfl

theorem exec_evacuationSlabDone_last (hn : n < 32) (hc : (s.evac n).current = some j) (hg : (s.group n).state = 4)
    (hj : (s.evac n).donors.length ≤ j + 1) (hw : s.mem.wcb = []) :
    exec (.evacuationSlabDone n []) s = .next ((s.slabMoved n j none).evacuated n (s.evac n).flight) := by
  have free : s.mem.wcb.any (fun l => l.setting * 1024 / 2 ^ 30 == 24 * n + j && s.lineHeld l) = false := by
    rw [hw]
    rfl
  refine ((guarded_eq ..).1 (by simp [hn])).trans (congrArg _ ?_)
  simp only [hc, hg, free, Nat.not_lt.2 hj, ne_eq, not_true_eq_false, nub, List.filter_nil,
    List.map_nil, List.append_nil, Bool.false_eq_true, or_self, if_false]
  rfl

/-- The group stays in state 4 while one of its slabs is copied. -/
theorem State.slabCopied_evacuates (j donor : Nat) (hg : (s.group n).state = 4) :
    (s.slabCopied n j donor).evacuates n (s.evac n).done s.work := by
  have emptied : (s.slabEmptied donor).evacuates n (s.evac n).done s.work := ⟨hg, rfl, rfl⟩
  exact (emptied.foldl _ fun u st hu => hu.moveSetting donor st []).writebackAll _

/-- A moved slab is redirected to its donor and counted, and the group is still in state 4. -/
theorem State.slabMoved_spec (j : Nat) (next : Option Nat) (hg : (s.group n).state = 4) :
    ((s.slabMoved n j next).slab (24 * n + j)).movedTo = some ((s.evac n).donors.getD j 0) ∧
      ((s.slabMoved n j next).evac n).current = next ∧ (s.slabMoved n j next).evacuates n ((s.evac n).done + 1) s.work := by
  obtain ⟨state, count, work⟩ := State.slabCopied_evacuates j ((s.evac n).donors.getD j 0) hg
  unfold State.slabMoved
  generalize s.slabCopied n j ((s.evac n).donors.getD j 0) = u at state count work
  have noted : (u.slabRemapped n j ((s.evac n).donors.getD j 0) next).evac n =
      { u.evac n with current := next, done := (u.evac n).done + 1 } := SMap.get_set_same ..
  exact ⟨by simp [State.slabRemapped, State.slab], by rw [noted], state, by rw [noted, count], work⟩

/-! ### The end of an evacuation (R288, Table 8.8) -/

theorem State.mappedOut_group (s : State) (n : Nat) : ((s.mappedOut n).group n).state = 5 :=
  congrArg Group.state (s.group_updGroup_same n (fun g => { g with state := 5 }))

/-- A group that has been evacuated is mapped out. -/
theorem State.evacuated_group (s : State) (n : Nat) (waiting : Option Nat) : ((s.evacuated n waiting).group n).state = 5 := by
  unfold State.evacuated
  split
  · split
    · exact s.mappedOut_group n
    · rw [State.endFlight_group, State.mappedOut_group]
  · exact s.mappedOut_group n

@[simp] theorem State.evacuated_slab (s : State) (n : Nat) (waiting : Option Nat) (i : Nat) : (s.evacuated n waiting).slab i = s.slab i := by
  unfold State.evacuated
  split
  · split
    · rfl
    · exact State.endFlight_slab ..
  · rfl

@[simp] theorem State.evacuated_evac (s : State) (n : Nat) (waiting : Option Nat) (m : Nat) : (s.evacuated n waiting).evac m = s.evac m := by
  unfold State.evacuated
  split
  · split
    · rfl
    · exact State.endFlight_evac ..
  · rfl

/-- The flight that waits for it ends with status 0x00. -/
theorem State.evacuated_ends {f : Nat} {x : Flight} (hx : s.flight f = some x) (hs : x.state ≠ .ended) :
    ∃ y, (s.evacuated n (some f)).flight f = some y ∧ y.state = .ended ∧ y.status = 0 := by
  have waits : (s.mappedOut n).flight f = some x := hx
  simp only [State.evacuated, Option.bind_some, waits, if_neg hs]
  rw [State.flight_id hx]
  exact State.endFlight_status waits ..

end

end Sys2Proof.Machine
end

section
/-! SUPPORT. How a REPAIR holds its granule and releases it, how a MAP_OUT starts, and the statement O29 (R282, R288, R291, R292). -/

namespace Sys2Proof.Machine

/-! ### REPAIR holds its granule (R282) -/

/-- Flight `f`, a REPAIR, runs and holds its granule. -/
def State.repairBegun (s : State) (f : Nat) (x : Flight) : State :=
  ({ s with care := { s.care with repairHold := s.care.repairHold ++ [(repGranule x.desc, f)] } } : State).updFlight f
    (fun y => { y with state := .running s.tick.count })

/-- A group held from `time` on while die `die` is repaired. -/
def Group.heldFor (g : Group) (die time : Nat) : Group :=
  { g with state := 1, formerState := 0, holdStart := time, heldPc := die, attempts := 0 }

/-- A group that works on without die `die`. -/
def Group.withoutDie (g : Group) (die : Nat) : Group := { g with state := 2, heldPc := die, attempts := 0, erased := some die }

section
variable {s : State} {f : Nat} {x : Flight}

theorem State.flight_started (h : s.flight f = some x) (n : Nat) :
    (s.updFlight f (fun y => { y with state := .running n })).flight f = some { x with state := .running n } := by
  refine (State.flight_updFlight _ _ _ ?_).trans (congrArg _ h)
  exact fun _ => rfl

/-- A REPAIR that has begun, and the change of its group. -/
theorem State.repairBegun_updGroup (h : s.flight f = some x) (n : Nat) (k : Group → Group) :
    groupBecomes s ((s.repairBegun f x).updGroup n k) n (k (s.group n)) ∧
      ((s.repairBegun f x).updGroup n k).flight f = some { x with state := .running s.tick.count } ∧
      unchangedBut [.mem, .care, .work] s ((s.repairBegun f x).updGroup n k) :=
  ⟨(s.repairBegun f x).updGroup_becomes n k,
    State.flight_started (s := { s with care := { s.care with repairHold := s.care.repairHold ++ [(repGranule x.desc, f)] } }) h _,
    (((unchangedBut_withCare ..).append (State.updFlight_unchanged ..)).append (State.updGroup_unchanged ..)).mono (by simp)⟩

/-- sPPR: the group is held for the die that is repaired. -/
theorem exec_repair_soft (h : s.controlReady f 0x60002 = some x) (hg : (s.group (repGroup x.desc)).state = 0) (hk : repKind x.desc = 1)
    (hw : s.mem.wcb = []) :
    exec (.repair f) s = .next ((s.repairBegun f x).updGroup (repGroup x.desc) (·.heldFor (repDie x.desc) s.tick.time)) := by
  have hold := State.beginHold_working (s := s.repairBegun f x) (n := repGroup x.desc) (pc := repDie x.desc) hg
    fun l hl => absurd (hw ▸ hl : l ∈ []) List.not_mem_nil
  refine Eq.trans ?_ (congrArg _ hold)
  simp only [exec, execRepair, h, hg, hk, ne_eq, not_true_eq_false, if_false, if_true]
  rw [State.writebackAll_none fun l hl => absurd (hw ▸ hl : l ∈ []) List.not_mem_nil]
  rfl

/-- hPPR: the group works on without the die that is repaired. -/
theorem exec_repair_hard (h : s.controlReady f 0x60002 = some x) (hg : (s.group (repGroup x.desc)).state = 0) (hk : repKind x.desc = 2)
    (hw : s.mem.wcb = []) :
    exec (.repair f) s = .next (((s.repairBegun f x).updGroup (repGroup x.desc) (·.withoutDie (repDie x.desc))).postGroupState
      (repGroup x.desc) 0 2 (some (repDie x.desc)) false 0) := by
  have hard : ¬ repKind x.desc = 1 := by omega
  simp only [exec, execRepair, h, hg, hard, ne_eq, not_true_eq_false, if_false]
  rw [State.writebackAll_none fun l hl => absurd (hw ▸ hl : l ∈ []) List.not_mem_nil]
  rfl

end

/-! ### REPAIR_DONE releases it (R282, R292) -/

/-- The holds of flight `x` end. -/
def State.repairReleased (s : State) (x : Flight) : State :=
  { s with care := { s.care with repairHold := s.care.repairHold.filter (fun h => h.2 != x.id) } }

/-- Granule `g` is unwritten, and no buffer line is of it. -/
def State.granuleEmptied (s : State) (g : Nat) : State :=
  { s.setGranule g false with mem := { (s.setGranule g false).mem with
    wcb := (s.setGranule g false).mem.wcb.filter (fun l => l.setting / 64 != g) } }

/-- The group that the REPAIR `d` held or degraded returns. -/
def State.repairReturns (s : State) (d : Bytes) : State :=
  if repKind d = 1 then
    if (s.group (repGroup d)).state = 1 then
      (s.updGroup (repGroup d) (fun y => { y with state := y.formerState })).bumpGroup (repGroup d)
    else s
  else s.rejoin (repGroup d)

theorem State.repairEnd_eq (s : State) (x : Flight) (good : Bool) :
    s.repairEnd x good =
      (if good then (s.repairReleased x).granuleEmptied (repGranule x.desc) else s.repairReleased x).repairReturns x.desc := rfl

/-- What the granules, the buffers and the stacks hold. -/
def Mem.contents (m : Mem) : List Host.Cell × Bool × SMap Bool × List WcbLine := (m.bytes, m.filled, m.flipped, m.wcb)

@[simp] theorem State.updGroup_contents (s : State) (n : Nat) (f : Group → Group) : (s.updGroup n f).mem.contents = s.mem.contents := rfl

@[simp] theorem State.bumpGroup_contents (s : State) (n : Nat) : (s.bumpGroup n).mem.contents = s.mem.contents := by
  unfold Mem.contents State.bumpGroup
  rfl

@[simp] theorem State.postGroupState_contents (s : State) (n old new : Nat) (die : Option Nat) (dead : Bool) (lost : Nat) :
    (s.postGroupState n old new die dead lost).mem.contents = s.mem.contents := rfl

section
variable {s : State} {f : Nat} {x : Flight}

theorem State.rejoin_keeps (s : State) (n : Nat) : (s.rejoin n).mem.contents = s.mem.contents ∧ unchangedBut [.mem, .evt] s (s.rejoin n) := by
  have bump : unchangedBut [.mem, .evt] s (s.bumpGroup n) := (s.bumpGroup_unchanged n).mono (by simp)
  unfold State.rejoin
  dsimp only
  split
  · exact ⟨by simp, bump.trans ((State.updGroup_unchanged ..).mono (by simp))⟩
  · exact ⟨by simp, bump.trans ((State.updGroup_unchanged ..).append (State.postGroupState_unchanged ..))⟩

/-- A wide group that rejoins rebuilds. -/
theorem State.rejoin_wide {n : Nat} (hw : (s.group n).wide = true) : ((s.rejoin n).group n).rejoining = true := by
  simp [State.rejoin, hw, State.group_updGroup_same]

theorem State.repairReturns_keeps (s : State) (d : Bytes) :
    (s.repairReturns d).mem.contents = s.mem.contents ∧ unchangedBut [.mem, .evt] s (s.repairReturns d) := by
  unfold State.repairReturns
  split
  · split
    · exact ⟨by simp, ((State.updGroup_unchanged ..).trans (State.bumpGroup_unchanged ..)).mono (by simp)⟩
    · exact ⟨rfl, .refl ..⟩
  · exact s.rejoin_keeps _

/-- After sPPR the held group goes back to its state before the hold. -/
theorem State.repairReturns_soft {d : Bytes} (hk : repKind d = 1) (hg : (s.group (repGroup d)).state = 1) :
    ((s.repairReturns d).group (repGroup d)).state = (s.group (repGroup d)).formerState := by
  have bumped := (s.updGroup (repGroup d) (fun y => { y with state := y.formerState })).bumpGroup_becomes (repGroup d)
  rw [State.repairReturns, if_pos hk, if_pos hg, bumped.1, State.group_updGroup_same]

/-- After hPPR a wide group rebuilds. -/
theorem State.repairReturns_hard {d : Bytes} (hk : repKind d ≠ 1) (hw : (s.group (repGroup d)).wide = true) :
    ((s.repairReturns d).group (repGroup d)).rejoining = true := by
  rw [State.repairReturns, if_neg hk]
  exact State.rejoin_wide hw

theorem exec_repairDone_held (hf : s.flight f = some x) (hh : ∃ g, (g, f) ∈ s.care.repairHold) (good : Bool) :
    exec (.repairDone f good) s = .next ((s.repairEnd x good).endFlight f (if good then 0 else 8) 0) := by
  obtain ⟨g, hg⟩ := hh
  have held : s.care.repairHold.any (fun h => h.2 == f) = true := List.any_eq_true.2 ⟨_, hg, beq_self_eq_true f⟩
  simp only [exec, execRepairDone, hf, held, if_true]

theorem State.granuleEmptied_unchanged (s : State) (g : Nat) : unchangedBut [.mem] s (s.granuleEmptied g) := unchangedBut_withMem ..

theorem State.repairEnd_unchanged (s : State) (x : Flight) (good : Bool) : unchangedBut [.care, .mem, .evt] s (s.repairEnd x good) := by
  have released : unchangedBut [.care, .mem, .evt] s (s.repairReleased x) := (unchangedBut_withCare ..).mono (by simp)
  rw [State.repairEnd_eq]
  refine unchangedBut.trans (.ite ?_ released) ((State.repairReturns_keeps _ _).2.mono (by simp))
  exact released.trans ((State.granuleEmptied_unchanged ..).mono (by simp))

/-- However a repair ends, its flight ends with the status, its granule is held no longer, and the stacks' bytes and the Casket stay. -/
theorem State.repairEnd_ends (hf : s.flight f = some x) (good : Bool) (status dt : Nat) :
    (∃ y, ((s.repairEnd x good).endFlight f status dt).flight f = some y ∧ y.state = .ended ∧ y.status = status) ∧
      (∀ g, (g, f) ∉ ((s.repairEnd x good).endFlight f status dt).care.repairHold) ∧
      ((s.repairEnd x good).endFlight f status dt).mem.bytes = s.mem.bytes ∧
      ((s.repairEnd x good).endFlight f status dt).casket = s.casket := by
  have same := s.repairEnd_unchanged x good
  have care : (s.repairEnd x good).care = (s.repairReleased x).care := by
    rw [State.repairEnd_eq]
    refine ((State.repairReturns_keeps _ _).2.1 .care (by simp)).trans ?_
    cases good <;> rfl
  have bytes : (s.repairEnd x good).mem.bytes = s.mem.bytes := by
    rw [State.repairEnd_eq]
    refine (congrArg Prod.fst (State.repairReturns_keeps _ _).1 :).trans ?_
    cases good <;> rfl
  refine ⟨State.endFlight_status ((State.flight_of_work (same.1 .work (by simp)) f).trans hf) .., fun g hg => ?_, ?_, ?_⟩
  · rw [State.endFlight_care, care] at hg
    simpa [State.flight_id hf] using (List.mem_filter.1 hg).2
  · rw [State.endFlight_mem, bytes]
  · exact ((State.endFlight_unchanged ..).1 .casket (by simp)).trans (same.1 .casket (by simp))

/-- A good repair leaves its granule unwritten, and the buffers hold nothing of it. -/
theorem State.repairEnd_empties (s : State) (x : Flight) :
    (s.repairEnd x true).granuleValid (repGranule x.desc) = false ∧
      ∀ l, l ∈ (s.repairEnd x true).mem.wcb → l.setting / 64 ≠ repGranule x.desc := by
  have contents : (s.repairEnd x true).mem.contents = (s.mem.bytes, s.mem.filled,
      SMap.set false s.mem.flipped (repGranule x.desc) (false != s.mem.filled),
      s.mem.wcb.filter (fun l => l.setting / 64 != repGranule x.desc)) :=
    (((s.repairReleased x).granuleEmptied (repGranule x.desc)).repairReturns_keeps x.desc).1
  simp only [Mem.contents, Prod.mk.injEq] at contents
  obtain ⟨-, filled, flipped, wcb⟩ := contents
  refine ⟨?_, fun l hl => ?_⟩
  · rw [State.granuleValid, filled, flipped, SMap.get_set_same]
    cases s.mem.filled <;> rfl
  · rw [wcb] at hl
    simpa using (List.mem_filter.1 hl).2

theorem State.repairEnd_soft (hk : repKind x.desc = 1) (hg : (s.group (repGroup x.desc)).state = 1) :
    ((s.repairEnd x true).group (repGroup x.desc)).state = (s.group (repGroup x.desc)).formerState := by
  have group : ((s.repairReleased x).granuleEmptied (repGranule x.desc)).group (repGroup x.desc) = s.group (repGroup x.desc) := rfl
  rw [State.repairEnd_eq, if_pos rfl, State.repairReturns_soft hk (by rw [group, hg]), group]

theorem State.repairEnd_hard (hk : repKind x.desc ≠ 1) (hw : (s.group (repGroup x.desc)).wide = true) :
    ((s.repairEnd x true).group (repGroup x.desc)).rejoining = true := by
  rw [State.repairEnd_eq, if_pos rfl]
  exact State.repairReturns_hard hk hw

/-- A repair that failed leaves the valid bits. -/
theorem State.repairEnd_failed (s : State) (x : Flight) : (s.repairEnd x false).mem.flipped = s.mem.flipped :=
  congrArg (fun c => c.2.2.1) ((s.repairReleased x).repairReturns_keeps x.desc).1

end

/-! ### MAP_OUT (R287 to R291) -/

/-- Slabs that are made holes are holes. -/
theorem hole_holes {holes : List Nat} {i : Nat} (hi : i ∈ holes) (m : SMap Slab) :
    (SMap.get {} (holes.foldl (fun m i => SMap.upd {} m i (fun x => { x with hole := true })) m) i).hole = true := by
  refine foldl_reaches (I := fun _ => True) (P := fun v : SMap Slab => (SMap.get {} v i).hole = true) hi trivial (fun _ _ _ _ => trivial)
    (fun v _ => by rw [SMap.get_upd_same]) fun v j _ hv => ?_
  by_cases hj : i = j
  · rw [hj, SMap.get_upd_same]
  · rwa [SMap.get_upd_other _ _ _ _ _ hj]

/-- An evacuation with donors starts with slab 0: its donors are holes, and the group is in state 4. -/
theorem State.startEvac_started {s : State} {n d : Nat} {ds : List Nat} (flight : Option Nat) (hd : (s.eligibleDonors n).take 24 = d :: ds) :
    ((s.startEvac n flight).group n).state = 4 ∧ (s.startEvac n flight).evac n = ⟨0, some 0, 0, flight, d :: ds⟩ ∧
      (∀ i, i ∈ d :: ds → ((s.startEvac n flight).slab i).hole = true) ∧ (s.startEvac n flight).mem.bytes = s.mem.bytes ∧
      unchangedBut [.mem, .care, .evt] s (s.startEvac n flight) := by
  unfold State.startEvac
  rw [hd]
  extract_lets g donors lost holes slabs die _ _ s1 s2 s3
  have holed (i : Nat) (hi : i ∈ donors) : (SMap.get {} slabs i).hole = true := hole_holes (List.mem_append_left _ hi) s.mem.slabs
  clear_value slabs
  have state : (s3.group n).state = 4 := congrArg Group.state (State.group_updGroup_same s1 n _)
  have noted : s3.evac n = ⟨0, some 0, 0, flight, donors⟩ :=
    SMap.get_set_same ({} : Evac) s.care.evac n ⟨0, some 0, 0, flight, donors⟩
  have same : unchangedBut [.mem, .care, .evt] s s3 :=
    ((unchangedBut_withMem s { s.mem with slabs := slabs }).append (unchangedBut_withCare ..)).append
      ((State.updGroup_unchanged s1 n _).append (State.postGroupState_unchanged ..)) |>.mono (by simp)
  have bytes : s3.mem.bytes = s.mem.bytes := rfl
  obtain ⟨granules, begun⟩ := s3.beginSlab_eq n 0 d
  dsimp only [donors]
  rw [begun]
  exact ⟨state, noted, holed, bytes, same.trans ((unchangedBut_withMem ..).mono (by simp))⟩

section
variable {s : State} {f : Nat} {x : Flight}

theorem exec_mapOut_starts (h : s.controlReady f 0x60003 = some x) (hg : (s.group (byteAt x.desc 32)).state = 0)
    (hd : 24 ≤ (s.eligibleDonors (byteAt x.desc 32)).length) :
    exec (.mapOut f) s = .next ((s.updFlight f (fun y => { y with state := .running s.tick.count })).startEvac (byteAt x.desc 32) (some f)) := by
  simp only [exec, execMapOut, h, hg, decide_eq_false (Nat.not_lt.2 hd), Bool.or_false]
  rfl

theorem exec_mapOut_refused (h : s.controlReady f 0x60003 = some x) (hd : (s.eligibleDonors (byteAt x.desc 32)).length < 24) :
    exec (.mapOut f) s = .next (s.endFlight f 8 0) := by
  simp only [exec, execMapOut, h, decide_eq_true hd, Bool.or_true, if_true]

end

/-! ### The statement -/

/-- Settles O29: a slab's move leaves its evacuation as it was but for the count; a REPAIR, its end and a MAP_OUT are each a few changes of one
group beside the flight. -/
theorem repairAndEvacuation : Obligations.RepairAndEvacuation := by
  unfold Obligations.RepairAndEvacuation
  refine ⟨⟨?nextSlab, ?lastSlab⟩, ?hard, ?soft, ?softDone, ?hardDone, ?failed, ?mapOut, ?fewDonors⟩
  case nextSlab =>
    intro s n j hn hc hg hj hw
    obtain ⟨moved, current, state, count, -⟩ := State.slabMoved_spec j (some (j + 1)) hg
    refine ⟨_, exec_evacuationSlabDone_next hn hc hg hj hw, ?_⟩
    simp only [State.beginSlab_slab, State.beginSlab_evac, State.beginSlab_group]
    exact ⟨moved, current, count, state⟩
  case lastSlab =>
    intro s n j hn hc hg hj hw
    obtain ⟨moved, current, -, count, work⟩ := State.slabMoved_spec j none hg
    refine ⟨_, exec_evacuationSlabDone_last hn hc hg hj hw, ?_⟩
    simp only [State.evacuated_slab, State.evacuated_evac]
    refine ⟨moved, current, count, State.evacuated_group .., fun f x hf hx hs => ?_⟩
    rw [hf]
    exact State.evacuated_ends ((State.flight_of_work work f).trans hx) hs
  case hard =>
    intro s f x h hg hk hw
    obtain ⟨hf, -⟩ := State.controlReady_some h
    obtain ⟨⟨group, others, bytes⟩, running, same⟩ := State.repairBegun_updGroup hf (repGroup x.desc) (·.withoutDie (repDie x.desc))
    exact ⟨_, exec_repair_hard h hg hk hw, rfl, congrArg Group.state group, congrArg Group.erased group, others, running, bytes,
      (same.append (State.postGroupState_unchanged ..)).mono (by simp)⟩
  case soft =>
    intro s f x h hg hk hw
    obtain ⟨hf, -⟩ := State.controlReady_some h
    obtain ⟨⟨group, others, bytes⟩, running, same⟩ := State.repairBegun_updGroup hf (repGroup x.desc) (·.heldFor (repDie x.desc) s.tick.time)
    exact ⟨_, exec_repair_soft h hg hk hw, rfl, congrArg Group.state group, congrArg Group.heldPc group, others, running, bytes, same⟩
  case softDone =>
    intro s f x hf hh hk hg
    obtain ⟨ended, released, bytes, casket⟩ := State.repairEnd_ends hf true 0 0
    obtain ⟨unwritten, lines⟩ := s.repairEnd_empties x
    refine ⟨_, exec_repairDone_held hf hh true, ended, released, ?_, ?_, ?_, bytes, casket⟩
    · rw [State.endFlight_granuleValid, unwritten]
    · rw [State.endFlight_mem]
      exact lines
    · rw [State.endFlight_group, State.repairEnd_soft hk hg]
  case hardDone =>
    intro s f x hf hh hk hg
    obtain ⟨ended, released, bytes, casket⟩ := State.repairEnd_ends hf true 0 0
    obtain ⟨unwritten, -⟩ := s.repairEnd_empties x
    refine ⟨_, exec_repairDone_held hf hh true, ended, released, ?_, ?_, bytes, casket⟩
    · rw [State.endFlight_granuleValid, unwritten]
    · rw [State.endFlight_group, State.repairEnd_hard hk hg]
  case failed =>
    intro s f x hf hh
    obtain ⟨ended, released, bytes, casket⟩ := State.repairEnd_ends hf false 8 0
    refine ⟨_, exec_repairDone_held hf hh false, ended, released, bytes, ?_, casket⟩
    rw [State.endFlight_mem, State.repairEnd_failed]
  case mapOut =>
    intro s f x h hg hd
    obtain ⟨hf, -⟩ := State.controlReady_some h
    have running := State.flight_started hf s.tick.count
    obtain ⟨d, ds, donors⟩ : ∃ d ds, (s.eligibleDonors (byteAt x.desc 32)).take 24 = d :: ds :=
      List.exists_cons_of_length_pos (by rw [List.length_take]; omega)
    obtain ⟨state, evac, holes, bytes, same⟩ := State.startEvac_started
      (s := s.updFlight f (fun y => { y with state := .running s.tick.count })) (some f) donors
    rw [donors]
    exact ⟨_, exec_mapOut_starts h hg hd, state, evac, holes, (State.flight_of_work (same.1 .work (by simp)) f).trans running, bytes,
      ((State.updFlight_unchanged ..).append same).mono (by simp)⟩
  case fewDonors =>
    intro s f x h hd
    obtain ⟨hf, -⟩ := State.controlReady_some h
    exact ⟨_, exec_mapOut_refused h hd, State.endFlight_status hf 8 0, s.endFlight_mem .., s.endFlight_care ..⟩

end Sys2Proof.Machine
end

section
/-! SUPPORT. The controls of the submission rings, the completion rings and the event ring, and the statement O9 (R318, R319, R324). -/

namespace Sys2Proof.Machine

/-! ### One ring of its family -/

section
variable (s : State) {q r : Nat}

theorem State.ring_updRing_same (r : Nat) (f : Ring → Ring) : (s.updRing r f).ring r = f (s.ring r) := SMap.get_upd_same ..

theorem State.ring_updRing_other (f : Ring → Ring) (h : q ≠ r) : (s.updRing r f).ring q = s.ring q := SMap.get_upd_other _ _ _ _ _ h

theorem State.updRing_unchanged (r : Nat) (f : Ring → Ring) : unchangedBut [.work] s (s.updRing r f) := unchangedBut_withWork ..

theorem State.cring_updCRing_same (c : Nat) (f : CRing → CRing) : (s.updCRing c f).cring c = f (s.cring c) := SMap.get_upd_same ..

theorem State.cring_updCRing_other {c : Nat} (f : CRing → CRing) (h : q ≠ c) : (s.updCRing c f).cring q = s.cring q :=
  SMap.get_upd_other _ _ _ _ _ h

theorem State.updCRing_unchanged (c : Nat) (f : CRing → CRing) : unchangedBut [.work] s (s.updCRing c f) := unchangedBut_withWork ..

theorem State.queueWrite_unchanged (w : OrderedWrite) : unchangedBut [.host] s (s.queueWrite w) := unchangedBut_withHost ..

end

/-! ### Submission rings (R318) -/

/-- The word an enabling write stores has bit 0 set. -/
theorem bit_zero_or_one (n : Nat) : bit (n ||| 1) 0 = true := by simp [bit_eq_testBit]

/-- The fields of a submission ring that starts afresh with control word `w`. -/
def Ring.startedBy (x : Ring) (w : Nat) : Ring :=
  { x with enable := true, fresh := true, partition := bits w 11 8, sizeLog2 := sizeField w, cring := bits w 31 24 }

section
variable {s : State} {r c : Nat}

theorem exec_ringEnable_eq (v : W64) (h : s.regOpen = true) (hr : r < 256) :
    exec (.ringEnable r v) s = .next (s.writeRingCtl r (v.toNat ||| 1)) :=
  guarded_regWrite (fun s => s.writeRingCtl r (v.toNat ||| 1)) (decide_eq_true hr) h

theorem exec_ringDisable_eq (h : s.regOpen = true) (hr : r < 256) :
    exec (.ringDisable r) s = .next (s.updRing r (fun x => { x with enable := false, fresh := false })) :=
  guarded_regWrite (fun s => s.updRing r (fun x => { x with enable := false, fresh := false })) (decide_eq_true hr) h

/-- A control word with enable starts a ring that is not enabled. -/
theorem State.ring_writeRingCtl_starts {w : Nat} (he : (s.ring r).enable = false) (hw : bit w 0 = true) :
    (s.writeRingCtl r w).ring r = (s.ring r).startedBy w := by
  rw [State.writeRingCtl, State.ring_updRing_same, if_neg (Bool.eq_false_iff.1 he), hw]
  rfl

/-! ### Completion rings (R319) -/

/-- A completion ring that starts afresh with control word `w`. -/
def CRing.startedBy (x : CRing) (w : Nat) : CRing :=
  { x with enable := true, partition := bits w 11 8, sizeLog2 := sizeField w, state := 1, written := 0, held := 0, head := 0, sampled := false }

/-- The first tail of completion ring `c`, started for partition `p`: zero, at its cell. -/
def State.firstTail (s : State) (c p : Nat) : OrderedWrite :=
  .byVa (s.part p).pasid ((s.cring c).cell + 64) (natLe 4 0) (.completionRing c)

/-- A control word with enable starts a ring in state 0: the ring takes its fields, and its tail is written. -/
theorem State.writeCRingCtl_starts {w : Nat} (hs : (s.cring c).state = 0) (hw : bit w 0 = true) :
    (s.writeCRingCtl c w).cring c = (s.cring c).startedBy w ∧ (∀ q, q ≠ c → (s.writeCRingCtl c w).cring q = s.cring q) ∧
      (s.writeCRingCtl c w).host.writes = s.host.writes ++ [s.firstTail c (bits w 11 8)] ∧
      unchangedBut [.work, .host] s (s.writeCRingCtl c w) := by
  unfold State.writeCRingCtl
  simp only [hs, hw, if_true, State.cring_updCRing_same]
  exact ⟨by simp only [State.cring, State.queueWrite_work, State.updCRing, SMap.get_upd_same]; rfl,
    fun q hq => (State.cring_updCRing_other _ _ hq).trans (State.cring_updCRing_other _ _ hq), rfl,
    ((State.updCRing_unchanged ..).trans (State.updCRing_unchanged ..)).append (State.queueWrite_unchanged ..)⟩

theorem exec_cringEnable_eq (v : W64) (h : s.regOpen = true) (hc : c < 256) :
    exec (.cringEnable c v) s = .next (s.writeCRingCtl c (v.toNat ||| 1)) :=
  guarded_regWrite (fun s => s.writeCRingCtl c (v.toNat ||| 1)) (decide_eq_true hc) h

theorem exec_cringDisable_eq (h : s.regOpen = true) (hc : c < 256) :
    exec (.cringDisable c) s = .next (s.updCRing c (fun r =>
      if r.state = 0 then { r with enable := false } else { r with enable := false, state := 2 })) :=
  guarded_regWrite (fun s => s.updCRing c _) (decide_eq_true hc) h

/-- A draining ring that nothing is reserved of and no ring in use names is disabled. -/
theorem exec_cringDrained_drained (hc : c < 256) (hs : (s.cring c).state = 2) (hh : (s.cring c).held = 0)
    (hn : ∀ e, e ∈ s.work.rings → e.2.cring = c → e.2.enable = false ∧ e.2.state = 0) :
    exec (.cringDrained c) s = .next (s.updCRing c (fun r => { r with state := 0 })) := by
  have unnamed : ¬ (s.work.rings.any (fun e => e.2.cring == c && (e.2.enable || e.2.state != 0))) = true := by
    rw [List.any_eq_true]
    rintro ⟨e, he, hu⟩
    simp only [Bool.and_eq_true, beq_iff_eq, Bool.or_eq_true, bne_iff_ne] at hu
    obtain ⟨disabled, stopped⟩ := hn e he hu.1
    simp [disabled, stopped] at hu
  exact ((guarded_eq ..).1 (decide_eq_true hc)).trans (congrArg _ (if_pos ⟨hs, hh, unnamed⟩))

/-! ### The event ring (R324) -/

/-- A control word with enable gives an event ring that is not enabled its fields; it runs from the next Admit. -/
theorem State.writeEvtCtl_starts {w : Nat} (he : s.evt.enable = false) (hw : bit w 0 = true) :
    s.writeEvtCtl w = { s with evt := { s.evt with
      enable := true, running := false, pasid := bits w 51 32, sizeLog2 := sizeField w } } := by
  simp [State.writeEvtCtl, he, hw]

theorem exec_evtRingEnable_eq (v : W64) (h : s.regOpen = true) : exec (.evtRingEnable v) s = .next (s.writeEvtCtl (v.toNat ||| 1)) :=
  congrArg _ (State.regWrite_open s _ h)

theorem exec_evtRingDisable_eq (h : s.regOpen = true) :
    exec .evtRingDisable s = .next { s with evt := { s.evt with enable := false } } :=
  congrArg _ (State.regWrite_open s _ h)

theorem unchangedBut_withEvt (s : State) (x : EvtLog) : unchangedBut [.evt] s { s with evt := x } :=
  ⟨fun c hc => by cases c with | evt => simp at hc | _ => rfl, rfl⟩

end

/-! ### The statement on ring controls -/

/-- Settles O9: each control is a change of one ring of its family, and the start of a completion ring writes its tail too. -/
theorem ringControl : Obligations.RingControl := by
  refine ⟨⟨?enable, ?disable⟩, ?cringEnable, ?cringDisable, ?cringDrained, ?evtEnable, ?evtDisable⟩
  case enable =>
    intro s r v h hr he
    exact ⟨_, exec_ringEnable_eq v h hr, State.ring_writeRingCtl_starts he (bit_zero_or_one _),
      fun q hq => State.ring_updRing_other _ _ hq, rfl, rfl, State.updRing_unchanged ..⟩
  case disable =>
    intro s r h hr
    exact ⟨_, exec_ringDisable_eq h hr, State.ring_updRing_same .., fun q hq => State.ring_updRing_other _ _ hq, rfl, rfl,
      State.updRing_unchanged ..⟩
  case cringEnable =>
    intro s c v h hc hs
    exact ⟨_, exec_cringEnable_eq v h hc, State.writeCRingCtl_starts hs (bit_zero_or_one _)⟩
  case cringDisable =>
    intro s c h hc hs
    refine ⟨_, exec_cringDisable_eq h hc, ?_, fun q hq => State.cring_updCRing_other _ _ hq, State.updCRing_unchanged ..⟩
    rw [State.cring_updCRing_same, if_neg (by omega)]
  case cringDrained =>
    intro s c hc hs hh hn
    exact ⟨_, exec_cringDrained_drained hc hs hh hn, State.cring_updCRing_same .., fun q hq => State.cring_updCRing_other _ _ hq,
      State.updCRing_unchanged ..⟩
  case evtEnable =>
    intro s v h he
    refine ⟨_, exec_evtRingEnable_eq v h, ?_⟩
    rw [State.writeEvtCtl_starts he (bit_zero_or_one _)]
    exact ⟨rfl, unchangedBut_withEvt ..⟩
  case evtDisable => exact fun s h => exec_evtRingDisable_eq h

end Sys2Proof.Machine
end

section
/-! SUPPORT. The PART commands of the mailbox, and the statement O11 (R310, R311). -/

namespace Sys2Proof.Machine

section
variable {s : State} {b : Bytes}

theorem State.part_updPart_same (s : State) (p : Nat) (f : Part → Part) : (s.updPart p f).part p = f (s.part p) := SMap.get_upd_same ..

theorem State.part_updPart_other (s : State) {p q : Nat} (f : Part → Part) (h : q ≠ p) : (s.updPart p f).part q = s.part q :=
  SMap.get_upd_other _ _ _ _ _ h

theorem State.updPart_unchanged (s : State) (p : Nat) (f : Part → Part) : unchangedBut [.work] s (s.updPart p f) := unchangedBut_withWork ..

theorem State.mboxEnd_unchanged (s : State) (code : Nat) (out : Bytes) : unchangedBut [.mbox] s (s.mboxEnd code out) :=
  unchangedBut_withMbox ..

/-- A PART_ENABLE in form sets the partition's enable (R311). -/
theorem exec_partEnable_eq (h : s.mboxRuns 0x31 b) (hl : b.length = 8) (h0 : byteAt b 0 < 16) (h1 : byteAt b 1 < 2)
    (hz : ∀ i, 2 ≤ i → i < 8 → byteAt b i = 0) :
    exec .partEnable s = .next ((s.updPart (byteAt b 0) (fun x => { x with enabled := byteAt b 1 == 1 })).mboxOk []) := by
  rw [exec_eq_of_mailbox (o := exec .partEnable s) rfl h hl (by simp [h0, h1, firstFail_reservedChecks hz])]

/-- A partition that no flight is of has none in flight. -/
theorem State.inflight_none {p : Nat} (h : ∀ x, x ∈ s.work.flights → x.part ≠ p) : s.inflight p = 0 := by
  rw [State.inflight, List.length_eq_zero_iff, List.filter_eq_nil_iff]
  intro x hx
  simp [h x hx]

/-- A PART_SET in form, of a disabled partition without work, that meets no conflict waits for its Settle phase (R310). -/
theorem exec_partSet_stages (h : s.mboxRuns 0x30 b) (hl : b.length = 640) (hv : byteAt b 0 = 1) (hc : firstFail (partSetChecks b) = none)
    (he : (s.part (byteAt b 1)).enabled = false) (hf : s.inflight (byteAt b 1) = 0) (hn : s.partConflict b = none) :
    exec .partSet s = .next (({ s with mbox := { s.mbox with partSet := some b } } : State).mboxOk []) := by
  refine (exec_eq_of_mailbox (o := exec .partSet s) rfl h hl hc).trans ?_
  simp only [hv, he, hf, hn, ne_eq, not_true_eq_false, if_false, bne_self_eq_false, Bool.or_self, Bool.false_eq_true]

end

/-- Settles O11: PART_ENABLE changes one partition's enable; PART_SET leaves its payload with the mailbox. -/
theorem partitionCommands : Obligations.PartitionCommands := by
  refine ⟨?enable, ?set⟩
  case enable =>
    intro s b h hl h0 h1 hz
    exact ⟨_, exec_partEnable_eq h hl h0 h1 hz, State.part_updPart_same .., fun p hp => State.part_updPart_other _ _ hp, ⟨rfl, rfl⟩,
      (State.updPart_unchanged ..).append (State.mboxEnd_unchanged ..)⟩
  case set =>
    intro s b h hl hv hc he hf hn
    exact ⟨_, exec_partSet_stages h hl hv hc he (State.inflight_none hf) hn, rfl, ⟨rfl, rfl⟩,
      (unchangedBut_withMbox ..).trans (State.mboxEnd_unchanged ..)⟩

end Sys2Proof.Machine
end

section
/-! SUPPORT. Clasp values and control descriptors, and the statement O12 (R322, R323). -/

namespace Sys2Proof.Machine

/-! ### Clasp values (R322) -/

theorem claspCount_lt (v : Nat) : claspCount v < 2 ^ 63 := Nat.mod_lt _ (by decide)

/-- The count of a value made of a count and an error flag saturates. -/
theorem claspCount_claspValue (n : Nat) (e : Bool) : claspCount (claspValue n e) = min n (2 ^ 63 - 1) := by
  rw [claspCount, claspValue, Nat.add_mul_mod_self_right, Nat.mod_eq_of_lt (by omega)]

/-- The error flag of such a value is the one it was made of. -/
theorem claspError_claspValue (n : Nat) (e : Bool) : claspError (claspValue n e) = e := by
  have high : claspValue n e / 2 ^ 63 = flag e := by
    rw [claspValue, Nat.add_mul_div_right _ _ (by decide), Nat.div_eq_of_lt (by omega), Nat.zero_add]
  rw [claspError, bit, high]
  cases e <;> rfl

/-- A bare count has no error flag. -/
theorem claspError_claspCount (v : Nat) : claspError (claspCount v) = false := by
  rw [claspError, bit, Nat.div_eq_of_lt (claspCount_lt v)]
  rfl

/-- One signal is applied to its clasp. -/
theorem applySignals_one (m : SMap Nat) (g : Signal) :
    SMap.get 0 (applySignals m [g]) g.clasp = claspSignal (SMap.get 0 m g.clasp) g.add g.error := by
  rw [applySignals, List.foldl_cons, List.foldl_nil, SMap.get_upd_same]

/-- One CLASP_SET is applied to its clasp, and to no other. -/
theorem applySets_one (m : SMap Nat) (g : ClaspSet) :
    SMap.get 0 (applySets m [g]) g.clasp = claspSet (SMap.get 0 m g.clasp) g.mode g.value ∧
      ∀ k, k ≠ g.clasp → SMap.get 0 (applySets m [g]) k = SMap.get 0 m k :=
  ⟨SMap.get_upd_same 0 m g.clasp (fun v => claspSet v g.mode g.value),
    fun k hk => SMap.get_upd_other 0 m g.clasp k (fun v => claspSet v g.mode g.value) hk⟩

/-- Signals change no clasp that none of them is for (R25). -/
theorem applySignals_other {gs : List Signal} {k : Nat} (h : ∀ g, g ∈ gs → g.clasp ≠ k) (m : SMap Nat) :
    SMap.get 0 (applySignals m gs) k = SMap.get 0 m k := by
  induction gs generalizing m with
  | nil => rfl
  | cons g gs ih =>
    rw [List.forall_mem_cons] at h
    exact (ih h.2 _).trans (SMap.get_upd_other _ _ _ _ _ h.1.symm)

/-! ### Control descriptors (R323) -/

section
variable {s : State} {f k : Nat} {x : Flight}

theorem Flight.onEngines_control (h : dKey x.desc = 8 * 0x10000 + k) (hk : k < 0x10000) : x.onEngines = false := by
  simp [Flight.onEngines, (dClass_of_dKey h hk).1]

/-- A control descriptor's detail is the one it ends with. -/
theorem State.detailOf_control (h : dKey x.desc = 8 * 0x10000 + k) (hk : k < 0x10000) (dt : Nat) : s.detailOf x dt = dt := by
  simp [State.detailOf, (dClass_of_dKey h hk).1]

/-- All that the end of a control descriptor does. -/
theorem State.endFlight_control (h : s.controlReady f (8 * 0x10000 + k) = some x) (hk : k < 0x10000) (status dt : Nat) :
    endedWith s (s.endFlight f status dt) f x status dt ∧ unchangedBut [.work, .xlat] s (s.endFlight f status dt) := by
  obtain ⟨hf, hkey, -⟩ := State.controlReady_some h
  have ended := State.endFlight_ended hf (Flight.onEngines_control hkey hk) status dt
  rwa [State.detailOf_control hkey hk] at ended

theorem exec_nop_ends (h : s.controlReady f 0x80001 = some x) : exec (.nop f) s = .next (s.endFlight f 0 0) := by
  simp only [exec, execNop, h]

theorem exec_claspSet_ends (h : s.controlReady f 0x80002 = some x) : exec (.claspSet f) s = .next (s.endFlight f 0 0) := by
  simp only [exec, execClaspSet, h]

/-- A CLASP_SET that completes with status 0x00 is one set of the clasp it names. -/
theorem setsOf_claspSet (h : dKey x.desc = 0x80002) (hs : x.status = 0) :
    setsOf [x] = [⟨fieldLe x.desc 32 4, byteAt x.desc 36, fieldLe x.desc 40 8⟩] := by
  simp [setsOf, h, hs]

end

/-- Settles O12: a control descriptor is one end of its flight, and the value of a clasp is a count and a flag that do not touch each other. -/
theorem controlDescriptorsAndClasps : Obligations.ControlDescriptorsAndClasps := by
  refine ⟨⟨?nop, ?claspSet⟩, ?value, ?sum, ?clear, ?signal, ?signalOne, ?signalOther⟩
  case nop =>
    intro s f x h
    exact ⟨_, exec_nop_ends h, State.endFlight_control (k := 1) h (by decide) 0 0⟩
  case claspSet =>
    intro s f x h
    obtain ⟨-, hkey, -⟩ := State.controlReady_some h
    obtain ⟨ended, same⟩ := State.endFlight_control (k := 2) h (by decide) 0 0
    obtain ⟨y, hy, -, status, -, -, -, desc, -⟩ := ended.1
    have clasps : (s.endFlight f 0 0).clasps = s.clasps := same.1 .clasps (by simp)
    refine ⟨_, exec_claspSet_ends h, ended, same, y, hy, ?_⟩
    rw [setsOf_claspSet (desc ▸ hkey) status, desc, clasps]
    exact applySets_one s.clasps.committed ⟨fieldLe x.desc 32 4, byteAt x.desc 36, fieldLe x.desc 40 8⟩
  case value => exact fun v x => rfl
  case sum => exact fun v x _ => claspCount_claspValue ..
  case clear => exact fun v x => ⟨Nat.mod_mod .., claspError_claspCount v⟩
  case signal => exact fun v add e _ => ⟨claspCount_claspValue .., claspError_claspValue ..⟩
  case signalOne => exact applySignals_one
  case signalOther => exact fun m gs k h => applySignals_other h m

end Sys2Proof.Machine
end

section
/-! SUPPORT. Host lines, the ordered writes, the one request a Translation Completion answers, and the statement O39 (R305, R333, R334). -/

namespace Sys2Proof.Machine

section
variable {s : State}

/-! ### What follows an arrival -/

/-- Outside the Admit phase admission does not go on (R16). -/
theorem State.admitProgress_late (h : s.tick.phase ≠ 0) : s.admitProgress = s := if_pos h

theorem State.drain_none (h : s.host.writes = []) : s.drain = s := by
  simp only [State.drain, State.drainWrites, h]

/-- A host write that comes to the front goes out (R305). -/
theorem State.drain_toHost {part a : Nat} {d : Bytes} {poison : Bool} {rest : List OrderedWrite}
    (h : s.host.writes = .toHost part a d poison false :: rest) :
    s.drain = { s with host := { s.host with writes := .toHost part a d poison true :: rest }, out := s.out ++ [.hostWrite a d poison] } := by
  obtain ⟨n, hn⟩ : ∃ n, 16 * s.host.writes.length + 64 = n + 1 := ⟨_, rfl⟩
  rw [State.drain, hn, State.drainWrites, h]
  rfl

theorem State.sendReqs_none (h : s.xlat.reqs = []) : s.sendReqs = s := by
  rw [State.sendReqs, h]
  rfl

/-! ### Lines and observed writes (R305) -/

/-- A line that work has asked for arrives. -/
theorem exec_cxlCacheReadData_asked {line : Nat} {data : Bytes} (poison : Bool) (hl : data.length = 64)
    (ha : s.host.asked.contains line = true) (hc : s.host.ctlAsked.contains line = false) :
    exec (.cxlCacheReadData line data poison) s = .next { s with host := { s.host with
      asked := s.host.asked.filter (fun l => l != line), lines := SMap.set none s.host.lines line (some ⟨data, poison⟩) } } := by
  refine ((guarded_eq ..).1 (by simp [hl])).trans (congrArg _ ?_)
  simp only [ha, if_true, hc, Bool.false_eq_true, if_false]

/-- A line that nothing has asked for is dropped. -/
theorem exec_cxlCacheReadData_unasked {line : Nat} {data : Bytes} (poison : Bool) (hl : data.length = 64)
    (ha : s.host.asked.contains line = false) (hc : s.host.ctlAsked.contains line = false) :
    exec (.cxlCacheReadData line data poison) s = .next s := by
  refine ((guarded_eq ..).1 (by simp [hl])).trans (congrArg _ ?_)
  simp only [ha, hc, Bool.false_eq_true, if_false]

/-- The write that was issued has been observed, and the writes after it go on. -/
theorem exec_globalObservation_issued {part a : Nat} {d : Bytes} {poison : Bool} {rest : List OrderedWrite} (hp : s.tick.phase ≠ 0)
    (hw : s.host.writes = .toHost part a d poison true :: rest) :
    exec .globalObservation s = .next ({ s with host := { s.host with writes := rest } } : State).drain := by
  simp only [exec, execGlobalObservation, hw]
  rw [State.admitProgress_late (by rwa [State.drain_tick])]

/-! ### Waiters that a completion serves (R334, R343) -/

/-- The completion has the rights the waiter asks for. -/
def Wait.servedBy (w : Wait) (c : TransCompletion) : Prop := (w.read = true → c.read = true) ∧ (w.write = true → c.write = true)

/-- Nothing but the first-level TLBs has changed. -/
def l1Changed (s t : State) : Prop := ∃ l1, t = { s with xlat := { s.xlat with l1 := l1 } }

theorem l1Changed.refl (s : State) : l1Changed s s := ⟨s.xlat.l1, rfl⟩

theorem l1Changed.trans {t u : State} (h : l1Changed s t) (k : l1Changed t u) : l1Changed s u := by
  obtain ⟨a, rfl⟩ := h
  obtain ⟨b, rfl⟩ := k
  exact ⟨b, rfl⟩

section
variable {c : TransCompletion}

/-- A look-ahead changes its unit's TLB at most. -/
theorem State.judgeAhead_l1 (s : State) (c : TransCompletion) (page : Nat) (w : Wait) (f j : Nat) : l1Changed s (s.judgeAhead c page w f j) := by
  unfold State.judgeAhead
  split
  · exact .refl s
  · split
    · exact .refl s
    · exact ⟨_, rfl⟩

/-- A waiter that is served goes on: nothing is found faulted, and no page is asked for again. -/
theorem State.judgeWait_served {w : Wait} (hu : c.untranslatedOnly = false) (hp : c.read = true ∨ c.write = true) (hw : w.servedBy c)
    (noWrite : Bool) (page : Nat) : l1Changed s (s.judgeWait c noWrite page w) := by
  have present : (!c.read && !c.write) = false := by
    rcases hp with hr | hr <;> simp [hr]
  have readable : (w.read && !c.read) = false := by simpa using hw.1
  have writable : (w.write && !c.write) = false := by simpa using hw.2
  unfold State.judgeWait
  split
  · exact State.judgeAhead_l1 ..
  · simp only [hu, present, readable, writable, Bool.false_and, Bool.or_self, Bool.false_eq_true, if_false]
    exact .refl s

/-- A request all of whose waiters are served, judged at once. -/
theorem State.judgeReq_served {q : XlatReq} (hh : q.hold = false) (hu : c.untranslatedOnly = false) (hp : c.read = true ∨ c.write = true)
    (hw : ∀ w, w ∈ q.waits → w.servedBy c) : l1Changed s (s.judgeReq c q) := by
  unfold State.judgeReq
  simp only [hh, Bool.false_and, Bool.false_eq_true, if_false]
  generalize q.waits = ws at hw
  induction ws generalizing s with
  | nil => exact .refl s
  | cons w ws ih =>
    rw [List.forall_mem_cons] at hw
    exact (State.judgeWait_served hu hp hw.1 q.noWrite q.page).trans (ih hw.2)

/-! ### The completion of the only request (R333, R334) -/

/-- Request `q` is the one that is out and that `c` answers: it has been sent, it is neither discarded nor older than an invalidation, and it
is no re-translation. -/
def State.answersOnly (s : State) (c : TransCompletion) (q : XlatReq) : Prop :=
  s.xlat.reqs = [q] ∧ q.sent = true ∧ q.pasid = c.pasid ∧ q.page = pageBase c.va ∧ q.discard = false ∧ q.hold = false ∧
    q.epoch = SMap.get 0 s.xlat.epochs 49

/-- What is left after it: no request. -/
def State.answered (s : State) : State := { s with xlat := { s.xlat with reqs := [] } }

/-- Its translation is installed, and its waiters are judged. -/
theorem State.takeCompletion_only {q : XlatReq} (h : s.answersOnly c q) (hp : (c.read || c.write) = true) (hu : c.untranslatedOnly = false)
    (hr : q.waits.any (fun w => !w.isAhead) = true) :
    s.takeCompletion c = ((s.answered.installL2 (completionEntry c q.page q.epoch)).judgeReq c q).sendReqs := by
  obtain ⟨reqs, sent, pasid, page, kept, -, epoch⟩ := h
  have found : s.xlat.reqs.find? (fun r => r.sent && r.pasid == c.pasid && r.page == pageBase c.va) = some q := by
    simp [reqs, sent, pasid, page]
  unfold State.takeCompletion
  rw [found]
  simp [reqs, kept, ← epoch, hp, hu, hr, State.answered]

/-- With the rights that all of its waiters ask for, nothing else comes of it. -/
theorem State.takeCompletion_serves {q : XlatReq} (h : s.answersOnly c q) (hp : c.read = true ∨ c.write = true)
    (hu : c.untranslatedOnly = false) (hr : q.waits.any (fun w => !w.isAhead) = true) (hw : ∀ w, w ∈ q.waits → w.servedBy c) :
    l1Changed (s.answered.installL2 (completionEntry c q.page q.epoch)) (s.takeCompletion c) := by
  have ⟨_, _, _, _, _, now, _⟩ := h
  obtain ⟨l1, judged⟩ := State.judgeReq_served (s := s.answered.installL2 (completionEntry c q.page q.epoch)) now hu hp hw
  rw [State.takeCompletion_only h (by simpa using hp) hu hr, judged, State.sendReqs_none rfl]
  exact ⟨l1, rfl⟩

/-- Outside the Admit phase and with no write that waits, a completion is only taken. -/
theorem exec_translationCompletion_late {t : State} (ht : s.takeCompletion c = t) (hp : t.tick.phase ≠ 0) (hw : t.host.writes = []) :
    exec (.translationCompletion c) s = .next t := by
  simp only [exec, execTranslationCompletion, ht]
  rw [State.drain_none hw, State.admitProgress_late hp]

end

end

/-- Settles O39: an arrival changes the line, the write or the page it names, and what it lets go on is here none or the next write. -/
theorem hostLinesAndTranslation : Obligations.HostLinesAndTranslation := by
  refine ⟨⟨?asked, ?unasked, ?lastWrite, ?nextWrite⟩, ?completion⟩
  case asked =>
    intro s line data poison hl ha hc
    refine ⟨_, exec_cxlCacheReadData_asked poison hl ha hc, ?_, by simp, fun l hn => ?_, unchangedBut_withHost ..⟩
    · rw [SMap.get_set_same]
    · rw [SMap.get_set_other _ _ _ _ _ hn]
  case unasked => exact fun s line data poison hl ha hc => exec_cxlCacheReadData_unasked poison hl ha hc
  case lastWrite =>
    intro s part a d poison hp hw
    rw [exec_globalObservation_issued hp hw, State.drain_none rfl]
  case nextWrite =>
    intro s part a d poison part' a' d' poison' rest hp hw
    rw [exec_globalObservation_issued hp hw, State.drain_toHost rfl]
  case completion =>
    intro s c q hphase hwrites hreqs hsent hpasid hpage hkept hhold hepoch hp hu hw ⟨w, hmem, hreal⟩
    have waits : q.waits.any (fun w => !w.isAhead) = true := List.any_eq_true.2 ⟨w, hmem, by simp [hreal]⟩
    obtain ⟨l1, taken⟩ := State.takeCompletion_serves ⟨hreqs, hsent, hpasid, hpage, hkept, hhold, hepoch⟩ hp hu waits hw
    exact ⟨_, exec_translationCompletion_late taken hphase hwrites, rfl, rfl, rfl, unchangedBut_withXlat ..⟩

end Sys2Proof.Machine
end

section
/-! SUPPORT. Requests that go out, the ends of page request groups and PRI_RESTART, and the statement O40 (R338 to R341). -/

namespace Sys2Proof.Machine

/-! ### Requests that go out (R332) -/

theorem unchangedBut_withXlatOut (s : State) (x : Xlat) (o : Out) :
    unchangedBut [.xlat, .out] s { s with xlat := x, out := s.out ++ [o] } :=
  (unchangedBut_withXlat s x).append (State.emit_unchanged _ o)

/-- The page whose translation a request asks for. -/
def XlatReq.target (q : XlatReq) : Nat × Nat := (q.pasid, q.page)

/-- Requests for the same pages are outstanding in both states; but for them and the messages that carry them, nothing has changed. -/
def sameTargets (s t : State) : Prop :=
  (∃ reqs, t.xlat = { s.xlat with reqs := reqs } ∧ reqs.map XlatReq.target = s.xlat.reqs.map XlatReq.target) ∧
    unchangedBut [.xlat, .out] s t

theorem sameTargets.refl (s : State) : sameTargets s s := ⟨⟨s.xlat.reqs, rfl, rfl⟩, .refl ..⟩

theorem sameTargets.trans {s t u : State} (h : sameTargets s t) (k : sameTargets t u) : sameTargets s u := by
  obtain ⟨⟨a, ha, targets⟩, frame⟩ := h
  obtain ⟨⟨b, hb, targets'⟩, frame'⟩ := k
  refine ⟨⟨b, ?_, ?_⟩, frame.trans frame'⟩
  · rw [hb, ha]
  · rw [targets', ha, targets]

/-- A request of the one state is, but for its flags, one of the other. -/
theorem sameTargets.request {s t : State} (h : sameTargets s t) {q : XlatReq} (hq : q ∈ s.xlat.reqs) :
    ∃ r, r ∈ t.xlat.reqs ∧ r.pasid = q.pasid ∧ r.page = q.page := by
  obtain ⟨⟨reqs, ht, targets⟩, -⟩ := h
  have target : q.target ∈ reqs.map XlatReq.target := targets ▸ List.mem_map_of_mem hq
  obtain ⟨r, hr, same⟩ := List.mem_map.1 target
  obtain ⟨pasid, page⟩ := Prod.mk.inj same
  exact ⟨r, ht ▸ hr, pasid, page⟩

section
variable {s : State} {pasid g : Nat} {r : PrgGroup}

theorem State.sendReq_sameTargets (s : State) : sameTargets s s.sendReq := by
  unfold State.sendReq
  split
  · exact .refl s
  · split
    · exact .refl s
    · refine ⟨⟨_, rfl, ?_⟩, unchangedBut_withXlatOut ..⟩
      rw [List.map_map]
      refine List.map_congr_left fun r _ => ?_
      rw [Function.comp_apply]
      split <;> rfl

/-- However many requests go out, their pages stay those that were asked for. -/
theorem State.sendReqs_sameTargets (s : State) : sameTargets s s.sendReqs := by
  unfold State.sendReqs
  generalize List.range s.xlat.reqs.length = l
  induction l generalizing s with
  | nil => exact .refl s
  | cons _ l ih => exact s.sendReq_sameTargets.trans (ih _)

/-! ### Groups and their faults (R338 to R340) -/

theorem State.mem_dropGroup_groups (x : PrgGroup) : x ∈ (s.dropGroup g).xlat.groups ↔ x ∈ s.xlat.groups ∧ x.index ≠ g := by
  simp [State.dropGroup]

theorem State.dropGroup_unchanged (s : State) (g : Nat) : unchangedBut [.xlat] s (s.dropGroup g) := unchangedBut_withXlat ..

/-- Where no page is missing, nobody's wait ends. -/
theorem State.endFaults_none (h : s.xlat.faults = []) (p : PageFault → Bool) (cause : Nat) : s.endFaults p cause = s := by
  simp only [State.endFaults, h, List.filter_nil, List.filterMap_nil, List.foldl_nil]
  rw [← h]

/-- The faults of the group are faults no more, and the requests for their pages are added to those there are (R340). -/
theorem State.retranslate_asks (s : State) (g : Nat) : ∃ reqs : List XlatReq,
    reqs.map XlatReq.target = (s.xlat.faults.filter (fun f => f.group == some g)).map (fun f => (f.pasid, f.page)) ∧
    sameTargets { s with xlat := { s.xlat with
      faults := s.xlat.faults.filter (fun f => f.group != some g), reqs := s.xlat.reqs ++ reqs } } (s.retranslate g) :=
  ⟨_, List.map_map, State.sendReqs_sameTargets _⟩

theorem State.retranslate_groups (s : State) (g : Nat) : (s.retranslate g).xlat.groups = s.xlat.groups := by
  obtain ⟨_, -, ⟨_, hx, -⟩, -⟩ := s.retranslate_asks g
  rw [hx]

theorem State.mem_retranslate_faults (x : PageFault) : x ∈ (s.retranslate g).xlat.faults ↔ x ∈ s.xlat.faults ∧ x.group ≠ some g := by
  obtain ⟨_, -, ⟨_, hx, -⟩, -⟩ := s.retranslate_asks g
  rw [hx]
  simp

theorem State.retranslate_unchanged (s : State) (g : Nat) : unchangedBut [.xlat, .out] s (s.retranslate g) := by
  obtain ⟨_, -, -, frame⟩ := s.retranslate_asks g
  exact ((unchangedBut_withXlat ..).mono (by simp)).trans frame

/-- The page of each fault of the group is asked for again. -/
theorem State.retranslate_request {x : PageFault} (hx : x ∈ s.xlat.faults) (hg : x.group = some g) :
    ∃ q, q ∈ (s.retranslate g).xlat.reqs ∧ q.pasid = x.pasid ∧ q.page = x.page := by
  obtain ⟨reqs, targets, same⟩ := s.retranslate_asks g
  have target : (x.pasid, x.page) ∈ reqs.map XlatReq.target :=
    targets ▸ List.mem_map.2 ⟨x, List.mem_filter.2 ⟨hx, by simp [hg]⟩, rfl⟩
  obtain ⟨q, hq, hqx⟩ := List.mem_map.1 target
  obtain ⟨pasid, page⟩ := Prod.mk.inj hqx
  rw [← pasid, ← page]
  exact same.request (List.mem_append_right _ hq)

/-- Where no page is missing, a Response Failure halts PRI, drops every group and reports it (R341). -/
theorem State.haltPri_none (h : s.xlat.faults = []) (pasid g : Nat) :
    s.haltPri pasid g = ({ s with xlat := { s.xlat with halted := true, groups := [] } } : State).post 0x4002 2 0xFF 0xFFFF
      (detail [(4, pasid), (2, g)]) := by
  rw [State.haltPri, State.endFaults_none]
  exact h

/-! ### Responses, time limits and PRI_RESTART (R338, R339, R341) -/

theorem exec_pageRequestResponse_none (h : s.xlat.groups.find? (fun x => x.index == g && x.pasid == pasid) = none) (code : PrgCode) :
    exec (.pageRequestResponse pasid g code) s =
      .next (s.postOnce (fun _ => true) 0x4003 0 0xFF 0xFFFF (detail [(4, pasid), (2, g), (1, 1)])) := by
  simp only [exec, execPageRequestResponse, h]

theorem exec_pageRequestResponse_success (h : s.xlat.groups.find? (fun x => x.index == g && x.pasid == pasid) = some r) :
    exec (.pageRequestResponse pasid g .success) s = .next ((s.dropGroup g).retranslate g) := by
  simp only [exec, execPageRequestResponse, h]

theorem exec_pageRequestResponse_failure (h : s.xlat.groups.find? (fun x => x.index == g && x.pasid == pasid) = some r) :
    exec (.pageRequestResponse pasid g .failure) s = .next ((s.dropGroup g).haltPri pasid g) := by
  simp only [exec, execPageRequestResponse, h]

/-- Before its last tick a group is not given up. -/
theorem exec_pageRequestTimeout_early (h : s.xlat.groups.find? (fun x => x.index == g) = some r) (hd : s.tick.count < r.dueTick) :
    exec (.pageRequestTimeout g) s = .next s := by
  have early : ¬(r.dueTick < s.tick.count ∨ (r.dueTick = s.tick.count ∧ s.tick.phase = 2)) := by omega
  simp only [exec, execPageRequestTimeout, h, if_neg early]

/-- From the Settle phase of its last tick on it is. -/
theorem exec_pageRequestTimeout_due (h : s.xlat.groups.find? (fun x => x.index == g) = some r)
    (hd : r.dueTick < s.tick.count ∨ (r.dueTick = s.tick.count ∧ s.tick.phase = 2)) :
    exec (.pageRequestTimeout g) s = .next ((s.dropGroup g).endFaults (fun f => f.group == some g) 3) := by
  simp only [exec, execPageRequestTimeout, h, if_pos hd]

theorem exec_priRestart_halted (h : s.mboxRuns 0x401 []) (hh : s.xlat.halted = true) :
    exec .priRestart s = .next (({ s with xlat := { s.xlat with restart := true } } : State).mboxOk []) :=
  (exec_eq_of_mailbox (o := exec .priRestart s) rfl h rfl rfl).trans (congrArg _ (if_pos hh))

theorem exec_priRestart_running (h : s.mboxRuns 0x401 []) (hh : s.xlat.halted = false) :
    exec .priRestart s = .next (s.mboxEnd 4 []) :=
  (exec_eq_of_mailbox (o := exec .priRestart s) rfl h rfl rfl).trans (congrArg _ (if_neg (by simp [hh])))

end

/-- Settles O40: an answer drops its group and turns its faults into requests, or, where there are none, into nothing; PRI_RESTART only
notes the restart. -/
theorem pageRequestsEnd : Obligations.PageRequestsEnd := by
  refine ⟨?unknown, ?success, ?failure, ?early, ?due, ?restart, ?running⟩
  case unknown =>
    intro s pasid g code h
    exact ⟨_, exec_pageRequestResponse_none h code, State.postOnce_unchanged ..⟩
  case success =>
    intro s pasid g r h
    refine ⟨_, exec_pageRequestResponse_success h, fun x => ?_, fun x => State.mem_retranslate_faults x,
      fun x hx hg => State.retranslate_request (s := s.dropGroup g) hx hg,
      ((State.dropGroup_unchanged s g).mono (by simp)).trans (State.retranslate_unchanged ..)⟩
    rw [State.retranslate_groups, State.mem_dropGroup_groups]
  case failure =>
    intro s pasid g r h hf
    refine ⟨_, exec_pageRequestResponse_failure h, ?_⟩
    rw [State.haltPri_none (s := s.dropGroup g) hf]
    exact ⟨rfl, rfl, (unchangedBut_withXlat ..).append (State.post_unchanged ..)⟩
  case early => exact fun s g r h hd => exec_pageRequestTimeout_early h hd
  case due =>
    intro s g r h hd hp hf
    refine ⟨_, exec_pageRequestTimeout_due h (.inr ⟨hd, hp⟩), ?_⟩
    rw [State.endFaults_none (s := s.dropGroup g) hf]
    exact ⟨State.mem_dropGroup_groups, State.dropGroup_unchanged s g⟩
  case restart =>
    intro s h hh
    exact ⟨_, exec_priRestart_halted h hh, rfl, ⟨rfl, rfl⟩, (unchangedBut_withXlat ..).append (State.mboxEnd_unchanged ..)⟩
  case running =>
    intro s h hh
    exact ⟨_, exec_priRestart_running h hh, ⟨rfl, rfl⟩, State.mboxEnd_unchanged ..⟩

end Sys2Proof.Machine
end
